-- ==== Sys2Proof/Word.lean ====
section
/-! DEFINITION. The word types of the model and the exact numeric value that an engine holds for an element
(03_formats R77: a finite value is (-1)^S x m x 2^e, held exactly). -/

namespace Sys2Proof

/-- A byte. -/
abbrev Byte := BitVec 8
/-- A string of bytes, first byte first. -/
abbrev Bytes := List Byte
/-- A 32-bit word. -/
abbrev W32 := BitVec 32
/-- A 64-bit word. -/
abbrev W64 := BitVec 64
/-- A device identifier (12_links R351). -/
abbrev DevId := BitVec 64

/-- An exact value: NaN, an infinity, or sign, magnitude m and exponent e of m x 2^e; m = 0 is a signed zero. -/
inductive FVal where
  | nan
  | inf (s : Bool)
  | fin (s : Bool) (m : Nat) (e : Int)
  deriving DecidableEq, Repr, Inhabited

/-- A GHASH digest with its poison mark (05_vector_optimizer R158 R159). -/
structure Dig where
  val : BitVec 128
  poison : Bool
  deriving DecidableEq, Repr

/-- A finite map from numbers, as pairs in strictly rising order of the number; a number that is not listed has the
default value of its use, and no pair holds that default. -/
abbrev AMap (α : Type) := List (Nat × α)

end Sys2Proof
end

