-- ==== Sys2Proof/Syntax.lean ====
section
/-! DEFINITION. The commands of the block: one constructor of Instr for each row of spec/opcode_table.json, with the
row's operands. What reaches the device from outside (a message, a reading, a peer's answer, a physical finding) is an
operand; what the device holds is in its state. -/

namespace Sys2Proof

/-- A mailbox slot, 0 to 63 (02_binder, Mailbox slots). -/
abbrev SlotId := Fin 64
/-- A link port, 0 to 11 (00_scope R4). -/
abbrev Port := Fin 12
/-- An engine instance in ISSUE order (13_collation Table 13-3). -/
abbrev EngId := Fin 44
/-- A quire (00_scope R4). -/
abbrev Quire := Fin 4
/-- A physical folio (00_scope R4). -/
abbrev Phys := Fin 12

/-- Who makes a register or slot access (02_binder R45). -/
inductive Agent where
  | host
  | peer (p : Port)
  | guard
  deriving DecidableEq, Repr

/-- A mailbox: a Binder slot or the Guard mailbox (16_guard R479). -/
inductive Mbox where
  | slot (n : SlotId)
  | guard
  deriving DecidableEq, Repr

/-- The source of a Guard request (16_guard R480): the Guard mailbox, a management session, or the I3C target. A message of the last two
carries its TAG. -/
inductive Src where
  | mailbox
  | mgmt (session : Nat) (tag : W32)
  | i3c (tag : W32)
  deriving DecidableEq, Repr

/-- What the memory system meets while a command runs (09_memory R271 R272): on a sheet, by its address, or on a channel
numbered as in 15_faults R449. -/
inductive MemEvent where
  | corrected (addr : Nat)
  | uncorrectable (addr : Nat)
  | crc (channel : Nat) (fails : Nat)
  /-- An uncorrectable staging error in the line that a quire's cache holds of a sheet (09_memory R259). -/
  | staging (q : Quire) (sheet : Nat)
  deriving DecidableEq, Repr

/-- One device's entry of a collation round (13_collation R393). -/
structure RoundEntry where
  index : Nat
  recto : Dig
  verso : Dig
  flags : BitVec 16
  deriving DecidableEq, Repr

/-- A tensor observation carried by a barrier message (10_numerics R292). -/
structure Obs where
  idx : Nat
  code : Nat
  ovf : Bool
  deriving DecidableEq, Repr

/-- A barrier message (11_time R330, 13_collation R393). -/
structure BarrierMsg where
  setId : W64
  step : Nat
  round : Nat
  entries : List RoundEntry
  obs : List Obs
  failed : Bool
  missing : BitVec 12
  /-- The message verifies under the session or traffic key (12_links R362 R363). -/
  authOk : Bool := true
  deriving DecidableEq, Repr

/-- One participant's vote on one recto descriptor (05_vector_optimizer R536). -/
structure VoteEntry where
  dev : Nat
  ordinal : Nat
  nonfinite : Bool
  poison : Bool
  n2 : W32
  deriving DecidableEq, Repr

/-- A vote message, up or down the barrier tree (05_vector_optimizer R536). -/
structure VoteMsg where
  setId : W64
  step : Nat
  down : Bool
  entries : List VoteEntry
  /-- The message verifies under the session or traffic key (12_links R362 R363). -/
  authOk : Bool := true
  deriving DecidableEq, Repr

/-- One device's part of the arm exchange: COL_FACING and the EXP and VALID of its scale-table entries
(10_numerics R295, 13_collation R382). -/
structure ArmEntry where
  index : Nat
  facing : Nat
  scales : List (Byte × Bool)
  deriving DecidableEq, Repr

/-- A timing message (11_time Table 11-2); `reserved` is true when a reserved field is not zero. -/
structure TimingMsg where
  flags : Byte
  reserved : Bool
  seq : W32
  rootId : DevId
  path : BitVec 16
  groupPath : BitVec 16
  tA : W64
  tB : W64
  tC : W64
  mac : BitVec 128
  deriving DecidableEq, Repr

/-- A part of a remote copy (07_movement R207 R217): its destination ranges with their bytes, and the sheets that carry
poison. -/
structure PartMsg where
  resId : W64
  copy : Nat
  part : Nat
  ctx : Nat
  pieces : List (Nat × Bytes)
  poisoned : List Nat
  deriving DecidableEq, Repr

/-- A link token message (06_programs R190), with the TAG of its signalling command (R185 R191). -/
structure TokenMsg where
  resId : W64
  ctx : Nat
  folio : Nat
  index : Nat
  inc : W32
  tag : W32
  deriving DecidableEq, Repr

/-- The declaring message of a remote copy: each part's destination ranges (07_movement R220). -/
structure DeclareMsg where
  resId : W64
  copy : Nat
  ctx : Nat
  parts : List (Nat × List (Nat × Nat))
  deriving DecidableEq, Repr

/-- What a data frame carries. -/
inductive FrameBody where
  | part (m : PartMsg)
  | token (m : TokenMsg)
  | declare (m : DeclareMsg)
  | abandon (resId : W64) (copy : Nat)
  | undefinedType
  deriving DecidableEq, Repr

/-- A data frame (12_links R358 R363 R370): its VC, its reservation, whether its GCM verification passes where the port
encrypts, whether it overruns the credits, and its content. -/
structure Frame where
  vc : Nat
  resId : W64
  authOk : Bool
  overrun : Bool
  body : FrameBody
  deriving DecidableEq, Repr

/-- A peer admission message (12_links R360). -/
inductive AdmMsg where
  | hello (chain : Bytes) (major : Nat) (part : BitVec 16) (port : Nat)
  | keys (ephemeral : Bytes) (challenge : Bytes)
  | signature (sig : Bytes)
  | confirm (mac : Bytes)
  deriving DecidableEq, Repr

/-- Host relay for a group index (12_links R367): an aperture access, or host-copy data for a device address. -/
inductive RelayBody where
  | read (off width : Nat)
  | write (off width : Nat) (v : W64)
  | copyIn (addr : Nat) (data : Bytes)
  | copyOut (addr len : Nat)
  deriving DecidableEq, Repr

/-- What training finds at frame lock (12_links Table 12-3, orders 2 and 3). -/
inductive LockResult where
  | locked
  | noConvergence
  | generationMismatch
  | noLock
  deriving DecidableEq, Repr

/-- What a soak or a second of live traffic measures on a port (12_links R355-R357): the worst lane and its corrected BER as FP32 bits, the
codewords received, their symbol errors, the codewords with 5 or more of them, the most in one codeword, and the uncorrectable ones. -/
structure Soak where
  port : Port
  lane : Nat
  cber : W32
  codewords : Nat
  symErrors : Nat
  over5 : Nat
  maxSym : Nat
  uncorr : Nat
  corrected : Nat
  deriving DecidableEq, Repr

/-- A scrub's finding (09_memory R273). -/
inductive ScrubFinding where
  | clean
  | correctable
  | uncorrectable
  deriving DecidableEq, Repr

/-- A member's answer to CKP_PEER OP 1 (14_checkpoint R425). -/
structure MemberReply where
  index : Nat
  devId : DevId
  highest : Nat
  imageLen : Nat
  winStart : Nat
  winEnd : Nat
  accept : Bool
  resOk : Bool
  fits : Bool
  deriving DecidableEq, Repr

/-- A piece of an old image, as the holder of it answers (14_checkpoint R442); none where it is erased. -/
structure PieceAnswer where
  src : Nat
  piece : Nat
  data : Option Bytes
  deriving DecidableEq, Repr

/-- What a peer's answer to COL_PEER_LOAD gives the requester (13_collation R412 R413): the kind and descriptor ordinal,
whether every part arrived, the bytes of the state's regions in digest-string order, the last collated step, the half
and the last collated digest. -/
structure LoadAnswer where
  kind : Nat
  index : Nat
  /-- The bitmap of parts that miss after the request, then after each reissue (R413). -/
  missing : List W64
  data : Bytes
  step : Nat
  half : Bool
  digest : BitVec 128
  /-- The peer's active folio count, as its SYS_READY gives it. -/
  folios : Nat
  deriving DecidableEq, Repr

/-- A feed item of shadow mode (13_collation R415). -/
inductive FeedItem where
  | control (step : Nat) (off : Nat) (data : Bytes)
  | input (step : Nat) (off : Nat) (data : Bytes)
  | log (step off : Nat) (data : Bytes)
  | vote (step : Nat) (entries : List VoteEntry)
  | digests (step : Nat) (recto verso : Dig)
  deriving DecidableEq, Repr

/-- Sensor and supply readings of a junction report, temperatures in 0.25 degree units; none for a failed sensor
(16_guard R482). -/
structure JReport where
  junction : List (Option Int)
  inlet : Option Int
  outlet : Option Int
  powerW : Nat
  vin10mV : Nat
  deriving DecidableEq, Repr

/-- What bring-up finds (17_physical R509-R511, 16_guard R484 R487): the verifications (of the repair record, the signature), the reference, channels that fail
all three attempts, physical folios, OPEs and RTEs that fail their known-answer runs, and a rail fault before order 5. -/
structure BringUp where
  bankOk : Bool
  otherBankOk : Bool
  identityOk : Bool
  repairSigned : Bool
  refPresent : Bool
  badChannels : List Nat
  stages : List (Nat × BitVec 7)
  railFault : Option Nat
  deriving DecidableEq, Repr

/-- What the known-answer runs of a compute-partition reset find (15_faults Table 15-6, order 6): the physical folios with
failed stages. -/
structure PartitionKat where
  stages : List (Nat × BitVec 7)
  deriving DecidableEq, Repr

/-- Algorithms an SPDM requester offers (16_guard R490). -/
structure SpdmAlgs where
  ecdsaP521 : Bool
  sha512 : Bool
  secp521r1 : Bool
  aes256gcm : Bool
  deriving DecidableEq, Repr

/-- An SPDM request as the Guard reads it (16_guard R490): its kind with the fields that the spec speaks of. -/
inductive SpdmReq where
  | getVersion
  | getCapabilities (version : Byte)
  | negotiate (algs : SpdmAlgs)
  | getDigests
  | getCertificate (slot off len : Nat)
  | challenge (slot : Nat) (nonce : Bytes)
  | getMeasurements (index : Nat) (signed : Bool) (nonce : Bytes)
  deriving DecidableEq, Repr

/-- A loss on a drain piece at its holder's answer (14_checkpoint R435): what CKP_PEER OP 2 returned. -/
inductive PieceAck where
  | matching
  | differs
  | poisoned
  | interrupted
  deriving DecidableEq, Repr

/-- A command: one constructor for each row of spec/opcode_table.json. Each docstring gives the row's rule and summary. -/
inductive Instr where
  /-- R47: The poster writes STATE 0 to 1 in the first header word of a mailbox slot, which commits the post. -/
  | slotPost (who : Agent) (mb : Mbox) (resv : BitVec 6) (upper : Option W32)
  /-- R49: The poster writes STATE 1 to 0; the write either wins against the take or is ignored. -/
  | slotWithdraw (who : Agent) (mb : Mbox) (resv : BitVec 6) (upper : Option W32)
  /-- R47: The poster writes STATE 3 to 0, which returns the slot to FREE. -/
  | slotRelease (who : Agent) (mb : Mbox) (resv : BitVec 6) (upper : Option W32)
  /-- R48: The poster writes a slot header field or payload byte; the write is ignored and counted in VIOL while the slot is POSTED or TAKEN, or when the writer is not permitted for the slot class. -/
  | slotWrite (who : Agent) (mb : Mbox) (off width : Nat) (v : W64)
  /-- R50: The Binder's scan reaches a POSTED slot and takes it, which sets STATE to 2 or refuses it to STATE 3. -/
  | binderTake
  /-- R53: An L command reaches 60 s without completing; the Binder stops it and completes it with TIMEOUT. -/
  | longCommandTimeout (n : SlotId)
  /-- R12: A write to a register that has no row of its own takes effect as its access code states, for example a shadow-image write or a write to a reserved field. -/
  | registerWrite (who : Agent) (off width : Nat) (v : W64) (bar2 : Bool := false)
  /-- R478: A write from outside the Guard to a Guard-owned register has no effect and is logged in record 0x0807. -/
  | guardRegisterWrite (who : Agent) (off width : Nat) (v : W64)
  /-- R43: A host access reaches the aperture of an absent or unreachable group index; a read returns 0, a write is discarded, and record 0x0204 is written. -/
  | absentApertureAccess (index : Fin 16) (off : Nat) (write : Bool)
  /-- R367: An aperture access or host-copy data for another device arrives as host relay on the control channel. -/
  | hostRelay (p : Port) (dest : Nat) (body : RelayBody)
  /-- R63: The command returns the version, part, identity digest, ready state, mode and epoch. -/
  | sysInfo (n : SlotId)
  /-- R513: The command returns the ready state and the first condition that is failing. -/
  | sysReady (n : SlotId)
  /-- R63: The command echoes its payload. -/
  | sysNop (n : SlotId)
  /-- R64: The command opens a context, binds HOST slots and sets the quotas. -/
  | ctxOpen (n : SlotId)
  /-- R61: The command closes a context, unmaps its regions and unbinds its slots. -/
  | ctxClose (n : SlotId)
  /-- R456: The command resets one context through the sequence of Table 15-5. -/
  | ctxReset (n : SlotId)
  /-- R454: The command sets the context's per-command timeout. -/
  | ctxTimeout (n : SlotId)
  /-- R64: The command returns the context's state, pins, schedules, busy engines and last tags. -/
  | ctxStatus (n : SlotId)
  /-- R66: The command snapshots the masked shadow blocks, checks agreement and creates a pending image. -/
  | cfgPress (n : SlotId)
  /-- R68: The command runs the agreement check without creating a pending image. -/
  | cfgCheck (n : SlotId)
  /-- R68: The command copies the active image of the masked blocks into the shadow image. -/
  | cfgRevert (n : SlotId)
  /-- R333: The command loads and checks a schedule image and seals it. -/
  | schLoad (n : SlotId)
  /-- R339: The command computes the floor-rate completion of every phase and admits or refuses the schedule. -/
  | schAdmit (n : SlotId)
  /-- R334: The command arms an admitted schedule for its first launch at stitch time A. -/
  | schArm (n : SlotId)
  /-- R295: The EXP and VALID values and COL_FACING of the group arrive in the arm exchange, which settles the probe step and checks the facing map. -/
  | armExchangeReceive (sched : Nat) (entries : List ArmEntry)
  /-- R335: The command cancels a schedule so that no phase launches after the take. -/
  | schCancel (n : SlotId)
  /-- R335: The command, with FLAGS[0] set, cancels a schedule after the current step's barrier and collation. -/
  | schCancelAtBarrier (n : SlotId)
  /-- R337: The command returns the schedule's state, step, last collated step and slip total. -/
  | schStatus (n : SlotId)
  /-- R346: The command returns the kept slip records. -/
  | schSlips (n : SlotId)
  /-- R278: The command grants a zeroed region of one store to a context. -/
  | memMap (n : SlotId)
  /-- R538: The command unmaps a region and queues it for zeroing. -/
  | memUnmap (n : SlotId)
  /-- R223: The command copies data between host memory and device memory, divided into parts. -/
  | memHostCopy (n : SlotId) (host : Bytes) (poisonedTlp : List Nat) (failedParts : W64) (ev : List MemEvent := [])
  /-- R280: The command lists the poisoned sheets in a range. -/
  | memPoisonScan (n : SlotId)
  /-- R352: The command checks and presses the link blocks, and retrains the ports whose configuration changed. -/
  | lnkPress (n : SlotId)
  /-- R381: The command returns a record of state, peer and counters for each port. -/
  | lnkStatus (n : SlotId)
  /-- R369: LNK_RESERVE with OP 0 installs a list of hop records as a whole. -/
  | lnkReserveInstall (n : SlotId)
  /-- R369: LNK_RESERVE with OP 1 releases a list of hop records as a whole. -/
  | lnkReserveRelease (n : SlotId)
  /-- R356: The command measures the BER of UP ports on live traffic for SOAK milliseconds. -/
  | lnkQualify (n : SlotId)
  /-- R379: The command quarantines the masked ports with REASON 12. -/
  | lnkQuarantine (n : SlotId)
  /-- R379: The command, with the release flag, releases quarantined ports, which then rerun admission. -/
  | lnkQuarantineRelease (n : SlotId)
  /-- R322: The command returns the time state, paths, root, offset, rate and discard counts. -/
  | timStatus (n : SlotId)
  /-- R417: The command returns the collation state of a step. -/
  | colStatus (n : SlotId)
  /-- R402: The command rejoins a pending or escalated step as a group replay, or requests a diagnostic replay. -/
  | colReplay (n : SlotId)
  /-- R402: A requested diagnostic replay runs between collation and the next launch, and its digests are compared with the collated digests. -/
  | diagnosticReplay (sched : Nat)
  /-- R418: The command runs the known-answer kernels on the named logical folios. -/
  | colKat (n : SlotId)
  /-- R413: COL_ADMIT_DEVICE in load mode loads recto, verso, scales and monitor state from the mirrors and verifies the digests. -/
  | colAdmitDeviceLoad (n : SlotId) (answers : List LoadAnswer)
  /-- R415: COL_ADMIT_DEVICE in shadow mode loads the state of a working device and starts its feed. -/
  | colAdmitDeviceShadow (n : SlotId) (answers : List LoadAnswer)
  /-- R412: A peer's request for verso, recto, scale-table or monitor data is answered by pushing the data under a reservation. -/
  | colPeerLoad (n : SlotId) (failed : W64)
  /-- R415: COL_PEER_LOAD with KIND 5 starts the feed of ledger items and digests to a shadow device. -/
  | startShadowFeed (n : SlotId)
  /-- R416: COL_PEER_LOAD with KIND 6 ends the shadow feed. -/
  | endShadowFeed (n : SlotId)
  /-- R415: The shadow device receives a feed item into its alternating ledger halves. -/
  | shadowFeedReceive (p : Port) (resId : W64) (item : FeedItem)
  /-- R415: Once a step's feed is complete, the shadow device replays the step and compares its digests. -/
  | shadowStep (step : Nat)
  /-- R416: The feed's virtual channel has no credit for 1 ms, and the working device ends the feed. -/
  | shadowFeedStall (p : Port)
  /-- R427: The command begins a group checkpoint and returns its ID, slot and cut. -/
  | ckpBegin (n : SlotId) (replies : List MemberReply)
  /-- R445: The command returns the state and progress of a checkpoint. -/
  | ckpStatus (n : SlotId)
  /-- R441: The command fills half A of the update descriptors from the images of an old group, rebuilding erased pieces. -/
  | ckpLoad (n : SlotId) (record : Option Bytes) (pieces : List PieceAnswer)
  /-- R439: The command aborts a checkpoint in state 1–3 and releases its protected pages. -/
  | ckpAbort (n : SlotId)
  /-- R425: CKP_PEER with OP 1 accepts or refuses a checkpoint begin and returns the member's data. -/
  | ckpPeerBegin (n : SlotId) (record : Option Bytes := none)
  /-- R435: CKP_PEER with OP 2 hashes a received piece and returns the hash and a poison flag. -/
  | ckpPeerPieceDone (n : SlotId)
  /-- R436: CKP_PEER with OP 3 records a member's hash list, and the commit record and seal are written once all lists are held. -/
  | ckpPeerHashList (n : SlotId)
  /-- R437: CKP_PEER with OP 4 supplies a commit record. -/
  | ckpPeerRecord (n : SlotId)
  /-- R442: CKP_PEER with OP 5 checks a stored piece against the expected hash and pushes the requested bytes. -/
  | ckpPeerFetch (n : SlotId) (failed : W64)
  /-- R438: CKP_PEER with OP 6 puts the member's checkpoint into FAILED with reason 4. -/
  | ckpPeerAbort (n : SlotId)
  /-- R297: NUM_SCALES with OP 0 returns scale-table entries. -/
  | numScalesRead (n : SlotId)
  /-- R297: NUM_SCALES with OP 1 replaces whole scale-table entries. -/
  | numScalesWrite (n : SlotId)
  /-- R307: The command sets the context's streak limit and underflow threshold. -/
  | numMonitor (n : SlotId)
  /-- R472: The command opens a trace buffer. -/
  | trcStart (n : SlotId)
  /-- R473: The command reads trace records. -/
  | trcRead (n : SlotId)
  /-- R474: The command arms a ticketed fault injection. -/
  | fltInject (n : SlotId)
  /-- R452: The command reads error records from the log. -/
  | fltRecords (n : SlotId)
  /-- R475: A pending injection fires at its trigger, reproduces its fault and writes record 0x0901. -/
  | injectionFire (id : Nat)
  /-- R198: The NOP packet does nothing except record its completion. -/
  | nop (e : EngId)
  /-- R165: The END packet completes after every earlier command of the stream, which ends the stream's phase. -/
  | endPkt (e : EngId)
  /-- R187: The WAIT packet begins a wait on a sync counter reaching THRESH. -/
  | wait (e : EngId)
  /-- R187: The counter reaches THRESH; the WAIT completes and optionally consumes THRESH atomically. -/
  | waitSatisfied (e : EngId)
  /-- R188: The SIGNAL packet adds INC to a local counter, or sends a token message to a peer. -/
  | signal (e : EngId)
  /-- R190: The destination's acknowledgement or refusal of a token message completes the remote SIGNAL. -/
  | remoteSignalAck (e : EngId) (accepted : Bool)
  /-- R190: An arriving token message adds to a counter, or is discarded as malformed or refused. -/
  | tokenMessageReceive (p : Port) (m : TokenMsg)
  /-- R193: The LOOP packet latches its count and enters, skips or halts. -/
  | loop (e : EngId) (ev : List MemEvent := [])
  /-- R193: The ENDLOOP packet advances the iteration index and branches back or falls through. -/
  | endloop (e : EngId)
  /-- R194: The SETREG packet writes a loop-count register. -/
  | setreg (e : EngId)
  /-- R110: The LEAF_LOAD packet fills the back leaf row by row from staging memory or the fold buffer. -/
  | leafLoad (e : EngId) (units : Nat) (ev : List MemEvent := [])
  /-- R114: The STREAM_ROWS packet streams rows through the front leaf, optionally turning the leaf. -/
  | streamRows (e : EngId) (units : Nat) (ev : List MemEvent)
  /-- R139: The VXE operation ADD forms a + b, rounded once. -/
  | add (e : EngId) (units : Nat) (ev : List MemEvent := [])
  /-- R139: The VXE operation SUB forms a − b, rounded once. -/
  | sub (e : EngId) (units : Nat) (ev : List MemEvent := [])
  /-- R92: The VXE operation MUL forms the IEEE product a × b. -/
  | mul (e : EngId) (units : Nat) (ev : List MemEvent := [])
  /-- R139: The VXE operation FMA forms a × b + c, rounded once. -/
  | fma (e : EngId) (units : Nat) (ev : List MemEvent := [])
  /-- R94: The VXE operation MAX forms the elementwise maximum. -/
  | max (e : EngId) (units : Nat) (ev : List MemEvent := [])
  /-- R94: The VXE operation MIN forms the elementwise minimum. -/
  | min (e : EngId) (units : Nat) (ev : List MemEvent := [])
  /-- R139: The VXE operation ABS forms the absolute value, exactly. -/
  | abs (e : EngId) (units : Nat) (ev : List MemEvent := [])
  /-- R139: The VXE operation NEG negates, exactly. -/
  | neg (e : EngId) (units : Nat) (ev : List MemEvent := [])
  /-- R139: The VXE operation CVT converts between formats. -/
  | cvt (e : EngId) (units : Nat) (ev : List MemEvent := [])
  /-- R139: The VXE operation SCALE multiplies by 2^n. -/
  | scale (e : EngId) (units : Nat) (ev : List MemEvent := [])
  /-- R139: The VXE operation SELECT chooses a or b by mask. -/
  | select (e : EngId) (units : Nat) (ev : List MemEvent := [])
  /-- R139: The VXE operation CMP writes a comparison mask. -/
  | cmp (e : EngId) (units : Nat) (ev : List MemEvent := [])
  /-- R140: The VXE operation EXP forms the correctly rounded exponential. -/
  | exp (e : EngId) (units : Nat) (ev : List MemEvent := [])
  /-- R140: The VXE operation LOG forms the correctly rounded logarithm. -/
  | log (e : EngId) (units : Nat) (ev : List MemEvent := [])
  /-- R140: The VXE operation SQRT forms the correctly rounded square root. -/
  | sqrt (e : EngId) (units : Nat) (ev : List MemEvent := [])
  /-- R140: The VXE operation RSQRT forms the correctly rounded reciprocal square root. -/
  | rsqrt (e : EngId) (units : Nat) (ev : List MemEvent := [])
  /-- R140: The VXE operation RECIP forms the correctly rounded reciprocal. -/
  | recip (e : EngId) (units : Nat) (ev : List MemEvent := [])
  /-- R140: The VXE operation DIV forms the correctly rounded quotient. -/
  | div (e : EngId) (units : Nat) (ev : List MemEvent := [])
  /-- R140: The VXE operation TANH forms the correctly rounded hyperbolic tangent. -/
  | tanh (e : EngId) (units : Nat) (ev : List MemEvent := [])
  /-- R140: The VXE operation SIGMOID forms the correctly rounded sigmoid. -/
  | sigmoid (e : EngId) (units : Nat) (ev : List MemEvent := [])
  /-- R140: The VXE operation ERF forms the correctly rounded error function. -/
  | erf (e : EngId) (units : Nat) (ev : List MemEvent := [])
  /-- R139: The composite VXE operation GELU. -/
  | gelu (e : EngId) (units : Nat) (ev : List MemEvent := [])
  /-- R139: The composite VXE operation SILU. -/
  | silu (e : EngId) (units : Nat) (ev : List MemEvent := [])
  /-- R141: The VXE row operation RSUM forms the sum of each row. -/
  | rsum (e : EngId) (units : Nat) (ev : List MemEvent := [])
  /-- R141: The VXE row operation RSUMSQ forms the sum of squares of each row. -/
  | rsumsq (e : EngId) (units : Nat) (ev : List MemEvent := [])
  /-- R141: The VXE row operation RMAX forms the maximum of each row. -/
  | rmax (e : EngId) (units : Nat) (ev : List MemEvent := [])
  /-- R141: The VXE row operation RMIN forms the minimum of each row. -/
  | rmin (e : EngId) (units : Nat) (ev : List MemEvent := [])
  /-- R141: The VXE row operation RAMAX forms the absolute maximum of each row. -/
  | ramax (e : EngId) (units : Nat) (ev : List MemEvent := [])
  /-- R141: The VXE row operation RDOT forms the dot product of each pair of rows. -/
  | rdot (e : EngId) (units : Nat) (ev : List MemEvent := [])
  /-- R144: The VXE row operation SOFTMAX. -/
  | softmax (e : EngId) (units : Nat) (ev : List MemEvent := [])
  /-- R142: The VXE row operation SOFTMAX_BWD, the softmax backward. -/
  | softmaxBwd (e : EngId) (units : Nat) (ev : List MemEvent := [])
  /-- R142: The VXE row operation LNORM, layer normalisation. -/
  | lnorm (e : EngId) (units : Nat) (ev : List MemEvent := [])
  /-- R142: The VXE row operation RMSNORM, RMS normalisation. -/
  | rmsnorm (e : EngId) (units : Nat) (ev : List MemEvent := [])
  /-- R143: The VXE row operation LNORM_BWD, the layer-norm backward with column sums. -/
  | lnormBwd (e : EngId) (units : Nat) (ev : List MemEvent := [])
  /-- R143: The VXE row operation RMSNORM_BWD, the RMS-norm backward with column sums. -/
  | rmsnormBwd (e : EngId) (units : Nat) (ev : List MemEvent := [])
  /-- R147: The VXE operation CSUM forms column sums over rows. -/
  | csum (e : EngId) (units : Nat) (ev : List MemEvent := [])
  /-- R148: The VXE operation RFOLD folds U gradient buffers in ascending use index. -/
  | rfold (e : EngId) (units : Nat) (ev : List MemEvent := [])
  /-- R205: The COPY packet makes a tensor copy with conversion, locally or to a peer. -/
  | copy (e : EngId) (units : Nat) (ev : List MemEvent)
  /-- R210: The COPY_LIST packet makes a copy driven by a block list or a row list. -/
  | copyList (e : EngId) (units : Nat) (ev : List MemEvent := [])
  /-- R213: The TIP packet moves up to 512 bytes on the tip-in path. -/
  | tip (e : EngId) (units : Nat) (ev : List MemEvent := [])
  /-- R151: The UPDATE packet scans the gradient, casts the vote and, once the vote decides, updates and hashes its share. -/
  | update (e : EngId) (units : Nat) (ev : List MemEvent := [])
  /-- R231: The ROUTE packet builds the expert row lists and counts from router scores. -/
  | route (e : EngId) (units : Nat) (ev : List MemEvent := [])
  /-- R182: An engine command that took time finishes and writes its completion record, SIG_EN and trace records in stream order. -/
  | engineCommandComplete (e : EngId) (pos : Nat) (ev : List MemEvent := [])
  /-- R199: An engine command reaches the context timeout, and the Binder sends its engine a stop. -/
  | commandTimeout (e : EngId)
  /-- R453: The engine acknowledges a stop and completes the command with TIMEOUT. -/
  | stopAcknowledge (e : EngId)
  /-- R453: An engine leaves a stop unanswered for 10 ms; record 0x0403 is written and a compute-partition reset is requested. -/
  | unitWedged (e : EngId)
  /-- R207: A remote part arrives, is checked against the open regions, written or refused, acknowledged and logged. -/
  | dataPartReceive (p : Port) (m : PartMsg)
  /-- R220: The receiver gets the declaring message of a remote copy and records every part's range. -/
  | remoteCopyDeclare (p : Port) (m : DeclareMsg)
  /-- R217: The receiver's acknowledgement of a remote part sets the sender's bitmap bit. -/
  | partAcknowledge (copy part : Nat) (accepted : Bool)
  /-- R220: The sender abandons a remote copy, and the receiver marks the incomplete parts as poisoned. -/
  | copyAbandon (p : Port) (resId : W64) (copy : Nat)
  /-- R275: A channel's count stays at or below 64 for 60 s and the warning clears. -/
  | correctedErrorWarningClear (channel : Nat)
  /-- R273: The patrol scrub reads a tier sheet, rewrites correctable codewords and marks uncorrectable ones. -/
  | patrolScrub (addr : Nat) (found : ScrubFinding)
  /-- R273: The once-per-second staging scrub reads staging words. -/
  | stagingScrub (q : Quire) (addr : Option Nat) (found : ScrubFinding)
  /-- R279: The Binder zeroes unmapped space in the background. -/
  | regionZeroing
  /-- R266: The stack reports its sensors every 50 µs; the Guard updates T_s, the throttle cap and the operating point. -/
  | stackSensorReport (readings : List (Option Int))
  /-- R266: T_s stays 2 °C below a band for 1 ms and the cap rises one band. -/
  | throttleBandRaise
  /-- R266: After each 1 ms above 95 °C the cap is lowered by 8/64. -/
  | throttleStepDown
  /-- R20: Junction sensor and input-power readings drive the operating-point choice. -/
  | junctionSensorReport (r : JReport)
  /-- R20: A higher point's conditions hold with a 3 °C margin for 10 ms and the Guard returns to it. -/
  | operatingPointReturn
  /-- R22: A 25 mV supply step completes within 20 µs and the next one begins. -/
  | voltageStep
  /-- R499: Temperatures stay above the stall limits for 10 ms at 0.55 V and the Guard applies the thermal stall. -/
  | thermalStall
  /-- R500: Every 10 ms the Guard recomputes the coolant-demand PWM duty. -/
  | coolantDemand (powerW : Nat)
  /-- R455: The Binder reports to the Guard that it is alive. -/
  | binderAlive
  /-- R455: No alive report for 100 ms; the Guard writes record 0x0802 and resets the Binder. -/
  | binderWatchdog
  /-- R327: At a granule where the launch conditions hold, the time base launches a phase's streams. -/
  | phaseLaunch (sched phase : Nat)
  /-- R326: A background entry's window opens, for known-answer kernels, the fast copy or the drain. -/
  | backgroundWindow (sched entry : Nat)
  /-- R469: A known-answer run on a physical folio completes, and its stage hashes are compared with the answer set. -/
  | knownAnswerRun (p : Phys) (failed : BitVec 5) (quireFailed : BitVec 2)
  /-- R330: Once its learning phases and children are done, the device sends its up message to PARENT. -/
  | barrierUpSend (sched : Nat)
  /-- R330: An up message from a child arrives; the root folds it and sends the down message. -/
  | barrierUpReceive (p : Port) (m : BarrierMsg)
  /-- R330: The down message completes the barrier at the device and gives the collation round's outcome. -/
  | barrierDownReceive (p : Port) (m : BarrierMsg)
  /-- R536: A vote message arrives; when the group vote is complete the OPEs update, skip or withhold. -/
  | voteReceive (p : Port) (m : VoteMsg)
  /-- R331: The barrier is not complete by S_n + B + BARRIER_LIMIT and the schedule is HELD. -/
  | barrierLimitExpiry (sched : Nat)
  /-- R397: At replay start R a local or group replay launches its learning phases. -/
  | replayStart (sched : Nat)
  /-- R397: A logged item is injected once earlier items are applied and the issue counts are reached. -/
  | logItemInject (sched : Nat)
  /-- R315: Every 1 µs a port sends SYNC. -/
  | syncExchangeStart (p : Port)
  /-- R315: A SYNC arrives and the peer returns REPLY with t1, t2 and t3. -/
  | syncReceive (p : Port) (m : TimingMsg)
  /-- R317: A REPLY completes the exchange; the sample is filtered and may steer the counter. -/
  | replyReceive (p : Port) (m : TimingMsg)
  /-- R321: No sample for 20 µs and the device enters HOLDOVER. -/
  | holdoverEntry
  /-- R321: HOLDOVER lasts 2 ms and the device enters UNLOCKED. -/
  | unlockedEntry
  /-- R319: A port barred or treated as unusable for time ends its 1 s bar. -/
  | portBarExpiry (p : Port)
  /-- R319: While a root conflict persists the device reports it to the Guard once per second. -/
  | rootConflictReport
  /-- R320: A PPS rising edge is accepted or rejected by the machine root. -/
  | ppsEdge (ref10m : Int := 0)
  /-- R320: 2 s pass without an edge and the root enters ROOT_FREE. -/
  | ppsLoss
  /-- R354: A DOWN port starts training again after 1 s. -/
  | trainingRetry (p : Port)
  /-- R354: Signal appears on a port's lanes and equalisation and lock proceed. -/
  | signalDetect (p : Port)
  /-- R360: An admission message (chain, key, challenge, signature or MAC) arrives and admission advances, admits or fails. -/
  | peerAdmissionMessage (p : Port) (m : AdmMsg)
  /-- R355: The 2 s soak ends and the port goes UP or DOWN. -/
  | qualificationSoakEnd (k : Soak)
  /-- R370: A data frame arrives and is forwarded, delivered, refused under hold, or discarded as malformed. -/
  | dataFrameReceive (p : Port) (f : Frame)
  /-- R358: A replay request is answered by resending the frame. -/
  | frameReplay (p : Port) (seq : Nat)
  /-- R358: Eight failed replays or loss of frame lock start a fast retrain. -/
  | fastRetrain (p : Port)
  /-- R358: A fast retrain succeeds within 2 ms, or fails and the port goes DOWN. -/
  | retrainComplete (p : Port) (ok : Bool)
  /-- R359: Loss of signal on a lane makes the port down, reported within 1 µs. -/
  | lossOfSignal (p : Port)
  /-- R359: A route-closed message arrives and the route is treated as down. -/
  | routeClosed (p : Port) (resId : W64)
  /-- R357: The corrected BER over 1 s exceeds 1e-5, or a codeword is uncorrectable, and a link warning is raised. -/
  | linkWarning (k : Soak)
  /-- R357: 60 s of low BER clears the link warning. -/
  | linkWarningClear (p : Port)
  /-- R377: A VC with queued frames receives no credit for 50 ms and the port is quarantined. -/
  | vcCreditStall (p : Port) (vc : Nat)
  /-- R363: After 2^40 frames or 1 hour, the session and traffic keys are renewed. -/
  | keyRenewal (p : Port)
  /-- R45: A peer Binder's write to a PEER slot arrives over the control channel. -/
  | peerMailboxPost (p : Port) (n : SlotId) (off width : Nat) (v : W64)
  /-- R520: A rise of HOST_PERST_N starts host-port training. -/
  | hostPerstRise (second : Bool)
  /-- R520: A fall of HOST_PERST_N returns the host port to training. -/
  | hostPerstFall (second : Bool)
  /-- R366: Port 0 goes down and standby port 1 becomes active within 10 ms. -/
  | hostPortFailover
  /-- R428: The checkpoint fast copy advances the copy frontier in its windows. -/
  | fastCopy (sheets : Nat)
  /-- R429: A write to a protected page is held until the page is copied into the copy area, then released. -/
  | heldWrite
  /-- R435: The drain sends a checkpoint piece to its holder within the KIND 3 windows. -/
  | drain (piece : Nat) (ack : PieceAck)
  /-- R439: A checkpoint not committed within CKP_LIMIT enters FAILED with reason 3. -/
  | ckpLimitExpiry (id : Nat)
  /-- R451: The Guard sends a written error record to the management network. -/
  | recordSend
  /-- R493: Unacknowledged records are repeated every 100 ms. -/
  | recordRepeat
  /-- R493: The collector acknowledges records by SEQ. -/
  | collectorAck (seq : Nat)
  /-- R447: Every 10 s the Guard writes summary records of class 1 counts. -/
  | summaryRecord
  /-- R491: A management session ends after 60 s without a message. -/
  | sessionTimeout (session : Nat)
  /-- R479: The Guard takes a posted Guard mailbox request within 100 µs. -/
  | guardTake
  /-- R482: Request 0x01 reads log records by SEQ. -/
  | logRead (src : Src) (data : Bytes)
  /-- R465: Request 0x02 reads a crash-dump slot. -/
  | crashDumpRead (src : Src) (data : Bytes)
  /-- R482: Request 0x03 returns temperatures, power and every sensor. -/
  | sensorRead (src : Src) (data : Bytes)
  /-- R501: Request 0x04 with TARGET 1 begins entry to NAP. -/
  | powerStateChangeNap (src : Src) (data : Bytes)
  /-- R501: Request 0x04 with TARGET 2 begins entry to HOLD. -/
  | powerStateChangeHold (src : Src) (data : Bytes)
  /-- R503: Request 0x04 with TARGET 0 wakes the device. -/
  | powerStateChangeRun (src : Src) (data : Bytes) (k : PartitionKat)
  /-- R501: Once no launched phase is in progress, the device gates units and enters NAP or HOLD. -/
  | powerStateEntry
  /-- R501: Entry lasts over 1 s; the request completes with TIMEOUT and the device stays in RUN. -/
  | powerStateEntryTimeout
  /-- R503: WAKE_AFTER expires and the device wakes. -/
  | wakeAfterExpiry (k : PartitionKat)
  /-- R460: Request 0x05, or the watchdog, restarts the Binder from its verified image. -/
  | binderReset (src : Src) (data : Bytes) (k : PartitionKat)
  /-- R459: Request 0x06 resets everything outside the Guard and runs bring-up. -/
  | fullDeviceReset (src : Src) (data : Bytes) (b : BringUp)
  /-- R463: Request 0x06 with RETURN clears the reset count and performs a full device reset of a removed device. -/
  | returnToService (src : Src) (data : Bytes) (b : BringUp)
  /-- R380: Request 0x07 places ports under link hold. -/
  | linkHoldSet (src : Src) (data : Bytes)
  /-- R380: Request 0x07 with the release flag releases link hold. -/
  | linkHoldRelease (src : Src) (data : Bytes)
  /-- R482: Request 0x08 carries one SPDM request and returns its response. -/
  | attestation (src : Src) (data : Bytes)
  /-- R490: The SPDM GET_VERSION request. -/
  | getVersion (src : Src)
  /-- R490: The SPDM GET_CAPABILITIES request. -/
  | getCapabilities (src : Src) (version : Byte)
  /-- R490: The SPDM NEGOTIATE_ALGORITHMS request. -/
  | negotiateAlgorithms (src : Src) (algs : SpdmAlgs)
  /-- R490: The SPDM GET_DIGESTS request. -/
  | getDigests (src : Src)
  /-- R490: The SPDM GET_CERTIFICATE request. -/
  | getCertificate (src : Src) (slot off len : Nat)
  /-- R490: The SPDM CHALLENGE request. -/
  | challenge (src : Src) (slot : Nat) (nonce : Bytes)
  /-- R489: The SPDM GET_MEASUREMENTS request returns signed measurements. -/
  | getMeasurements (src : Src) (index : Nat) (signed : Bool) (nonce : Bytes)
  /-- R491: The SPDM KEY_EXCHANGE request opens a secured session. -/
  | keyExchange (src : Src) (session : Nat) (exchange : Bytes) (mutAuth : Bool)
  /-- R491: The SPDM FINISH request completes session establishment. -/
  | finish (session : Nat) (chain sig : Bytes) (verifyOk : Bool)
  /-- R491: The SPDM HEARTBEAT request keeps a session open. -/
  | heartbeat (session : Nat)
  /-- R491: The SPDM KEY_UPDATE request renews the session keys. -/
  | keyUpdate (session : Nat)
  /-- R491: The SPDM END_SESSION request ends a session. -/
  | endSession (session : Nat)
  /-- R490: The SPDM CHUNK_SEND request. -/
  | chunkSend (src : Src) (handle seq : Nat) (last : Bool) (chunk : Bytes)
  /-- R490: The SPDM CHUNK_GET request. -/
  | chunkGet (src : Src) (handle seq : Nat)
  /-- R483: The Guard request sets GRD_LIMIT within the owner's bounds. -/
  | setLimit (src : Src) (data : Bytes)
  /-- R483: The Guard request sets GRD_BOUND and lowers GRD_LIMIT if needed. -/
  | setBound (src : Src) (data : Bytes)
  /-- R462: The Guard request sets RESET_LIMIT and RESET_WINDOW. -/
  | setResetPolicy (src : Src) (data : Bytes)
  /-- R450: The Guard request clears the error log. -/
  | clearLog (src : Src) (data : Bytes)
  /-- R495: The Guard request installs a link key into a slot. -/
  | keyInstall (src : Src) (data : Bytes)
  /-- R495: The Guard request erases a link key slot. -/
  | keyErase (src : Src) (data : Bytes)
  /-- R496: The Guard request issues a signed fault-injection ticket. -/
  | issueTicket (src : Src) (data : Bytes)
  /-- R488: The Guard request writes bundle data into the inactive flash bank and verifies a complete bundle. -/
  | fwStage (src : Src) (data : Bytes)
  /-- R486: The Guard request returns GRD_FW and the staged verification result. -/
  | fwStatus (src : Src) (data : Bytes)
  /-- R539: The Guard request writes a signed owner record. -/
  | takeOwner (src : Src) (data : Bytes)
  /-- R492: The Guard request erases the owner record. -/
  | releaseOwner (src : Src) (data : Bytes)
  /-- R493: The Guard request sets the collector address and the UDP ports. -/
  | mgmtConfig (src : Src) (data : Bytes)
  /-- R481: The Guard request relays a Serloth command into an MGMT slot and returns its response. -/
  | mgmtPost (src : Src) (data : Bytes)
  /-- R481: MGMT_POST with CMD 0 fetches the rest of a held response and releases the slot. -/
  | mgmtPostFetch (src : Src) (data : Bytes)
  /-- R458: A compute-partition reset rebuilds the engines with links held and tiers kept. -/
  | computePartitionReset (k : PartitionKat)
  /-- R506: The 48 V input rises above 38 V; the Guard island powers up and bring-up starts. -/
  | powerUp (b : BringUp)
  /-- R512: The last waiting failure clears and the device becomes READY, writing record 0x0805. -/
  | readinessChange
  /-- R512: A waiting failure still holds at B0 + 10.5 s and the device enters NOT_READY. -/
  | bringUpDeadline
  /-- R506: The input falls below 36 V and the Guard island and all contents are lost. -/
  | powerLoss
  /-- R528: The input stays below 40 V for 50 µs, or the regulator faults, and the emergency point is entered. -/
  | supplyFault (rail : Nat)
  /-- R528: The input rises above 62 V; rails are removed and record 0x0702 is written. -/
  | overvoltage
  /-- R531: A sensor reaches the cutoff and the regulator removes the rails within 1 ms. -/
  | thermalCutoff
  /-- R531: Both readings fall below 95 °C and the Guard begins a held full device reset. -/
  | cutoffCooldown (b : BringUp)
  /-- R525: The link reference stops or deviates for 10 µs; tiers self-refresh, the stall applies and ports go down. -/
  | referenceLoss (ppm : Option Int)
  /-- R525: The reference is in tolerance for 100 ms and the Guard performs a compute-partition reset. -/
  | referenceRestored (k : PartitionKat)
  /-- R521: The JTAG instruction BYPASS. -/
  | bypass
  /-- R521: The JTAG instruction IDCODE reads 0x1051_2A6B. -/
  | idcode
  /-- R521: The JTAG instruction SAMPLE/PRELOAD. -/
  | samplePreload
  /-- R521: The JTAG instruction EXTEST, effective only in NOT_READY or REMOVED. -/
  | extest
  /-- R521: The JTAG instruction CLAMP, effective only in NOT_READY or REMOVED. -/
  | clamp
  /-- R521: The JTAG instruction HIGHZ, effective only in NOT_READY or REMOVED. -/
  | highz
  /-- R354: On a training port, equalisation converges, the lanes are deskewed, FEC and frame lock are reached and the generations are exchanged, so peer admission begins; otherwise the port goes DOWN with REASON 2, 3 or 4. -/
  | frameLock (p : Port) (r : LockResult)
  /-- R354: A training port on which some lane still has no signal 1 s after training started goes DOWN with REASON 1 and reports the lane. -/
  | noSignal (p : Port) (lane : Nat)
  /-- R520: PCIe training of a HOST-role port completes within 100 ms, and the port reaches HOST_UP, or HOST_STANDBY for port 1. -/
  | hostLinkUp (p : Port)
  /-- R356: The SOAK period of LNK_QUALIFY on live traffic ends; the per-port records are formed, a failed soak raises a link warning, and the command completes. -/
  | liveSoakEnd (n : SlotId) (soaks : List Soak)
  /-- R481: TIMEOUT_MS elapses before the relayed MGMT slot reaches DONE; the Guard withdraws the post if it is still POSTED and completes the request with TIMEOUT. -/
  | mgmtPostTimeout (src : Src)
  deriving DecidableEq, Repr

end Sys2Proof
end

