-- ==== Sys2Proof/Decode.lean ====
section
/-! DEFINITION. Commands that a word spells by the opcode table's bits. The table gives no row any bits: a command reaches
the device as register accesses, messages and events, so no word spells one. -/

namespace Sys2Proof

/-- The rows of the table that give bits: their length in bits, the word and the command. There are none. -/
def bitRows : List (Nat × Nat × Instr) := []

/-- The command that a word of the table spells. -/
def decodeTableWord (nbits w : Nat) : Option Instr :=
  (bitRows.find? fun r => r.1 = nbits && r.2.1 = w).map fun r => r.2.2

end Sys2Proof
end

