-- ==== Sys2Proof/Machine/Map.lean ====
section
/-! DEFINITION. Finite maps in canonical form, byte strings in little-endian order, and list helpers. -/

namespace Sys2Proof

/-- The value at a number: the listed one, or the default of the map's use. -/
def AMap.get {α : Type} (d : Nat → α) : AMap α → Nat → α
  | [], a => d a
  | (k, v) :: m, a => if k = a then v else if a < k then d a else AMap.get d m a

/-- Puts a pair in its place and drops the pair it replaces. -/
def AMap.put {α : Type} : AMap α → Nat → α → AMap α
  | [], a, v => [(a, v)]
  | (k, w) :: m, a, v =>
    if k = a then (a, v) :: m else if a < k then (a, v) :: (k, w) :: m else (k, w) :: AMap.put m a v

/-- Removes the pair of a number. -/
def AMap.del {α : Type} : AMap α → Nat → AMap α
  | [], _ => []
  | (k, w) :: m, a => if k = a then m else if a < k then (k, w) :: m else (k, w) :: AMap.del m a

/-- Writes a value and keeps the canonical form: writing the default removes the pair. -/
def AMap.set {α : Type} [DecidableEq α] (d : Nat → α) (m : AMap α) (a : Nat) (v : α) : AMap α :=
  if v = d a then AMap.del m a else AMap.put m a v

/-- The canonical form: numbers strictly rising from `lo`, and no pair at its default. -/
def AMap.wfFrom {α : Type} [DecidableEq α] (d : Nat → α) : Nat → AMap α → Bool
  | _, [] => true
  | lo, (k, v) :: m => decide (lo ≤ k) && decide (v ≠ d k) && AMap.wfFrom d (k + 1) m

/-- The canonical form of a map. -/
def AMap.wf {α : Type} [DecidableEq α] (d : Nat → α) (m : AMap α) : Bool := AMap.wfFrom d 0 m

/-- Drops every pair whose number the predicate names. -/
def AMap.drop {α : Type} (m : AMap α) (p : Nat → Bool) : AMap α := m.filter fun kv => !p kv.1

namespace Machine

/-- The default of a map of bytes, marks, words and the like. -/
def zeroB : Nat → Byte := fun _ => 0
def noMark : Nat → Bool := fun _ => false
def zero32 : Nat → W32 := fun _ => 0
def zeroN : Nat → Nat := fun _ => 0

/-- The first n bytes of a number, least significant first (00_scope R9). -/
def le : Nat → Nat → Bytes
  | 0, _ => []
  | n + 1, v => BitVec.ofNat 8 v :: le n (v / 256)

/-- The number that bytes spell, least significant first. -/
def unle : Bytes → Nat
  | [] => 0
  | b :: bs => b.toNat + 256 * unle bs

/-- The field of n bytes at an offset; bytes beyond the end read as 0. -/
def fld (b : Bytes) (off n : Nat) : Nat := unle ((b.drop off).take n)

/-- The n bytes at an offset, padded with 0. -/
def sub (b : Bytes) (off n : Nat) : Bytes :=
  let x := (b.drop off).take n
  x ++ List.replicate (n - x.length) 0

/-- Whether every byte of a range is 0; a byte beyond the end counts as 0. -/
def allZero (b : Bytes) (off n : Nat) : Bool := ((b.drop off).take n).all (· = 0)

/-- A field of a number: n bits from bit lo. -/
def bits (v lo n : Nat) : Nat := v / 2 ^ lo % 2 ^ n

/-- One bit of a number. -/
def bit (v i : Nat) : Bool := v.testBit i

/-- A number read as a two's complement integer of n bits. -/
def sgn (n v : Nat) : Int := if v % 2 ^ n < 2 ^ (n - 1) then (v % 2 ^ n : Nat) else (v % 2 ^ n : Nat) - (2 ^ n : Int)

/-- An integer as a two's complement number of n bits. -/
def unsgn (n : Nat) (v : Int) : Nat := (v % (2 ^ n : Int)).toNat

/-- The quotient rounded up. -/
def ceilDiv (a b : Nat) : Nat := (a + b - 1) / b

/-- Padding with zero bytes to a multiple of n. -/
def padTo (n : Nat) (b : Bytes) : Bytes := b ++ List.replicate (ceilDiv b.length n * n - b.length) 0

/-- The bytes of a range of a byte map whose default is 0. -/
def rdMap (m : AMap Byte) (a : Nat) : Nat → Bytes
  | 0 => []
  | n + 1 => AMap.get zeroB m a :: rdMap m (a + 1) n

/-- Writes bytes into a byte map with a default. -/
def wrMapD (d : Nat → Byte) (m : AMap Byte) (a : Nat) : Bytes → AMap Byte
  | [] => m
  | b :: bs => wrMapD d (AMap.set d m a b) (a + 1) bs

/-- Writes bytes into a byte map whose default is 0. -/
def wrMap (m : AMap Byte) (a : Nat) (b : Bytes) : AMap Byte := wrMapD zeroB m a b

/-- The numbers of the set bits of a mask, ascending, below n. -/
def bitList (mask : Nat) (n : Nat) : List Nat := (List.range n).filter fun i => mask.testBit i

/-- The least number of a list, if any. -/
def minOf : List Nat → Option Nat
  | [] => none
  | x :: xs => some (xs.foldl min x)

/-- Cuts bytes at sheet boundaries: each piece with its address. The first argument bounds the number of pieces. -/
def sheetCut : Nat → Nat → Bytes → List (Nat × Bytes)
  | 0, _, _ => []
  | _, _, [] => []
  | f + 1, a, b :: bs =>
    let n := 1024 - a % 1024
    (a, (b :: bs).take n) :: sheetCut f (a + n) ((b :: bs).drop n)

/-- The bytes cut at sheet boundaries (09_memory R254). -/
def sheetsOf (a : Nat) (d : Bytes) : List (Nat × Bytes) := sheetCut (d.length / 1024 + 2) a d

/-- The sheet numbers that a range of bytes meets. -/
def sheetRange (a n : Nat) : List Nat :=
  if n = 0 then [] else (List.range ((a + n - 1) / 1024 - a / 1024 + 1)).map (· + a / 1024)

/-- Whether a range [a, a + n) lies in [b, b + m). -/
def within (a n b m : Nat) : Bool := decide (b ≤ a) && decide (a + n ≤ b + m)

/-- Whether two ranges meet. -/
def overlaps (a n b m : Nat) : Bool := decide (0 < n) && decide (0 < m) && decide (a < b + m) && decide (b < a + n)

/-- The members of a list, each once, first places kept. -/
def dedup : List Nat → List Nat
  | [] => []
  | x :: xs => x :: (dedup xs).filter (· ≠ x)

/-- A saturating addition to a 32-bit count. -/
def satAdd32 (c : W32) (n : Nat) : W32 := if c.toNat + n < 2 ^ 32 then BitVec.ofNat 32 (c.toNat + n) else 0xFFFFFFFF#32

end Machine
end Sys2Proof
end

