-- ==== Sys2Proof/Machine/Formats.lean ====
section
/-! DEFINITION. Number formats: the encodings, rounding, conversions, microscaling blocks, integer narrowing, exact arithmetic
and the arithmetic flags (03_formats R75-R95 R104). Values are exact (FVal); a result is rounded once. -/

namespace Sys2Proof.Machine

/-! ## Format codes (Table 03-1) -/

def fFP32 : Nat := 0
def fBF16 : Nat := 1
def fINT8 : Nat := 5
def fINT32 : Nat := 11

/-- A defined format code. -/
def fmtOk (f : Nat) : Bool := decide (f ≤ 11)
/-- A microscaling format. -/
def isMX (f : Nat) : Bool := decide (6 ≤ f) && decide (f ≤ 10)
def isInt (f : Nat) : Bool := f = 5 || f = 11
/-- A floating-point format, MX formats among them. -/
def isFloat (f : Nat) : Bool := fmtOk f && !isInt f

/-- Bits of one element (Table 03-1). -/
def elemBits (f : Nat) : Nat :=
  match f with
  | 0 | 11 => 32
  | 1 | 2 => 16
  | 8 | 9 => 6
  | 10 => 4
  | _ => 8

/-- Bytes of a row of elements (R82). -/
def rowBytes (f cols : Nat) : Nat := ceilDiv (cols * elemBits f) 8

/-- Exponent bits, fraction bits and bias of a floating-point element (Table 03-2), and whether it has infinities. -/
structure FFmt where
  eb : Nat
  fb : Nat
  bias : Nat
  ieee : Bool
  deriving DecidableEq, Repr

/-- The element type of a format code. -/
def ffmt (f : Nat) : FFmt :=
  match f with
  | 0 => ⟨8, 23, 127, true⟩
  | 1 => ⟨8, 7, 127, true⟩
  | 2 => ⟨5, 10, 15, true⟩
  | 3 | 6 => ⟨4, 3, 7, false⟩
  | 4 | 7 => ⟨5, 2, 15, true⟩
  | 8 => ⟨3, 2, 3, false⟩
  | 9 => ⟨2, 3, 1, false⟩
  | _ => ⟨2, 1, 1, false⟩

/-- The exponent of the greatest finite value: also emax of R84. -/
def FFmt.emax (t : FFmt) : Int := if t.ieee then 2 ^ t.eb - 2 - t.bias else 2 ^ t.eb - 1 - t.bias
/-- The greatest finite value as significand and exponent; E4M3 ends at 448 (R77). -/
def FFmt.maxFin (t : FFmt) : Nat × Int :=
  if t.eb = 4 then (14, t.emax - 3) else (2 ^ (t.fb + 1) - 1, t.emax - t.fb)
/-- The exponent of the least significant bit of a subnormal value. -/
def FFmt.qmin (t : FFmt) : Int := 1 - (t.bias : Int) - t.fb

/-! ## Flags (Table 03-6) -/

def fgNanIn : Nat := 1
def fgInv : Nat := 2
def fgOvf : Nat := 4
def fgUnf : Nat := 8
def fgIsat : Nat := 16
def fgMxNan : Nat := 32

/-! ## Exact values -/

namespace FV

def zero : FVal := .fin false 0 0
def one : FVal := .fin false 1 0
def isNan : FVal → Bool
  | .nan => true
  | _ => false
def isInf : FVal → Bool
  | .inf _ => true
  | _ => false
def isZero : FVal → Bool
  | .fin _ m _ => m = 0
  | _ => false
def sign : FVal → Bool
  | .nan => false
  | .inf s => s
  | .fin s _ _ => s

/-- An integer. -/
def ofInt (v : Int) : FVal := .fin (decide (v < 0)) v.natAbs 0
/-- A signed significand at an exponent; zero is +0. -/
def ofSig (v : Int) (e : Int) : FVal := .fin (decide (v < 0)) v.natAbs e

def neg : FVal → FVal
  | .nan => .nan
  | .inf s => .inf (!s)
  | .fin s m e => .fin (!s) m e
def abs : FVal → FVal
  | .nan => .nan
  | .inf _ => .inf false
  | .fin _ m e => .fin false m e

/-- The signed significand at exponent q, exact for q at or below the value's exponent. -/
def sigAt (s : Bool) (m : Nat) (e q : Int) : Int :=
  let v : Int := m * 2 ^ (e - q).toNat
  if s then -v else v

/-- Exact addition with the signs of R93. -/
def add : FVal → FVal → FVal
  | .nan, _ => .nan
  | _, .nan => .nan
  | .inf s, .inf t => if s = t then .inf s else .nan
  | .inf s, _ => .inf s
  | _, .inf t => .inf t
  | .fin s m e, .fin t n f =>
    if m = 0 && n = 0 then .fin (s && t) 0 0
    else if m = 0 then .fin t n f
    else if n = 0 then .fin s m e
    else
      let q := min e f
      ofSig (sigAt s m e q + sigAt t n f q) q

/-- The IEEE product (R92). -/
def mul : FVal → FVal → FVal
  | .nan, _ => .nan
  | _, .nan => .nan
  | .inf s, .inf t => .inf (xor s t)
  | .inf s, .fin t n _ => if n = 0 then .nan else .inf (xor s t)
  | .fin s m _, .inf t => if m = 0 then .nan else .inf (xor s t)
  | .fin s m e, .fin t n f => .fin (xor s t) (m * n) (e + f)

/-- The product in a dot product: +0 where an operand is zero (R91). -/
def dotMul (a b : FVal) : FVal := if isZero a || isZero b then zero else mul a b

/-- A value times 2^n. -/
def scale (v : FVal) (n : Int) : FVal :=
  match v with
  | .fin s m e => .fin s m (e + n)
  | x => x

/-- Compares finite or infinite values: -1, 0 or 1; zeros of either sign are equal. -/
def cmp : FVal → FVal → Int
  | .inf s, .inf t => if s = t then 0 else if s then -1 else 1
  | .inf s, _ => if s then -1 else 1
  | _, .inf t => if t then 1 else -1
  | .fin s m e, .fin t n f =>
    let q := min e f
    (sigAt s m e q - sigAt t n f q).sign
  | _, _ => 0

/-- Maximum and minimum (R94). -/
def max (a b : FVal) : FVal :=
  if isNan a then b else if isNan b then a
  else if isZero a && isZero b then .fin (sign a && sign b) 0 0
  else if cmp a b ≥ 0 then a else b
def min (a b : FVal) : FVal :=
  if isNan a then b else if isNan b then a
  else if isZero a && isZero b then .fin (sign a || sign b) 0 0
  else if cmp a b ≤ 0 then a else b

/-- floor(log2 |v|) of a non-zero finite value. -/
def ilog (m : Nat) (e : Int) : Int := m.log2 + e

/-- An exact sum of many values: in every case exact, and +0 where it is an exact zero (R99). -/
def sum (l : List FVal) : FVal :=
  match l.foldl add zero with
  | .fin s m e => if m = 0 then zero else .fin s m e
  | x => x

end FV

/-! ## Rounding (R85-R89) -/

/-- m x 2^e in units of 2^q, rounded to nearest, ties to even. -/
def rneAt (m : Nat) (e q : Int) : Nat :=
  if q ≤ e then m * 2 ^ (e - q).toNat
  else
    let d := 2 ^ (q - e).toNat
    let n := m / d
    let r := m % d
    if 2 * r < d then n else if d < 2 * r then n + 1 else if n % 2 = 0 then n else n + 1

/-- The unit in which a non-zero value is rounded in an element type. -/
def FFmt.unit (t : FFmt) (m : Nat) (e : Int) : Int := Max.max t.qmin (FV.ilog m e - t.fb)

/-- Whether a significand at an exponent exceeds the greatest finite value. -/
def FFmt.over (t : FFmt) (n : Nat) (q : Int) : Bool :=
  let (mm, me) := t.maxFin
  FV.cmp (.fin false n q) (.fin false mm me) = 1

/-- Whether a rounded value is zero or subnormal. -/
def FFmt.tiny (t : FFmt) (n : Nat) (q : Int) : Bool := n = 0 || decide (FV.ilog n q < 1 - (t.bias : Int))

/-- Rounds a value once into a floating-point format (R85), with the results beyond the range of R87 and the flags. Every
rounding into a destination counts as a narrowing (log entry 34). -/
def narrow (f : Nat) (fsat : Bool) (v : FVal) : FVal × Nat :=
  let t := ffmt f
  match v with
  | .nan => (.nan, 0)
  | .inf s => if t.ieee then (.inf s, 0) else (.nan, fgInv)
  | .fin s m e =>
    if m = 0 then (.fin s 0 0, 0)
    else
      let q := t.unit m e
      let n := rneAt m e q
      if t.over n q then
        (if t.ieee && !fsat then .inf s else .fin s t.maxFin.1 t.maxFin.2, fgOvf)
      else (.fin s n (if n = 0 then 0 else q), if t.tiny n q then fgUnf else 0)

/-- One rounding to FP32 without flags. -/
def rne32 (v : FVal) : FVal := (narrow fFP32 false v).1

/-- Truncation toward zero to BF16, for the pieces of R97. -/
def truncBF16 (v : FVal) : FVal :=
  match v with
  | .fin s m e =>
    if m = 0 then v
    else
      let q := (ffmt fBF16).unit m e
      if q ≤ e then v else .fin s (m / 2 ^ (q - e).toNat) q
  | x => x

/-- Rounds to an integer, ties to even. -/
def toInt (s : Bool) (m : Nat) (e : Int) : Int := if s then -(rneAt m e 0 : Int) else rneAt m e 0

/-- Limits an integer to n bits by saturation, or wraps it; the Boolean says whether it changed. -/
def limitInt (n : Nat) (wrap : Bool) (v : Int) : Int × Bool :=
  let hi : Int := 2 ^ (n - 1) - 1
  let lo : Int := -2 ^ (n - 1)
  if lo ≤ v && v ≤ hi then (v, false)
  else (if wrap then sgn n (unsgn n v) else if hi < v then hi else lo, true)

/-- A floating-point value to INT8 or INT32 (R90). -/
def floatToInt (n : Nat) (v : FVal) : Int × Nat :=
  match v with
  | .nan => (0, fgInv)
  | .inf s => (if s then -2 ^ (n - 1) else 2 ^ (n - 1) - 1, fgOvf)
  | .fin s m e =>
    let (x, c) := limitInt n false (toInt s m e)
    (x, if c then fgOvf else 0)

/-- An integer result, times a power of two, to INT8 or INT32: shifted right and rounded once to nearest even, then saturated or wrapped
(R85 R95). -/
def intNarrow (n shift : Nat) (iovf : Bool) (v : FVal) : Int × Nat :=
  match v with
  | .fin s m e =>
    let (x, c) := limitInt n iovf (toInt s m (e - shift))
    (x, if c then fgIsat else 0)
  | _ => (0, 0)

/-! ## Element encodings (R77-R82) -/

/-- The exact value of an element field. -/
def decodeElem (f v : Nat) : FVal :=
  if f = 5 then FV.ofInt (sgn 8 v)
  else if f = 11 then FV.ofInt (sgn 32 v)
  else
    let t := ffmt f
    let s := bit v (t.eb + t.fb)
    let E := bits v t.fb t.eb
    let F := bits v 0 t.fb
    if t.ieee && E = 2 ^ t.eb - 1 then (if F = 0 then .inf s else .nan)
    else if t.eb = 4 && E = 15 && F = 7 then .nan
    else if E = 0 then (if F = 0 then .fin s 0 0 else .fin s F t.qmin)
    else .fin s (2 ^ t.fb + F) ((E : Int) - t.bias - t.fb)

/-- The element field of a value that the element type represents. -/
def encodeElem (f : Nat) (v : FVal) : Nat :=
  let t := ffmt f
  match v with
  | .nan => if t.eb = 4 then 0x7F else (2 ^ t.eb - 1) * 2 ^ t.fb + 2 ^ (t.fb - 1)
  | .inf s => bnat' s * 2 ^ (t.eb + t.fb) + (2 ^ t.eb - 1) * 2 ^ t.fb
  | .fin s m e =>
    let sg := bnat' s * 2 ^ (t.eb + t.fb)
    if m = 0 then sg
    else
      let q := t.unit m e
      let n := rneAt m e q
      let q := if n = 2 ^ (t.fb + 1) then q + 1 else q
      let n := if n = 2 ^ (t.fb + 1) then 2 ^ t.fb else n
      if n < 2 ^ t.fb then sg + n else sg + (q - t.qmin + 1).toNat * 2 ^ t.fb + (n - 2 ^ t.fb)
where
  bnat' (b : Bool) : Nat := if b then 1 else 0

/-- The value of an E8M0 scale byte as an exponent; none for NaN (R81). -/
def scaleExp (b : Nat) : Option Int := if b = 0xFF then none else some ((b : Int) - 127)

/-! ## Microscaling blocks (R84) -/

/-- A block of wider values in an MX format: the scale byte, the element fields and the flags. -/
def mxEncode (f : Nat) (vs : List FVal) : Nat × List Nat × Nat :=
  let anyNan := vs.any FV.isNan
  let anyInf := vs.any FV.isInf
  if anyNan || anyInf then
    (0xFF, vs.map fun _ => 0, (if anyNan then fgNanIn else 0) ||| (if anyInf then fgInv else 0) ||| fgMxNan)
  else
    let a := vs.foldl (fun a v => FV.max a (FV.abs v)) FV.zero
    match a with
    | .fin _ m e =>
      if m = 0 then (0, vs.map fun _ => 0, 0)
      else
        let t := ffmt f
        let x0 := FV.ilog m e - t.emax
        let x : Int := if x0 < -127 then -127 else if 127 < x0 then 127 else x0
        let els := vs.map fun v =>
          let r := narrow f true (FV.scale v (-x))
          let sat := t.ieee && r.2 = fgOvf
          (encodeElem f (if sat then .fin (FV.sign v) t.maxFin.1 t.maxFin.2 else r.1),
            if r.2 = fgOvf then (if 127 < x0 then fgOvf else 0) else r.2)
        ((x + 127).toNat, els.map (·.1), els.foldl (fun g p => g ||| p.2) 0)
    | _ => (0, vs.map fun _ => 0, 0)

/-! ## Rows of a layout -/

/-- Element fields packed from bit 0 of a little-endian string (R82). -/
def packBits (w : Nat) (vs : List Nat) : Nat := vs.foldr (fun v acc => v % 2 ^ w + 2 ^ w * acc) 0

/-- The fields of a packed string. -/
def unpackBits (w : Nat) : Nat → Nat → List Nat
  | 0, _ => []
  | n + 1, v => v % 2 ^ w :: unpackBits w n (v / 2 ^ w)

/-- Splits a list into runs of 32. -/
def blocks32 {α : Type} (l : List α) : List (List α) :=
  (List.range (ceilDiv l.length 32)).map fun i => (l.drop (32 * i)).take 32

/-- The values of a row of n elements from its bytes and its scale bytes, with the flag of a NaN scale (Table 03-6). -/
def decodeRow (f n : Nat) (b sc : Bytes) : List FVal × Nat :=
  let vs := unpackBits (elemBits f) n (unle b)
  if isMX f then
    let r := vs.mapIdx fun i v => match scaleExp (fld sc (i / 32) 1) with
      | none => FVal.nan
      | some x => FV.scale (decodeElem f v) x
    (r, if (List.range (ceilDiv n 32)).any (fun j => fld sc j 1 = 0xFF) then fgNanIn else 0)
  else (vs.map (decodeElem f), 0)

/-- The bytes and the scale bytes of a row of values in a destination format, with the flags: R84-R90, R95 for an integer source
that narrows to INT8. `intSrc` says that the values are integers, `pad` gives the unused bits of the last byte. -/
def encodeRow (f : Nat) (fsat iovf : Bool) (shift : Nat) (intSrc : Bool) (pad : Nat) (vs : List FVal) : Bytes × Bytes × Nat :=
  let w := elemBits f
  let nb := rowBytes f vs.length
  let fin := fun (xs : List Nat) => le nb (packBits w xs + pad * 2 ^ (w * vs.length))
  if isMX f then
    let bl := (blocks32 vs).map (mxEncode f)
    (fin (bl.flatMap (·.2.1)), bl.flatMap (fun x => le 1 x.1), bl.foldl (fun g x => g ||| x.2.2) 0)
  else if isInt f then
    let xs := vs.map fun v =>
      if intSrc then intNarrow w (if f = fINT8 then shift else 0) iovf v else floatToInt w v
    (fin (xs.map fun x => unsgn w x.1), [], xs.foldl (fun g x => g ||| x.2) 0)
  else
    let xs := vs.map (narrow f fsat)
    (fin (xs.map fun x => encodeElem f x.1), [], xs.foldl (fun g x => g ||| x.2) 0)

/-- A conversion that widens exactly between floating-point formats (R89), or leaves the format as it is: every value of the source is a
value of the destination, so that the conversion narrows nothing. -/
def widens (src dst : Nat) : Bool :=
  isFloat src && isFloat dst && !isMX dst && (if isMX src then dst = fFP32 else true) &&
    decide ((ffmt src).fb ≤ (ffmt dst).fb) && decide ((ffmt dst).qmin ≤ (ffmt src).qmin) &&
    decide ((ffmt src).emax ≤ (ffmt dst).emax)

/-- The flags of a conversion: an exact widening raises no UNF (R88 R89). -/
def convFlags (exact : Bool) (fl : Nat) : Nat := if exact then fl &&& (63 - fgUnf) else fl

/-- NAN_IN for operands that are NaN. -/
def nanFlag (l : List FVal) : Nat := if l.any FV.isNan then fgNanIn else 0

/-- INV for a NaN result of operands that are not NaN. -/
def invFlag (ops : List FVal) (r : FVal) : Nat := if FV.isNan r && !ops.any FV.isNan then fgInv else 0

end Sys2Proof.Machine
end

