-- ==== Sys2Proof/Machine/Hash.lean ====
section
/-! DEFINITION. The hash functions the spec names: SHA-512 and SHA-512/256 (FIPS 180-4), which identities, measurements and
stripe pieces use, and GHASH with the key of 05_vector_optimizer R158. -/

namespace Sys2Proof.Machine

/-- The 80 round constants of SHA-512. -/
def shaK : List W64 :=
  [0x428A2F98D728AE22, 0x7137449123EF65CD, 0xB5C0FBCFEC4D3B2F, 0xE9B5DBA58189DBBC, 0x3956C25BF348B538,
   0x59F111F1B605D019, 0x923F82A4AF194F9B, 0xAB1C5ED5DA6D8118, 0xD807AA98A3030242, 0x12835B0145706FBE,
   0x243185BE4EE4B28C, 0x550C7DC3D5FFB4E2, 0x72BE5D74F27B896F, 0x80DEB1FE3B1696B1, 0x9BDC06A725C71235,
   0xC19BF174CF692694, 0xE49B69C19EF14AD2, 0xEFBE4786384F25E3, 0x0FC19DC68B8CD5B5, 0x240CA1CC77AC9C65] ++
  [0x2DE92C6F592B0275, 0x4A7484AA6EA6E483, 0x5CB0A9DCBD41FBD4, 0x76F988DA831153B5, 0x983E5152EE66DFAB,
   0xA831C66D2DB43210, 0xB00327C898FB213F, 0xBF597FC7BEEF0EE4, 0xC6E00BF33DA88FC2, 0xD5A79147930AA725,
   0x06CA6351E003826F, 0x142929670A0E6E70, 0x27B70A8546D22FFC, 0x2E1B21385C26C926, 0x4D2C6DFC5AC42AED,
   0x53380D139D95B3DF, 0x650A73548BAF63DE, 0x766A0ABB3C77B2A8, 0x81C2C92E47EDAEE6, 0x92722C851482353B] ++
  [0xA2BFE8A14CF10364, 0xA81A664BBC423001, 0xC24B8B70D0F89791, 0xC76C51A30654BE30, 0xD192E819D6EF5218,
   0xD69906245565A910, 0xF40E35855771202A, 0x106AA07032BBD1B8, 0x19A4C116B8D2D0C8, 0x1E376C085141AB53,
   0x2748774CDF8EEB99, 0x34B0BCB5E19B48A8, 0x391C0CB3C5C95A63, 0x4ED8AA4AE3418ACB, 0x5B9CCA4F7763E373,
   0x682E6FF3D6B2B8A3, 0x748F82EE5DEFB2FC, 0x78A5636F43172F60, 0x84C87814A1F0AB72, 0x8CC702081A6439EC] ++
  [0x90BEFFFA23631E28, 0xA4506CEBDE82BDE9, 0xBEF9A3F7B2C67915, 0xC67178F2E372532B, 0xCA273ECEEA26619C,
   0xD186B8C721C0C207, 0xEADA7DD6CDE0EB1E, 0xF57D4F7FEE6ED178, 0x06F067AA72176FBA, 0x0A637DC5A2C898A6,
   0x113F9804BEF90DAE, 0x1B710B35131C471B, 0x28DB77F523047D84, 0x32CAAB7B40C72493, 0x3C9EBE0A15C9BEBC,
   0x431D67C49C100D4C, 0x4CC5D4BECB3E42B6, 0x597F299CFC657E2A, 0x5FCB6FAB3AD6FAEC, 0x6C44198C4A475817]

/-- The initial values of SHA-512 and of SHA-512/256. -/
def shaIv512 : List W64 :=
  [0x6A09E667F3BCC908, 0xBB67AE8584CAA73B, 0x3C6EF372FE94F82B, 0xA54FF53A5F1D36F1, 0x510E527FADE682D1,
   0x9B05688C2B3E6C1F, 0x1F83D9ABFB41BD6B, 0x5BE0CD19137E2179]
def shaIv256 : List W64 :=
  [0x22312194FC2BF72C, 0x9F555FA3C84C64C2, 0x2393B86B6F53B151, 0x963877195940EABD, 0x96283EE2A88EFFE3,
   0xBE5E1E2553863992, 0x2B0199FC2C85B8AA, 0x0EB72DDC81C52CA2]

/-- A number of n bytes, most significant byte first. -/
def be (n v : Nat) : Bytes := (le n v).reverse
def unbe (b : Bytes) : Nat := unle b.reverse

/-- The 64-bit words of a block. -/
def beWords : Nat → Bytes → List W64
  | 0, _ => []
  | n + 1, b => BitVec.ofNat 64 (unbe (b.take 8)) :: beWords n (b.drop 8)

/-- The message schedule: the window holds the last 16 words, newest last. -/
def shaSchedule : Nat → List W64 → List W64
  | 0, _ => []
  | n + 1, w =>
    let w0 := w.headD 0
    let w1 := w.getD 1 0
    let w9 := w.getD 9 0
    let w14 := w.getD 14 0
    let s0 := w1.rotateRight 1 ^^^ w1.rotateRight 8 ^^^ (w1 >>> 7)
    let s1 := w14.rotateRight 19 ^^^ w14.rotateRight 61 ^^^ (w14 >>> 6)
    w0 :: shaSchedule n (w.drop 1 ++ [w0 + s0 + w9 + s1])

/-- The eight working words. -/
structure Sha where
  a : W64
  b : W64
  c : W64
  d : W64
  e : W64
  f : W64
  g : W64
  h : W64
  deriving DecidableEq, Repr

def shaRound (x : Sha) (kw : W64) : Sha :=
  let t1 := x.h + (x.e.rotateRight 14 ^^^ x.e.rotateRight 18 ^^^ x.e.rotateRight 41) + ((x.e &&& x.f) ^^^ (~~~x.e &&& x.g)) + kw
  let t2 := (x.a.rotateRight 28 ^^^ x.a.rotateRight 34 ^^^ x.a.rotateRight 39) + ((x.a &&& x.b) ^^^ (x.a &&& x.c) ^^^ (x.b &&& x.c))
  { a := t1 + t2, b := x.a, c := x.b, d := x.c, e := x.d + t1, f := x.e, g := x.f, h := x.g }

def Sha.ofList (l : List W64) : Sha :=
  { a := l.getD 0 0, b := l.getD 1 0, c := l.getD 2 0, d := l.getD 3 0, e := l.getD 4 0, f := l.getD 5 0, g := l.getD 6 0,
    h := l.getD 7 0 }
def Sha.toList (x : Sha) : List W64 := [x.a, x.b, x.c, x.d, x.e, x.f, x.g, x.h]

/-- One block of 128 bytes. -/
def shaBlock (hv : List W64) (blk : Bytes) : List W64 :=
  let kws := List.zipWith (· + ·) shaK (shaSchedule 80 (beWords 16 blk))
  List.zipWith (· + ·) hv (kws.foldl shaRound (Sha.ofList hv)).toList

def shaBlocks : Nat → List W64 → Bytes → List W64
  | 0, hv, _ => hv
  | n + 1, hv, b => shaBlocks n (shaBlock hv (b.take 128)) (b.drop 128)

/-- The padded message. -/
def shaPad (m : Bytes) : Bytes :=
  let z := (239 - m.length % 128) % 128
  m ++ [0x80#8] ++ List.replicate z 0 ++ be 16 (8 * m.length)

def shaWith (iv : List W64) (m : Bytes) : Bytes :=
  let p := shaPad m
  (shaBlocks (p.length / 128) iv p).flatMap fun w => be 8 w.toNat

/-- SHA-512: 64 bytes. -/
def sha512 (m : Bytes) : Bytes := shaWith shaIv512 m
/-- SHA-512/256: 32 bytes. -/
def sha512t256 (m : Bytes) : Bytes := (shaWith shaIv256 m).take 32
/-- SHA-512 as a 512-bit value, its first byte least significant, as a GRD_MEAS_n register holds it (00_scope R9). -/
def sha512v (m : Bytes) : BitVec 512 := BitVec.ofNat 512 (unle (sha512 m))

/-! GHASH in the bit order of GCM: bit 0 of a block is the most significant bit of its first byte. -/

/-- The hash key of 05_vector_optimizer R158. -/
def ghashKey : BitVec 128 := 0x5A17C3E90B44D21F8E6A13579BDF2468#128

/-- Multiplication in GF(2^128): i bits of x remain, z the product so far, v the shifted operand. -/
def gfMul : Nat → BitVec 128 → BitVec 128 → BitVec 128 → BitVec 128
  | 0, _, z, _ => z
  | i + 1, x, z, v =>
    let z := if x.getMsbD 0 then z ^^^ v else z
    let v' := v >>> 1
    gfMul i (x <<< 1) z (if v.getLsbD 0 then v' ^^^ 0xE1000000000000000000000000000000#128 else v')

/-- The 16-byte blocks of a string, the last one padded with zeros. -/
def ghashBlocks : Nat → Bytes → List (BitVec 128)
  | 0, _ => []
  | n + 1, b => BitVec.ofNat 128 (unbe (sub b 0 16)) :: ghashBlocks n (b.drop 16)

/-- GHASH of a string: its padded blocks and the length block of GCM, with no additional data. -/
def ghash (m : Bytes) : BitVec 128 :=
  (ghashBlocks (ceilDiv m.length 16) m ++ [BitVec.ofNat 128 (8 * m.length)]).foldl
    (fun y b => gfMul 128 (y ^^^ b) 0 ghashKey) 0

end Sys2Proof.Machine
end

