-- ==== Sys2Proof/Config.lean ====
section
/-! DEFINITION. What the firmware bundle, the module or an implementation fixes, and the free values. Every constant
here is opaque: no proof can see its value (log entries 2 and 10). -/

namespace Sys2Proof.Config

open Sys2Proof

/-- A value the spec leaves open, one for each use: applied to the counter of the state (log entry 2). -/
opaque freeValue : Nat → W64

/-- The free value that stands for the correctly rounded result where the enclosure search did not separate it: a function
of the operation's code and the operands (log entry 20). -/
opaque freeRounding : Nat → Bytes → FVal

/-- The uncompressed P-521 identity public key of this module (12_links R351, 16_guard R484). -/
opaque publicKey : Bytes
/-- The device identifier that a public key gives: the first 8 bytes of its SHA-512, little-endian (12_links R351). -/
def devIdOf (key : Bytes) : DevId := BitVec.ofNat 64 (Machine.unle ((Machine.sha512 key).take 8))
/-- The device identifier of this module (12_links R351). -/
def devId : DevId := devIdOf publicKey
/-- The DER device certificate (16_guard R485). -/
opaque deviceCert : Bytes
/-- The certificate chain that this device sends (16_guard R485). -/
opaque certChain : Bytes
/-- SERLOTH_MINOR and the Guard firmware's minor and major version (00_scope R8): of the bundle in each flash bank at power-up, and of a
bundle's bytes. -/
opaque bankInfo : Bool → Byte × Byte × Byte
opaque bundleInfo : Bytes → Byte × Byte × Byte
/-- The repair record of the module's flash (17_physical R516). -/
opaque repairRecord : Bytes
/-- Security version of the bundle in each flash bank (16_guard R487). -/
opaque bankVersion : Bool → W32
/-- The bank the flash names active at power-up (16_guard R487). -/
opaque bootBank : Bool
/-- The highest security version ever booted, as the flash holds it (16_guard R487). -/
opaque versionRecord : W32
/-- The owner record in flash when the module is first powered (16_guard R539). -/
opaque flashOwner : Option Bytes
/-- Measurements 1 to 7 of the running bundle and module (16_guard Table 16-5), numbered from 0. -/
opaque measurement : Nat → BitVec 512
/-- Byte of a crash dump: the capture's number and the offset (15_faults Table 15-7 gives sections, no bytes). -/
opaque dumpByte : Nat → Nat → Byte

/-- Element and bit that PARAM of an injection of TYPE 0x09 names; the spec gives the two without their places in the field
(15_faults Table 15-12; log entry 57). -/
opaque faultElement : Nat → Nat
opaque faultBit : Nat → Nat

/-- The cause code of a folio takeover (15_faults Table 15-3, record 0x0503) for 1 a known-answer failure, 2 arbitration and 3 a second
arithmetic error; the spec gives no codes (log entry 61). -/
opaque takeoverCause : Nat → Byte
/-- The members' replies to a begin that a warning makes (14_checkpoint R424; log entry 82): a free value for each use. -/
opaque freeReplies : Nat → List MemberReply
/-- Device identifier and image length of a group index in a checkpoint, at a device that is not its initiator: no message of the spec
carries them there (14_checkpoint R435 R436; log entry 82). -/
opaque memberInfo : Nat → Nat → DevId × Nat

/-- Size and mode of the trace buffer that COL_REPLAY opens (13_collation R402; log entry 64). -/
opaque replayTrace : Nat
opaque replayOverwrite : Bool

/-- Figures of a phase in the response of SCH_ADMIT that no rule states, by set, phase and which (11_time R342; log entry 66). -/
opaque admFigure : W64 → Nat → Nat → Nat
/-- Sheets that MEM_HOST_COPY writes into a quire's scratchpad during a phase, as admission charges them, by set, phase and quire; the spec
gives no figure (09_memory R261; log entry 66). -/
opaque hostStage : W64 → Nat → Nat → Nat

/-- Address of the sample status word of a generation phase, by set and phase; the spec gives the declaration no place in the image
(08_conditional R243; log entry 146). -/
opaque sampleAddr : W64 → Nat → Nat
/-- Bit address of the 2-bit position of a kept value, by the address of its tile, its place along k among the kept values, and its other
coordinate; the spec gives positions no address (03_formats R82; log entry 38). -/
opaque posPlace : Nat → Nat → Nat → Nat

/-- Logical coordinate that the schedules of a set assign to this device's shard; the spec gives it no field of the image (03_formats R101,
05_vector_optimizer R536; log entry 156). -/
opaque coordinate : W64 → Nat

/-! SPDM messages: DSP0274 gives their layout, which the spec names and does not repeat (16_guard R490; log entry 91). -/

/-- The request that a message holds; none for one that is not supported. -/
opaque spdmParse : Bytes → Option SpdmReq
/-- The response message to a request message, from the content of the response; none is an error of type UnsupportedRequest. -/
opaque spdmEncode : Bytes → Option Bytes → Bytes
/-- The longest response, less one, that goes in one message. -/
opaque spdmChunk : Nat
/-- The content of KEY_EXCHANGE_RSP and FINISH_RSP: the session, the requester's exchange data and the transcript so far. -/
opaque spdmKeyExchange : Nat → Bytes → Bytes
/-- The digest that a requester signs in FINISH, for a session. -/
opaque spdmTranscript : Nat → BitVec 512

/-! Cryptographic primitives and the keys they use (16_guard R485, 12_links R360-R363). -/

/-- A certificate chain verifies to the Folos root and none of it is revoked; its identity public key. -/
opaque chainKey : Bytes → Option Bytes
/-- The device identifier of a certificate chain. -/
def chainIdentity (chain : Bytes) : Option DevId := (chainKey chain).map devIdOf
/-- A certificate chain verifies to the given owner root public key. -/
opaque chainToOwner : Bytes → Bytes → Bool
/-- ECDSA P-521 verification of a signature over a digest under the key of a chain. -/
opaque chainVerify : Bytes → BitVec 512 → Bytes → Bool
/-- The identity key's ECDSA P-521 signature over a digest: 132 bytes are meant, and the uses take what it gives. -/
opaque identitySign : BitVec 512 → Bytes
/-- ECDSA P-521 verification under this device's own identity key. -/
opaque identityVerify : BitVec 512 → Bytes → Bool
/-- The ephemeral public key and challenge this device sends on a port at its n-th attempt. -/
opaque ephemeralKey : Nat → Nat → Bytes
opaque ownChallenge : Nat → Nat → Bytes
/-- The session key of HKDF-SHA-512 from the ECDH secret of (port, attempt, peer's key) and the transcript hash. -/
opaque sessionKey : Nat → Nat → Bytes → BitVec 512 → BitVec 256
/-- The traffic key from the session key and the link key. -/
opaque trafficKey : BitVec 256 → BitVec 256 → BitVec 256
/-- The next session key at a renewal. -/
opaque renewKey : BitVec 256 → BitVec 256
/-- AES-256-GMAC of a message under a key. -/
opaque gmac : BitVec 256 → Bytes → BitVec 128
/-- The key-confirmation MAC under a key for one end (true: this end's own). -/
opaque confirmMac : BitVec 256 → Bool → Bytes
/-- The bundle bytes staged in a bank form a complete bundle, and they verify with this security version. -/
opaque bundleComplete : Bytes → Bool
opaque bundleVersion : Bytes → Option W32

end Sys2Proof.Config
end

