-- ==== Sys2Proof/Machine/State.lean ====
section
/-! DEFINITION. The state of the block as plain data: every register, slot, buffer, counter, mode and pin the spec gives
it, and the queue of waiting commands. INVENTORY.md lists each field with its rule and reset value. -/

namespace Sys2Proof.Machine

open Sys2Proof

/-- Why a step stops with a fault. -/
inductive Fault where
  /-- Raised by an engine packet whose latched operand lies outside the device address map (09_memory R250; R251 says that
  it cannot occur for a loaded schedule). Safe: the model stops where the spec gives no behaviour. -/
  | addressUnmapped (addr : Nat)
  deriving DecidableEq, Repr

/-- Why a command has no meaning. -/
inductive Refusal where
  /-- Raised by Dispatch for a row that has no meaning yet. Safe: nothing is claimed about it. -/
  | notModelled (mnemonic : String)
  deriving DecidableEq, Repr

/-! ## Time (11_time) -/

/-- The time states of 11_time R321. -/
inductive TState where
  | acquiring | locked | holdover | unlocked | rootFree | rootExt
  deriving DecidableEq, Repr

/-- The time base. `clock` is the Guard oscillator in ns, which times the Guard (17_physical R523); `stitch` is the Stitch
counter, `acc` its fraction below 1 ns in units of 1/1,024 of 1e-9 ns, `freq` the frequency correction in units of 1/1,024 ppb, `slew`
the phase correction in ppb (11_time R309 R317), `still` the ns for which the counter still stands still, and `everReady` whether the
device has reported ready since the full device reset (R310 R320). -/
structure Time where
  clock : Nat
  stitch : W64
  acc : Nat
  running : Bool
  tstate : TState
  followed : Option Port
  freq : Int
  slew : Int
  still : Nat
  lastSample : Nat
  holdSince : Nat
  path : BitVec 16
  groupPath : BitVec 16
  discAuth : W32
  discStale : W32
  discForm : W32
  rejDelay : W32
  rejOutlier : W32
  ppsRejected : W32
  ppsMiss : Nat
  ppsGood : Nat
  ppsLast : Option Nat
  conflict : Bool
  conflictAt : Nat
  everReady : Bool
  deriving DecidableEq, Repr

/-! ## Configuration (02_binder R65-R72) -/

/-- A pending image: its block mask, the snapshot's registers by SCW offset, and the slot that the press holds. -/
structure Pending where
  mask : W64
  image : AMap W64
  slot : Option SlotId
  deriving DecidableEq, Repr

/-- The two images of the SCW by register offset (default: the register's reset value), CFG_EPOCH, the pending images and
the Guard's retained image (17_physical R508). -/
structure Cfg where
  shadow : AMap W64
  active : AMap W64
  epoch : W64
  pendings : List Pending
  retained : Option (AMap W64)
  deriving DecidableEq, Repr

/-- The feature registers that change (02_binder R73). -/
structure Frw where
  gen : W64
  fullLeaf : Bool
  activeCount : Nat
  map : Vector (Option Phys) 12
  spare : BitVec 4
  /-- Physical folios that a takeover has power-gated (01_step R36). -/
  gated : BitVec 12
  deriving DecidableEq, Repr

/-! ## Mailboxes (02_binder R45-R56) -/

/-- The fields of a slot header that are stored. The reserved RW fields hold the value last written (00_scope R10). -/
structure Hdr where
  state : BitVec 2
  resv0 : BitVec 6
  cmd : BitVec 16
  resv1 : BitVec 16
  seq : W32
  len : BitVec 16
  resv2 : BitVec 16
  ctx : BitVec 6
  resv3 : BitVec 26
  tag : W32
  status : BitVec 16
  detail : BitVec 16
  rlen : BitVec 16
  stamp : W64
  viol : BitVec 16
  deriving DecidableEq, Repr

/-- The continuation of a command that holds its slot in TAKEN (02_binder R53). -/
inductive Held where
  | none
  /-- CTX_RESET that waits for an engine that has not answered (R456 R461), or for another CTX_RESET (R60). -/
  | ctxReset
  /-- CFG_PRESS or LNK_PRESS that waits for its pending image (R67); `skip` holds the ports that are not pressed (R352). -/
  | press (skip : BitVec 12)
  /-- LNK_PRESS whose image took effect and whose ports train (12_links R352). -/
  | training (mask : BitVec 12) (failed : BitVec 12)
  /-- LNK_QUALIFY until a Guard-oscillator time. -/
  | qualify (mask : BitVec 12) (until_ : Nat)
  /-- SCH_CANCEL at the next barrier of a schedule. -/
  | cancel (sched : Nat)
  /-- COL_KAT: folios still to run, those that have run and those that failed. -/
  | kat (todo : BitVec 12) (failed : BitVec 12)
  /-- COL_REPLAY: a diagnostic replay of a step, with the trace buffer opened. -/
  | replay (sched : Nat) (trace : Nat)
  /-- COL_ADMIT_DEVICE in shadow mode. -/
  | shadow
  /-- A Guard request that has been accepted and is not answered yet (16_guard R488 R501 R502, 15_faults R461). -/
  | guard
  deriving DecidableEq, Repr

/-- A mailbox slot. `payload` lists the bytes of 0 to 4,031 that are not 0. -/
structure Slot where
  hdr : Hdr
  payload : AMap Byte
  expSeq : W32
  bound : Option Nat
  takenAt : Nat
  held : Held
  /-- Times of refused posts of a PEER slot within the last 1 ms (R56). -/
  refusals : List Nat
  deriving DecidableEq, Repr

/-- The Binder: off (17_physical R509 order 3 starts it), running, silent (15_faults Table 15-12 TYPE 0x0D). -/
inductive BinderRun where
  | off | running | silent
  deriving DecidableEq, Repr

/-- The Binder: the slot it took last, the slots in the order in which it took them, and its last report. -/
structure Binder where
  run : BinderRun
  scanPos : SlotId
  taken : List SlotId
  lastAlive : Nat
  deriving DecidableEq, Repr

/-! ## Contexts and regions (02_binder R64, 09_memory R278) -/

/-- A carry extent of a checkpoint (14_checkpoint R424). -/
structure Carry where
  addr : Nat
  len : Nat
  deriving DecidableEq, Repr

/-- A context. -/
structure Ctx where
  isOpen : Bool
  resetting : Bool
  nearQuota : Nat
  farQuota : Nat
  timeoutUs : Nat
  streakLimit : BitVec 16
  ufThresh : BitVec 16
  /-- TAG of the last command that each engine instance completed, by instance. -/
  lastTag : AMap W32
  /-- Completion records that the reset in progress has written for stopped commands (15_faults R456). -/
  records : Nat
  carry : List Carry
  deriving DecidableEq, Repr

/-- The stores: 0 near, 1 far, 2 to 5 scratchpads, as MEM_MAP numbers them. -/
structure Region where
  id : Nat
  ctx : Nat
  store : Nat
  base : Nat
  size : Nat
  deriving DecidableEq, Repr

/-! ## Memory (09_memory) -/

/-- A line of a staging cache: its sheet's address divided by 1,024, its poison mark, and whether its staging words hold an
uncorrectable error that the next access to it meets; a list of lines is in order of use, most recent first (R257 R259). -/
structure Line where
  sheet : Nat
  poison : Bool
  bad : Bool
  deriving DecidableEq, Repr

/-- A memory channel's counters (R275, 15_faults R447), numbered as in 15_faults R449. -/
structure Chan where
  fenced : Bool
  warned : Bool
  events : List Nat
  lowSince : Option Nat
  corrected : Nat
  reissued : Nat
  deriving DecidableEq, Repr

/-- A fault that an injection has armed and that the next use of its target meets (15_faults Table 15-12): the injection's
number, NOESC, TYPE, TARGET, PARAM, the uses left, and for TYPE 0x0E the Guard-oscillator time of its end. -/
structure Latent where
  id : Nat
  noesc : Bool
  type : Nat
  target : Nat
  param : Nat
  left : Nat
  ends : Nat
  deriving DecidableEq, Repr

/-- The stores. `bytes` covers the near tier, the far tier and the scratchpads by device address; `poison` is the mark of
each sheet by its address divided by 1,024; `fence` lists the sheets written on fenced channels (R274). -/
structure Mem where
  bytes : AMap Byte
  poison : AMap Bool
  caches : Vector (AMap (List Line)) 4
  chans : AMap Chan
  fence : AMap Bool
  regions : List Region
  nextRegion : Nat
  zeroQ : List Region
  /-- Ranges whose contents the spec calls undefined: start, length, and the index of their free values. A byte there that
  nothing has written since has a free value (log entry 2). -/
  undef : List (Nat × Nat × Nat)
  /-- Stitch time until which a change of the staging split is under way (R262). -/
  splitUntil : Nat
  /-- Both tiers in self-refresh (R282 R283). -/
  selfRefresh : Bool
  /-- The weights that launches have loaded into the arbiters (11_time R340): engine, resource, the stream's demand and its phase's. -/
  arbiters : List (EngId × Nat × Nat × Nat)
  deriving DecidableEq, Repr

/-! ## Error records and traces (15_faults) -/

/-- An error record (Table 15-2), its body as 32 bytes. -/
structure Rec where
  seq : Nat
  stamp : W64
  step : W64
  cls : Nat
  source : Nat
  code : Nat
  ctx : Byte
  injected : Bool
  pinned : Bool
  unit : Byte
  body : Bytes
  deriving DecidableEq, Repr

/-- A trace record (Table 15-10). -/
structure TraceRec where
  tag : W32
  kind : Nat
  unit : Byte
  engine : Nat
  pc : W32
  status : BitVec 16
  data : W64
  stamp : W64
  deriving DecidableEq, Repr

/-- A trace buffer (R472). `first` is the index of the oldest record kept. -/
structure Trace where
  id : Nat
  ctx : Nat
  mask : W64
  tagValue : W32
  tagMask : W32
  size : Nat
  overwrite : Bool
  region : Option Nat
  capturing : Bool
  first : Nat
  recs : List TraceRec
  dropped : Nat
  deriving DecidableEq, Repr

/-- A pending injection (R474): `left` firings remain. -/
structure Inj where
  id : Nat
  type : Nat
  noesc : Bool
  left : Nat
  trigger : W64
  target : W64
  param : W64
  deriving DecidableEq, Repr

/-! ## Guard (16_guard, 17_physical) -/

/-- The states of GRD_STATE.DEV_STATE. -/
inductive DevState where
  | booting | ready | notReady | resetting | removed
  deriving DecidableEq, Repr

/-- The states of GRD_STATE.PSTATE. -/
inductive PState where
  | run | nap | hold | entering | waking
  deriving DecidableEq, Repr

/-- The operating points, in the code of GRD_STATE.OPPOINT. -/
inductive OpPoint where
  | floor | nominal | peak | emergency
  deriving DecidableEq, Repr

/-- A management session (16_guard R491). -/
structure Sess where
  id : Nat
  established : Bool
  owner : Bool
  mutualAsked : Bool
  last : Nat
  keyGen : Nat
  deriving DecidableEq, Repr

/-- A Guard request that waits: its source, code, TAG and payload. -/
structure GReq where
  src : Src
  code : Nat
  tag : W32
  data : Bytes
  deriving DecidableEq, Repr

/-- An MGMT_POST that waits for its slot (R481). -/
structure MPost where
  src : Src
  slot : SlotId
  deadline : Nat
  deriving DecidableEq, Repr

/-- An issued ticket (R496): ISSUED, SCOPE, and the injections it has authorised. -/
structure Ticket where
  issued : W64
  scope : W32
  used : Nat
  deriving DecidableEq, Repr

/-- A crash dump slot's header (15_faults Table 15-7). -/
structure Dump where
  cause : W64
  stamp : W64
  complete : Bool
  number : Nat
  lost : List Nat
  deriving DecidableEq, Repr

/-- SPDM state of one requester (R490): version, capabilities and algorithms agreed, and a chunk transfer. -/
structure Spdm where
  src : Src
  version : Option Byte
  caps : Bool
  algs : Bool
  chunkIn : Option (Nat × Nat × Bytes)
  chunkOut : Option (Nat × Nat × Bytes)
  deriving DecidableEq, Repr

/-- What a firmware bundle reports of itself (00_scope R8): SERLOTH_MINOR, and the Guard firmware's minor and major version. -/
abbrev FwInfo := Byte × Byte × Byte

/-- The firmware banks (R486-R488): false is bank 0. `running` is what the bundle reports that the Binder and the Guard have started from. -/
structure Fw where
  active : Bool
  versions : W32 × W32
  infos : FwInfo × FwInfo
  running : FwInfo
  staged : AMap Byte
  stagedLen : Nat
  stagedOk : Bool
  record : W32
  deriving DecidableEq, Repr

/-- Sensor readings, in 0.25 degree units; none for a failed sensor (R482). -/
structure Sensors where
  dram : List (Option Int)
  junction : List (Option Int)
  inlet : Option Int
  outlet : Option Int
  powerW : Nat
  vin10mV : Nat
  deriving DecidableEq, Repr

/-- GRD_LIMIT, GRD_BOUND and the reset policy (R478 R483, 15_faults R462). -/
structure Limits where
  plim : Nat
  ceil : Nat
  demandMin : Nat
  bndPlim : Nat
  bndCeil : Nat
  resetLimit : Nat
  resetWindow : Nat
  resetTimes : List Nat
  deriving DecidableEq, Repr

/-- The operating point and what drives it (01_step R20-R23, 16_guard R497-R500, 09_memory R266). `peakSince`,
`nominalSince` and `floorSince` are the times since which the entry conditions of each point hold with the margin. -/
structure Supply where
  opPoint : OpPoint
  stall : Bool
  stallSince : Nat
  vcomp : Nat
  vtarget : Nat
  peakSince : Option Nat
  nominalSince : Option Nat
  floorSince : Option Nat
  hotSince : Option Nat
  cap : Nat
  capSince : Option Nat
  capHotSince : Option Nat
  demand : Nat
  demandAt : Nat
  inletWarn : Bool
  supplyFault : Bool
  /-- Stitch time at which the emergency point was last left (01_step R23). -/
  leftAt : Nat
  lastPlimRec : Option Nat
  lastInletRec : Option Nat
  deriving DecidableEq, Repr

/-- Bring-up (17_physical R509-R515): B0, the final failure found (FAIL and INDEX of Table 17-2), whether order 6 is
reached, channels trained, RESTORED, and the time of READY. -/
structure Bring where
  b0 : Nat
  running : Bool
  finalFail : Option (Nat × Nat)
  refAbsent : Bool
  trained : Nat
  quireFail : BitVec 4
  restored : Nat
  readyAt : Option Nat
  /-- The record 0x0801 that the end of bring-up writes (SEQ of its cause, PLANNED), and the requests that it answers. -/
  resetRec : Option (Option Nat × Bool)
  reqs : List GReq
  deriving DecidableEq, Repr

/-- Power-state entry and wake (16_guard R501-R503), and requests held for a reset or for bring-up. -/
structure Power where
  pstate : PState
  req : Option GReq
  target : Nat
  holdLinks : Bool
  entryAt : Nat
  wakeAfter : Nat
  wakeAt : Option Nat
  heldPower : List GReq
  /-- Stitch time at which the device last entered Run. -/
  runAt : Nat
  heldReset : Option GReq
  deriving DecidableEq, Repr

/-- JTAG instructions (17_physical R521). -/
inductive Jtag where
  | bypass | idcode | samplePreload | extest | clamp | highz
  deriving DecidableEq, Repr

/-- A reset that has been requested and not yet performed. -/
inductive ResetReq where
  /-- A compute-partition reset, with the SEQ of the record that caused it, if any, and whether NOESC spares the count. -/
  | partition (cause : Option Nat) (noCount : Bool)
  deriving DecidableEq, Repr

/-- The Guard. -/
structure Guard where
  powered : Bool
  devState : DevState
  owner : Option Bytes
  sessions : List Sess
  spdm : List Spdm
  limits : Limits
  supply : Supply
  sensors : Sensors
  keys : Vector (Option (BitVec 256)) 16
  log : List Rec
  pinned : List Rec
  logNext : Nat
  unsent : List Nat
  unacked : List Nat
  repeatAt : Nat
  gdwDrops : AMap (Nat × Nat)
  fw : Fw
  meas : Vector (BitVec 512) 9
  tickets : List Ticket
  injections : List Inj
  nextInj : Nat
  mbox : Slot
  mposts : List MPost
  mheld : List (SlotId × Nat)
  collector : Bytes
  collectorPort : BitVec 16
  ownPort : BitVec 16

  power : Power
  bring : Bring
  refLost : Option Nat
  cutoff : Bool
  overvolt : Bool
  resetReq : Option ResetReq
  dumps : Option Dump × Option Dump
  dumpCount : Nat
  heldFw : List GReq
  /-- The repair record that the module's flash holds (17_physical R516). -/
  repair : Bytes
  summaryAt : Nat
  jtag : Jtag
  deriving DecidableEq, Repr

/-! ## Schedules (11_time, 06_programs, 10_numerics, 13_collation) -/

/-- A layout entry (06_programs Table 06-5). -/
structure Layout where
  addr : Nat
  scaleAddr : Nat
  cols : Nat
  rows : Nat
  rowStride : Nat
  scaleRowStride : Nat
  kind : Nat
  loopStride : List Int
  deriving DecidableEq, Repr

/-- A phase entry (11_time Table 11-6). -/
structure PhaseE where
  launch : Nat
  deadline : Nat
  gen : Bool
  every : Nat
  stepPhase : Nat
  firstStream : Nat
  nStreams : Nat
  nPin : Nat
  firstPin : Nat
  deriving DecidableEq, Repr

/-- A stream entry (11_time Table 11-7). -/
structure StreamE where
  prog : Nat
  entryA : Nat
  entryB : Nat
  deriving DecidableEq, Repr

/-- A program entry (11_time Table 11-7), its engine as an instance in ISSUE order. -/
structure ProgE where
  eng : EngId
  ringLog2 : Nat
  addr : Nat
  packets : Nat
  ringAddr : Nat
  deriving DecidableEq, Repr

/-- A counter declaration (11_time R326): the counter is 512 x folio + index. -/
structure CtrE where
  ctr : Nat
  perStep : Bool
  init : W32
  deriving DecidableEq, Repr

/-- A peer entry (12_links Table 12-5a). -/
structure PeerE where
  devId : DevId
  isSet : Bool
  rctx : Nat
  resv : Nat
  openFirst : Nat
  openCount : Nat
  deriving DecidableEq, Repr

/-- A reservation entry (12_links Table 12-5a). -/
structure ResE where
  resId : W64
  wrap : Bool
  deriving DecidableEq, Repr

/-- A promise (11_time Table 11-8). -/
structure PromiseE where
  phase : Nat
  recv : Bool
  peer : Nat
  ctr : Nat
  time : Nat
  deriving DecidableEq, Repr

/-- An update descriptor (05_vector_optimizer Table 05-3). -/
structure UpdateE where
  addr : Nat
  kind : Nat
  gfmt : Nat
  wfmt : Nat
  clipOn : Bool
  verso : Bool
  hcycle : Bool
  gscale : Int
  count : Nat
  shardOff : Nat
  grad : Nat
  masterA : Nat
  masterB : Nat
  mom1A : Nat
  mom1B : Nat
  mom2A : Nat
  mom2B : Nat
  workA : Nat
  workB : Nat
  hyper : Nat
  clip : W32
  hyperCount : Nat
  deriving DecidableEq, Repr

/-- A monitor entry (10_numerics Table 10-6). -/
structure MonE where
  desc : Nat
  first : Nat
  count : Nat
  monId : Nat
  floorExp : Int
  deriving DecidableEq, Repr

/-- The numerics section (10_numerics Table 10-1). -/
structure NumE where
  tableAddr : Nat
  nTensors : Nat
  monAddr : Nat
  map : List Nat
  mons : List MonE
  deriving DecidableEq, Repr

/-- A background entry (11_time R326). -/
structure BgE where
  kind : Nat
  mask : BitVec 12
  start : Nat
  stop : Nat
  deriving DecidableEq, Repr

/-- The barrier entry (11_time Table 11-8). -/
structure BarE where
  parent : Nat
  height : Nat
  children : BitVec 12
  nDev : Nat
  nObs : Nat
  deriving DecidableEq, Repr

/-- A parsed schedule image (11_time Tables 11-4 and 11-5). -/
structure Image where
  machineScope : Bool
  setId : W64
  ctx : Nat
  nearShare : Nat
  farShare : Nat
  stgShare : List Nat
  syncBound : Nat
  barrierLimit : Nat
  nSteps : Nat
  period : Nat
  sendBy : Nat
  barrierAt : Nat
  phases : List PhaseE
  streams : List StreamE
  progs : List ProgE
  layouts : List Layout
  counters : List CtrE
  peers : List PeerE
  resvs : List ResE
  promises : List PromiseE
  updates : List UpdateE
  num : Option NumE
  bgs : List BgE
  bar : BarE
  deriving DecidableEq, Repr

/-- The schedule states of Table 11-9. -/
inductive SchState where
  | loaded | admitted | armed | running | held | done
  deriving DecidableEq, Repr

/-- A slip record (11_time R344). -/
structure Slip where
  tag : W32
  kind : Nat
  cause : Nat
  phase : Nat
  unit : Byte
  step : Nat
  nominal : Nat
  actual : Nat
  deriving DecidableEq, Repr

/-- A launched phase: the streams (engine instances) still running, the halves that its pins or its entry points name, the
cause noted for a late end, and whether a stream halted. `status` is its sample status word, if generation
(08_conditional R242 R243). -/
structure PhaseRun where
  phase : Nat
  step : Nat
  nominal : Nat
  launched : Nat
  gen : Bool
  halfB : Bool
  active : List EngId
  complete : Bool
  stopped : Bool
  cause : Nat
  pins : List (Nat × Bool)
  status : Nat
  deriving DecidableEq, Repr

/-- Barrier progress of the current round (11_time R330, 13_collation R393). -/
structure BarState where
  round : Nat
  roundStart : Nat
  ups : List (Port × BarrierMsg)
  upSent : Bool
  downDone : Bool
  failed : Bool
  deriving DecidableEq, Repr

/-- A share of a recto descriptor's gradient that an OPE has scanned (05_vector_optimizer Table 05-4). -/
structure Scan where
  ordinal : Nat
  first : Nat
  count : Nat
  nonfinite : Bool
  poison : Bool
  deriving DecidableEq, Repr

/-- Vote progress of the current pass (05_vector_optimizer R151-R153 R536): this device's entries, those that each child sent, the
ordinals sent up, the decided outcomes (with the folded n2) and the scans. -/
structure VoteState where
  own : List VoteEntry
  got : List (Port × VoteEntry)
  sentUp : List Nat
  /-- Stitch time at which this device last sent its vote (Table 05-4). -/
  castAt : Nat
  decided : List VoteEntry
  scans : List Scan
  deriving DecidableEq, Repr

/-- A replay in progress (13_collation R397 R399 R402). -/
inductive ReplayKind where
  /-- `probe` is the real pass of a probe step (10_numerics R296). -/
  | localReplay | group | diagnostic | probe
  deriving DecidableEq, Repr

structure Replay where
  kind : ReplayKind
  start : Nat
  step : Nat
  logPos : Nat
  logIdx : Nat
  started : Bool
  /-- The scale table, the monitor state and the counters that a diagnostic replay puts back when it ends (log entry 58). -/
  saved : List (Nat × Bytes)
  savedCtrs : AMap W32
  deriving DecidableEq, Repr

/-- The collation states of Table 13-5. -/
inductive CollState where
  | none | running | round | collated | localReplay | groupReplay | waiting | arbitration | escalated
  deriving DecidableEq, Repr

/-- Collation of the current step (13_collation R393-R404). -/
structure Coll where
  state : CollState
  lastRound : Nat
  roundFlags : BitVec 16
  firstBad : Nat
  locals : Nat
  groups : Nat
  flags : BitVec 16
  flags0 : BitVec 16
  replayers : BitVec 16
  entries : List RoundEntry
  digests : AMap Dig
  /-- Shares of each descriptor that an OPE has finished: descriptor and elements. -/
  shares : List (Nat × Nat)
  recto : Dig
  verso : Dig
  wrote : List Nat
  /-- Folios whose known-answer kernels run before the replay (13_collation R404 R409), and those that failed. -/
  arbTodo : BitVec 12
  arbFailed : BitVec 12
  /-- Takeovers that wait for their spare's run: logical folio and cause (Table 13-8). -/
  takes : List (Nat × Nat)
  /-- The group's observations of the last completed round (10_numerics R292). -/
  obs : List Obs
  deriving DecidableEq, Repr

/-- What generation phases have raised since the last barrier, for the step whose barrier is the first to follow (08_conditional R244). -/
structure Later where
  flags : BitVec 16
  arbTodo : BitVec 12
  arbFailed : BitVec 12
  deriving DecidableEq, Repr

/-- The arm exchange and the probe (10_numerics R295 R296). -/
structure Probe where
  exchange : Option (List ArmEntry)
  armOk : Bool
  unsettled : List Nat
  /-- The tensors that the probe pass of the step settled, and whether one of them overflowed in the real pass. -/
  probed : List Nat
  skipped : Bool
  /-- The current pass is the probe pass of the step. -/
  pass : Bool
  deriving DecidableEq, Repr

/-- A loaded schedule. -/
structure Sched where
  id : Nat
  ctx : Nat
  addr : Nat
  len : Nat
  image : Image
  state : SchState
  armTime : Nat
  step : Nat
  lastCollated : Option Nat
  native : Bool
  /-- Quires whose MXE, VXE or RTE reach a tier operand through the cache (09_memory R263). -/
  cached : List Nat
  /-- Ranges of device memory that the loaded schedule references (09_memory R251). -/
  refs : List (Nat × Nat)
  ceilings : List (Nat × Nat)
  runs : List PhaseRun
  launchedBg : List Nat
  slips : List Slip
  slipTotal : Nat
  /-- A cancellation in progress: with true, at the next barrier (R335). -/
  cancel : Option Bool
  pendingStep : Option Nat
  /-- Stitch times at which the last barrier completed, the last step was collated and HELD was left (11_time R345). -/
  downAt : Nat
  collAt : Nat
  heldUntil : Nat
  bar : BarState
  vote : VoteState
  probe : Probe
  obs : List Obs
  /-- Z and U of each monitor entry in the current pass (10_numerics R302). -/
  monCounts : AMap (Nat × Nat)
  /-- UPDATE commands of the step that raised OVF or INV: TAG and flags (10_numerics R305). -/
  stateAlarms : List (W32 × Byte)
  /-- UPDATE commands of the current pass: descriptor, FIRST, COUNT and TAG (10_numerics R306). -/
  shareTags : List (Nat × Nat × Nat × W32)
  coll : Coll
  later : Later
  /-- Demands that admission computed for the arbiters (11_time R340): phase, engine, resource, the stream's demand and its phase's. -/
  demands : List (Nat × EngId × Nat × Nat × Nat)
  replay : Option Replay
  diag : Option (Nat × Nat)
  /-- The known-answer rotation: the step of each folio's last passing run. -/
  katPassed : AMap Nat
  /-- Written-count of each stream's completion ring, by program entry, modulo 2^64 (06_programs R182). -/
  ringCounts : AMap Nat
  deriving DecidableEq, Repr

/-- A collation record (13_collation Table 13-2). -/
structure CollRec where
  masterA : Nat
  halfB : Bool
  step : Nat
  digest : Dig
  deriving DecidableEq, Repr

/-- The Binder's fields of the ledger's control area (13_collation Table 13-2). -/
structure Ledger where
  recs : List CollRec
  schedId : Nat
  setId : W64
  step : Nat
  logPos : Nat
  logIdx : Nat
  overflow : Bool
  incomplete : Bool
  held : Bool
  votes : List VoteEntry
  deriving DecidableEq, Repr

/-- Shadow mode (13_collation R415-R417): SHADOW of Table 13-11; the feed received into the ledger's upper half, with its step,
positions, votes and, when complete, digests; the step and digests of the feed at the ledger's base; the step last compared;
and on the working device the reservation of the feed it sends, with the first step that it feeds and the port. -/
structure Shadow where
  status : Nat
  sched : Nat
  partner : Nat
  resIn : W64
  agreed : Nat
  feedStep : Option Nat
  feedPos : Nat
  feedIdx : Nat
  feedVotes : List VoteEntry
  feedDone : Option (Nat × Dig × Dig)
  atBase : Option (Nat × Dig × Dig)
  doneStep : Option Nat
  feedTo : Option W64
  feedFrom : Nat
  feedPort : Option Port
  deriving DecidableEq, Repr

/-! ## Engines (06_programs, 04_array) -/

/-- What a command writes of rows or bytes: element bytes and scale bytes with their addresses, the sheets that carry poison, the
arithmetic flags. -/
structure Written where
  elems : List (Nat × Bytes)
  scales : List (Nat × Bytes)
  poisoned : List Nat
  flags : Nat
  deriving DecidableEq, Repr

/-- What grants an engine instance to a stream (06_programs R163). -/
structure Grant where
  ctx : Nat
  sched : Nat
  phase : Nat
  prog : Nat
  deriving DecidableEq, Repr

/-- A loop in progress (06_programs R193). -/
structure LoopF where
  idx : Nat
  cnt : Nat
  top : Nat
  deriving DecidableEq, Repr

/-- A command in progress (06_programs R166 R182): its packet, the loop indices it latched, the units of work done and in
all, the status it will end with, and its parts: `done` and `failed` are masks of parts. -/
structure Entry where
  pos : Nat
  pc : Nat
  packet : Bytes
  idx : List Nat
  begun : Nat
  units : Nat
  total : Nat
  status : Nat
  aflags : Byte
  poison : Bool
  ready : Bool
  watermark : Nat
  done : W64
  failed : W64
  copy : Option Nat
  scales : List Int
  colAcc : List FVal
  colPoison : List Bool
  stopAt : Option Nat
  /-- Stitch time at which the command reaches the timeout that its context had when it began (06_programs R199, 15_faults R454). -/
  limit : Nat
  waiting : Bool
  detail : Nat
  /-- Entries of the list that the command latched (07_movement R209), each as one number. -/
  list : List Nat
  /-- Positions in the folio's chains (R195): what it consumes and what it produces. -/
  chIn : Option Nat
  chOut : Option Nat
  /-- A turn that its first launched row will carry (04_array R111). -/
  turn : Bool
  /-- A command that stops progressing (15_faults Table 15-12 TYPE 0x0B and 0x0C). -/
  stuck : Bool
  /-- Exact sums of the current group of 32 rows of a column reduction (05_vector_optimizer R147). -/
  colPart : List FVal
  /-- Stitch time at which the command's work ended, for STAMP (R182). -/
  doneAt : Nat
  /-- Rows that the feeders have fetched into the gathering queues (04_array R116). -/
  fetched : Nat
  /-- What a copy to a peer set reads once and sends to each device, and whether its source held poison (07_movement R208). -/
  bits : Option (Written × Bool)
  /-- Another stream's command is in progress on sheets that this one uses, and one of the two writes them (R168). -/
  raced : Bool
  deriving DecidableEq, Repr

/-- A chain hand-over, held by its producer (06_programs R195 R196): its position, layout and rows, the rows produced and
consumed, whether a stage halted, and whether its producer could not read its list and left every row poisoned. -/
structure Chain where
  k : Nat
  consumer : EngId
  layout : Nat
  rows : Nat
  produced : Nat
  consumed : Nat
  dead : Bool
  lost : Bool
  deriving DecidableEq, Repr

/-- A cell of a leaf (04_array R106-R110): its elements (one or, structured, those of its group) with their positions. -/
structure Cell where
  vals : List (Nat × FVal)
  poison : Bool
  deriving DecidableEq, Repr

/-- A leaf's operand (04_array R108), and what its checksum lanes hold (R113 R130): for lane q and array row i, at number
512 x q + i, the stationary values of the checking cell, by their k and one for each piece of a split. -/
structure Leaf where
  fmt : Nat
  sparse : Nat
  split : Nat
  logk : Nat
  kext : Nat
  next : Nat
  scaleExp : Int
  cells : AMap (Option Cell)
  lanes : AMap (List (Nat × List FVal))
  deriving DecidableEq, Repr

/-- The states of the back leaf (04_array R110). -/
inductive LeafState where
  | empty | loading | ready | turning
  deriving DecidableEq, Repr

/-- A tile slot of the fold buffer (04_array R120): the command and the tile of its operand that fill it, its elements as they are
read out, by number 512 x stored row + stored column, and the flags of the scales it resolved. -/
structure FoldSlot where
  pos : Nat
  tile : Nat
  cells : AMap (Option Cell)
  flags : Nat
  deriving DecidableEq, Repr

/-- A row that waits in the gathering queues (04_array R116): the command that streams it, its index, its elements with their
poison, and the flags of its scales. -/
structure Gathered where
  pos : Nat
  row : Nat
  vals : List (FVal × Bool)
  flags : Nat
  deriving DecidableEq, Repr

/-- The array of an MXE: front leaf, back leaf and its state, the gathering queues, the two slots of the fold buffer and the slot that
is filled next. -/
structure Array_ where
  front : Option Leaf
  back : Option Leaf
  backState : LeafState
  queue : List Gathered
  fold : Option FoldSlot × Option FoldSlot
  foldNext : Bool
  deriving DecidableEq, Repr

/-- An engine instance. -/
structure Engine where
  grant : Option Grant
  pc : Nat
  /-- The stream's queue: the packets at the PC and after it (06_programs R164). -/
  queue : List Bytes
  running : Bool
  halted : Bool
  loops : List LoopF
  regs : AMap W32
  entries : List Entry
  nextPos : Nat
  issue : Nat
  /-- Stitch time at which its last stream ended. -/
  freeAt : Nat
  chIn : Nat
  chOut : Nat
  hung : Bool
  noAck : Bool
  wedged : Bool
  stopAt : Option Nat
  chains : List Chain
  /-- Positions of consumed hand-overs whose consumer halted (R197). -/
  deadIn : List Nat
  array : Array_
  deriving DecidableEq, Repr

/-- A remote copy sent (07_movement R217): who sends it, the reservation, the peer, and its parts. -/
structure Sent where
  copy : Nat
  eng : Option EngId
  pos : Nat
  resId : W64
  port : Port
  parts : Nat
  token : Bool
  down : Bool
  deriving DecidableEq, Repr

/-- A remote copy received (07_movement R220): each part's destination ranges and the parts complete. -/
structure Recv where
  resId : W64
  copy : Nat
  ctx : Nat
  parts : List (Nat × List (Nat × Nat))
  complete : List Nat
  deriving DecidableEq, Repr

/-! ## Links (12_links) -/

/-- The port states of 12_links R353. -/
inductive PortSt where
  | off | down | training | admitting | qualifying | up | quarantined | retraining | hostUp | hostStandby
  deriving DecidableEq, Repr

/-- The admission progress of a port (12_links R360). -/
structure Adm where
  chain : Option Bytes
  peerId : Option DevId
  keys : Option (Bytes × Bytes)
  sigOk : Bool
  part : BitVec 16
  port : Nat
  major : Nat
  deriving DecidableEq, Repr

/-- The timing exchange of a port (11_time R315-R319). -/
structure TPort where
  seqOut : W32
  /-- The last accepted SEQ from the port (R316). -/
  seqIn : Option W32
  /-- T_A of the SYNC messages that no REPLY has answered. -/
  syncAt : List Nat
  /-- Accepted samples, oldest first: twice the delay and twice the offset, in 1/16 ns (R317). -/
  window : List (Int × Int)
  rejects : Nat
  barUntil : Option Nat
  disagree : Nat
  usable : Bool
  rootId : DevId
  path : BitVec 16
  groupPath : BitVec 16
  peerMaster : Bool
  lastSync : Nat
  discTimes : List Nat
  /-- Times of its reports as a faulty time source (R319). -/
  faults : List Nat
  deriving DecidableEq, Repr

/-- A link port. -/
structure PortS where
  st : PortSt
  reason : Nat
  since : Nat
  adm : Adm
  peerId : Option DevId
  peerPart : BitVec 16
  peerPort : Nat
  lastPeer : Option DevId
  corrected : W64
  uncorr : W64
  replays : W64
  malformed : W32
  retrains : W32
  sumCorrected : Nat
  sumReplays : Nat
  sumMalformed : Nat
  warned : Bool
  lowSince : Option Nat
  badTimes : List Nat
  admFails : List Nat
  attempt : Nat
  session : Option (BitVec 256)
  traffic : Option (BitVec 256)
  frames : Nat
  keyAt : Nat
  hold : Bool
  lane : Nat
  soak : Option Soak
  perstHigh : Bool
  /-- The lanes have signal: order 1 of Table 12-3 is past, or PCIe training runs. -/
  signal : Bool
  /-- The next admission is followed by the 2 s soak (12_links R379). -/
  soakDue : Bool
  /-- Guard-oscillator time of the last state change. -/
  at_ : Nat
  timing : TPort
  deriving DecidableEq, Repr

/-- An installed hop record (12_links R369). -/
structure Hop where
  resId : W64
  setId : W64
  role : Nat
  inPort : Nat
  outPort : Nat
  vc : Nat
  hops : Nat
  rate : Nat
  anyRl1 : Bool
  anyCrypt : Bool
  peerId : DevId
  closed : Bool
  deriving DecidableEq, Repr

/-! ## Checkpoints (14_checkpoint) -/

/-- The states of a checkpoint (14_checkpoint Table 14-6). -/
inductive CkSt where
  | begun | copying | draining | committing | committed | failed | aborted
  deriving DecidableEq, Repr

/-- An item of a checkpoint's image: its place and length, its source and the source's length, and its format: 0 raw bytes, 1 BF16, 6
MXFP8 elements, 7 the scales of MXFP8 (14_checkpoint R420). -/
structure CkItem where
  off : Nat
  len : Nat
  src : Nat
  srcLen : Nat
  fmt : Nat
  deriving DecidableEq, Repr

/-- The bytes of a protected page as they stood before a held write, with the sheets of it that carried poison (R429). -/
structure SavedPage where
  page : Nat
  data : Bytes
  poison : List Nat
  deriving DecidableEq, Repr

/-- A checkpoint. -/
structure Ckpt where
  id : Nat
  st : CkSt
  reason : Nat
  slot : Nat
  narrow : Nat
  /-- The cut step, the Guard-oscillator time of the cut, and the group index of the initiator. -/
  cut : Nat
  cutAt : Nat
  init : Nat
  coordinator : Bool
  ctx : Nat
  setId : W64
  carry : List Carry
  members : List MemberReply
  /-- The KIND 3 windows of other members that this device knows: group index, and the offsets from the step's start (R425 R435). -/
  wins : List (Nat × Nat × Nat)
  /-- The image: its first 8 KiB, its items in image order, its length, the copy frontier and the first poisoned source. -/
  head : Bytes
  plan : List CkItem
  imageLen : Nat
  frontier : Nat
  poisonSrc : Option Nat
  acked : List Nat
  resends : AMap Nat
  hashes : List (Nat × List Bytes)
  heldPages : Nat
  heldNs : Nat
  /-- Protected pages (R429): the page's number, and the image offset past which the frontier releases it. -/
  prot : List (Nat × Nat)
  saved : List SavedPage
  deriving DecidableEq, Repr

/-! ## Output -/

/-- What the block sends at its interfaces, in order. -/
inductive OutMsg where
  /-- An MSI-X message of a vector to the host (12_links R365). -/
  | msix (vector : Nat)
  /-- Error records sent to the collector, by SEQ (15_faults R451). -/
  | records (seqs : List Nat)
  /-- A Guard's report to the management network (11_time R319 R331). -/
  | report (code : Nat) (arg : Nat)
  /-- A Guard response to a management session or the I3C target. -/
  | guardResponse (src : Src) (status detail : Nat) (data : Bytes)
  /-- An SPDM response; none is an error response of type UnsupportedRequest. -/
  | spdm (src : Src) (data : Option Bytes)
  /-- An SPDM response that is longer than the requester takes at once: its handle, for CHUNK_GET. -/
  | spdmLarge (src : Src) (handle : Nat)
  /-- A completed aperture read of host relay, or a discarded one. -/
  | relayReply (p : Port) (v : W64)
  | relayForward (p : Port) (dest : Nat) (body : RelayBody)
  | relayData (p : Port) (data : Bytes)
  | timing (p : Port) (m : TimingMsg)
  | admission (p : Port) (m : AdmMsg)
  | barrierUp (p : Port) (m : BarrierMsg)
  | barrierDown (p : Port) (m : BarrierMsg)
  | vote (p : Port) (m : VoteMsg)
  | arm (entry : ArmEntry)
  | part (p : Port) (m : PartMsg)
  | token (p : Port) (m : TokenMsg)
  | declare (p : Port) (m : DeclareMsg)
  | partAck (p : Port) (copy part : Nat) (accepted : Bool)
  | tokenAck (p : Port) (m : TokenMsg) (accepted : Bool)
  | abandon (p : Port) (resId : W64) (copy : Nat)
  | forward (p : Port) (f : Frame)
  | replayFrame (p : Port) (seq : Nat)
  | routeClosed (p : Port) (resId : W64)
  | feed (resId : W64) (item : FeedItem)
  | feedEnd (resId : W64)
  /-- Data to host memory; `ep` is the EP bit of its TLPs (07_movement R224). -/
  | hostWrite (addr : Nat) (data : Bytes) (ep : Bool)
  /-- Bytes pushed on a reservation to a peer's address (14_checkpoint R437 R442). -/
  | push (res : W64) (addr : Nat) (data : Bytes)
  /-- What a COL_PEER_LOAD pushes for one part (13_collation R412): the reservation, KIND, INDEX, the first element or entry, its bytes
  and whether they carry poison. -/
  | peerData (res : W64) (kind index first : Nat) (data : Bytes) (poison : Bool)
  /-- A part of a drain piece sent on a reservation to context 0: the piece, the part and its bytes (14_checkpoint R435). -/
  | drain (res : W64) (piece part : Nat) (data : Bytes)
  /-- A CKP_PEER posted to a group index, with its payload (14_checkpoint Table 14-5a). -/
  | ckpPeer (index : Nat) (payload : Bytes)
  /-- A CKP_PEER OP 4 posted to a group index for the commit record of a CKPT_ID; the record goes to a buffer of the Binder (14_checkpoint
  R437). -/
  | ckpAsk (index id : Nat)
  /-- What CKP_LOAD posts to a holder, by device identifier: OP 4 for its record, or OP 5 for a piece of an old image (14_checkpoint R441
  R442). -/
  | ckpFetch (dev op src piece : Nat)
  /-- A COL_PEER_LOAD that this device posts to a peer: group index, KIND, descriptor ordinal, first element and count. -/
  | peerLoad (index kind ordinal first count : Nat)
  | tdo (v : W32)
  | keyRenewed (p : Port)
  | hostRead (v : W64)
  deriving DecidableEq, Repr

/-! ## The state -/

/-- The state of the block. -/
structure State where
  time : Time
  cfg : Cfg
  frw : Frw
  binder : Binder
  slots : Vector Slot 64
  ctxs : Vector Ctx 64
  mem : Mem
  scheds : List Sched
  ledger : Ledger
  shadow : Shadow
  engines : Vector Engine 44
  counters : AMap W32
  katRuns : AMap Nat
  katLast : AMap Bool
  arith : AMap Nat
  ports : Vector PortS 12
  hops : List Hop
  sent : List Sent
  recvs : List Recv
  nextCopy : Nat
  ckpts : List Ckpt
  /-- Held pages waiting for their copy: page number and the time of the hold (14_checkpoint R429). -/
  held : List (Nat × Nat)
  /-- What the loads of checkpoints since the first have covered: descriptor, first element and count (14_checkpoint R443). -/
  cover : List (Nat × Nat × Nat)
  lastCkpt : Option Nat
  latents : List Latent
  traces : List Trace
  nextTrace : Nat
  guard : Guard
  free : Nat
  out : List OutMsg
  pending : List Instr
  deriving DecidableEq, Repr

/-! ## Reset -/

/-- A slot header after a full device reset (02_binder R55). -/
def Hdr.reset : Hdr :=
  { state := 0, resv0 := 0, cmd := 0, resv1 := 0, seq := 0, len := 0, resv2 := 0, ctx := 0, resv3 := 0, tag := 0,
    status := 0, detail := 0, rlen := 0, stamp := 0, viol := 0 }

/-- A slot after a full device reset: every byte 0 and the expected SEQ 1 (R55). -/
def Slot.reset : Slot :=
  { hdr := Hdr.reset, payload := [], expSeq := 1, bound := none, takenAt := 0, held := .none, refusals := [] }

/-- A context that is not open. -/
def Ctx.reset : Ctx :=
  { isOpen := false, resetting := false, nearQuota := 0, farQuota := 0, timeoutUs := 500000, streakLimit := 128,
    ufThresh := 32768, lastTag := [], records := 0, carry := [] }

/-- An array with both leaves, the queues and the fold buffer absent (04_array R134). -/
def Array_.reset : Array_ :=
  { front := none, back := none, backState := .empty, queue := [], fold := (none, none), foldNext := false }

/-- An engine instance with no stream. -/
def Engine.reset : Engine :=
  { grant := none, pc := 0, queue := [], running := false, halted := false, loops := [], regs := [], entries := [], nextPos := 0,
    issue := 0, freeAt := 0, chIn := 0, chOut := 0, hung := false, noAck := false, wedged := false, stopAt := none,
    chains := [], deadIn := [], array := Array_.reset }

/-- The timing exchange of a port that is not admitted. -/
def TPort.reset : TPort :=
  { seqOut := 0, seqIn := none, syncAt := [], window := [], rejects := 0, barUntil := none,
    disagree := 0, usable := false, rootId := 0, path := 0xFFFF, groupPath := 0xFFFF, peerMaster := false, lastSync := 0,
    discTimes := [], faults := [] }

/-- No admission in progress. -/
def Adm.reset : Adm :=
  { chain := none, peerId := none, keys := none, sigOk := false, part := 0, port := 0xFF, major := 0 }

/-- A port whose ROLE is OFF. -/
def PortS.reset : PortS :=
  { st := .off, reason := 0, since := 0, adm := Adm.reset, peerId := none, peerPart := 0, peerPort := 0xFF,
    lastPeer := none, corrected := 0, uncorr := 0, replays := 0, malformed := 0, retrains := 0, sumCorrected := 0,
    sumReplays := 0, sumMalformed := 0, warned := false, lowSince := none, badTimes := [], admFails := [], attempt := 0, session := none,
    traffic := none, frames := 0, keyAt := 0, hold := false, lane := 0, soak := none, perstHigh := true, signal := false, soakDue := true, at_ := 0,
    timing := TPort.reset }

/-- The time base after a full device reset (11_time R309). -/
def Time.reset : Time :=
  { clock := 0, stitch := 0, acc := 0, running := true, tstate := .acquiring, followed := none, freq := 0, slew := 0, still := 0,
    lastSample := 0, holdSince := 0, path := 0xFFFF, groupPath := 0xFFFF, discAuth := 0, discStale := 0, discForm := 0,
    rejDelay := 0, rejOutlier := 0, ppsRejected := 0, ppsMiss := 0, ppsGood := 0, ppsLast := none, conflict := false,
    conflictAt := 0, everReady := false }

/-- The standard mapping of logical folios (00_scope R5). -/
def Frw.standardMap : Vector (Option Phys) 12 :=
  #v[some 0, some 1, some 3, some 4, some 6, some 7, some 9, some 10, none, none, none, none]

/-- Folio Ln on Pn (00_scope R5). -/
def Frw.fullMap : Vector (Option Phys) 12 :=
  #v[some 0, some 1, some 2, some 3, some 4, some 5, some 6, some 7, some 8, some 9, some 10, some 11]

/-- The stores with nothing listed: every byte 0 and no sheet poisoned (09_memory Table 09-11). -/
def Mem.reset : Mem :=
  { bytes := [], poison := [], caches := Vector.replicate 4 [], chans := [], fence := [], regions := [],
    nextRegion := 1, zeroQ := [], undef := [], splitUntil := 0, selfRefresh := false, arbiters := [] }

/-- A ledger that holds nothing. -/
def Ledger.reset : Ledger :=
  { recs := [], schedId := 0, setId := 0, step := 0, logPos := 0, logIdx := 0, overflow := false, incomplete := false,
    held := false, votes := [] }

/-- No shadow mode. -/
def Shadow.reset : Shadow :=
  { status := 0, sched := 0, partner := 0, resIn := 0, agreed := 0, feedStep := none, feedPos := 0, feedIdx := 0, feedVotes := [],
    feedDone := none, atBase := none, doneStep := none, feedTo := none, feedFrom := 0, feedPort := none }

/-- The Guard as it starts bring-up (16_guard Table 16-2; log entries 7 to 9). -/
def Guard.reset : Guard :=
  { powered := true, devState := .booting, owner := Config.flashOwner, sessions := [], spdm := [],
    limits := { plim := 1600, ceil := 0, demandMin := 25, bndPlim := 1600, bndCeil := 0, resetLimit := 3,
                resetWindow := 600, resetTimes := [] },
    supply := { opPoint := .floor, stall := false, stallSince := 0, vcomp := 0, vtarget := 0, peakSince := none, nominalSince := none,
                floorSince := none, hotSince := none, cap := 64, capSince := none, capHotSince := none, demand := 25,
                demandAt := 0, inletWarn := false, supplyFault := false, leftAt := 0, lastPlimRec := none, lastInletRec := none },
    sensors := { dram := List.replicate 40 (some 160), junction := List.replicate 16 (some 160), inlet := some 100,
                 outlet := some 100, powerW := 0, vin10mV := 4800 },
    keys := Vector.replicate 16 none, log := [], pinned := [], logNext := 0, unsent := [], unacked := [], repeatAt := 0,
    gdwDrops := [],
    fw := { active := Config.bootBank, versions := (Config.bankVersion false, Config.bankVersion true),
            infos := (Config.bankInfo false, Config.bankInfo true), running := Config.bankInfo Config.bootBank, staged := [],
            stagedLen := 0, stagedOk := false, record := Config.versionRecord },
    meas := Vector.replicate 9 0, tickets := [], injections := [], nextInj := 1, mbox := Slot.reset, mposts := [],
    mheld := [], collector := List.replicate 16 0, collectorPort := 0, ownPort := 49700,
    power := { pstate := .run, req := none, target := 0, holdLinks := false, entryAt := 0, wakeAfter := 0, wakeAt := none,
               heldPower := [], runAt := 0, heldReset := none },
    bring := { b0 := 0, running := true, finalFail := none, refAbsent := false, trained := 0, quireFail := 0,
               restored := 0, readyAt := none, resetRec := none, reqs := [] },
    refLost := none, cutoff := false, overvolt := false, resetReq := none, dumps := (none, none), dumpCount := 0,
    heldFw := [], repair := Config.repairRecord, summaryAt := 0, jtag := .bypass }

/-- The block right after reset: the start of bring-up, B0 of Table 17-1 (17_physical R509; log entry 1). -/
def State.reset : State :=
  { time := Time.reset, cfg := { shadow := [], active := [], epoch := 0, pendings := [], retained := none },
    frw := { gen := 0, fullLeaf := false, activeCount := 8, map := Frw.standardMap, spare := 0xF, gated := 0 },
    binder := { run := .off, scanPos := 63, taken := [], lastAlive := 0 },
    slots := Vector.replicate 64 Slot.reset, ctxs := Vector.replicate 64 Ctx.reset, mem := Mem.reset, scheds := [],
    ledger := Ledger.reset, shadow := Shadow.reset, engines := Vector.replicate 44 Engine.reset, counters := [],
    katRuns := [], katLast := [], arith := [], ports := Vector.replicate 12 PortS.reset, hops := [], sent := [],
    recvs := [], nextCopy := 1, ckpts := [], held := [], cover := [], lastCkpt := none, latents := [], traces := [], nextTrace := 1,
    guard := Guard.reset, free := 0, out := [], pending := [] }

end Sys2Proof.Machine
end

