-- ==== Sys2Proof/Machine/Regs.lean ====
section
/-! DEFINITION. The registers of the shadow configuration window: one table of offset, width, writable bits and reset
value, and the accessors of the active image by field (02_binder Tables 02-7 and 02-8, 09_memory Table 09-10,
10_numerics, 11_time Table 11-1, 12_links, 13_collation, 14_checkpoint). -/

namespace Sys2Proof.Machine

/-- A register of the SCW: shadow offset, width in bits, the bits that are not reserved, and its reset value. -/
structure Reg where
  off : Nat
  width : Nat
  mask : Nat
  reset : Nat
  deriving DecidableEq, Repr

/-- Bits [38:10] of a size or base register. -/
def kibMask : Nat := 0x7FFFFFFC00

/-- The registers outside the link blocks. -/
def coreRegs : List Reg :=
  [⟨0x000, 32, 0x1, 0⟩] ++
  ((List.range 4).flatMap fun n => [⟨0x100 + 0x10 * n, 32, 0xF, 6⟩, ⟨0x108 + 0x10 * n, 32, 0xF, 6⟩]) ++
  [⟨0x200, 32, 0x1, 0⟩, ⟨0x210, 64, kibMask, 0⟩, ⟨0x218, 64, kibMask, 0⟩, ⟨0x220, 64, kibMask, 0⟩,
   ⟨0x228, 64, kibMask, 0⟩, ⟨0x230, 64, kibMask, 0⟩, ⟨0x238, 64, kibMask, 0⟩, ⟨0x240, 64, kibMask, 0x3FC0000000⟩] ++
  [⟨0x400, 32, 0x1, 0⟩, ⟨0x408, 32, 0x1, 0⟩, ⟨0x410, 32, 0x1, 0⟩, ⟨0x418, 32, 0x1F, 16⟩, ⟨0x420, 32, 0xF, 0⟩,
   ⟨0x428, 32, 0xFFFFF, 0⟩, ⟨0x430, 64, 0xFFFFFFFFFFFFFFFF, 0⟩, ⟨0x438, 32, 0xFFFF, 0⟩] ++
  [⟨0x500, 32, 0xF, 0⟩, ⟨0x508, 64, kibMask, 0⟩, ⟨0x510, 64, kibMask, 0⟩, ⟨0x518, 32, 0xFFFF, 0x1022⟩] ++
  [⟨0x600, 32, 0x1F, 14⟩, ⟨0x608, 32, 0x3, 2⟩, ⟨0x610, 64, kibMask, 0⟩, ⟨0x618, 64, kibMask, 0⟩,
   ⟨0x620, 32, 0xFFFF000F, 0x012C0007⟩, ⟨0x628, 32, 0xFFFF, 600⟩, ⟨0x630, 32, 0xFFFFFFFF, 4000⟩] ++
  ((List.range 16).map fun g => ⟨0x680 + 8 * g, 64, 0xFFFFFFFFFFFFFFFF, 0⟩) ++
  [⟨0x700, 32, 0xFFFFFFFF, 0x80000080⟩] ++
  [⟨0x800, 64, 0xFFFFFFFFFFFFFFFF, 0x5555555555550000⟩, ⟨0x808, 64, 0xFFFFFFFFFFFFFFFF, 0xFFAAAAAA55555555⟩,
   ⟨0x810, 64, 0xFFFFFFFFFFFFFFFF, 0xFFFFFFFFFFFFFFFF⟩, ⟨0x818, 64, 0xFFFFFFFFFFFFFFFF, 0xFFFFFFFFFFFFFFFF⟩,
   ⟨0x820, 64, 0xFFFFFFFFFFFFFFFF, 0xFFFFFFFFFFFFFFFF⟩, ⟨0x828, 64, 0xFFFFFFFFFFFFFFFF, 0xFFFFBA9876543210⟩]

/-- The registers of the link blocks: LNK_CFG and LNK_PEER_EXPECT of each port. -/
def linkRegs : List Reg :=
  (List.range 12).flatMap fun p =>
    [⟨0x10000 + 0x1000 * p, 64, 0x1FF0F1F73, 0xFF000800⟩, ⟨0x10008 + 0x1000 * p, 64, 0xFFFFFFFFFFFFFFFF, 0⟩]

/-- Every register of the shadow image. -/
def scwRegs : List Reg := coreRegs ++ linkRegs

/-- The register at a shadow offset. -/
def regAt (off : Nat) : Option Reg := scwRegs.find? fun r => r.off = off

/-- The reset value of the register at an offset; 0 where there is none. -/
def regReset (off : Nat) : W64 :=
  match regAt off with
  | some r => BitVec.ofNat 64 r.reset
  | none => 0

/-- The mask bit of the press block that holds a shadow offset (Table 02-7). -/
def blockOf (off : Nat) : Nat :=
  if off < 0x100 then 0 else if off < 0x200 then 1 else if off < 0x400 then 2 else if off < 0x500 then 3
  else if off < 0x600 then 4 else if off < 0x700 then 5 else if off < 0x800 then 6 else if off < 0x900 then 7
  else 16 + (off - 0x10000) / 0x1000

/-- A value of an image. -/
def imgGet (m : AMap W64) (off : Nat) : Nat := (AMap.get regReset m off).toNat

/-- Writes a register of an image; the reset value is not listed. -/
def imgSet (m : AMap W64) (off : Nat) (v : Nat) : AMap W64 := AMap.set regReset m off (BitVec.ofNat 64 v)

/-- The image with the registers of the masked blocks taken from another image. -/
def imgMerge (mask : W64) (src dst : AMap W64) : AMap W64 :=
  scwRegs.foldl (fun m r => if bit mask.toNat (blockOf r.off) then imgSet m r.off (imgGet src r.off) else m) dst

/-- The mask of every press block. -/
def allBlocks : W64 := 0x0FFF00FF#64

/-! Fields of an image. -/

def imgFull (m : AMap W64) : Bool := bit (imgGet m 0x000) 0
def imgCache (m : AMap W64) (q : Nat) : Nat := imgGet m (0x100 + 0x10 * q) % 16
def imgScratch (m : AMap W64) (q : Nat) : Nat := imgGet m (0x108 + 0x10 * q) % 16
def imgCompat (m : AMap W64) : Bool := bit (imgGet m 0x200) 0
def imgLedgerBase (m : AMap W64) : Nat := imgGet m 0x210
def imgLedgerSize (m : AMap W64) : Nat := imgGet m 0x218
def imgVersoBase (m : AMap W64) : Nat := imgGet m 0x220
def imgVersoSize (m : AMap W64) : Nat := imgGet m 0x228
def imgCkptBase (m : AMap W64) : Nat := imgGet m 0x230
def imgCkptSize (m : AMap W64) : Nat := imgGet m 0x238
def imgDumpBase (m : AMap W64) : Nat := imgGet m 0x240
def imgMaster (m : AMap W64) : Bool := bit (imgGet m 0x400) 0
def imgRoot (m : AMap W64) : Bool := bit (imgGet m 0x408) 0
def imgExtRef (m : AMap W64) : Bool := bit (imgGet m 0x410) 0
def imgGroupSize (m : AMap W64) : Nat := imgGet m 0x418 % 32
def imgGroupIndex (m : AMap W64) : Nat := imgGet m 0x420 % 16
def imgUpPorts (m : AMap W64) : Nat := imgGet m 0x428
def imgStart (m : AMap W64) : Nat := imgGet m 0x430
def imgPpsOffset (m : AMap W64) : Int := sgn 16 (imgGet m 0x438)
def imgFacing (m : AMap W64) : Nat := imgGet m 0x500 % 16
def imgColVerso (m : AMap W64) : Nat := imgGet m 0x508
def imgColInput (m : AMap W64) : Nat := imgGet m 0x510
def orElse0 (v d : Nat) : Nat := if v = 0 then d else v
def imgLocalLimit (m : AMap W64) : Nat := orElse0 (bits (imgGet m 0x518) 0 4) 2
def imgGroupLimit (m : AMap W64) : Nat := orElse0 (bits (imgGet m 0x518) 4 4) 2
def imgShadowSteps (m : AMap W64) : Nat := orElse0 (bits (imgGet m 0x518) 8 8) 16
def imgCkpData (m : AMap W64) : Nat := imgGet m 0x600 % 32
def imgCkpParity (m : AMap W64) : Nat := imgGet m 0x608 % 4
def imgCopySize (m : AMap W64) : Nat := imgGet m 0x610
def imgSlotSize (m : AMap W64) : Nat := imgGet m 0x618
def imgCkpPolicy (m : AMap W64) : Nat := imgGet m 0x620
def imgCkpLimit (m : AMap W64) : Nat := orElse0 (bits (imgGet m 0x628) 0 16) 600
def imgFastRate (m : AMap W64) : Nat := imgGet m 0x630
def imgCkpRes (m : AMap W64) (g : Nat) : W64 := BitVec.ofNat 64 (imgGet m (0x680 + 8 * g))
def imgStreak (m : AMap W64) : Nat := orElse0 (bits (imgGet m 0x700) 0 16) 128
def imgUfThresh (m : AMap W64) : Nat := orElse0 (bits (imgGet m 0x700) 16 16) 32768
/-- The class code of a slot: 0 ADMIN, 1 HOST, 2 PEER, 3 MGMT (R72). -/
def imgClass (m : AMap W64) (n : Nat) : Nat := bits (imgGet m (0x800 + 8 * (n / 32))) (2 * (n % 32)) 2
def imgPeerPort (m : AMap W64) (n : Nat) : Nat := bits (imgGet m (0x810 + 8 * (n / 16))) (4 * (n % 16)) 4
def lnkCfg (m : AMap W64) (p : Nat) : Nat := imgGet m (0x10000 + 0x1000 * p)
def lnkGen (m : AMap W64) (p : Nat) : Nat := bits (lnkCfg m p) 0 2
def lnkRole (m : AMap W64) (p : Nat) : Nat := bits (lnkCfg m p) 4 3
def lnkAxis (m : AMap W64) (p : Nat) : Nat := bits (lnkCfg m p) 8 2
def lnkDir (m : AMap W64) (p : Nat) : Nat := bits (lnkCfg m p) 10 1
def lnkRequired (m : AMap W64) (p : Nat) : Bool := bit (lnkCfg m p) 11
def lnkCrypt (m : AMap W64) (p : Nat) : Bool := bit (lnkCfg m p) 12
def lnkKeySlot (m : AMap W64) (p : Nat) : Nat := bits (lnkCfg m p) 16 4
def lnkVcEn (m : AMap W64) (p v : Nat) : Bool := bit (lnkCfg m p) (24 + v)
def lnkExpect (m : AMap W64) (p : Nat) : Nat := imgGet m (0x10008 + 0x1000 * p)

/-! ## The agreement check (Table 02-8) -/

/-- The far-tier regions of row 3, without those of size 0, and the crash-dump region of 1 GiB. -/
def farRegions (m : AMap W64) : List (Nat × Nat) :=
  ([(imgLedgerBase m, imgLedgerSize m), (imgVersoBase m, imgVersoSize m), (imgCkptBase m, imgCkptSize m)].filter
    fun r => r.2 ≠ 0) ++ [(imgDumpBase m, 0x40000000)]

/-- Whether no two ranges of a list meet. -/
def disjointRanges : List (Nat × Nat) → Bool
  | [] => true
  | (a, n) :: rs => rs.all (fun r => !overlaps a n r.1 r.2) && disjointRanges rs

def row1 (m : AMap W64) : Bool :=
  (List.range 4).all fun q => decide (imgCache m q ≤ 12) && decide (imgScratch m q ≤ 12) &&
    decide (imgCache m q + imgScratch m q = 12)
def row2 (m : AMap W64) : Bool := !imgFull m || (List.range 4).all fun q => decide (imgCache m q ≠ 12)
def row3 (m : AMap W64) : Bool :=
  (farRegions m).all (fun r => decide (r.1 + r.2 ≤ 0x4000000000)) && disjointRanges (farRegions m)
def row4 (m : AMap W64) : Bool :=
  decide (imgColVerso m = 0) || (decide (imgFacing m ≠ imgGroupIndex m) && decide (imgFacing m < imgGroupSize m) &&
    decide (imgColVerso m ≤ imgVersoSize m))
def row5 (m : AMap W64) : Bool :=
  decide (imgSlotSize m = 0) || ((decide (imgCkpParity m = 1) || decide (imgCkpParity m = 2)) &&
    decide (1 ≤ imgCkpData m) && decide (imgCkpData m + imgCkpParity m = imgGroupSize m))
def row6 (m : AMap W64) : Bool := !imgRoot m || imgMaster m
def row7 (m : AMap W64) : Bool := !imgExtRef m || imgRoot m
def row8 (m : AMap W64) : Bool :=
  (List.range 12).all fun p => decide (lnkRole m p ≠ 5) || (decide (p < 2) && imgMaster m)
def row9 (m : AMap W64) : Bool :=
  (List.range 12).all fun p => if lnkRole m p = 5 then decide (lnkGen m p = 2) else decide (lnkGen m p < 2)
def axisOk (m : AMap W64) (a : Nat) : Bool :=
  let n := fun d => ((List.range 12).filter fun p => lnkRole m p = 1 && lnkAxis m p = a && lnkDir m p = d).length
  (n 0 = 0 && n 1 = 0) || (n 0 = 1 && n 1 = 1)
def row10 (m : AMap W64) : Bool := (List.range 4).all (axisOk m)
def row11 (keys : Vector (Option (BitVec 256)) 16) (m : AMap W64) : Bool :=
  (List.range 12).all fun p => !lnkCrypt m p || ((keys.toList.getD (lnkKeySlot m p) none).isSome)
def row12 (m : AMap W64) : Bool :=
  ((List.range 64).any fun n => imgClass m n = 0) && ((List.range 64).any fun n => imgClass m n = 3) &&
  (List.range 64).all fun n => decide (imgClass m n ≠ 2) || (decide (imgPeerPort m n < 12) && decide (lnkGen m (imgPeerPort m n) < 2))

/-- The rows that fail, in the order of the table. -/
def failingRows (keys : Vector (Option (BitVec 256)) 16) (m : AMap W64) : List Nat :=
  ([(1, row1 m), (2, row2 m), (3, row3 m), (4, row4 m), (5, row5 m), (6, row6 m), (7, row7 m), (8, row8 m), (9, row9 m),
    (10, row10 m), (11, row11 keys m), (12, row12 m)].filter fun r => !r.2).map (·.1)

/-- The first failing row, or 0. -/
def firstFailing (keys : Vector (Option (BitVec 256)) 16) (m : AMap W64) : Nat := (failingRows keys m).headD 0

/-- The SCW offset of the first field of a failing row: of the first quire, port or slot that fails, where the row is one
of several (R66; log entry 21). -/
def rowOffset (keys : Vector (Option (BitVec 256)) 16) (m : AMap W64) (row : Nat) : Nat :=
  let port := fun (bad : Nat → Bool) => 0x10000 + 0x1000 * (((List.range 12).filter bad).headD 0)
  match row with
  | 1 => 0x100 + 0x10 * (((List.range 4).filter fun q => !(imgCache m q ≤ 12 && imgScratch m q ≤ 12 &&
            imgCache m q + imgScratch m q = 12)).headD 0)
  | 2 => 0x000
  | 3 => 0x210
  | 4 => 0x500
  | 5 => 0x600
  | 6 => 0x408
  | 7 => 0x410
  | 8 => port fun p => lnkRole m p = 5 && !(p < 2 && imgMaster m)
  | 9 => port fun p => if lnkRole m p = 5 then lnkGen m p ≠ 2 else lnkGen m p ≥ 2
  | 10 => port fun p => lnkRole m p = 1 && !axisOk m (lnkAxis m p)
  | 11 => port fun p => lnkCrypt m p && (keys.toList.getD (lnkKeySlot m p) none).isNone
  | 12 => 0x800
  | _ => 0

/-- The active image's accessors on the state. -/
def State.act (s : State) : AMap W64 := s.cfg.active

end Sys2Proof.Machine
end

