-- ==== Sys2Proof/Machine/Ops.lean ====
section
/-! DEFINITION. The named operations over the state: status codes, error records, free values, the stores with poison,
fences and staging caches, contexts, schedules, engines and ports. Later files build every meaning from these. -/

namespace Sys2Proof.Machine

/-- The outcome of a command. -/
abbrev Res := Host.Outcome State Fault Refusal

/-- The command answers this next state. -/
def ok (s : State) : Res := .next s

/-! Status codes (02_binder Table 02-5). -/
def stOk : Nat := 0x0000
def stEmpty : Nat := 0x0001
def stPartial : Nat := 0x0002
def stPoisoned : Nat := 0x0003
def stMalformed : Nat := 0x0100
def stUnknown : Nat := 0x0101
def stSequence : Nat := 0x0102
def stContext : Nat := 0x0103
def stClass : Nat := 0x0104
def stBusy : Nat := 0x0105
def stResource : Nat := 0x0106
def stState : Nat := 0x0107
def stDeadline : Nat := 0x0108
def stTransit : Nat := 0x0109
def stAgreement : Nat := 0x010A
def stAuth : Nat := 0x010B
def stVersion : Nat := 0x010C
def stTimeout : Nat := 0x0200
def stContextReset : Nat := 0x0201
def stBinderReset : Nat := 0x0202
def stHardware : Nat := 0x0203
def stAborted : Nat := 0x0204

/-- Whether a status begins with REFUSED_ (00_scope R14). -/
def isRefused (st : Nat) : Bool := decide (0x100 ≤ st) && decide (st < 0x200)

/-! ## Updates of one part of the state -/

def State.emit (s : State) (m : OutMsg) : State := { s with out := s.out ++ [m] }
def State.setSlot (s : State) (n : SlotId) (x : Slot) : State := { s with slots := s.slots.set n x }
def State.setCtx (s : State) (c : Fin 64) (x : Ctx) : State := { s with ctxs := s.ctxs.set c x }
def State.setEng (s : State) (e : EngId) (x : Engine) : State := { s with engines := s.engines.set e x }
def State.setPort (s : State) (p : Port) (x : PortS) : State := { s with ports := s.ports.set p x }
def State.now (s : State) : Nat := s.time.stitch.toNat
def State.clock (s : State) : Nat := s.time.clock

/-- The context of a number. -/
def ctxId (c : Nat) : Fin 64 := Fin.ofNat 64 c
/-- The port of a number, if there is one. -/
def portId (p : Nat) : Option Port := if h : p < 12 then some ⟨p, h⟩ else none

/-- A fresh free value: nothing constrains it (log entry 2). -/
def State.fresh (s : State) : W64 × State := (Config.freeValue s.free, { s with free := s.free + 1 })

/-- n fresh free bytes. -/
def State.freshBytes (s : State) (n : Nat) : Bytes × State :=
  ((List.range n).map fun i => (Config.freeValue (s.free + i)).truncate 8, { s with free := s.free + n })

/-! ## Schedules -/

def isLearning (i : Image) : Bool := i.phases.any fun p => !p.gen
/-- A schedule with learning phases is the collated schedule (13_collation R383). -/
def Sched.collated (x : Sched) : Bool := isLearning x.image
/-- ARMED, RUNNING or HELD: active (02_binder R67). -/
def Sched.active (x : Sched) : Bool :=
  match x.state with
  | .armed | .running | .held => true
  | _ => false
/-- ADMITTED or active or DONE: admission holds (11_time Table 11-9). -/
def Sched.admitted (x : Sched) : Bool := decide (x.state ≠ .loaded)
def State.sched (s : State) (id : Nat) : Option Sched := s.scheds.find? fun x => x.id = id
def State.setSched (s : State) (x : Sched) : State :=
  { s with scheds := s.scheds.map fun y => if y.id = x.id then x else y }
def State.collated (s : State) : Option Sched := s.scheds.find? Sched.collated
/-- GRD_STATE.FLOOR_HELD (16_guard). -/
def State.floorHeld (s : State) : Bool := s.scheds.any Sched.active

/-- A launched phase that is still in progress. -/
def PhaseRun.inProgress (r : PhaseRun) : Bool := !r.complete && !r.stopped
def Sched.inProgress (x : Sched) : Bool := x.runs.any PhaseRun.inProgress

/-- The pins that a schedule's generation phases hold: a phase's pins are released when its last stream completes END, or by a context
reset (08_conditional R242, 01_step R33). -/
def Sched.pins (x : Sched) : List (Nat × Bool) := (x.runs.filter fun r => !r.complete).flatMap PhaseRun.pins

/-- Notes the first cause of Table 11-12 that the device records during launched phases (11_time R345). -/
def State.noteCause (s : State) (c : Nat) : State :=
  { s with scheds := s.scheds.map fun x => { x with runs := x.runs.map fun r =>
      if r.inProgress && r.cause = 0 then { r with cause := c } else r } }

/-! ## Error records (15_faults R448-R451) -/

/-- STEP of a record: the current step of the collated schedule, or all ones. -/
def State.recStep (s : State) : W64 :=
  match s.collated with
  | some x => BitVec.ofNat 64 x.step
  | none => 0xFFFFFFFFFFFFFFFF#64

/-- Writes an error record: the ring of 16,384, the pinned area of the first 64 of class 4 or higher, the record to send,
and MSI-X vector 64 on the group master for class 3 or higher (R450 R451). -/
def State.addRecAt (s : State) (step : W64) (cls source code : Nat) (ctx : Byte) (inj : Bool) (unit : Byte) (body : Bytes) : State :=
  let pin := decide (4 ≤ cls) && decide (s.guard.pinned.length < 64)
  let r : Rec := { seq := s.guard.logNext, stamp := s.time.stitch, step := step, cls := cls, source := source,
                   code := code, ctx := ctx, injected := inj, pinned := pin, unit := unit, body := body }
  let ring := s.guard.log ++ [r]
  let s := { s with
    guard.log := ring.drop (ring.length - 16384)
    guard.pinned := if pin then s.guard.pinned ++ [r] else s.guard.pinned
    guard.logNext := s.guard.logNext + 1
    guard.unsent := s.guard.unsent ++ [s.guard.logNext] }
  if imgMaster s.act && decide (3 ≤ cls) then s.emit (.msix 64) else s

/-- An error record of the current step. -/
def State.addRec (s : State) (cls source code : Nat) (ctx : Byte) (inj : Bool) (unit : Byte) (body : Bytes) : State :=
  s.addRecAt s.recStep cls source code ctx inj unit body

/-- The native records from a SEQ on were caused by a command or by a Guard request: they carry its TAG (02_binder slot header,
16_guard R479). A record of an engine, and one of a packet (code 0x0405, R175), keeps the packet's own TAG. -/
def State.tagFrom (s : State) (first : Nat) (tag : W32) : State :=
  let put := fun (r : Rec) => if decide (first ≤ r.seq) && decide (r.source = 3) && decide (r.unit = 0xFF) && decide (r.code ≠ 0x0405) then { r with body := le 4 tag.toNat ++ r.body.drop 4 } else r
  { s with guard.log := s.guard.log.map put, guard.pinned := s.guard.pinned.map put }

/-- The body of a native record (R448). -/
def nativeBody (tag : W32) (detail addr aux : Nat) : Bytes :=
  le 4 tag.toNat ++ le 4 detail ++ le 8 addr ++ le 16 aux

/-- Writes a native record of no engine: its class, code, DETAIL, ADDR and AUX (Table 15-3). -/
def State.native (s : State) (cls code detail addr aux : Nat) : State :=
  s.addRec cls 3 code 0xFF false 0xFF (nativeBody 0 detail addr aux)

/-- A native record that an injection causes carries INJECTED (R475). -/
def State.nativeI (s : State) (inj : Bool) (cls code detail addr aux : Nat) : State :=
  s.addRec cls 3 code 0xFF inj 0xFF (nativeBody 0 detail addr aux)

/-- A native record that names a context, a tag and a unit. -/
def State.nativeE (s : State) (cls code : Nat) (ctx : Nat) (unit : Byte) (tag : W32) (detail addr aux : Nat) : State :=
  s.addRec cls 3 code (BitVec.ofNat 8 ctx) false unit (nativeBody tag detail addr aux)

/-- The bytes of a record (Table 15-2). -/
def Rec.bytes (r : Rec) : Bytes :=
  le 8 r.seq ++ le 8 r.stamp.toNat ++ le 8 r.step.toNat ++ le 1 r.cls ++ le 1 r.source ++ le 2 r.code ++ [r.ctx] ++
  le 1 ((if r.injected then 1 else 0) + (if r.pinned then 2 else 0)) ++ [r.unit, 0] ++ r.body

/-- Every record kept, by SEQ: the pinned ones that the ring no longer holds, then the ring (R450). -/
def Guard.records (g : Guard) : List Rec :=
  (g.pinned.filter fun r => r.seq < (g.log.head?.map Rec.seq).getD g.logNext) ++ g.log

/-! ## The stores (09_memory) -/

def nearSize : Nat := 0xC00000000
def farBase : Nat := 0x4000000000
def farSize : Nat := 0x4000000000
def scratchBase (q : Nat) : Nat := 0x8000000000 + 0x8000000 * q

/-- The store of an address, as MEM_MAP numbers stores; none for a reserved address (R250). -/
def State.storeOf (s : State) (a : Nat) : Option Nat :=
  if a < nearSize then some 0
  else if decide (farBase ≤ a) && decide (a < farBase + farSize) then some 1
  else ((List.range 4).find? fun q =>
    decide (scratchBase q ≤ a) && decide (a < scratchBase q + 0x800000 * imgScratch s.act q)).map (· + 2)

/-- The ranges of the device address map (Table 09-2). -/
def State.mapRanges (s : State) : List (Nat × Nat) :=
  (0, nearSize) :: (farBase, farSize) :: (List.range 4).map fun q => (scratchBase q, 0x800000 * imgScratch s.act q)

/-- A segment without a range: the pieces that remain. -/
def cutSeg (a n : Nat) (r : Nat × Nat) : List (Nat × Nat) :=
  if overlaps a n r.1 r.2 then
    (if r.1 < a then [(r.1, a - r.1)] else []) ++ (if a + n < r.1 + r.2 then [(a + n, r.1 + r.2 - (a + n))] else [])
  else [r]

/-- Every byte of a range lies in the address map, in whichever stores (R250): the far tier's end meets the scratchpad of Q0. -/
def State.inMap (s : State) (a n : Nat) : Bool :=
  n = 0 || (s.mapRanges.foldl (fun l r => l.flatMap (cutSeg r.1 r.2)) [(a, n)]).isEmpty

/-- Channel of a near sheet, bank, row and column (R253). -/
def nearPlace (a : Nat) : Nat × Nat × Nat × Nat :=
  let o := a / 1024 / 1024
  ((a / 1024 % 1024).xor (o % 1024) |>.xor (o / 1024), (o / 2 % 32).xor (o / 64 % 32), o / 64, o % 2)

/-- Spine, layer, bank, row and column of a far sheet (R253). -/
def farPlace (a : Nat) : Nat × Nat × Nat × Nat × Nat :=
  let x := (a - farBase) / 1024
  let o := x / 512
  ((x % 64).xor (x / 4096 % 64), (x / 64 % 8).xor (x / 262144 % 8), (o / 2 % 32).xor (o / 64 % 32), o / 64, o % 2)

/-- The bank of a scratchpad sheet (R253). -/
def stageBank (off : Nat) : Nat :=
  let q := off / 1024
  (q % 64).xor (q / 64 % 64) |>.xor (q / 4096 % 64)

/-- The channel number of an address (15_faults R449). -/
def chanOf (a : Nat) : Nat :=
  if a < nearSize then (nearPlace a).1
  else if a < farBase + farSize then 0x1000 + 8 * (farPlace a).1 + (farPlace a).2.1
  else 0x2000 + (a - scratchBase 0) / 0x8000000

/-- Bank and row of an address, as record 0x0102 packs them. -/
def bankRow (a : Nat) : Nat :=
  if a < nearSize then (nearPlace a).2.1 + 0x10000 * (nearPlace a).2.2.1
  else (farPlace a).2.2.1 + 0x10000 * (farPlace a).2.2.2.1

def Chan.reset : Chan := { fenced := false, warned := false, events := [], lowSince := none, corrected := 0, reissued := 0 }
def chanD : Nat → Chan := fun _ => Chan.reset
def State.chan (s : State) (c : Nat) : Chan := AMap.get chanD s.mem.chans c
def State.setChan (s : State) (c : Nat) (x : Chan) : State := { s with mem.chans := AMap.set chanD s.mem.chans c x }

/-- Whether a sheet maps to a fenced channel; scratchpads are never fenced (R274). -/
def State.fenced (s : State) (sheet : Nat) : Bool :=
  decide (sheet * 1024 < scratchBase 0) && (s.chan (chanOf (sheet * 1024))).fenced

/-- What a byte that nothing has written reads as: 0 (Table 09-11), or a free value where the contents are undefined. -/
def Mem.dflt (m : Mem) (a : Nat) : Byte :=
  match m.undef.find? fun r => decide (r.1 ≤ a) && decide (a < r.1 + r.2.1) with
  | some r => (Config.freeValue (r.2.2 + (a - r.1))).truncate 8
  | none => 0

/-- A range without another range: the pieces that remain, with the indices of their free values. -/
def cutRange (a n : Nat) (r : Nat × Nat × Nat) : List (Nat × Nat × Nat) :=
  if overlaps a n r.1 r.2.1 then
    (if r.1 < a then [(r.1, a - r.1, r.2.2)] else []) ++
    (if a + n < r.1 + r.2.1 then [(max r.1 (a + n), r.1 + r.2.1 - max r.1 (a + n), r.2.2 + (max r.1 (a + n) - r.1))] else [])
  else [r]

/-- The canonical form of the stores: every map rises strictly and lists no default. -/
def Mem.wf (m : Mem) : Bool := AMap.wf m.dflt m.bytes && AMap.wf noMark m.poison && AMap.wf noMark m.fence

/-- A range without contents: its bytes are no longer listed, nor undefined. -/
def Mem.clear (m : Mem) (a n : Nat) : Mem :=
  { m with bytes := AMap.drop m.bytes fun k => decide (a ≤ k) && decide (k < a + n), undef := m.undef.flatMap (cutRange a n) }

/-- The contents of a range become undefined: free values, from an index on, until written. -/
def Mem.undefine (m : Mem) (a n i : Nat) : Mem := { m.clear a n with undef := (m.clear a n).undef ++ [(a, n, i)] }

/-- A range reads +0 and carries no mark. -/
def Mem.zero (m : Mem) (a n : Nat) : Mem :=
  { m.clear a n with poison := AMap.drop m.poison fun k => within (k * 1024) 1024 a n }

/-- The contents of a range become undefined. -/
def State.undefine (s : State) (a n : Nat) : State :=
  if n = 0 then s else { s with mem := s.mem.undefine a n s.free, free := s.free + n }

/-- A byte as a read returns it: 0 from a fenced channel (R274). -/
def State.memByte (s : State) (a : Nat) : Byte := if s.fenced (a / 1024) then 0 else AMap.get s.mem.dflt s.mem.bytes a

/-- The bytes of a range. -/
def State.memRead (s : State) (a n : Nat) : Bytes := (List.range n).map fun i => s.memByte (a + i)

/-- A sheet's poison mark as a read returns it. -/
def State.poisoned (s : State) (sheet : Nat) : Bool := s.fenced sheet || AMap.get noMark s.mem.poison sheet

/-- Whether any sheet of a range is poisoned. -/
def State.rangePoisoned (s : State) (a n : Nat) : Bool := (sheetRange a n).any s.poisoned

/-- A little-endian number in memory. -/
def State.memNat (s : State) (a n : Nat) : Nat := unle (s.memRead a n)

/-- The tier index of a sheet, folded by the XOR of its 12-bit fields (R257). -/
def foldSheet (sheet : Nat) : Nat :=
  let t := if sheet * 1024 < nearSize then sheet else sheet - farBase / 1024
  (t % 4096).xor (t / 4096 % 4096) |>.xor (t / 16777216 % 4096)

def noLines : Nat → List Line := fun _ => []

/-- The set of a quire's cache that a sheet maps to (R257). -/
def State.setOf (s : State) (q : Quire) (sheet : Nat) : Nat := foldSheet sheet % (512 * imgCache s.act q.val)

/-- Drops a sheet's line from all four caches (R258). -/
def State.invalidate (s : State) (sheet : Nat) : State :=
  { s with mem.caches := s.mem.caches.mapIdx fun q c =>
      let k := foldSheet sheet % (512 * imgCache s.act q)
      AMap.set noLines c k ((AMap.get noLines c k).filter fun l => l.sheet ≠ sheet) }

/-- Drops a sheet's line of one quire's cache (R259). -/
def State.dropLine (s : State) (q : Quire) (sheet : Nat) : State :=
  let c := s.mem.caches[q]
  let k := s.setOf q sheet
  { s with mem.caches := s.mem.caches.set q (AMap.set noLines c k ((AMap.get noLines c k).filter fun l => l.sheet ≠ sheet)) }

/-- The line that a quire's cache holds of a sheet. -/
def State.lineOf (s : State) (q : Quire) (sheet : Nat) : Option Line :=
  (AMap.get noLines s.mem.caches[q] (s.setOf q sheet)).find? fun l => l.sheet = sheet

/-- A read of a tier sheet through a quire's cache: the poison mark delivered, and the cache after it. A hit keeps the
line's mark and makes it the most recent; a miss allocates, dropping the least recent of 16 (R257 R259). A line with an
uncorrectable staging error is delivered poisoned and not retained (R259). -/
def State.cacheRead (s : State) (q : Quire) (sheet : Nat) : Bool × State :=
  if imgCache s.act q.val = 0 || decide (scratchBase 0 ≤ sheet * 1024) then (s.poisoned sheet, s)
  else
    let c := s.mem.caches[q]
    let k := s.setOf q sheet
    let ls := AMap.get noLines c k
    let line := (s.lineOf q sheet).getD { sheet := sheet, poison := s.poisoned sheet, bad := false }
    if line.bad then (true, s.dropLine q sheet)
    else
    let ls := (line :: ls.filter fun l => l.sheet ≠ sheet).take 16
    (line.poison, { s with mem.caches := s.mem.caches.set q (AMap.set noLines c k ls) })

/-- Sets or clears a sheet's stored mark. -/
def State.mark (s : State) (sheet : Nat) (p : Bool) : State := { s with mem.poison := AMap.set noMark s.mem.poison sheet p }

/-- Checkpoints that still copy their image. -/
def Ckpt.copying (k : Ckpt) : Bool := decide (k.st = .copying)

/-- A page that a checkpoint protects: the copy frontier has not passed it, and no hold has saved it (14_checkpoint R429). -/
def Ckpt.protects (k : Ckpt) (page : Nat) : Bool :=
  k.copying && k.prot.any fun x => x.1 = page && decide (k.frontier < x.2)

/-- Whether a range holds a protected page (R429 R430). -/
def State.protectedIn (s : State) (a n : Nat) : Bool :=
  s.ckpts.any fun k => k.copying && k.prot.any fun x => k.frontier < x.2 && overlaps a n (x.1 * 65536) 65536

/-- A write to a protected page is held (R429): the page's bytes are kept for the copy as they stand before the write, and the
page waits for its copy. The write itself lands in the same step (log entry 23). -/
def State.holdPage (s : State) (a : Nat) : State :=
  let page := a / 65536
  let fresh := fun (k : Ckpt) => k.protects page && !(k.saved.map SavedPage.page).contains page
  if s.ckpts.any fresh then
    let x : SavedPage := { page := page, data := s.memRead (page * 65536) 65536, poison := (sheetRange (page * 65536) 65536).filter s.poisoned }
    { s with
      ckpts := s.ckpts.map fun k => if fresh k then { k with saved := k.saved ++ [x] } else k
      held := s.held ++ [(page, s.clock)] }
  else s

/-- Writes bytes that lie in one sheet: discarded and recorded where the channel is fenced (R274); poisoned data marks the sheet, an
unpoisoned write of the whole sheet clears the mark and a partial one leaves it (07_movement R221). DESIGN CHOICE (log entry 162): R257 lets a
write through a cache update a present line, and R258 has a write invalidate the sheet's line in all four caches; here it is dropped in all. -/
def State.writeSheet (s : State) (a : Nat) (d : Bytes) (poison : Bool) : State :=
  let sh := a / 1024
  if s.fenced sh then { s with mem.fence := AMap.set noMark s.mem.fence sh true }
  else
    let s := s.holdPage a
    let s := { s with mem.bytes := wrMapD s.mem.dflt s.mem.bytes a d }
    let s := s.invalidate sh
    if poison then s.mark sh true else if d.length = 1024 then s.mark sh false else s

/-- Writes a range of bytes sheet by sheet; `poison` gives each sheet's mark. -/
def State.memWriteP (s : State) (a : Nat) (d : Bytes) (poison : Nat → Bool) : State :=
  (sheetsOf a d).foldl (fun s x => s.writeSheet x.1 x.2 (poison (x.1 / 1024))) s

/-- Writes unpoisoned bytes. -/
def State.memWrite (s : State) (a : Nat) (d : Bytes) : State := s.memWriteP a d noMark

/-- Marks every sheet that a range meets (07_movement R219 R220); a fenced channel's sheet goes to the fence record. -/
def State.poisonRange (s : State) (a n : Nat) : State :=
  (sheetRange a n).foldl (fun s sh =>
    if s.fenced sh then { s with mem.fence := AMap.set noMark s.mem.fence sh true }
    else (s.mark sh true).invalidate sh) s

/-- Zeroes a range and clears its marks (R279, Table 09-11). -/
def State.zeroRange (s : State) (a n : Nat) : State :=
  { s with mem := { s.mem.zero a n with caches := s.mem.caches.map fun c =>
             (c.map fun kv => (kv.1, kv.2.filter fun l => !within (l.sheet * 1024) 1024 a n)).filter fun kv => kv.2 ≠ [] } }

/-- The region that holds a range, if one region does. -/
def State.regionOf (s : State) (a n : Nat) : Option Region := s.mem.regions.find? fun r => within a n r.base r.size

/-- Whether every byte of a range lies in regions mapped to a context. -/
def State.mappedTo (s : State) (c a n : Nat) : Bool :=
  (sheetRange a n).all fun sh => s.mem.regions.any fun r => r.ctx = c && within (sh * 1024) 1024 r.base r.size

/-! ## Channel errors (R271-R275) -/

/-- Counts events of a channel and raises the corrected-error warning when more than 256 fall within 10 s (R275). The
Boolean says whether a warning was raised. -/
def State.countChan (s : State) (c n : Nat) (corrected : Bool) (inj : Bool) : Bool × State :=
  let x := s.chan c
  let ev := (x.events.filter fun t => s.clock < t + 10000000000) ++ List.replicate n s.clock
  let warn := decide (256 < ev.length) && !x.warned
  let x := { x with
    events := ev.drop (ev.length - 257)
    lowSince := if 64 < ev.length then some (ev.getD (ev.length - 65) 0 + 10000000000) else x.lowSince
    warned := x.warned || warn
    corrected := if corrected then x.corrected + n else x.corrected
    reissued := if corrected then x.reissued else x.reissued + n }
  let s := s.setChan c x
  (warn, if warn then s.nativeI inj 2 0x0103 c 0 ev.length else s)

/-- Drops every line of a channel's sheets from the four caches: a read must find what the fenced channel returns (R260 R274). -/
def State.dropChan (s : State) (c : Nat) : State :=
  { s with mem.caches := s.mem.caches.map fun m =>
      (m.map fun kv => (kv.1, kv.2.filter fun l => chanOf (l.sheet * 1024) ≠ c)).filter fun kv => kv.2 ≠ [] }

/-- Fences a channel: its marks become those of its fence record, and the Guard reports it (R274). -/
def State.fenceChan (s : State) (c : Nat) (inj : Bool) : State :=
  if (s.chan c).fenced then s
  else ((s.setChan c { s.chan c with fenced := true }).dropChan c).nativeI inj 5 0x0104 c 0 0

/-- An uncorrectable codeword or staging word: the sheet is marked in place, which invalidates its lines (R258), with an error
record (R272 R273, Table 15-3). The tag and unit are those of the command that read it. -/
def State.uncorrectable (s : State) (a : Nat) (tag : W32) (unit : Byte) (inj : Bool) : State :=
  let s := (s.mark (a / 1024) true).invalidate (a / 1024)
  if a < scratchBase 0 then
    s.addRec 3 3 0x0102 0xFF inj unit (nativeBody tag (chanOf a) a (bankRow a))
  else s.addRec 3 3 0x0105 0xFF inj unit (nativeBody tag ((a - scratchBase 0) / 0x8000000) a 0)

/-! ## Traces (15_faults R472) -/

/-- Whether a buffer records a command of a context on an engine. -/
def Trace.takes (t : Trace) (c : Nat) (e : EngId) (tag : W32) (flag : Bool) : Bool :=
  t.capturing && t.ctx = c && bit t.mask.toNat e.val && (flag || (tag &&& t.tagMask) = t.tagValue)

/-- Adds a record to a buffer: a full buffer drops the oldest or the new one, which is then counted. -/
def Trace.add (t : Trace) (r : TraceRec) : Trace :=
  if (t.recs.length + 1) * 32 ≤ t.size then { t with recs := t.recs ++ [r] }
  else if t.overwrite then { t with recs := t.recs.drop 1 ++ [r], first := t.first + 1, dropped := t.dropped + 1 }
  else { t with dropped := t.dropped + 1 }

def State.trace (s : State) (c : Nat) (e : EngId) (flag : Bool) (r : TraceRec) : State :=
  { s with traces := s.traces.map fun t => if t.takes c e r.tag flag then t.add r else t }

/-! ## Engines -/

/-- The class of an instance: 0 MXE, 1 VXE, 2 CPE, 3 OPE, 4 RTE (13_collation Table 13-3). -/
def engClass (e : EngId) : Nat := if e.val < 36 then e.val % 3 else if e.val < 40 then 3 else 4
/-- The logical folio or the quire of an instance. -/
def engUnit (e : EngId) : Nat := if e.val < 36 then e.val / 3 else if e.val < 40 then e.val - 36 else e.val - 40
/-- The instance of a class and unit. -/
def engOf (cls unit : Nat) : Option EngId :=
  let v := if cls < 3 then 3 * unit + cls else if cls = 3 then 36 + unit else 40 + unit
  if h : v < 44 then (if cls < 3 && unit < 12 || (cls = 3 || cls = 4) && unit < 4 then some ⟨v, h⟩ else none) else none

/-- The physical folio of a logical folio. -/
def State.physOf (s : State) (l : Nat) : Option Phys := if h : l < 12 then s.frw.map[l] else none

/-- The quire of a logical folio, by its physical place (00_scope R5). -/
def State.quireOf (s : State) (l : Nat) : Quire :=
  match s.physOf l with
  | some p => Fin.ofNat 4 (p.val / 3)
  | none => Fin.ofNat 4 (if s.frw.fullLeaf then l / 3 else l / 2)

def State.engQuire (s : State) (e : EngId) : Quire :=
  if e.val < 36 then s.quireOf (engUnit e) else Fin.ofNat 4 (engUnit e)

/-- UNIT of Table 06-12. -/
def State.unitByte (s : State) (e : EngId) : Byte :=
  if e.val < 36 then
    BitVec.ofNat 8 (engUnit e + 16 * ((s.physOf (engUnit e)).map (·.val)).getD 15)
  else BitVec.ofNat 8 (engUnit e + 0xF0)

/-! ## Sync counters (06_programs R186-R191): the counter is 512 x folio + index. -/

def State.ctr (s : State) (c : Nat) : W32 := AMap.get zero32 s.counters c
def State.setCtr (s : State) (c : Nat) (v : W32) : State := { s with counters := AMap.set zero32 s.counters c v }

/-- A replay of the schedule has started; only learning phases run in it. -/
def Sched.inReplay (x : Sched) : Bool := match x.replay with | some r => r.started | none => false

/-- The current step's next barrier message is still to be sent, and takes the flags of now; else the first barrier to follow is that of
a later pass (08_conditional R244; log entry 158). -/
def Sched.takesFlags (x : Sched) : Bool :=
  !x.bar.upSent && (x.coll.state = .running || x.coll.state = .waiting || x.inReplay)

/-- Sets collation flags of the collated schedule's step (13_collation Table 13-4). -/
def Sched.flag (x : Sched) (m : BitVec 16) : Sched :=
  if x.takesFlags then { x with coll := { x.coll with flags := x.coll.flags ||| m } }
  else { x with later := { x.later with flags := x.later.flags ||| m } }

def State.colFlag (s : State) (m : BitVec 16) : State :=
  { s with scheds := s.scheds.map fun x => if x.collated && x.active then x.flag m else x }

/-- What generation phases raised after the last message joins the pass that begins (08_conditional R244). -/
def Sched.mergeLater (x : Sched) : Sched :=
  { x with
    coll := { x.coll with
      flags := x.coll.flags ||| x.later.flags, arbTodo := x.coll.arbTodo ||| x.later.arbTodo, arbFailed := x.coll.arbFailed ||| x.later.arbFailed }
    later := { flags := 0, arbTodo := 0, arbFailed := 0 } }

/-- Adds to a counter. Above 0xFFFF_FFFF it stays there, with record 0x0404, and the step is not collated (R191). -/
def State.addCtr (s : State) (c n : Nat) (ctx : Nat) (unit : Byte) (tag : W32) : State :=
  let v := (s.ctr c).toNat + n
  if v < 2 ^ 32 then s.setCtr c (BitVec.ofNat 32 v)
  else ((s.setCtr c 0xFFFFFFFF#32).nativeE 3 0x0404 ctx unit tag c 0 0).colFlag 8#16

/-! ## Armed faults (15_faults R475) -/

/-- The use of a target meets an armed fault of a TYPE: the fault, and the state with one use less of it. -/
def State.meet (s : State) (type target : Nat) : Option (Latent × State) :=
  (s.latents.find? fun l => l.type = type && l.target = target).map fun l =>
    (l, { s with latents := s.latents.flatMap fun y => if y = l then (if l.left ≤ 1 then [] else [{ l with left := l.left - 1 }]) else [y] })

/-! ## Resets requested -/

/-- Requests a compute-partition reset (15_faults R446); a request that stands is joined (R461). -/
def State.askPartition (s : State) (cause : Option Nat) (noCount : Bool) : State :=
  if s.guard.resetReq.isSome then s else { s with guard.resetReq := some (.partition cause noCount) }

/-- The Guard raises the supply to at least 0.70 V before an engine begins work (16_guard R498), outside the emergency point. -/
def State.raiseSupply (s : State) : State :=
  if s.guard.supply.opPoint = .emergency then s
  else { s with guard.supply.vtarget := Nat.max s.guard.supply.vtarget 700 }

/-! ## Device identity -/

/-- The bytes of a device identifier. -/
def devBytes : Bytes := le 8 Config.devId.toNat

end Sys2Proof.Machine
end

