-- ==== Sys2Proof/Machine/Ledger.lean ====
section
/-! DEFINITION. The step ledger: its areas, update descriptors and their halves, the receive log, and the replay in which a stream runs (13_collation R388-R391
R397). -/

namespace Sys2Proof.Machine

/-! ## Areas (Table 13-1) -/

def State.ledgerBase (s : State) : Nat := farBase + imgLedgerBase s.act
def State.inputBase (s : State) : Nat := s.ledgerBase + 0x100000
def State.logBase (s : State) : Nat := s.inputBase + imgColInput s.act
def State.logEnd (s : State) : Nat := s.ledgerBase + imgLedgerSize s.act
def State.versoBase (s : State) : Nat := farBase + imgVersoBase s.act

/-- A range that meets the ledger's input area (R388). -/
def State.inInput (s : State) (a n : Nat) : Bool := overlaps a n s.inputBase (imgColInput s.act)

/-! ## Descriptors and halves (R384 R386) -/

/-- The place of a descriptor among those of its kind, recto or verso. -/
def ordinalOf (i : Image) (d : Nat) : Nat :=
  match i.updates[d]? with
  | some u => ((i.updates.take d).filter fun v => v.verso = u.verso).length
  | none => 0

/-- The indices of the recto, or of the verso, descriptors. -/
def descsOf (i : Image) (verso : Bool) : List Nat :=
  (List.range i.updates.length).filter fun d => ((i.updates[d]?).map UpdateE.verso).getD false = verso

/-- The last collated half of a descriptor: true for half B. Without a record it starts with half A (13_collation R386). -/
def State.lastHalf (s : State) (u : UpdateE) : Bool := ((s.ledger.recs.find? fun r => r.masterA = u.masterA).map CollRec.halfB).getD false

def UpdateE.master (u : UpdateE) (b : Bool) : Nat := if b then u.masterB else u.masterA
def UpdateE.mom1 (u : UpdateE) (b : Bool) : Nat := if b then u.mom1B else u.mom1A
def UpdateE.mom2 (u : UpdateE) (b : Bool) : Nat := if b then u.mom2B else u.mom2A

/-- A kind with a first, and with a second, moment. -/
def UpdateE.hasMom1 (u : UpdateE) : Bool := decide (1 ≤ u.kind) && decide (u.kind ≤ 3)
def UpdateE.hasMom2 (u : UpdateE) : Bool := u.kind = 2

/-! ## Streams in a replay (R397 R399 R402) -/

/-- A learning phase of a schedule. -/
def Sched.learning (x : Sched) (phase : Nat) : Bool := !((x.image.phases[phase]?).map PhaseE.gen).getD false

/-- A replay of learning phases has started: capture copies write nothing. -/
def Sched.replaying (x : Sched) (phase : Nat) : Bool :=
  x.learning phase && (match x.replay with | some r => r.started | none => false)

/-- A local or diagnostic replay: remote operations send nothing. -/
def Sched.alone (x : Sched) (phase : Nat) : Bool :=
  x.learning phase && (match x.replay with | some r => r.started && decide (r.kind ≠ .group) | none => false)

/-- A local or diagnostic replay: the updates follow the vote record (R397). The real pass of a probe step votes (10_numerics R296). -/
def Sched.byRecord (x : Sched) (phase : Nat) : Bool :=
  x.learning phase && (match x.replay with | some r => r.started && (decide (r.kind = .localReplay) || decide (r.kind = .diagnostic)) | none => false)

/-- The step of a feed item. -/
def feedStepOf : FeedItem → Nat
  | .control n _ _ => n
  | .input n _ _ => n
  | .log n _ _ => n
  | .vote n _ => n
  | .digests n _ _ => n

/-- An item that the working device of a shadow pair writes into its ledger: it sends it while it feeds (R415). -/
def State.feed (s : State) (x : FeedItem) : State :=
  match s.shadow.feedTo with
  | some r => if s.shadow.feedFrom ≤ feedStepOf x then s.emit (.feed r x) else s
  | none => s

/-- A remote operation of a stream has begun: it counts in ISSUE of the collated schedule (R390). -/
def State.countIssue (s : State) (e : EngId) (x : Sched) : State :=
  if x.collated then s.setEng e { s.engines[e] with issue := s.engines[e].issue + 1 } else s

/-! ## The receive log (R389-R391) -/

/-- The collated schedule whose learning phases log what arrives for its context. -/
def State.logs (s : State) (ctx : Nat) : Option Sched :=
  match s.collated with
  | some x => if x.ctx = ctx && x.runs.any (fun r => r.inProgress && !r.gen) && !(match x.replay with | some r => r.started && decide (r.kind ≠ .group) | none => false)
      then some x else none
  | none => none

/-- ISSUE of a record: 44 counts. -/
def State.issueBytes (s : State) : Bytes := (List.finRange 44).flatMap fun e => le 4 s.engines[e].issue

/-- A record header of the receive log (Table 13-3). -/
def State.logHeader (s : State) (kind len : Nat) (src : DevId) (res : W64) (target flags : Nat) : Bytes :=
  le 4 kind ++ le 4 len ++ le 8 src.toNat ++ le 8 res.toNat ++ le 8 target ++ le 8 s.ledger.logIdx ++ le 4 flags ++ le 20 0 ++
    s.issueBytes ++ le 16 0

/-- Writes an item into the receive log; a full log overflows and the item is not logged (R391). -/
def State.logItem (s : State) (ctx kind : Nat) (src : DevId) (res : W64) (target flags : Nat) (data : Bytes) : State :=
  match s.logs ctx with
  | none => s
  | some _ =>
    let rec_ := s.logHeader kind data.length src res target flags ++ padTo 64 data
    let a := s.logBase + s.ledger.logPos
    if s.logEnd < a + rec_.length then { (s.nativeE 3 0x0505 ctx 0xFF 0 0 0 0) with ledger.overflow := true }
    else
      let s := (s.memWrite a rec_).feed (.log s.ledger.step s.ledger.logPos rec_)
      { s with ledger.logPos := s.ledger.logPos + rec_.length
               ledger.logIdx := s.ledger.logIdx + 1
               ledger.incomplete := s.ledger.incomplete || bit flags 1 }

end Sys2Proof.Machine
end

