-- ==== Sys2Proof/Machine/Cut.lean ====
section
/-! DEFINITION. Checkpoints as other units meet them: the slots of the far tier and their seals, the begin of a checkpoint, by
command or by a warning, and the cut with its image and its protected pages (14_checkpoint R419-R429 R434 R436). -/

namespace Sys2Proof.Machine

/-! ## The copy area and the slots (R422 R436) -/

def State.copyArea (s : State) : Nat := farBase + imgCkptBase s.act
def State.slotBase (s : State) (k : Nat) : Nat := s.copyArea + imgCopySize s.act + k * imgSlotSize s.act

/-- The share of a slot (R422). -/
def State.share (s : State) : Nat := (imgSlotSize s.act - 65536) / imgGroupSize s.act / 1024 * 1024

/-- Where a source's piece begins in a slot. -/
def State.pieceAt (s : State) (k d : Nat) : Nat := s.slotBase k + 65536 + d * s.share

/-- The piece size of an image (R434). -/
def State.pieceSize (s : State) (len : Nat) : Nat := ceilDiv len (imgCkpData s.act * 1024) * 1024

/-- FORMAT of an image and of a seal: this part and Serloth major version 1 (11_time Table 11-4). -/
def ckFormat : Nat := 0x00010512

/-- A slot's seal names this part and version, and its hash matches the record (R436). -/
def State.slotValid (s : State) (k : Nat) : Bool :=
  let b := s.slotBase k
  let n := s.memNat (b + 0x10) 8
  imgSlotSize s.act ≠ 0 && s.memNat b 4 % 0x1000000 = ckFormat && decide (n ≤ 0xFC00) &&
    s.memRead (b + 0x18) 32 = sha512t256 (s.memRead (b + 0x400) n)

/-- CKPT_ID of a slot's seal. -/
def State.slotId (s : State) (k : Nat) : Nat := s.memNat (s.slotBase k + 8) 8

/-- The valid slot with the higher CKPT_ID. -/
def State.newestSlot (s : State) : Option Nat :=
  match s.slotValid 0, s.slotValid 1 with
  | true, true => some (if s.slotId 0 < s.slotId 1 then 1 else 0)
  | true, false => some 0
  | false, true => some 1
  | false, false => none

/-- The highest CKPT_ID committed on this device. -/
def State.highestId (s : State) : Nat := (s.newestSlot.map s.slotId).getD 0

/-! ## The image (R419 R420) -/

def sheetUp (n : Nat) : Nat := ceilDiv n 1024 * 1024

/-- The last collated step of a schedule: its own, or that of the collation records. -/
def State.lastStep (s : State) (x : Sched) : Option Nat :=
  match x.lastCollated with
  | some n => some n
  | none => (s.ledger.recs.find? fun r => x.image.updates.any fun u => u.masterA = r.masterA).map CollRec.step

/-- The moments of a segment, in the format that NARROW selects. -/
def planMoments (narrow off src count : Nat) : List CkItem :=
  let n := 4 * count
  match narrow with
  | 0 => [{ off := off, len := n, src := src, srcLen := n, fmt := 0 }]
  | 1 => [{ off := off, len := 2 * count, src := src, srcLen := n, fmt := 1 }]
  | _ => [{ off := off, len := count, src := src, srcLen := n, fmt := 6 },
          { off := off + sheetUp count, len := ceilDiv count 32, src := src, srcLen := n, fmt := 7 }]

/-- The sheet after a list of items. -/
def planEnd (l : List CkItem) (off : Nat) : Nat :=
  match l.getLast? with
  | some i => sheetUp (i.off + i.len)
  | none => off

/-- A segment: the step count, the master weights, the first and the second moments. -/
structure Segment where
  base : List CkItem
  mom1 : List CkItem
  mom2 : List CkItem
  deriving DecidableEq, Repr

def Segment.items (g : Segment) : List CkItem := g.base ++ g.mom1 ++ g.mom2

def planSegment (u : UpdateE) (b : Bool) (narrow off : Nat) : Segment :=
  let base : List CkItem :=
    [{ off := off, len := 8, src := u.master b, srcLen := 8, fmt := 0 },
     { off := off + 1024, len := 4 * u.count, src := u.master b + 8, srcLen := 4 * u.count, fmt := 0 }]
  let o := planEnd base off
  let m1 := if u.hasMom1 then planMoments narrow o (u.mom1 b) u.count else []
  let m2 := if u.hasMom2 then planMoments narrow (planEnd m1 o) (u.mom2 b) u.count else []
  { base := base, mom1 := m1, mom2 := m2 }

/-- The segments of the recto descriptors in ascending index, with the offset after them. -/
def State.planSegments (s : State) (narrow : Nat) : List UpdateE → Nat → List (UpdateE × Segment)
  | [], _ => []
  | u :: us, off =>
    let g := planSegment u (s.lastHalf u) narrow off
    (u, g) :: s.planSegments narrow us (planEnd g.items off)

/-- The carry extents in list order. -/
def planCarry : List Carry → Nat → List CkItem
  | [], _ => []
  | c :: cs, off => { off := off, len := c.len, src := c.addr, srcLen := c.len, fmt := 0 } :: planCarry cs (off + sheetUp c.len)

/-- The scale table and the monitor state. -/
def planNumerics (n : Option NumE) : List CkItem :=
  match n with
  | none => []
  | some n =>
    let a := 32 * n.nTensors
    (if a = 0 then [] else [{ off := 0x2000, len := a, src := n.tableAddr, srcLen := a, fmt := 0 }]) ++
    (if n.mons = [] then [] else
      [{ off := 0x2000 + sheetUp a, len := 8 * n.mons.length, src := n.monAddr, srcLen := 8 * n.mons.length, fmt := 0 }])

/-- The recto descriptors of a schedule. -/
def Sched.rectos (x : Sched) : List UpdateE := x.image.updates.filter fun u => !u.verso

/-- The segments of a schedule's image. -/
def State.segments (s : State) (x : Sched) (narrow : Nat) : List (UpdateE × Segment) :=
  s.planSegments narrow x.rectos (planEnd (planNumerics x.image.num) 0x2000)

/-- Every item of the image after the directory. -/
def State.imagePlan (s : State) (x : Sched) (narrow : Nat) (carry : List Carry) : List CkItem :=
  let a := planNumerics x.image.num ++ (s.segments x narrow).flatMap fun g => g.2.items
  a ++ planCarry carry (planEnd a 0x2000)

/-- IMAGE_LEN. -/
def State.imageLen (s : State) (x : Sched) (narrow : Nat) (carry : List Carry) : Nat := planEnd (s.imagePlan x narrow carry) 0x2000

/-- MFMT of NARROW. -/
def momFormat (narrow : Nat) : Nat := if narrow = 0 then 0 else if narrow = 1 then 1 else 6

/-- A directory entry (Table 14-2). -/
def dirEntry (k narrow : Nat) (g : UpdateE × Segment) : Bytes :=
  let at_ := fun (l : List CkItem) => (l.head?.map CkItem.off).getD 0
  le 1 k ++ le 1 g.1.kind ++ le 1 g.1.wfmt ++ le 1 (momFormat narrow) ++ le 4 0 ++ le 8 g.1.shardOff ++ le 8 g.1.count ++
    le 8 (at_ g.2.base) ++ le 8 (at_ g.2.mom1) ++ le 8 (at_ g.2.mom2)

/-- Header, carry list and directory: the first 8 KiB of the image (Table 14-1). -/
def State.imageHead (s : State) (k : Ckpt) (x : Sched) (cut len : Nat) : Bytes :=
  let segs := s.segments x k.narrow
  let n := x.image.num
  let head := le 4 ckFormat ++ le 8 k.setId.toNat ++ le 8 k.id ++ le 8 cut ++ devBytes ++ le 1 (imgGroupIndex s.act) ++ le 1 k.narrow ++
    le 1 segs.length ++ le 1 k.carry.length ++ le 2 ((n.map NumE.nTensors).getD 0) ++ le 2 ((n.map fun m => m.mons.length).getD 0) ++ le 8 len
  let carry := k.carry.flatMap fun c => le 8 c.addr ++ le 8 c.len
  padTo 0x100 head ++ sub carry 0 0x300 ++ sub ((segs.mapIdx fun i g => dirEntry i k.narrow g).flatten) 0 0x1C00

/-! ## The cut (R426 R429) -/

/-- The image bytes that n source bytes of an item make. -/
def CkItem.imageBytes (i : CkItem) (n : Nat) : Nat :=
  if i.fmt = 0 then n else if i.fmt = 1 then ceilDiv n 2 else if i.fmt = 6 then ceilDiv n 4 else ceilDiv n 128

/-- The pages of an item's source, each with the image offset past which the frontier releases it. -/
def CkItem.pages (i : CkItem) : List (Nat × Nat) :=
  if i.srcLen = 0 then []
  else (List.range ((i.src + i.srcLen - 1) / 65536 - i.src / 65536 + 1)).map fun j =>
    let p := i.src / 65536 + j
    (p, i.off + i.imageBytes (Nat.min (i.src + i.srcLen) ((p + 1) * 65536) - i.src))

/-- The cut of a begun checkpoint: its image is fixed and its sources are protected. -/
def State.cutAt (s : State) (x : Sched) (cut : Nat) : State :=
  { s with ckpts := s.ckpts.map fun k =>
      if k.st ≠ .begun then k
      else
        let plan := s.imagePlan x k.narrow k.carry
        let len := planEnd plan 0x2000
        { k with st := .copying, cut := cut, cutAt := s.clock, plan := plan, imageLen := len, head := s.imageHead k x cut len,
                 frontier := 0, prot := plan.flatMap CkItem.pages } }

def State.hasBegun (s : State) : Bool := s.ckpts.any fun k => k.st = .begun

/-- A begun checkpoint meets its cut: its step is collated, or the schedule has left RUNNING, which falls back to the last collated
step (R426). -/
def State.cutCheck (s : State) : State :=
  match s.ckpts.find? fun k => k.st = .begun with
  | none => s
  | some k =>
    match s.collated with
    | none => s
    | some x =>
      match s.lastStep x with
      | none => s
      | some n => if k.cut ≤ n then s.cutAt x k.cut else if x.state = .running then s else s.cutAt x n

/-- The schedule is about to be removed (R440). -/
def State.cutBefore (s : State) (id : Nat) : State :=
  if !s.hasBegun then s
  else match s.sched id with
    | some x => if x.collated then s.cutAt x ((s.lastStep x).getD 0) else s
    | none => s

/-! ## Beginning a checkpoint (R424-R427) -/

/-- A checkpoint in states 1 to 4. -/
def Ckpt.live (k : Ckpt) : Bool :=
  match k.st with
  | .begun | .copying | .draining | .committing => true
  | _ => false

def State.ckptLive (s : State) : Bool := s.ckpts.any Ckpt.live

/-- The KIND 3 window of a schedule, as offsets from the step's start; an empty one where it has none. -/
def Sched.drainWindow (x : Sched) : Nat × Nat :=
  match x.image.bgs.find? fun b => b.kind = 3 with
  | some b => (b.start, b.stop)
  | none => (0, 0)

def meets (a b : Nat × Nat) : Bool := decide (max a.1 b.1 < min a.2 b.2)

/-- Every two windows of a list intersect. -/
def allMeet : List (Nat × Nat) → Bool
  | [] => true
  | w :: ws => ws.all (meets w) && allMeet ws

/-- Every CKP_RES_g of another member is installed as a source hop with RATE above 0. -/
def State.drainResOk (s : State) : Bool :=
  (List.range (imgGroupSize s.act)).all fun g => g = imgGroupIndex s.act ||
    s.hops.any fun h => h.resId = imgCkpRes s.act g && h.role = 0 && decide (0 < h.rate)

/-- A carry extent is sheet-aligned and lies in a region mapped to the context. -/
def State.carryOk (s : State) (ctx : Nat) (c : Carry) : Bool :=
  c.addr % 1024 = 0 && c.len % 1024 = 0 && s.mem.regions.any fun r => r.ctx = ctx && within c.addr c.len r.base r.size

/-- The DETAIL values of R427 that this device's own state refuses a begin with. -/
def State.ownRefusals (s : State) (ctx narrow : Nat) (carry : List Carry) : List Nat :=
  let x := s.collated.filter fun x => x.ctx = ctx
  let len := (x.map fun x => s.imageLen x narrow carry).getD 0
  (if s.ckptLive then [1] else []) ++
  (if (x.bind s.lastStep).isNone then [2] else []) ++
  (if imgCopySize s.act < len || s.share < s.pieceSize len || imgCkptSize s.act < imgCopySize s.act + 2 * imgSlotSize s.act then [3] else []) ++
  (if s.drainResOk then [] else [5]) ++
  (if carry.all (s.carryOk ctx) then [] else [6])

/-- The DETAIL values that the members' replies refuse a begin with. -/
def State.peerRefusals (s : State) (x : Sched) (replies : List MemberReply) : List Nat :=
  let others := (List.range (imgGroupSize s.act)).filter fun g => g ≠ imgGroupIndex s.act
  (if replies.any fun r => !r.accept then [1] else []) ++
  (if replies.any fun r => !r.fits || decide (s.share < s.pieceSize r.imageLen) then [3] else []) ++
  (if others.all fun g => replies.any fun r => r.index = g then [] else [4]) ++
  (if replies.all MemberReply.resOk && (x.state ≠ .running || allMeet (x.drainWindow :: replies.map fun r => (r.winStart, r.winEnd))) then [] else [5])

/-- A new checkpoint in BEGUN. -/
def Ckpt.new (id slot narrow cut init ctx : Nat) (setId : W64) (coordinator : Bool) (carry : List Carry) (members : List MemberReply)
    (wins : List (Nat × Nat × Nat)) : Ckpt :=
  { id := id, st := .begun, reason := 0, slot := slot, narrow := narrow, cut := cut, cutAt := 0, init := init, coordinator := coordinator,
    ctx := ctx, setId := setId, carry := carry, members := members, wins := wins, head := [], plan := [], imageLen := 0, frontier := 0, poisonSrc := none,
    acked := [], resends := [], hashes := [], heldPages := 0, heldNs := 0, prot := [], saved := [] }

/-- The payload of OP 1 (Table 14-5a). -/
def beginBytes (init narrow id cut : Nat) (win : Nat × Nat) : Bytes :=
  le 1 1 ++ le 1 init ++ le 1 narrow ++ le 5 0 ++ le 8 id ++ le 8 cut ++ le 8 win.1 ++ le 8 win.2

/-- The payload of OP 2. -/
def pieceBytes (src piece id : Nat) (hash : Bytes) : Bytes := le 1 2 ++ le 1 src ++ le 1 piece ++ le 5 0 ++ le 8 id ++ hash

/-- The payload of OP 3. -/
def listBytes (src id : Nat) (hashes : List Bytes) : Bytes := le 1 3 ++ le 1 src ++ le 1 hashes.length ++ le 5 0 ++ le 8 id ++ hashes.flatten

/-- The payload of OP 6. -/
def abortBytes (id : Nat) : Bytes := le 1 6 ++ le 7 0 ++ le 8 id

/-- Posts CKP_PEER with a payload to every member but this device. -/
def State.ckTell (s : State) (payload : Bytes) : State :=
  ((List.range (imgGroupSize s.act)).filter fun g => g ≠ imgGroupIndex s.act).foldl (fun s g => s.emit (.ckpPeer g payload)) s

/-- A begin at this device: the DETAIL of its refusal, or 0. -/
def State.tryBegin (s : State) (ctx narrow : Nat) (carry : List Carry) (replies : List MemberReply) : Nat × State :=
  match minOf (s.ownRefusals ctx narrow carry), s.collated with
  | some d, _ => (d, s)
  | none, none => (2, s)
  | none, some x =>
    let run := decide (x.state = .running)
    let cut := if run then x.step + 1 else (s.lastStep x).getD 0
    let me := imgGroupIndex s.act
    let s := s.ckTell (beginBytes me narrow (s.highestId + 1) cut x.drainWindow)
    let id := 1 + (replies.map MemberReply.highest).foldl Nat.max s.highestId
    match minOf (s.peerRefusals x replies) with
    | some d => (d, (replies.filter MemberReply.accept).foldl (fun s r => s.emit (.ckpPeer r.index (abortBytes id))) s)
    | none =>
      let k := Ckpt.new id (id % 2) narrow cut me ctx x.image.setId true carry replies (replies.map fun r => (r.index, r.winStart, r.winEnd))
      let s := { s with ckpts := k :: s.ckpts, lastCkpt := some s.clock }
      (0, if run then s else s.cutAt x cut)

/-- A warning begins a checkpoint where the conditions of R424 hold; the members' replies are free values (log entry 82). -/
def State.warnBegin (s : State) (enable : Bool) : State :=
  let p := imgCkpPolicy s.act
  let hold := match s.lastCkpt with | some t => decide (s.clock < t + bits p 16 16 * 1000000000) | none => false
  match s.collated with
  | none => s
  | some x =>
    if enable && x.state = .running && !s.ckptLive && !hold && bits p 2 2 ≠ 3 then
      (({ s with free := s.free + 1 }).tryBegin x.ctx (bits p 2 2) s.ctxs[ctxId x.ctx].carry (Config.freeReplies s.free)).2
    else s

/-- Counts events of a channel; a warning may begin a checkpoint (09_memory R275, R424). -/
def State.countWarn (s : State) (c n : Nat) (corrected inj : Bool) : State :=
  let r := s.countChan c n corrected inj
  if r.1 then r.2.warnBegin (bit (imgCkpPolicy s.act) 0) else r.2

/-- The device identifier and the image length of a group index in a checkpoint: the initiator holds the replies; another member's
view is not given by any message (log entry 82). -/
def State.member (s : State) (k : Ckpt) (g : Nat) : DevId × Nat :=
  if g = imgGroupIndex s.act then (Config.devId, k.imageLen)
  else match k.members.find? fun r => r.index = g with
    | some r => (r.devId, r.imageLen)
    | none => Config.memberInfo k.id g

def State.memberDev (s : State) (k : Ckpt) (g : Nat) : DevId := (s.member k g).1

end Sys2Proof.Machine
end

