-- ==== Sys2Proof/Machine/LinkOps.lean ====
section
/-! DEFINITION. What other units do to ports and to the time base: state changes with their records, the routes that a
lost port closes, malformed traffic and quarantine, and the followed port (12_links R353 R359 R377 R378, 11_time R314
R321). -/

namespace Sys2Proof.Machine

/-- A 64-bit count saturates (R381). -/
def satAdd64 (c : W64) (n : Nat) : W64 := if c.toNat + n < 2 ^ 64 then BitVec.ofNat 64 (c.toNat + n) else 0xFFFFFFFFFFFFFFFF#64

/-- STATE of Table 12-2. -/
def portCode : PortSt → Nat
  | .off => 0 | .down => 1 | .training => 2 | .admitting => 3 | .qualifying => 4 | .up => 5 | .quarantined => 6
  | .retraining => 7 | .hostUp => 8 | .hostStandby => 9

/-- STATE of Table 11-3. -/
def timeCode : TState → Nat
  | .acquiring => 0 | .locked => 1 | .holdover => 2 | .unlocked => 3 | .rootFree => 4 | .rootExt => 5

/-! ## The post-FEC estimate (12_links R355) -/

/-- The terms k and up, n of them, of the binomial expansion of (e + f)^544, the coefficient of the first given. -/
def binomialTerms (e f : Nat) : Nat → Nat → Nat → Nat
  | 0, _, _ => 0
  | n + 1, k, c => c * e ^ k * f ^ (544 - k) + binomialTerms e f n (k + 1) (c * (544 - k) / (k + 1))

/-- The estimate as a fraction: the probability of more than 15 symbol errors in a codeword at the measured symbol error rate, times the burst
factor, over the 5,440 bits. -/
def soakEstimate (k : Soak) : Nat × Nat :=
  let m := 544 * k.codewords
  let e := min k.symErrors m
  let all := m ^ 544
  let above := fun (n : Nat) => all - binomialTerms e (m - e) n 0 1
  if k.codewords = 0 then (0, 1)
  else if above 5 ≠ 0 && decide (k.codewords * above 5 < k.over5 * all) then (above 16 * k.over5, k.codewords * above 5 * 5440)
  else (above 16, all * 5440)

/-- The FP32 bits nearest to a fraction, ties to even. -/
def f32Of (a b : Nat) : Nat :=
  if a = 0 then 0
  else
    let e0 : Int := (a.log2 : Int) - b.log2
    let up := fun (q : Int) => if q < 0 then (a * 2 ^ (-q).toNat, b) else (a, b * 2 ^ q.toNat)
    let e := if (up e0).2 ≤ (up e0).1 then e0 else e0 - 1
    let q := max (e - 23) (-149)
    let n := (up q).1 / (up q).2
    let r := 2 * ((up q).1 % (up q).2)
    let n := if (up q).2 < r ∨ ((up q).2 = r ∧ n % 2 = 1) then n + 1 else n
    min ((q + 149).toNat * 2 ^ 23 + n) 0x7F800000

/-- PBER of a record (Table 12-5). -/
def soakPber (k : Soak) : Nat := f32Of (soakEstimate k).1 (soakEstimate k).2

/-- The estimate is at most 1e-15. -/
def soakEstimateOk (k : Soak) : Bool := decide ((soakEstimate k).1 * 10 ^ 15 ≤ (soakEstimate k).2)

/-- Enters a time state, with record 0x0301 (R321, 15_faults Table 15-3). -/
def State.setTime (s : State) (t : TState) : State :=
  if s.time.tstate = t then s
  else
    let s := s.native 0 0x0301 (timeCode t) ((s.time.followed.map (·.val)).getD 0xFF) 0
    let s := if t = .unlocked then s.noteCause 10 else s
    { s with time.tstate := t
             time.slew := if t = .holdover then 0 else s.time.slew
             time.holdSince := if t = .holdover then s.clock else s.time.holdSince }

/-- A port carries traffic: UP, or in a fast retrain, which loses nothing (12_links R358). -/
def PortS.carries (x : PortS) : Bool := decide (x.st = .up) || decide (x.st = .retraining)

/-- A port with an admitted peer that is not quarantined. -/
def PortS.admitted (x : PortS) : Bool := x.carries && x.peerId.isSome

/-- The fixed part of the one-way bound of a route (12_links R372). -/
def Hop.fixedNs (h : Hop) : Nat :=
  h.hops * ((if h.anyRl1 then 520 else 400) + (if h.anyCrypt then 40 else 0)) + 60 * (h.hops - 1)

/-- The entries of TIM_UP_PORTS that are valid, in order of preference. -/
def State.upEntries (s : State) : List Port :=
  ((List.range 4).filter fun i => bit (imgUpPorts s.act) (16 + i)).filterMap fun i => portId (bits (imgUpPorts s.act) (4 * i) 4)

/-- A port is usable for time (11_time R314). -/
def State.usable (s : State) (p : Port) : Bool :=
  let x := s.ports[p]
  decide (lnkGen s.act p < 2) && x.admitted && x.timing.usable &&
    (match x.timing.barUntil with | none => true | some t => decide (t ≤ s.clock))

/-- The entry that the device will follow next. -/
def State.nextEntry (s : State) : Option Port := s.upEntries.find? s.usable

/-- The followed port became unusable: the next usable entry is followed from its next accepted exchange, and with none the
device enters HOLDOVER (R314). -/
def State.unfollow (s : State) (p : Port) : State :=
  if s.time.followed = some p then
    let s := { s with time.followed := none }
    if s.nextEntry.isNone && decide (s.time.tstate = .locked) then s.setTime .holdover else s
  else s

/-- A port state change with its REASON, record 0x0201 and its time (R353). -/
def State.portTo (s : State) (p : Port) (st : PortSt) (reason : Nat) : State :=
  let x := s.ports[p]
  let cls := if st = .down || st = .quarantined then 2 else 0
  let s := s.setPort p { x with st := st, reason := reason, since := s.now, at_ := s.clock }
  s.native cls 0x0201 p.val ((x.peerId.map (·.toNat)).getD 0) (portCode st + 0x100 * reason)

/-- The destination ranges of a received copy's parts that are not complete. -/
def Recv.missing (r : Recv) : List (Nat × Nat) := (r.parts.filter fun x => !r.complete.contains x.1).flatMap (·.2)

/-- Marks the incomplete parts of a received copy as poisoned and forgets it (07_movement R220). Each range is logged as an
incomplete item without bytes (13_collation Table 13-3; log entry 51). -/
def State.abandonRecv (s : State) (r : Recv) : State :=
  let src := ((s.hops.find? fun h => h.resId = r.resId && h.role = 2).map Hop.peerId).getD 0
  let s := r.missing.foldl (fun s x => (s.poisonRange x.1 x.2).logItem r.ctx 1 src r.resId x.1 2 []) s
  { s with recvs := s.recvs.filter fun y => y ≠ r }

/-- The installed hop of a reservation in a role: 0 source, 1 transit, 2 destination (12_links R369). -/
def State.hopOf (s : State) (res : W64) (role : Nat) : Option Hop := s.hops.find? fun h => h.resId = res && h.role = role

/-- Closes a route at this device: received copies of it lose their incomplete parts, and the copies and tokens sent on it
get no more acknowledgements; a token's SIGNAL completes with FAILED_HARDWARE and the port (R190 R220 R359). -/
def State.closeRoute (s : State) (res : W64) (port : Nat) : State :=
  let s := (s.recvs.filter fun r => r.resId = res).foldl State.abandonRecv s
  let gone := s.sent.filter fun x => x.resId = res
  let s := { s with sent := (s.sent.filter fun x => x.resId ≠ res || !x.token).map fun x =>
                      if x.resId = res then { x with down := true } else x
                    hops := s.hops.map fun h => if h.resId = res then { h with closed := true } else h }
  gone.foldl (fun s x => match x.eng with
    | some e => if x.token then
        let g := s.engines[e]
        s.setEng e { g with entries := g.entries.map fun t => if t.pos = x.pos then
          { t with status := stHardware, ready := true, waiting := false, detail := port } else t }
      else s
    | none => s) s

/-- Port down, or quarantine, at the routes and the time base (R190 R220 R314 R359): each transit route sends a route-closed
message back on its reverse hop. -/
def State.losePort (s : State) (p : Port) : State :=
  let hs := s.hops.filter fun h => h.inPort = p.val && h.role ≠ 0 || h.outPort = p.val && h.role ≠ 2
  let s := hs.foldl (fun s h => s.closeRoute h.resId p.val) s
  let s := hs.foldl (fun s h => match portId h.inPort with
    | some q => if h.role = 1 && h.outPort = p.val then s.emit (.routeClosed q h.resId) else s
    | none => s) s
  s.unfollow p

/-- Quarantine (R378): the port keeps its training and counts as down for its routes; its reservations stay. -/
def State.quarantine (s : State) (p : Port) (reason : Nat) : State :=
  if s.ports[p].st = .quarantined then s
  else ((s.portTo p .quarantined reason).losePort p).emit (.report 0x0201 p.val)

/-- Port down (R359): admission and the session key end, and the port trains again after 1 s. -/
def State.portDown (s : State) (p : Port) (reason : Nat) : State :=
  let s := s.portTo p .down reason
  let s := s.losePort p
  let x := s.ports[p]
  s.setPort p { x with
    lastPeer := if x.peerId.isSome then x.peerId else x.lastPeer
    adm := Adm.reset, peerId := none, peerPart := 0, peerPort := 0xFF, session := none, traffic := none, frames := 0,
    signal := false, soakDue := true, timing := TPort.reset }

/-- A counted malformed-traffic event; the 256th within 10 ms quarantines the port with REASON 9 (R377). -/
def State.malformed (s : State) (p : Port) : State :=
  let x := s.ports[p]
  let ts := (x.badTimes.filter fun t => s.clock < t + 10000000) ++ [s.clock]
  let s := s.setPort p { x with malformed := satAdd32 x.malformed 1, badTimes := ts.drop (ts.length - 256) }
  if 256 ≤ ts.length then s.quarantine p 9 else s

/-- An immediate malformed-traffic event (Table 12-6). -/
def State.malformedNow (s : State) (p : Port) (reason : Nat) : State :=
  let x := s.ports[p]
  (s.setPort p { x with malformed := satAdd32 x.malformed 1 }).quarantine p reason

end Sys2Proof.Machine
end

