-- ==== Sys2Proof/Machine/Slots.lean ====
section
/-! DEFINITION. Mailbox slots: header words, the commit write, permission by class, and the completion of a command
(02_binder R45-R57, 16_guard R479). -/

namespace Sys2Proof.Machine

/-- The 32-bit words of a header that a poster may write; a word of RO fields alone takes no write. -/
def Hdr.setWord (h : Hdr) (i v : Nat) : Hdr :=
  match i with
  | 1 => { h with cmd := BitVec.ofNat 16 v, resv1 := BitVec.ofNat 16 (v / 65536) }
  | 2 => { h with seq := BitVec.ofNat 32 v }
  | 3 => { h with len := BitVec.ofNat 16 v, resv2 := BitVec.ofNat 16 (v / 65536) }
  | 4 => { h with ctx := BitVec.ofNat 6 v, resv3 := BitVec.ofNat 26 (v / 64) }
  | 5 => { h with tag := BitVec.ofNat 32 v }
  | _ => h

/-- The 32-bit words of a header as read; `cls` is the CLASS field, copied from the active image. -/
def Hdr.word (h : Hdr) (cls i : Nat) : Nat :=
  match i with
  | 0 => h.state.toNat + 4 * h.resv0.toNat + 256 * cls
  | 1 => h.cmd.toNat + 65536 * h.resv1.toNat
  | 2 => h.seq.toNat
  | 3 => h.len.toNat + 65536 * h.resv2.toNat
  | 4 => h.ctx.toNat + 64 * h.resv3.toNat
  | 5 => h.tag.toNat
  | 6 => h.status.toNat + 65536 * h.detail.toNat
  | 7 => h.rlen.toNat
  | 8 => h.stamp.toNat % 4294967296
  | 9 => h.stamp.toNat / 4294967296
  | 10 => h.viol.toNat
  | _ => 0

/-- A write that is ignored counts in VIOL, which saturates (R45 R48). -/
def Slot.violate (x : Slot) : Slot :=
  if x.hdr.viol = 0xFFFF then x else { x with hdr.viol := x.hdr.viol + 1 }

/-- The 32-bit write to the first header word (R47 R49): post 0 to 1, release 3 to 0, withdraw 1 to 0; any other STATE value
is ignored. The reserved bits [7:2] hold the value written. A post clears VIOL, which counts since the last post. -/
def Slot.commit (x : Slot) (v : Nat) : Slot :=
  let x := { x with hdr.resv0 := BitVec.ofNat 6 (v / 4) }
  match x.hdr.state.toNat, v % 4 with
  | 0, 1 => { x with hdr.state := 1, hdr.viol := 0 }
  | 3, 0 => { x with hdr.state := 0 }
  | 1, 0 => { x with hdr.state := 0 }
  | _, _ => x

/-- A write of a 32-bit word of the header other than the first (R48). -/
def Slot.writeWord (x : Slot) (i v : Nat) : Slot :=
  if x.hdr.state = 1 || x.hdr.state = 2 then x.violate else { x with hdr := x.hdr.setWord i v }

/-- The effect of a permitted write: registers take aligned 32- and 64-bit accesses, the payload aligned accesses of 1 to 8
bytes; any other access has no effect (00_scope R9). A 64-bit write at offset 0 writes its upper half first, then commits
(R47). -/
def Slot.access (x : Slot) (off width v : Nat) : Slot :=
  let v := v % 2 ^ (8 * width)
  if off < 64 then
    if width = 4 && off % 4 = 0 then
      if off = 0 then x.commit v else x.writeWord (off / 4) v
    else if width = 8 && off % 8 = 0 then
      if off = 0 then (x.writeWord 1 (v / 4294967296)).commit (v % 4294967296)
      else if x.hdr.state = 1 || x.hdr.state = 2 then x.violate
      else (x.writeWord (off / 4) (v % 4294967296)).writeWord (off / 4 + 1) (v / 4294967296)
    else x
  else if (width = 1 || width = 2 || width = 4 || width = 8) && off % width = 0 && decide (off + width ≤ 4096) then
    if x.hdr.state = 1 || x.hdr.state = 2 then x.violate
    else { x with payload := wrMap x.payload (off - 64) (le width v) }
  else x

/-- Who may write in a Binder slot (R45): the host in ADMIN and HOST slots, the admitted peer on the assigned port in PEER
slots, the Guard in MGMT slots. -/
def State.mayWrite (s : State) (who : Agent) (n : SlotId) : Bool :=
  match imgClass s.act n.val, who with
  | 0, .host | 1, .host => true
  | 2, .peer p => decide (imgPeerPort s.act n.val = p.val) && s.ports[p].admitted
  | 3, .guard => true
  | _, _ => false

/-- The windows outside the Guard answer nothing on a device that is removed from service (15_faults R463). -/
def State.windowsDead (s : State) : Bool := decide (s.guard.devState = .removed) || !s.guard.powered

/-- A write to a slot or to the Guard mailbox. Only the group master's host and host relay reach the Guard mailbox (16_guard
R480); a write by another agent is ignored there and counts. -/
def State.slotAccess (s : State) (who : Agent) (mb : Mbox) (off width v : Nat) : State :=
  match mb with
  | .slot n =>
    if s.windowsDead then s
    else if s.mayWrite who n then s.setSlot n (s.slots[n].access off width v)
    else s.setSlot n s.slots[n].violate
  | .guard =>
    if !s.guard.powered then s
    else if who = .host then { s with guard.mbox := s.guard.mbox.access off width v }
    else { s with guard.mbox := s.guard.mbox.violate }

/-- The word written to the first header word for a STATE value and the reserved bits [7:2], with the upper half of a 64-bit
write. -/
def State.stateWrite (s : State) (who : Agent) (mb : Mbox) (st : Nat) (resv : BitVec 6) (upper : Option W32) : State :=
  match upper with
  | none => s.slotAccess who mb 0 4 (st + 4 * resv.toNat)
  | some u => s.slotAccess who mb 0 8 (st + 4 * resv.toNat + 4294967296 * u.toNat)

/-- The request payload of a slot: LEN bytes (0 to 4,032). -/
def Slot.req (x : Slot) : Bytes := rdMap x.payload 0 (min x.hdr.len.toNat 4032)

/-- The completion of a command (R47 R57): STATUS, DETAIL, RLEN, STAMP, the response over the payload, and STATE 3. -/
def Slot.finish (x : Slot) (stamp : W64) (status detail : Nat) (resp : Bytes) : Slot :=
  { x with
    payload := wrMap x.payload 0 resp
    held := .none
    hdr := { x.hdr with state := 3, status := BitVec.ofNat 16 status, detail := BitVec.ofNat 16 detail,
                        rlen := BitVec.ofNat 16 resp.length, stamp := stamp } }

/-- The Guard answers a request: in its mailbox (R479), or in the session or MCTP message that carried it (R493 R494). -/
def State.answer (s : State) (src : Src) (status detail : Nat) (resp : Bytes) : State :=
  match src with
  | .mailbox => { s with guard.mbox := s.guard.mbox.finish s.time.stitch status detail resp }
  | _ => s.emit (.guardResponse src status detail resp)

/-- A relayed command is done (16_guard R481 step 4): its status and the first 4,024 bytes of its response go to the request that posted it,
and a longer response stays in the slot. -/
def State.relayDone (s : State) (n : SlotId) : State :=
  match s.guard.mposts.find? fun m => m.slot = n with
  | none => s
  | some m =>
    let x := s.slots[n]
    let len := x.hdr.rlen.toNat
    let resp := le 2 x.hdr.status.toNat ++ le 2 x.hdr.detail.toNat ++ le 2 len ++ le 2 0 ++ rdMap x.payload 0 (min len 4024)
    let s := { s with guard := { s.guard with mposts := s.guard.mposts.filter fun y => y ≠ m } }
    if len ≤ 4024 then (s.setSlot n { x with hdr.state := 0 }).answer m.src stOk 0 resp
    else ({ s with guard := { s.guard with mheld := s.guard.mheld.filter (fun (h : SlotId × Nat) => h.1 ≠ n) ++ [(n, 4024)] } }).answer m.src stOk 1 resp

/-- The MSI-X vector of a slot's completion (12_links R365): vector n for slot n of class ADMIN or HOST, on the group
master. -/
def State.notify (s : State) (n : SlotId) : State :=
  if imgMaster s.act && decide (imgClass s.act n.val < 2) then s.emit (.msix n.val) else s

/-- Completes the command of a slot. The 16th refused post of a PEER slot within 1 ms is reported to the link layer, which
quarantines the port (R56, 12_links R377). -/
def State.complete (s : State) (n : SlotId) (status detail : Nat) (resp : Bytes) : State :=
  let x := s.slots[n].finish s.time.stitch status detail resp
  let ts := (x.refusals.filter fun t => s.clock < t + 1000000) ++
    (if isRefused status && imgClass s.act n.val = 2 then [s.clock] else [])
  let s := { (s.setSlot n { x with refusals := ts.drop (ts.length - 16) }) with
    binder.taken := s.binder.taken.filter fun m => m ≠ n }
  let s := (s.notify n).relayDone n
  match portId (imgPeerPort s.act n.val) with
  | some p => if 16 ≤ ts.length && imgClass s.act n.val = 2 && isRefused status then s.malformedNow p 9 else s
  | none => s

/-- Completion without a response. -/
def State.refuse (s : State) (n : SlotId) (status detail : Nat) : State := s.complete n status detail []

/-- Keeps the slot TAKEN with a continuation (R53). -/
def State.hold (s : State) (n : SlotId) (h : Held) : State := s.setSlot n { s.slots[n] with held := h }

/-- Whether a command changes the state of its context, so that R52 orders it: every command that does not only read. -/
def changesState (cmd : Nat) : Bool :=
  !([0x0101, 0x0102, 0x0103, 0x0205, 0x0302, 0x0405, 0x0406, 0x0504, 0x0602, 0x0701, 0x0801, 0x0902, 0x0B02, 0x0C02] : List Nat).contains cmd

/-- No earlier taken command that changes the same context is still executing (R52). CTX_RESET waits for none: a reset
completes the commands that its context holds (R55, Table 15-5). -/
def State.inTurn (s : State) (n : SlotId) : Bool :=
  let x := s.slots[n]
  x.hdr.ctx = 0 || x.hdr.cmd = 0x0203 || !changesState x.hdr.cmd.toNat ||
    (s.binder.taken.takeWhile fun m => m ≠ n).all fun m =>
      s.slots[m].hdr.ctx ≠ x.hdr.ctx || !changesState s.slots[m].hdr.cmd.toNat

/-- The command of slot n is ready to execute: taken, with this code, not holding a continuation, and in turn. -/
def State.runs (s : State) (n : SlotId) (cmd : Nat) : Bool :=
  let x := s.slots[n]
  decide (s.binder.run ≠ .off) && x.hdr.state = 2 && x.hdr.cmd = BitVec.ofNat 16 cmd && x.held = .none && s.inTurn n

/-- The frame of every Serloth command: on a slot that is not ready to execute it, nothing happens (log entry 22). The Binder copies
TAG into the fault records that the command causes (slot header). -/
def State.serloth (s : State) (n : SlotId) (cmd : Nat) (f : Slot → State) : Res :=
  if s.runs n cmd then .next ((f s.slots[n]).tagFrom s.guard.logNext s.slots[n].hdr.tag) else .next s

/-- The frame of a command that reads or writes the stores: no memory traffic is issued in Nap or Hold, so it waits (09_memory R284). -/
def State.serlothMem (s : State) (n : SlotId) (cmd : Nat) (f : Slot → State) : Res :=
  if s.mem.selfRefresh then .next s else s.serloth n cmd f

/-- The context in the header of a slot. -/
def Slot.ctxNo (x : Slot) : Nat := x.hdr.ctx.toNat

end Sys2Proof.Machine
end

