-- ==== Sys2Proof/Machine/Binder.lean ====
section
/-! DEFINITION. The Binder's scan and checks, register accesses from outside, and the SYS and CTX commands (02_binder,
16_guard R478, 17_physical R513 R514). -/

namespace Sys2Proof.Machine

/-! ## The command set (Table 02-6) -/

/-- A row of Table 02-6: code, classes (bit c for class code c), L, and the fixed part in bytes (R58). -/
structure CmdRow where
  code : Nat
  classes : Nat
  long : Bool
  fixed : Nat
  deriving DecidableEq, Repr

/-- Table 02-6 with the fixed parts of the payload layouts (R58 R533). CKP_PEER's depends on its OP (R534). -/
def cmdTable : List CmdRow :=
  [⟨0x0101, 15, false, 0⟩, ⟨0x0102, 9, false, 0⟩, ⟨0x0103, 15, false, 0⟩, ⟨0x0201, 1, false, 24⟩, ⟨0x0202, 3, false, 0⟩,
   ⟨0x0203, 11, true, 8⟩, ⟨0x0204, 3, false, 8⟩, ⟨0x0205, 11, false, 0⟩, ⟨0x0301, 9, true, 16⟩, ⟨0x0302, 9, false, 8⟩,
   ⟨0x0303, 9, false, 8⟩, ⟨0x0401, 3, true, 24⟩, ⟨0x0402, 3, true, 8⟩, ⟨0x0403, 3, false, 16⟩, ⟨0x0404, 11, true, 8⟩,
   ⟨0x0405, 11, false, 8⟩] ++
  [⟨0x0406, 11, false, 24⟩, ⟨0x0501, 3, false, 16⟩, ⟨0x0502, 3, false, 8⟩, ⟨0x0503, 3, true, 32⟩,
   ⟨0x0504, 11, true, 16⟩, ⟨0x0601, 9, true, 8⟩, ⟨0x0602, 11, false, 8⟩, ⟨0x0603, 3, false, 8⟩, ⟨0x0604, 9, true, 8⟩,
   ⟨0x0605, 9, false, 8⟩, ⟨0x0701, 15, false, 0⟩, ⟨0x0801, 15, false, 8⟩, ⟨0x0802, 3, true, 16⟩, ⟨0x0803, 9, true, 8⟩,
   ⟨0x0804, 9, true, 24⟩, ⟨0x0805, 4, true, 32⟩] ++
  [⟨0x0901, 11, true, 8⟩, ⟨0x0902, 15, false, 8⟩, ⟨0x0903, 3, true, 16⟩, ⟨0x0904, 9, false, 8⟩, ⟨0x0905, 4, false, 1⟩,
   ⟨0x0A01, 3, false, 8⟩, ⟨0x0A02, 3, false, 8⟩, ⟨0x0B01, 3, false, 32⟩, ⟨0x0B02, 11, false, 24⟩, ⟨0x0C01, 9, false, 192⟩,
   ⟨0x0C02, 11, false, 16⟩]

def cmdRow (code : Nat) : Option CmdRow := cmdTable.find? fun r => r.code = code

/-- Fixed part of CKP_PEER by OP (Table 14-5a). -/
def ckpPeerFixed (op : Nat) : Nat :=
  match op with
  | 1 => 40 | 2 => 48 | 3 => 16 | 4 => 32 | 5 => 80 | 6 => 16 | _ => 1

/-- The fixed part of a command with this payload. -/
def CmdRow.fixedPart (r : CmdRow) (b : Bytes) : Nat := if r.code = 0x0905 then ckpPeerFixed (fld b 0 1) else r.fixed

/-- Reserved bytes of a payload's fixed part: ranges (offset, length) that must be 0. -/
def resvRanges (code : Nat) (b : Bytes) : List (Nat × Nat) :=
  match code with
  | 0x0201 | 0x0203 => [(1, 7)]
  | 0x0204 => [(4, 4)]
  | 0x0301 => [(8, 8)]
  | 0x0401 | 0x0402 | 0x0403 | 0x0405 | 0x0501 | 0x0601 | 0x0602 | 0x0803 | 0x0901 => [(2, 6)]
  | 0x0404 | 0x0605 => [(3, 5)]
  | 0x0406 => [(2, 6), (18, 6)]
  | 0x0502 => [(4, 4)]
  | 0x0503 | 0x0603 | 0x0805 => [(1, 1), (4, 4)]
  | 0x0604 => [(2, 2)]
  | 0x0802 => [(9, 7)]
  | 0x0804 => if fld b 0 1 = 2 then [(2, 2), (6, 2), (16, 8)] else [(3, 1), (6, 2)]
  | 0x0903 => [(4, 4)]
  | 0x0905 => if fld b 0 1 = 6 then [(1, 7)] else [(3, 5)]
  | 0x0A01 => [(1, 1), (6, 2)]
  | 0x0A02 => [(4, 4)]
  | 0x0B01 => [(25, 7), (6, 2)]
  | 0x0B02 => [(4, 4), (18, 6)]
  | 0x0C01 => [(3, 1), (0x34, 4), (0xBC, 4)]
  | 0x0C02 => [(10, 6)]
  | _ => []

/-- Reserved bits of a payload: (offset, mask) pairs that must be 0. -/
def resvBits (code : Nat) : List (Nat × Nat) :=
  match code with
  | 0x0201 => [(0, 0xC0)]
  | 0x0203 => [(0, 0xFE)]
  | 0x0404 | 0x0605 => [(2, 0xFE)]
  | 0x0503 => [(3, 0x60)]
  | 0x0601 | 0x0602 | 0x0604 | 0x0803 => [(1, 0xF0)]
  | 0x0802 => [(8, 0xFE)]
  | 0x0901 => [(0, 0xFC)]
  | 0x0903 => [(1, 0xFC)]
  | 0x0B01 => [(5, 0xF0)]
  | 0x0C01 => [(2, 0xFE)]
  | _ => []

/-- Reserved fields of the hop records that LNK_RESERVE installs (12_links Table 12-4). -/
def hopsResvOk (b : Bytes) : Bool :=
  fld b 0 1 ≠ 0 || (List.range (min (fld b 2 2) 120)).all fun i =>
    bits (fld b (8 + 32 * i + 0x1C) 1) 4 4 = 0 && bits (fld b (8 + 32 * i + 0x1F) 1) 3 1 = 0

/-- No reserved field of the payload holds a value other than 0 (check 7 of R54). -/
def resvOk (code : Nat) (b : Bytes) : Bool :=
  (resvRanges code b).all (fun r => allZero b r.1 r.2) &&
  (resvBits code).all (fun r => (fld b r.1 1).land r.2 = 0) && (code ≠ 0x0603 || hopsResvOk b)

/-! ## Taking a post (R50 R51 R54) -/

/-- Reserved header fields are 0 and LEN is at most 4,032 (check 2). -/
def Hdr.wellFormed (h : Hdr) : Bool :=
  decide (h.len.toNat ≤ 4032) && h.resv0 = 0 && h.resv1 = 0 && h.resv2 = 0 && h.resv3 = 0

/-- The commands that the Binder executes while the device is not READY (17_physical R514). -/
def allowedNotReady (d : DevState) (cmd : Nat) : Bool :=
  ([0x0101, 0x0102, 0x0103, 0x0602, 0x0701, 0x0C02] : List Nat).contains cmd ||
  (d = .notReady && ([0x0302, 0x0301, 0x0303, 0x0601, 0x0604, 0x0605] : List Nat).contains cmd)

/-- CTX of a header is legal in a slot (R46). -/
def State.ctxOk (s : State) (n : SlotId) : Bool :=
  let x := s.slots[n]
  match imgClass s.act n.val with
  | 1 => decide (x.bound = some x.ctxNo)
  | 2 => decide (x.ctxNo = 0)
  | _ => decide (x.ctxNo = 0) || s.ctxs[ctxId x.ctxNo].isOpen

/-- The status and DETAIL of the first failing check of R54 from check 2 on; none where all pass. -/
def State.postCheck (s : State) (n : SlotId) : Option (Nat × Nat) :=
  let x := s.slots[n]
  let cmd := x.hdr.cmd.toNat
  if !x.hdr.wellFormed then some (stMalformed, 0)
  else match cmdRow cmd with
    | none => some (stUnknown, 0)
    | some r =>
      if !bit r.classes (imgClass s.act n.val) then some (stClass, 0)
      else if s.guard.devState ≠ .ready && !allowedNotReady s.guard.devState cmd then some (stState, 0x00FF)
      else if !s.ctxOk n then some (stContext, 0)
      else if x.hdr.len.toNat < r.fixedPart x.req || !resvOk cmd x.req then some (stMalformed, 0)
      else none

/-- The Binder takes the post of a slot (R50-R54): a wrong SEQ leaves the expected SEQ; every other post advances it. A post of
a context that is being reset completes with CONTEXT_RESET, except CTX_RESET (15_faults Table 15-5). -/
def State.take (s : State) (n : SlotId) : State :=
  let x := s.slots[n]
  let s := { s with binder.scanPos := n }
  if x.hdr.seq ≠ x.expSeq then s.complete n stSequence (x.expSeq.toNat % 65536) []
  else
    let s := s.setSlot n { x with expSeq := x.expSeq + 1 }
    match s.postCheck n with
    | some (st, d) => s.complete n st d []
    | none =>
      if x.ctxNo ≠ 0 && s.ctxs[ctxId x.ctxNo].resetting && x.hdr.cmd ≠ 0x0203 then s.complete n stContextReset 0 []
      else
        let y := s.slots[n]
        { (s.setSlot n { y with hdr.state := 2, takenAt := s.clock, held := .none }) with
          binder.taken := s.binder.taken ++ [n] }

/-- The slots in the order of the scan: ascending, from the one after the slot taken last (R50). -/
def State.scanOrder (s : State) : List SlotId := (List.range 64).map fun i => Fin.ofNat 64 (s.binder.scanPos.val + 1 + i)

/-- The slot that the scan takes next. -/
def State.nextPosted (s : State) : Option SlotId := s.scanOrder.find? fun n => s.slots[n].hdr.state = 1

/-! ## Reading the windows -/

/-- The bytes of a slot's word as read: header registers or payload bytes (R9). -/
def Slot.read (x : Slot) (cls off width : Nat) : Nat :=
  if off < 64 then
    if width = 4 && off % 4 = 0 then x.hdr.word cls (off / 4)
    else if width = 8 && off % 8 = 0 then x.hdr.word cls (off / 4) + 4294967296 * x.hdr.word cls (off / 4 + 1)
    else 0
  else if (width = 1 || width = 2 || width = 4 || width = 8) && off % width = 0 && decide (off + width ≤ 4096) then
    unle (rdMap x.payload (off - 64) width)
  else 0

/-- A register value at its width; any other width or an unaligned offset reads as 0 (R9). -/
def regRead (regs : List (Nat × Nat × Nat)) (off width : Nat) : Nat :=
  match regs.find? fun r => r.1 = off && r.2.1 = 8 * width with
  | some r => r.2.2 % 2 ^ (8 * width)
  | none => 0

def State.folioMapNat (s : State) : Nat :=
  (List.range 12).foldl (fun a k => a + 16 ^ k * ((s.physOf k).map (·.val)).getD 15) 0

def State.frwMode (s : State) : Nat := (if s.frw.fullLeaf then 1 else 0) + 16 * s.frw.activeCount

/-- The feature registers: offset, width and value (Table 02-9). -/
def State.frwRegs (s : State) : List (Nat × Nat × Nat) :=
  [(0x00, 32, s.guard.fw.running.1.toNat + 0x05120100), (0x08, 64, s.frw.gen.toNat), (0x10, 32, s.frwMode),
   (0x18, 64, s.folioMapNat), (0x20, 32, s.frw.spare.toNat), (0x28, 64, 1200 + 1500 * 65536 + 1850 * 4294967296),
   (0x30, 32, 512 + 512 * 1024 + 64 * 1048576 + 8 * 134217728), (0x38, 32, 2048 + 1024 * 65536),
   (0x40, 64, 49152 + 1024 * 4294967296 + 32 * 281474976710656), (0x48, 64, 262144 + 64 * 4294967296),
   (0x50, 64, 655360 + 64000 * 4294967296), (0x58, 32, 96 + 64 * 256 + 8 * 65536),
   (0x60, 64, 65536 + 16384 * 4294967296), (0x68, 32, 12 + 8 * 16 + 7 * 256 + 3 * 4096), (0x70, 32, 8 + 1000 * 256),
   (0x78, 32, 64 + 4096 * 256), (0x80, 32, 64 + 512 * 256 + 4 * 1048576)]

/-- The code of DEV_STATE. -/
def devCode : DevState → Nat
  | .booting => 0 | .ready => 1 | .notReady => 2 | .resetting => 3 | .removed => 4
def pCode : PState → Nat
  | .run => 0 | .nap => 1 | .hold => 2 | .entering => 3 | .waking => 4
def opCode : OpPoint → Nat
  | .floor => 0 | .nominal => 1 | .peak => 2 | .emergency => 3

/-- Ports under link hold, as a mask. -/
def State.holdMask (s : State) : Nat :=
  (List.range 12).foldl (fun a p => match portId p with | some q => if s.ports[q].hold then a + 2 ^ p else a | none => a) 0

def bnat (b : Bool) : Nat := if b then 1 else 0

/-- GRD_STATE (16_guard). -/
def State.grdState (s : State) : Nat :=
  devCode s.guard.devState + 8 * pCode s.guard.power.pstate + 256 * opCode s.guard.supply.opPoint + 1024 * bnat s.floorHeld +
  2048 * bnat s.guard.supply.stall + 4096 * bnat s.guard.owner.isSome +
  8192 * bnat (s.guard.sessions.any Sess.established) + 65536 * s.holdMask + 4294967296 * s.guard.supply.vcomp

/-- A temperature field: signed, 0.25 degree units; 0x8000 when the sensors failed (R482). -/
def temp16 (t : Option Int) : Nat := match t with | some v => unsgn 16 v | none => 0x8000

/-- The highest reading of a list of sensors that work. -/
def hottest (l : List (Option Int)) : Option Int :=
  (l.filterMap id).foldl (fun a v => match a with | none => some v | some w => some (max v w)) none

/-- What armed faults of TYPE 0x0E add to the reading of a sensor, in 0.25 degree units (15_faults Table 15-12). -/
def State.sensorOffset (s : State) (i : Nat) : Int :=
  ((s.latents.filter fun l => l.type = 0x0E && l.target = i && decide (s.clock < l.ends)).map fun l => 4 * sgn 64 l.param).sum

/-- Sensor i of a list that starts at an index, as it reads. -/
def State.asRead (s : State) (first : Nat) (l : List (Option Int)) : List (Option Int) :=
  l.mapIdx fun i v => v.map (· + s.sensorOffset (first + i))

/-- T_s and T_j as they read. -/
def State.tS (s : State) : Option Int := hottest (s.asRead 0 s.guard.sensors.dram)
def State.tJ (s : State) : Option Int := hottest (s.asRead 40 s.guard.sensors.junction)

/-- The true readings. -/
def Guard.tj (g : Guard) : Option Int := hottest g.sensors.junction
def Guard.ts (g : Guard) : Option Int := hottest g.sensors.dram
def State.grdTemp (s : State) : Nat :=
  temp16 s.tJ + 65536 * temp16 s.tS + 4294967296 * temp16 (s.guard.sensors.inlet.map (· + s.sensorOffset 56)) +
  281474976710656 * temp16 (s.guard.sensors.outlet.map (· + s.sensorOffset 57))
def State.grdPower (s : State) : Nat :=
  s.guard.sensors.powerW % 65536 + 65536 * (s.guard.sensors.vin10mV % 65536) + 4294967296 * (s.guard.supply.vcomp % 65536)
def Limits.limitReg (l : Limits) : Nat := l.plim + 4096 * l.ceil + 65536 * l.demandMin
def Limits.boundReg (l : Limits) : Nat := l.bndPlim + 4096 * l.bndCeil
/-- Counted resets within the window (R462). -/
def State.resetCount (s : State) : Nat :=
  (s.guard.limits.resetTimes.filter fun t => s.clock < t + s.guard.limits.resetWindow * 1000000000).length
def State.grdReset (s : State) : Nat :=
  min s.resetCount 15 + 16 * s.guard.limits.resetLimit + 256 * s.guard.limits.resetWindow
def Guard.keyMask (g : Guard) : Nat :=
  (List.range 16).foldl (fun a i => if (g.keys.toList.getD i none).isSome then a + 2 ^ i else a) 0
def Guard.oldest (g : Guard) : Nat := (g.log.head?.map Rec.seq).getD g.logNext
/-- Security version of the active bundle. -/
def Fw.version (f : Fw) : W32 := if f.active then f.versions.2 else f.versions.1
def Guard.fwReg (g : Guard) : Nat := bnat g.fw.active + 2 * bnat g.fw.stagedOk + 65536 * g.fw.version.toNat

/-- The Guard registers: offset, width and value (Table 16-2). -/
def State.gdwRegs (s : State) : List (Nat × Nat × Nat) :=
  let g := s.guard
  [(0x00, 32, g.fw.running.2.1.toNat + 256 * g.fw.running.2.2.toNat + 0x05120000), (0x08, 64, Config.devId.toNat),
   (0x10, 64, s.grdState), (0x18, 64, s.grdTemp), (0x20, 64, s.grdPower), (0x28, 64, g.limits.limitReg),
   (0x30, 64, g.limits.boundReg), (0x38, 64, s.grdReset),
   (0x40, 32, g.supply.demand + 128 * bnat g.supply.inletWarn), (0x48, 32, g.keyMask), (0x50, 64, g.logNext),
   (0x58, 64, g.oldest), (0x60, 64, g.fwReg)]

/-- A read of a measurement register: 64-bit words, or their 32-bit halves (R9). -/
def State.measRead (s : State) (off width : Nat) : Nat :=
  let m := (s.guard.meas.toList.getD ((off - 0x1000) / 64) 0).toNat
  if (width = 4 || width = 8) && off % width = 0 then m / 2 ^ (8 * (off % 64)) % 2 ^ (8 * width) else 0

/-- A read of the device aperture (Table 02-1). An offset that holds no register reads as 0 (00_scope R10), and a device
removed from service answers 0 outside the Guard window (15_faults R463). -/
def State.read (s : State) (off width : Nat) : W64 :=
  let v :=
    if !s.guard.powered then 0
    else if decide (0x50000 ≤ off) && decide (off < 0x60000) then
      let o := off - 0x50000
      if decide (0x1000 ≤ o) && decide (o < 0x1240) then s.measRead o width
      else if decide (0x8000 ≤ o) && decide (o < 0x9000) then s.guard.mbox.read 0 (o - 0x8000) width
      else regRead s.gdwRegs o width
    else if s.windowsDead then 0
    else if off < 0x40000 then
      (s.slots[ctxId (off / 0x1000)]).read (imgClass s.act (off / 0x1000)) (off % 0x1000) width
    else if off < 0x50000 then regRead s.frwRegs (off - 0x40000) width
    else if off < 0x100000 then 0
    else if off = 0x1F0000 then (if width = 8 then s.cfg.epoch.toNat else 0)
    else
      let o := (off - 0x100000) % 0x80000
      match regAt o with
      | some r => if r.width = 8 * width then imgGet (if off < 0x180000 then s.cfg.shadow else s.cfg.active) o else 0
      | none => 0
  BitVec.ofNat 64 v

/-! ## Writing the windows -/

/-- Whether an access of the Guard window names a register (Table 16-2) at its width. -/
def gdwIsReg (off width : Nat) : Bool :=
  (([0x08, 0x10, 0x18, 0x20, 0x28, 0x30, 0x38, 0x50, 0x58, 0x60] : List Nat).contains off && width = 8) ||
  (([0x00, 0x40, 0x48] : List Nat).contains off && width = 4) ||
  (decide (0x1000 ≤ off) && decide (off < 0x1240) && (width = 4 || width = 8) && off % width = 0)

def noDrop : Nat → Nat × Nat := fun _ => (0, 0)

/-- A write to a Guard-owned register from outside has no effect and is logged in record 0x0807, at most once per 10 s for
each offset, with the writes ignored there since the last such record (00_scope R12, 15_faults Table 15-3). -/
def State.gdwDrop (s : State) (off : Nat) : State :=
  let d := AMap.get noDrop s.guard.gdwDrops off
  if d = (0, 0) || decide (d.1 + 10000000000 ≤ s.clock + 1) then
    ({ s with guard.gdwDrops := AMap.set noDrop s.guard.gdwDrops off (s.clock + 1, 0) }).native 2 0x0807 off 0
      ((d.2 + 1) % 4294967296)
  else { s with guard.gdwDrops := AMap.set noDrop s.guard.gdwDrops off (d.1, d.2 + 1) }

/-- A write in the Guard window: the mailbox, or a Guard-owned register; anything else is ignored (16_guard R478). -/
def State.gdwWrite (s : State) (who : Agent) (off width v : Nat) : State :=
  if !s.guard.powered || who = .guard then s
  else if decide (0x8000 ≤ off) && decide (off < 0x9000) then s.slotAccess who .guard (off - 0x8000) width v
  else if gdwIsReg off width then s.gdwDrop off
  else s

/-- A write in the shadow image: a register at its natural width takes its writable bits; the active image, CFG_EPOCH and
every other offset ignore it (00_scope R9-R12, 02_binder R65). Only configuration software on the host writes it. -/
def State.scwWrite (s : State) (who : Agent) (off width v : Nat) : State :=
  match regAt off with
  | some r =>
    if who = .host && r.width = 8 * width && !s.windowsDead then
      { s with cfg.shadow := imgSet s.cfg.shadow off ((v % 2 ^ (8 * width)).land r.mask) } else s
  | none => s

/-- A write anywhere in the device aperture (Table 02-1). -/
def State.write (s : State) (who : Agent) (off width v : Nat) : State :=
  if off < 0x40000 then s.slotAccess who (.slot (ctxId (off / 0x1000))) (off % 0x1000) width v
  else if decide (0x50000 ≤ off) && decide (off < 0x60000) then s.gdwWrite who (off - 0x50000) width v
  else if decide (0x100000 ≤ off) && decide (off < 0x180000) then s.scwWrite who (off - 0x100000) width v
  else s

/-! ## Rows -/

/-- SLOT_POST (R47). -/
def execSlotPost (who : Agent) (mb : Mbox) (resv : BitVec 6) (upper : Option W32) (s : State) : Res :=
  ok (s.stateWrite who mb 1 resv upper)

/-- SLOT_WITHDRAW (R49): ignored once the take has won. -/
def execSlotWithdraw (who : Agent) (mb : Mbox) (resv : BitVec 6) (upper : Option W32) (s : State) : Res :=
  ok (s.stateWrite who mb 0 resv upper)

/-- SLOT_RELEASE (R47): STATE 3 to 0. -/
def execSlotRelease (who : Agent) (mb : Mbox) (resv : BitVec 6) (upper : Option W32) (s : State) : Res :=
  ok (s.stateWrite who mb 0 resv upper)

/-- SLOT_WRITE (R45 R48). -/
def execSlotWrite (who : Agent) (mb : Mbox) (off width : Nat) (v : W64) (s : State) : Res :=
  ok (s.slotAccess who mb off width v.toNat)

/-- BINDER_TAKE (R50): the scan takes the next posted slot. -/
def execBinderTake (s : State) : Res :=
  match s.nextPosted with
  | some n => if s.binder.run = .off then ok s else ok (s.take n)
  | none => ok s

/-- An access to the aperture of a group index that holds no device, or an unreachable one (R43): a read returns 0, a write is discarded,
and record 0x0204 names the index and the offset. -/
def State.absentAccess (s : State) (index off : Nat) (write : Bool) : State :=
  (if write then s else s.emit (.hostRead 0)).native 3 0x0204 index off 0

/-- A write of the host at an offset of BAR2: aperture n lies at n x 2 MiB. The master's own aperture is there too; the others are reached as
host relay on an admitted link, and without one they are unreachable (R42 R43, 12_links R367; log entry 161). -/
def State.bar2Write (s : State) (off width : Nat) (v : W64) : State :=
  let index := off / 0x200000
  let o := off % 0x200000
  if !imgMaster s.act || decide (16 ≤ index) then s
  else if index = imgGroupIndex s.act then s.write .host o width v.toNat
  else match (List.finRange 12).find? fun p => s.ports[p].admitted with
    | some p => s.emit (.relayForward p index (.write o width v))
    | none => s.absentAccess index o true

/-- REGISTER_WRITE (00_scope R12), by offset in the device aperture: BAR0 maps the master's own; `bar2` says that the host writes through
BAR2, by offset in it (R42). -/
def execRegisterWrite (who : Agent) (off width : Nat) (v : W64) (s : State) (bar2 : Bool := false) : Res :=
  ok (if bar2 then (if who = .host then s.bar2Write off width v else s) else s.write who off width v.toNat)

/-- GUARD_REGISTER_WRITE (16_guard R478), by offset in the Guard window. -/
def execGuardRegisterWrite (who : Agent) (off width : Nat) (v : W64) (s : State) : Res :=
  ok (s.gdwWrite who off width v.toNat)

/-- ABSENT_APERTURE_ACCESS (R43): on the group master, for an index other than its own. -/
def execAbsentApertureAccess (index : Fin 16) (off : Nat) (write : Bool) (s : State) : Res :=
  if imgMaster s.act && decide (imgGroupIndex s.act ≠ index.val) then
    ok (s.absentAccess index.val off write)
  else ok s

/-- Whether a taken MEM_HOST_COPY of this device covers a range in a direction (0 host to device). -/
def State.copyCovers (s : State) (dir a n : Nat) : Bool :=
  (List.range 64).any fun i =>
    let x := s.slots[ctxId i]
    x.hdr.state = 2 && x.hdr.cmd = 0x0503 && fld x.req 0 1 = dir && within a n (fld x.req 0x10 8) (fld x.req 0x18 8)

/-- HOST_RELAY (12_links R367, 02_binder R42): an access to this device's aperture acts as the host's; host-copy data moves for
a taken MEM_HOST_COPY; what names another device is forwarded. -/
def execHostRelay (p : Port) (dest : Nat) (body : RelayBody) (s : State) : Res :=
  if !s.ports[p].admitted then ok s
  else if dest ≠ imgGroupIndex s.act then ok (s.emit (.relayForward p dest body))
  else match body with
    | .read off width => ok (s.emit (.relayReply p (s.read off width)))
    | .write off width v => ok (s.write .host off width v.toNat)
    | .copyIn a d => if s.copyCovers 0 a d.length then ok (s.memWrite a d) else ok s
    | .copyOut a n => if s.copyCovers 1 a n then ok (s.emit (.relayData p (s.memRead a n))) else ok s

/-- PEER_MAILBOX_POST (R45): a peer Binder's write to a slot, under the ordinary permission and ownership rules. -/
def execPeerMailboxPost (p : Port) (n : SlotId) (off width : Nat) (v : W64) (s : State) : Res :=
  if s.ports[p].admitted then ok (s.slotAccess (.peer p) (.slot n) off width v.toNat) else ok s

/-! ## SYS commands -/

/-- The SYS_INFO response (Table 02-10). -/
def State.sysInfo (s : State) : Bytes :=
  [1#8, s.guard.fw.running.1] ++ le 2 0x0512 ++ le 4 s.guard.fw.version.toNat ++
  devBytes ++ (sha512 Config.deviceCert).take 16 ++ le 1 (devCode s.guard.devState) ++ le 1 (bnat s.frw.fullLeaf) ++
  le 1 s.frw.activeCount ++ le 1 (imgGroupIndex s.act) ++ le 4 0 ++ le 8 s.cfg.epoch.toNat

/-- SYS_INFO (R63). -/
def execSysInfo (n : SlotId) (s : State) : Res := s.serloth n 0x0101 fun _ => s.complete n stOk 0 s.sysInfo

/-- SYS_NOP (R63): echoes its payload; LEN 0 completes with OK_EMPTY. -/
def execSysNop (n : SlotId) (s : State) : Res :=
  s.serloth n 0x0103 fun x => s.complete n (if x.req = [] then stEmpty else stOk) 0 x.req

/-- A port's ROLE is not OFF and REQUIRED is 1 (17_physical R511). -/
def State.required (s : State) (p : Nat) : Bool := decide (lnkRole s.act p ≠ 0) && lnkRequired s.act p

/-- A port is UP, or HOST_UP or HOST_STANDBY. -/
def PortS.isUp (x : PortS) : Bool := x.carries || decide (x.st = .hostUp) || decide (x.st = .hostStandby)

/-- The required ports that are not up, ascending. -/
def State.portsMissing (s : State) : List Nat :=
  (List.range 12).filter fun p => s.required p && (match portId p with | some q => !s.ports[q].isUp | none => false)

/-- Whether a channel is fenced, near channels first, then far ones. -/
def State.firstFence (s : State) : Option Nat :=
  minOf ((s.mem.chans.filter fun kv => kv.2.fenced).map (·.1))

/-- The first condition of R511 that does not hold, as FAIL and INDEX of Table 17-2. -/
def State.readyFail (s : State) : Option (Nat × Nat) :=
  match s.guard.bring.finalFail with
  | some f => some f
  | none =>
    if s.guard.bring.refAbsent then some (4, 0)
    else match s.firstFence with
      | some c => some (5, c)
      | none =>
        match (List.range 4).find? fun q => bit s.guard.bring.quireFail.toNat q with
        | some q => some (7, q)
        | none => s.portsMissing.head?.map fun p => (6, p)

/-- The SYS_READY response (Table 17-2). -/
def State.sysReady (s : State) : Bytes :=
  let f := if s.guard.devState = .booting || s.guard.devState = .notReady then s.readyFail.getD (0, 0) else (0, 0)
  let el := ((s.guard.bring.readyAt.getD s.clock) - s.guard.bring.b0) / 1000000
  let mask := fun (ok : Nat → Bool) => (List.range 12).foldl (fun a p => if ok p then a + 2 ^ p else a) 0
  le 1 (devCode s.guard.devState) ++ le 1 f.1 ++ le 2 f.2 ++ le 4 (min el 0xFFFFFFFF) ++ le 2 (mask s.required) ++
  le 2 (mask fun p => match portId p with | some q => s.ports[q].isUp | none => false) ++ le 2 s.guard.bring.trained ++
  le 1 s.frw.activeCount ++ le 1 s.frw.spare.toNat ++ le 1 s.guard.bring.restored ++ le 7 0 ++ le 8 s.cfg.epoch.toNat

/-- SYS_READY (17_physical R513). -/
def execSysReady (n : SlotId) (s : State) : Res := s.serloth n 0x0102 fun _ => s.complete n stOk 0 s.sysReady

/-! ## CTX commands -/

/-- Read pins that the schedules of a context hold (01_step R32, 08_conditional R242). -/
def State.pinCount (s : State) (c : Nat) : Nat :=
  ((s.scheds.filter fun x => x.ctx = c).map fun x => x.pins.length).sum

/-- CTX_OPEN (R59 R64): the checks in the order class, quota, context, slots (log entry 24). -/
def State.ctxOpen (s : State) (n : SlotId) (b : Bytes) : State :=
  let want := fld b 0 1 % 64
  let slots := bitList (fld b 8 8) 64
  let near := fld b 0x10 4
  let far := fld b 0x14 4
  if slots.any fun i => imgClass s.act i ≠ 1 then s.refuse n stClass 0
  else if decide (49152 < near) || decide (262144 < far) then s.refuse n stResource 4
  else
    let grant := if want = 0 then (List.range 64).find? fun c => c ≠ 0 && !s.ctxs[ctxId c].isOpen
                 else if s.ctxs[ctxId want].isOpen then none else some want
    match grant with
    | none => s.refuse n stResource 0
    | some c =>
      if slots.any fun i => s.slots[ctxId i].bound.isSome then s.refuse n stBusy 0
      else
        let s := slots.foldl (fun s i => s.setSlot (ctxId i) { s.slots[ctxId i] with bound := some c }) s
        let s := s.setCtx (ctxId c) { Ctx.reset with
          isOpen := true, nearQuota := near, farQuota := far, streakLimit := BitVec.ofNat 16 (imgStreak s.act),
          ufThresh := BitVec.ofNat 16 (imgUfThresh s.act) }
        s.complete n stOk 0 (le 1 c ++ le 7 0)

def execCtxOpen (n : SlotId) (s : State) : Res := s.serloth n 0x0201 fun x => s.ctxOpen n x.req

/-- Removes a schedule: unsealed, with the engines of its streams ungranted and its counters unowned. The ledger it held is
discarded (13_collation R392). -/
def State.removeSched (s : State) (id : Nat) : State :=
  let s := s.cutBefore id
  match s.sched id with
  | none => s
  | some x =>
    { s with
      scheds := s.scheds.filter fun y => y.id ≠ id
      engines := s.engines.map fun (e : Engine) => match e.grant with
        | some g => if g.sched = id then { e with grant := none, running := false } else e
        | none => e
      ledger := if x.collated then { s.ledger with held := false } else s.ledger }

/-- Unmaps a region: it waits to be zeroed (09_memory R279). -/
def State.unmap (s : State) (r : Region) : State :=
  { s with mem.regions := s.mem.regions.filter fun y => y.id ≠ r.id, mem.zeroQ := s.mem.zeroQ ++ [r] }

/-- Unmaps every region of a context. -/
def State.unmapAll (s : State) (c : Nat) : State :=
  (s.mem.regions.filter fun r => r.ctx = c).foldl State.unmap s

/-- CTX_CLOSE (R61): refused while a schedule of the context is active, a pin is held or a region holds a protected page
(14_checkpoint R430). DESIGN CHOICE (log entry 25): no rule gives the outcome of CTX_CLOSE under context 0; it is REFUSED_CONTEXT, DETAIL 0. -/
def State.ctxClose (s : State) (n : SlotId) (c : Nat) : State :=
  if c = 0 then s.refuse n stContext 0
  else if (s.scheds.any fun x => x.ctx = c && x.active) || decide (s.pinCount c ≠ 0) ||
      (s.mem.regions.any fun r => r.ctx = c && s.protectedIn r.base r.size) then s.refuse n stBusy 0
  else
    let s := (s.scheds.filter fun x => x.ctx = c).foldl (fun s x => s.removeSched x.id) s
    let s := s.unmapAll c
    let s := { s with
      slots := s.slots.map fun (x : Slot) => if x.bound = some c then { x with bound := none } else x
      traces := s.traces.filter fun t => t.ctx ≠ c }
    let s := s.setCtx (ctxId c) Ctx.reset
    s.complete n stOk 0 []

def execCtxClose (n : SlotId) (s : State) : Res := s.serloth n 0x0202 fun x => s.ctxClose n x.ctxNo

/-- CTX_TIMEOUT (15_faults R454). -/
def execCtxTimeout (n : SlotId) (s : State) : Res :=
  s.serloth n 0x0204 fun x =>
    let v := fld x.req 0 4
    let c := ctxId x.ctxNo
    if x.ctxNo = 0 then s.refuse n stContext 0
    else if decide (v < 1000) || decide (60000000 < v) then s.refuse n stMalformed 0
    else (s.setCtx c { s.ctxs[c] with timeoutUs := v }).complete n stOk 0 (le 4 s.ctxs[c].timeoutUs ++ le 4 0)

/-- Engine instances that execute a command of a context, as a mask in ISSUE order. -/
def State.busyMask (s : State) (c : Nat) : Nat :=
  (List.range 44).foldl (fun a i =>
    let e := s.engines[(Fin.ofNat 44 i : EngId)]
    if (e.grant.map Grant.ctx) = some c && e.entries.any (fun t => !t.ready) then a + 2 ^ i else a) 0

/-- The CTX_STATUS response (Table 02-12). -/
def State.ctxStatus (s : State) (c : Nat) : Bytes :=
  let x := s.ctxs[ctxId c]
  le 1 (if x.resetting then 2 else 1) ++ le 1 (min (s.pinCount c) 255) ++
  le 2 (s.scheds.filter fun y => y.ctx = c).length ++ le 4 0 ++ le 8 (s.busyMask c) ++
  (List.range 44).flatMap fun i => le 4 (AMap.get zero32 x.lastTag i).toNat

/-- CTX_STATUS (R64); context 0 is the Binder's own and no open context (log entry 25). -/
def execCtxStatus (n : SlotId) (s : State) : Res :=
  s.serloth n 0x0205 fun x =>
    if x.ctxNo = 0 then s.refuse n stContext 0 else s.complete n stOk 0 (s.ctxStatus x.ctxNo)

end Sys2Proof.Machine
end

