-- ==== Sys2Proof/Machine/Firmware.lean ====
section
/-! DEFINITION. Guard operations that the end of bring-up also runs: staging of firmware, and the
begin of an entry to NAP or HOLD (16_guard R479 R488 R501). -/

namespace Sys2Proof.Machine

/-- The size of a bundle bank (R486). -/
def bankSize : Nat := 0x1C00000

/-- FW_STAGE (R488): a write at offset 0 erases the inactive bank; a complete bundle is verified against the version record
(R486 R487). -/
def State.fwStage (s : State) (src : Src) (data : Bytes) : State :=
  let off := fld data 0 8
  let n := fld data 8 4
  if decide (4000 < n) || fld data 12 4 ≠ 0 || decide (data.length < 16 + n) || decide (bankSize < off + n) then s.answer src stMalformed 0 []
  else
    let f := s.guard.fw
    let m := wrMap (if off = 0 then [] else f.staged) off ((data.drop 16).take n)
    let len := Nat.max (if off = 0 then 0 else f.stagedLen) (off + n)
    let b := rdMap m 0 len
    let v := if Config.bundleComplete b then Config.bundleVersion b else none
    let good := match v with | some v => decide (f.record ≤ v) | none => false
    let info := Config.bundleInfo b
    let infos := if good then (if f.active then (info, f.infos.2) else (f.infos.1, info)) else f.infos
    let vs := match v with
      | some v => if good then (if f.active then (v, f.versions.2) else (f.versions.1, v)) else f.versions
      | none => f.versions
    ({ s with guard.fw := { f with staged := m, stagedLen := len, stagedOk := good, versions := vs, infos := infos } }).answer src stOk 0 []

/-- Begins the entry to NAP or HOLD (R501). -/
def State.startEntry (s : State) (r : GReq) : State :=
  { s with guard.power := { s.guard.power with
      pstate := .entering, req := some r, target := fld r.data 0 1, holdLinks := bit (fld r.data 1 1) 0
      wakeAfter := fld r.data 4 4, entryAt := s.clock } }

/-- Requests that wait are refused when the device is removed from service (R481, 15_faults R463). -/
def State.refuseWaiting (s : State) : State :=
  let g := s.guard
  let srcs := g.mposts.map MPost.src ++ g.power.heldPower.map GReq.src ++ g.heldFw.map GReq.src ++ g.power.req.toList.map GReq.src
  let s := { s with guard := { g with mposts := [], heldFw := [], power := { g.power with
    heldPower := [], req := none, pstate := if g.power.pstate = .entering then .run else g.power.pstate } } }
  srcs.foldl (fun s x => s.answer x stState 0 []) s

/-- A power-state request that waited for a reset is applied in RUN (R502); once an entry is under way a later one is refused. -/
def State.applyPower (s : State) (r : GReq) : State :=
  if s.guard.power.pstate ≠ .run then s.answer r.src stState 0 []
  else if fld r.data 0 1 = 0 then s.answer r.src stEmpty 0 []
  else s.startEntry r

/-- What waited for the end of a reset or of bring-up is applied: FW_STAGE requests (R488), then power-state requests (R502). -/
def State.releaseHeld (s : State) : State :=
  let fw := s.guard.heldFw
  let pw := s.guard.power.heldPower
  let s := { s with guard.heldFw := [], guard.power.heldPower := [] }
  let s := fw.foldl (fun s r => s.fwStage r.src r.data) s
  pw.foldl State.applyPower s

end Sys2Proof.Machine
end

