-- ==== Sys2Proof/Machine/Press.lean ====
section
/-! DEFINITION. Presses: the snapshot, the agreement check, pending images, the effects of a press on each block, and the
CFG commands (02_binder R65-R72, 09_memory R262 R263 R269 R281, 11_time R313 R340, 12_links R352, 14_checkpoint R423,
16_guard R489, 17_physical R508 R514). -/

namespace Sys2Proof.Machine

/-! ## What a press meets -/

/-- The ports of a schedule: those of its reservations' hops and of its barrier tree. -/
def State.schedPorts (s : State) (x : Sched) : List Nat :=
  ((s.hops.filter fun h => h.setId = x.image.setId || (x.image.resvs.any fun r => r.resId = h.resId)).flatMap fun h =>
    [h.inPort, h.outPort]) ++ [x.image.bar.parent] ++ bitList x.image.bar.children.toNat 12

/-- The blocks that a schedule uses (R67; log entry 26): staging, memory, time and numerics; collation when it is collated;
checkpoints when it has KIND 2 or 3 background entries; the link blocks of its ports. -/
def State.uses (s : State) (x : Sched) (blk : Nat) : Bool :=
  if blk = 1 || blk = 2 || blk = 3 || blk = 6 then true
  else if blk = 4 then x.collated
  else if blk = 5 then x.image.bgs.any fun b => b.kind ≠ 1
  else decide (16 ≤ blk) && (s.schedPorts x).contains (blk - 16)

def State.usesMask (s : State) (x : Sched) (mask : W64) : Bool := (bitList mask.toNat 28).any fun b => s.uses x b

/-- An active schedule uses a block of the mask. -/
def State.maskInUse (s : State) (mask : W64) : Bool := s.scheds.any fun x => x.active && s.usesMask x mask

/-- The image that a press would leave: the snapshot for the pressed blocks, the active image elsewhere (R66). -/
def State.merged (s : State) (mask : W64) (snap : AMap W64) : AMap W64 := imgMerge mask snap s.cfg.active

/-- The busy conditions that other rules attach to the snapshot; the DETAIL they give (R66 step 3). -/
def State.pressBusy (s : State) (mask : W64) (m : AMap W64) : Option Nat :=
  let a := s.cfg.active
  let has := fun b => bit mask.toNat b
  let stg := (List.range 4).find? fun q =>
    (s.mem.regions.any fun r => r.store = q + 2 && scratchBase q + 0x800000 * imgScratch m q < r.base + r.size) ||
    (imgCache m q = 0 && s.scheds.any fun x => x.cached.contains q)
  let memBad :=
    (imgCompat m != imgCompat a && s.scheds.any fun x => x.active && x.native) ||
    ((farRegions m).any fun r => s.mem.regions.any fun g => overlaps (farBase + r.1) r.2 g.base g.size)
  let timBad := s.floorHeld && (imgMaster m != imgMaster a || imgRoot m != imgRoot a || imgExtRef m != imgExtRef a ||
    imgUpPorts m ≠ imgUpPorts a)
  let ckpBad := s.ckpts.any fun k => k.st = .begun || k.st = .copying || k.st = .draining || k.st = .committing
  let mbxBad := (List.range 64).any fun n =>
    s.slots[ctxId n].hdr.state ≠ 0 && (imgClass m n ≠ imgClass a n ||
      (imgPeerPort m n ≠ imgPeerPort a n && (imgClass m n = 2 || imgClass a n = 2)))
  if has 1 && stg.isSome then stg
  else if (has 2 && memBad) || (has 3 && timBad) || (has 5 && ckpBad) || (has 7 && mbxBad) then some 0
  else none

/-! ## The effects of a press -/

/-- Measurement 9: the active image, CFG_EPOCH and FRW_FOLIO_MAP (16_guard Table 16-5). The image is taken register by register
in ascending offset, each at its width (log entry 27). -/
def State.measure9 (s : State) : State :=
  let img := scwRegs.flatMap fun r => le (r.width / 8) (imgGet s.cfg.active r.off)
  { s with guard.meas := s.guard.meas.set 8 (sha512v (img ++ le 8 s.cfg.epoch.toNat ++ le 8 s.folioMapNat)) }

/-- A staging split that changes (R262): units that remain scratchpad keep contents and marks, units that become or cease to
be scratchpad read +0 unpoisoned, and every line of the quire is invalidated; the change takes up to 2 us. -/
def State.resplit (s : State) (old new : AMap W64) : State :=
  (List.range 4).foldl (fun s q =>
    if imgScratch old q = imgScratch new q && imgCache old q = imgCache new q then s
    else
      let keep := 0x800000 * min (imgScratch old q) (imgScratch new q)
      let s := s.zeroRange (scratchBase q + keep) (0x8000000 - keep)
      { s.noteCause 7 with mem.caches := s.mem.caches.set (Fin.ofNat 4 q : Quire) [], mem.splitUntil := s.now + 2000 }) s

/-- A reserved far-tier region that moves or shrinks: its contents are undefined (R281). -/
def State.moveRegion (s : State) (ob on nb nn : Nat) : State :=
  if ob = nb && on ≤ nn then s
  else (s.undefine (farBase + ob) on).undefine (farBase + nb) (if ob = nb then 0 else nn)

/-- The effects of a press of the MEM block (R281, 11_time R340). -/
def State.pressMem (s : State) (old new : AMap W64) : State :=
  let s := s.moveRegion (imgLedgerBase old) (imgLedgerSize old) (imgLedgerBase new) (imgLedgerSize new)
  let s := s.moveRegion (imgVersoBase old) (imgVersoSize old) (imgVersoBase new) (imgVersoSize new)
  let s := s.moveRegion (imgCkptBase old) (imgCkptSize old) (imgCkptBase new) (imgCkptSize new)
  let s := s.moveRegion (imgDumpBase old) 0x40000000 (imgDumpBase new) 0x40000000
  let s := if imgDumpBase old = imgDumpBase new then s else { s with guard.dumps := (none, none) }
  if imgCompat old = imgCompat new then s
  else { s with scheds := s.scheds.map fun x => if x.state = .admitted then { x with state := .loaded } else x }

/-- The effects of a press of the TIM block: a machine root runs free until its reference disciplines it; a device that is no
longer the root acquires; a followed port that is no longer an entry is left (11_time R312-R321; log entry 28). -/
def State.pressTim (s : State) (old new : AMap W64) : State :=
  let s := if imgRoot new && !imgRoot old then { (s.setTime .rootFree) with time.followed := none }
           else if !imgRoot new && imgRoot old then s.setTime .acquiring
           else s
  match s.time.followed with
  | some p => if s.upEntries.contains p then s else s.unfollow p
  | none => s

/-- A press that changes CKP_COPY_SIZE or CKP_SLOT_SIZE writes a zero seal into both slots (14_checkpoint R423). -/
def State.pressCkp (s : State) (old new : AMap W64) : State :=
  if imgCopySize old = imgCopySize new && imgSlotSize old = imgSlotSize new then s
  else
    let base := farBase + imgCkptBase new
    let zero := List.replicate 1024 (0 : Byte)
    let s := s.memWrite (base + imgCopySize new) zero
    s.memWrite (base + imgCopySize new + imgSlotSize new) zero

/-- A HOST slot that leaves class HOST is unbound (R72). -/
def State.pressMbx (s : State) (new : AMap W64) : State :=
  { s with slots := s.slots.mapIdx fun i (x : Slot) => if imgClass new i = 1 then x else { x with bound := none } }

/-- A press takes effect: the masked blocks become active, CFG_EPOCH increments, the Guard keeps the image and measurement 9
changes (R67 R69, 16_guard R489, 17_physical R508). -/
def State.pressEffect (s : State) (mask : W64) (m : AMap W64) : State :=
  let old := s.cfg.active
  let has := fun b => bit mask.toNat b
  let s := { s with cfg.active := m, cfg.epoch := s.cfg.epoch + 1, cfg.retained := some m }
  let s := if has 1 then s.resplit old m else s
  let s := if has 2 then s.pressMem old m else s
  let s := if has 3 then s.pressTim old m else s
  let s := if has 5 then s.pressCkp old m else s
  let s := if has 7 then s.pressMbx m else s
  s.measure9

/-- Enters a device state: class 2 record 0x0805 with DETAIL 0x1000 + the state and the failing condition (R512). -/
def State.setDev (s : State) (d : DevState) : State :=
  if s.guard.devState = d then s
  else
    let f := if d = .booting || d = .notReady then s.readyFail.getD (0, 0) else (0, 0)
    ({ s with guard.devState := d, guard.bring.readyAt := if d = DevState.ready then some s.clock else s.guard.bring.readyAt }).native
      2 0x0805 (0x1000 + devCode d) 0 (f.1 + 256 * f.2)

/-- READY or NOT_READY ends bring-up: a full device reset writes its record 0x0801 (17_physical Tables 17-1 and 17-8; log entry
67), the request that asked for it is answered (log entry 68), and what waited is applied. -/
def State.endBringUp (s : State) : State :=
  let reqs := s.guard.bring.reqs
  let first := s.guard.logNext
  let s := match s.guard.bring.resetRec with
    | none => s
    | some (cause, planned) =>
      ({ s with guard.bring.resetRec := none }).native 0 0x0801 4 (cause.getD 0xFFFFFFFFFFFFFFFF)
        (min s.resetCount 255 + (if planned then 256 else 0))
  let s := match reqs with
    | [] => s
    | r :: _ => s.tagFrom first r.tag
  let good : Bool := decide (s.guard.devState = DevState.ready)
  let fail := (s.readyFail.getD (0, 0)).1
  let s := reqs.foldl (fun s r => s.answer r.src (if good then stOk else stHardware) (if good then 0 else fail) [])
    { s with guard.bring.reqs := [] }
  s.releaseHeld

/-- The device becomes ready: TIM_START is loaded by a machine root that reports ready for the first time (11_time R320). -/
def State.becomeReady (s : State) : State :=
  let s := (s.setDev .ready).endBringUp
  if s.time.everReady then s
  else
    let load := imgRoot s.act && !(imgExtRef s.act && s.time.ppsLast.isSome)
    { s with time.everReady := true, time.stitch := if load then BitVec.ofNat 64 (imgStart s.act) else s.time.stitch }

/-- Readiness is evaluated again (R512 R514): a device past order 6 whose last failing condition has cleared becomes READY. -/
def State.reReady (s : State) : State :=
  if (s.guard.devState = DevState.notReady || s.guard.devState = DevState.booting) && !s.guard.bring.running && s.readyFail.isNone &&
      !s.guard.cutoff && !s.guard.overvolt
  then s.becomeReady else s

/-! ## Training that a link press causes (12_links R352 R354) -/

/-- Whether GEN, ROLE, CRYPT_EN, KEY_SLOT or EXPECT of a port differs between two images (R352). -/
def portChanges (a b : AMap W64) (p : Nat) : Bool :=
  lnkGen a p ≠ lnkGen b p || lnkRole a p ≠ lnkRole b p || lnkCrypt a p != lnkCrypt b p || lnkKeySlot a p ≠ lnkKeySlot b p ||
  lnkExpect a p ≠ lnkExpect b p

/-- A port starts to train from order 1 of Table 12-3, or is OFF. A port in HOST role waits for HOST_PERST_N (17_physical
R520). -/
def State.startTraining (s : State) (p : Port) : State :=
  let s := if s.ports[p].carries then s.losePort p else s
  let x := s.ports[p]
  let s := s.setPort p { x with
    lastPeer := if x.peerId.isSome then x.peerId else x.lastPeer
    adm := Adm.reset, peerId := none, peerPart := 0, peerPort := 0xFF, session := none, traffic := none, frames := 0,
    signal := lnkRole s.act p.val = 5 && x.perstHigh, soakDue := true, timing := TPort.reset, soak := none, lane := 0 }
  s.portTo p (if lnkRole s.act p.val = 0 then .off else .training) 0

/-- A record of Table 12-5 for a port. RESULT is 2 where no soak was measured. -/
def State.trainRecord (s : State) (p : Port) (reason : Option Nat) (measured : Bool) : Bytes :=
  let x := s.ports[p]
  match measured, x.soak with
  | true, some k =>
    le 1 (portCode x.st) ++ le 1 (if x.st = .up then 0 else 1) ++ le 1 k.lane ++ le 1 (reason.getD x.reason) ++ le 4 k.cber.toNat ++
    le 4 (soakPber k) ++ le 2 k.maxSym ++ le 2 (min k.uncorr 0xFFFF)
  | _, _ => le 1 (portCode x.st) ++ le 1 2 ++ le 1 x.lane ++ le 1 (reason.getD x.reason) ++ le 12 0

/-- A port of a LNK_PRESS is settled: it is not on its way through Table 12-3 or host training. -/
def PortS.settled (x : PortS) : Bool :=
  decide (x.st ≠ .training) && decide (x.st ≠ .admitting) && decide (x.st ≠ .qualifying)

/-- Completes a LNK_PRESS whose handled ports have all settled (R352): `skip` holds the ports that were not pressed. -/
def State.endTraining (s : State) (n : SlotId) (mask skip : BitVec 12) : State :=
  let ps := bitList mask.toNat 12
  if (ps.filter fun p => !bit skip.toNat p).all fun p => match portId p with | some q => s.ports[q].settled | none => true then
    let resp := ps.flatMap fun p => match portId p with
      | some q => if bit skip.toNat p then s.trainRecord q (some 15) false else s.trainRecord q none true
      | none => []
    s.complete n (if skip = 0 then stOk else stPartial) 0 resp
  else s.hold n (.training mask skip)

/-- Completes every LNK_PRESS that waits for its ports, as ports settle. -/
def State.settleTraining (s : State) : State :=
  (List.range 64).foldl (fun s i =>
    match s.slots[ctxId i].held with
    | .training m k => s.endTraining (ctxId i) m k
    | _ => s) s

/-! ## Pending images (R67) -/

/-- The response of CFG_PRESS (R70). -/
def State.pressResp (s : State) (effect row off : Nat) : Bytes :=
  le 8 s.cfg.epoch.toNat ++ le 8 effect ++ le 2 row ++ le 2 0 ++ le 4 off

/-- A link image has taken effect: ports that changed, or that are DOWN and in the mask, train; an ADMITTED schedule that
names a port whose generation changed loses its admission (R352, 11_time R340). -/
def State.linkEffect (s : State) (old : AMap W64) (mask : W64) (skip : BitVec 12) (slot : Option SlotId) : State :=
  let ps := bitList (mask.toNat / 65536) 12
  let genCh := ps.filter fun p => lnkGen old p ≠ lnkGen s.act p
  let s := { s with scheds := s.scheds.map fun x =>
    if x.state = .admitted && (s.hops.any fun h => (x.image.resvs.any fun r => r.resId = h.resId) &&
        (genCh.contains h.inPort || genCh.contains h.outPort)) then { x with state := .loaded } else x }
  let s := ps.foldl (fun s p => match portId p with
    | some q => if portChanges old s.act p || s.ports[q].st = .down then s.startTraining q else s
    | none => s) s
  match slot with
  | some n => s.endTraining n (BitVec.ofNat 12 (mask.toNat / 65536) ||| skip) skip
  | none => s

/-- What a pending image does when its blocks are free (R67). -/
def State.pendingEffect (s : State) (p : Pending) : State :=
  let s := { s with cfg.pendings := s.cfg.pendings.filter fun q => q ≠ p }
  let m := s.merged p.mask p.image
  let row := firstFailing s.guard.keys m
  let off := rowOffset s.guard.keys m row
  if row ≠ 0 then
    match p.slot with
    | some n => s.complete n stAgreement row (s.pressResp 0 row off)
    | none => s.native 2 0x0805 row 0 off
  else
    let old := s.act
    let s := s.pressEffect p.mask m
    let skip := match p.slot with
      | some n => match s.slots[n].held with
        | .press k => k
        | _ => 0
      | none => 0
    let s := if 65536 ≤ p.mask.toNat then s.linkEffect old p.mask skip p.slot
             else match p.slot with
               | some n => s.complete n stOk 0 (s.pressResp s.now 0 0)
               | none => s
    s.reReady

/-- A pending image takes effect, or is dropped when the repeated check fails (R67); the records it causes carry the command's TAG. -/
def State.applyPending (s : State) (p : Pending) : State :=
  match p.slot with
  | some n => (s.pendingEffect p).tagFrom s.guard.logNext s.slots[n].hdr.tag
  | none => s.pendingEffect p

/-- Pending images whose blocks no active schedule uses any longer take effect (R67); a MODE press waits for the
compute-partition reset. -/
def State.runPendings (s : State) : State :=
  s.cfg.pendings.foldl (fun s p =>
    if bit p.mask.toNat 0 || s.maskInUse p.mask then s else s.applyPending p) s

/-- The step barrier of a schedule: pending images that use one of its blocks take effect (R28 R67). -/
def State.barrierPendings (s : State) (x : Sched) : State :=
  s.cfg.pendings.foldl (fun s p => if bit p.mask.toNat 0 || !s.usesMask x p.mask then s else s.applyPending p) s

/-- Whether the Binder rejects a mask: bits 8-15 and 28-63 are reserved, and CFG_PRESS takes no link blocks (R65 R71). -/
def maskBad (mask : Nat) (links : Bool) : Bool :=
  bits mask 8 8 ≠ 0 || mask / 0x10000000 ≠ 0 || (!links && bits mask 16 12 ≠ 0)

/-- A press of a mask for a slot (R66-R68). -/
def State.press (s : State) (n : SlotId) (mask : W64) : State :=
  let snap := imgMerge mask s.cfg.shadow []
  let m := s.merged mask snap
  let row := firstFailing s.guard.keys m
  if s.cfg.pendings.any fun p => p.mask &&& mask ≠ 0 then s.complete n stBusy 0 (s.pressResp 0 0 0)
  else if row ≠ 0 then s.complete n stAgreement row (s.pressResp 0 row (rowOffset s.guard.keys m row))
  else match s.pressBusy mask m with
    | some d => s.complete n stBusy d (s.pressResp 0 0 0)
    | none =>
      if bit mask.toNat 0 then
        ({ s with cfg.pendings := s.cfg.pendings ++ [({ mask := mask, image := snap, slot := none } : Pending)] }).complete n stOk 0 (s.pressResp 0 0 0)
      else
        let s := ({ s with cfg.pendings := s.cfg.pendings ++ [({ mask := mask, image := snap, slot := some n } : Pending)] }).hold n (.press 0)
        if s.maskInUse mask then s else s.applyPending { mask := mask, image := snap, slot := some n }

/-- CFG_PRESS (R66-R71). -/
def execCfgPress (n : SlotId) (s : State) : Res :=
  s.serloth n 0x0301 fun x =>
    let mask := fld x.req 0 8
    if maskBad mask false then s.refuse n stMalformed 0
    else if mask = 0 then s.complete n stEmpty 0 (s.pressResp 0 0 0)
    else s.press n (BitVec.ofNat 64 mask)

/-- CFG_CHECK (R68 R70): the check of R66 without a pending image. -/
def execCfgCheck (n : SlotId) (s : State) : Res :=
  s.serloth n 0x0302 fun x =>
    let mask := fld x.req 0 8
    let m := s.merged (BitVec.ofNat 64 mask) s.cfg.shadow
    let row := firstFailing s.guard.keys m
    let resp := le 2 row ++ le 2 0 ++ le 4 (rowOffset s.guard.keys m row)
    if maskBad mask true then s.refuse n stMalformed 0
    else if mask = 0 then s.complete n stEmpty 0 (le 8 0)
    else if row ≠ 0 then s.complete n stAgreement row resp
    else s.complete n stOk 0 resp

/-- CFG_REVERT (R68 R70): the active image of the masked blocks returns to the shadow image. -/
def execCfgRevert (n : SlotId) (s : State) : Res :=
  s.serloth n 0x0303 fun x =>
    let mask := fld x.req 0 8
    if maskBad mask true then s.refuse n stMalformed 0
    else if mask = 0 then s.refuse n stEmpty 0
    else ({ s with cfg.shadow := imgMerge (BitVec.ofNat 64 mask) s.cfg.active s.cfg.shadow }).complete n stOk 0 []

end Sys2Proof.Machine
end

