-- ==== Sys2Proof/Machine/Memory.lean ====
section
/-! DEFINITION. The memory commands, host copies, scrubs and error warnings (09_memory R254-R280 R538, 07_movement
R216-R224). -/

namespace Sys2Proof.Machine

/-! ## Granting regions (R278 R279) -/

/-- The range of a store as MEM_MAP numbers it: its base and its size. -/
def State.storeRange (s : State) (store : Nat) : Nat × Nat :=
  if store = 0 then (0, nearSize) else if store = 1 then (farBase, farSize)
  else (scratchBase (store - 2), 0x800000 * imgScratch s.act (store - 2))

/-- The images that are active or pending: what a grant must leave room for (log entry 29). -/
def State.imagesAhead (s : State) : List (AMap W64) := s.act :: s.cfg.pendings.map fun p => s.merged p.mask p.image

/-- The free zeroed ranges of a store: without mapped regions, regions that wait to be zeroed, the reserved far-tier regions and the
scratchpad units that a pending image takes away. -/
def State.freeRanges (s : State) (store : Nat) : List (Nat × Nat) :=
  let used := ((s.mem.regions ++ s.mem.zeroQ).map fun r => (r.base, r.size)) ++
    s.imagesAhead.flatMap fun m => ((farRegions m).map fun r => (farBase + r.1, r.2)) ++
      (List.range 4).map fun q => (scratchBase q + 0x800000 * imgScratch m q, 0x8000000 - 0x800000 * imgScratch m q)
  used.foldl (fun l u => l.flatMap (cutSeg u.1 u.2)) [s.storeRange store]

/-- The number of bases on a multiple of `al` at which a size fits in a free range. -/
def basesIn (size al : Nat) (r : Nat × Nat) : Nat :=
  let b := ceilDiv r.1 al * al
  if b + size ≤ r.1 + r.2 then (r.1 + r.2 - size - b) / al + 1 else 0

/-- The k-th base at which a size fits, over the free ranges in turn. -/
def pickBase (size al : Nat) : List (Nat × Nat) → Nat → Option Nat
  | [], _ => none
  | r :: rs, k =>
    let c := basesIn size al r
    if k < c then some (ceilDiv r.1 al * al + k * al) else pickBase size al rs (k - c)

/-- The base that the Binder grants: any that fits; the spec does not say which (log entry 29). -/
def State.grantBase (s : State) (store size al : Nat) : Option Nat × State :=
  let rs := s.freeRanges store
  let total := (rs.map (basesIn size al)).sum
  if total = 0 then (none, s)
  else
    let (v, s) := s.fresh
    (pickBase size al rs (v.toNat % total), s)

/-- Bytes of a store that a context holds. -/
def State.heldBytes (s : State) (c store : Nat) : Nat :=
  ((s.mem.regions.filter fun r => r.ctx = c && r.store = store).map (·.size)).sum

/-- A grant of this size would exceed the context's quota, in MiB; context 0 and scratchpads have none (R278). -/
def State.overQuota (s : State) (c store size : Nat) : Bool :=
  let x := s.ctxs[ctxId c]
  c ≠ 0 && decide (store < 2) &&
    decide ((if store = 0 then x.nearQuota else x.farQuota) * 0x100000 < s.heldBytes c store + size)

/-- Maps a region, zeroed (R279). -/
def State.mapRegion (s : State) (c store base size : Nat) : State :=
  let s := s.zeroRange base size
  { s with mem.regions := s.mem.regions ++ [{ id := s.mem.nextRegion, ctx := c, store := store, base := base, size := size }]
           mem.nextRegion := if s.mem.nextRegion = 0xFFFFFFFF then 1 else s.mem.nextRegion + 1 }

/-- MEM_MAP (R278): the quota, the count of regions and the free range are tested in this order (log entry 30). -/
def State.memMap (s : State) (n : SlotId) (c : Nat) (b : Bytes) : State :=
  let store := fld b 0 1
  let align := fld b 1 1
  let size := fld b 8 8
  if 5 < store || align < 10 || 40 < align || size % 1024 ≠ 0 then s.refuse n stMalformed 0
  else if size = 0 then s.complete n stEmpty 0 []
  else if s.overQuota c store size then s.refuse n stResource 1
  else if 4096 ≤ (s.mem.regions.filter fun r => r.ctx = c).length then s.refuse n stResource 3
  else match s.grantBase store size (2 ^ align) with
    | (none, s) => s.refuse n stResource 2
    | (some base, s) =>
      let id := s.mem.nextRegion
      (s.mapRegion c store base size).complete n stOk 0 (le 8 base ++ le 4 id ++ le 4 0)

def execMemMap (n : SlotId) (s : State) : Res := s.serloth n 0x0501 fun x => s.memMap n x.ctxNo x.req

/-- A loaded schedule of the region's context references a byte of it (R251). -/
def State.referenced (s : State) (r : Region) : Bool :=
  s.scheds.any fun x => x.ctx = r.ctx && x.refs.any fun q => overlaps q.1 q.2 r.base r.size

/-- MEM_UNMAP (R538 R251, 14_checkpoint R430). -/
def State.memUnmap (s : State) (n : SlotId) (c id : Nat) : State :=
  match s.mem.regions.find? fun r => r.id = id with
  | none => s.refuse n stState 1
  | some r =>
    if c ≠ 0 && r.ctx ≠ c then s.refuse n stContext 1
    else if s.referenced r || s.protectedIn r.base r.size then s.refuse n stBusy 0
    else (s.unmap r).complete n stOk 0 []

def execMemUnmap (n : SlotId) (s : State) : Res :=
  s.serloth n 0x0502 fun x => s.memUnmap n x.ctxNo (fld x.req 0 4)

/-- REGION_ZEROING (R279): the oldest unmapped region that holds no protected page is zeroed and becomes free (15_faults R457). Both
tiers must be out of self-refresh. -/
def execRegionZeroing (s : State) : Res :=
  match s.mem.zeroQ.find? fun r => !s.protectedIn r.base r.size with
  | none => ok s
  | some r =>
    if s.mem.selfRefresh then ok s
    else ok ({ s with mem.zeroQ := s.mem.zeroQ.filter fun y => y.id ≠ r.id }.zeroRange r.base r.size)

/-! ## What the controllers meet (R271-R275) -/

/-- An event of the memory system during a command: a corrected codeword counts; an uncorrectable one marks its sheet with a
record; a transfer that fails 8 attempts fences its channel (R271, 15_faults Table 15-12). -/
def State.memEvent (s : State) (e : MemEvent) (tag : W32) (unit : Byte) : State :=
  match e with
  | .corrected a => if s.fenced (a / 1024) then s else s.countWarn (chanOf a) 1 true false
  | .uncorrectable a => if s.fenced (a / 1024) then s else s.uncorrectable a tag unit false
  | .crc c k =>
    if (s.chan c).fenced || k = 0 then s
    else
      let s := (s.countWarn c (Nat.min k 7) false false).noteCause 11
      if 8 ≤ k then s.fenceChan c false else s
  | .staging q sh =>
    match s.lineOf q sh with
    | none => s
    | some l =>
      let c := s.mem.caches[q]
      let k := s.setOf q sh
      let ls := (AMap.get noLines c k).map fun y => if y = l then { y with bad := true } else y
      ({ s with mem.caches := s.mem.caches.set q (AMap.set noLines c k ls) }).addRec 3 3 0x0105 0xFF false unit (nativeBody tag q.val 0 0)

/-- The events of the memory system during a command, in order. -/
def State.memEvents (s : State) (ev : List MemEvent) (tag : W32) (unit : Byte) : State :=
  ev.foldl (fun s e => s.memEvent e tag unit) s

/-! ## Poison scan (R280) -/

/-- MEM_POISON_SCAN: under context 0 a range outside the address map is refused like an unmapped one (log entry 31). -/
def State.poisonScan (s : State) (n : SlotId) (c a len : Nat) : State :=
  if len = 0 then s.complete n stEmpty 0 []
  else if !(if c = 0 then s.inMap a len else s.mappedTo c a len) then s.refuse n stState 1
  else
    let all := (sheetRange a len).filter s.poisoned
    let some_ := all.take 502
    s.complete n stOk 0 (le 8 all.length ++ le 4 some_.length ++ le 4 0 ++ some_.flatMap fun sh => le 8 (sh * 1024))

def execMemPoisonScan (n : SlotId) (s : State) : Res :=
  s.serlothMem n 0x0504 fun x => s.poisonScan n x.ctxNo (fld x.req 0 8) (fld x.req 8 8)

/-! ## Host copies (07_movement R216-R224) -/

/-- Part size of a host copy (Table 07-4). -/
def partSize (len : Nat) : Nat := Nat.max 4096 (ceilDiv (ceilDiv len 64) 4096 * 4096)

/-- The parts of a host copy: number, offset and length. -/
def hostParts (len : Nat) : List (Nat × Nat × Nat) :=
  (List.range (ceilDiv len (partSize len))).map fun i => (i, i * partSize len, Nat.min (partSize len) (len - i * partSize len))

/-- What an incomplete part leaves: its destination holds unknown bytes, and every sheet that it meets is poisoned (R219). -/
def State.spoil (s : State) (a n : Nat) : State :=
  let s := (List.range (if n = 0 then 0 else (a + n - 1) / 65536 - a / 65536 + 1)).foldl (fun s i => s.holdPage ((a / 65536 + i) * 65536)) s
  (s.undefine a n).poisonRange a n

/-- A counter is owned by a context: a loaded schedule of the context declares it (06_programs R189). -/
def State.ownsCtr (s : State) (c k : Nat) : Bool := s.scheds.any fun x => x.ctx = c && x.image.counters.any fun e => e.ctr = k

/-- Host to device: the complete parts are written, with the mark of poisoned TLPs by their offset in the copy (R224). -/
def State.hostIn (s : State) (dev : Nat) (data : Bytes) (tlp : List Nat) (p : Nat × Nat × Nat) : State :=
  s.memWriteP (dev + p.2.1) ((data.drop p.2.1).take p.2.2) fun sh => tlp.any fun o =>
    decide (p.2.1 ≤ o) && decide (o < p.2.1 + p.2.2) && (dev + o) / 1024 = sh

/-- Device to host: a sheet at a time, with the EP bit for a poisoned sheet (R224). -/
def State.hostOut (s : State) (host dev : Nat) (p : Nat × Nat × Nat) : State :=
  (sheetsOf (dev + p.2.1) (s.memRead (dev + p.2.1) p.2.2)).foldl (fun s x =>
    s.emit (.hostWrite (host + (x.1 - dev)) x.2 (s.poisoned (x.1 / 1024)))) s

/-- The status of a copy with parts done out of all (R218, items 3 to 6). -/
def copyStatus (done all : Nat) (poison : Bool) : Nat :=
  if done = all then (if poison then stPoisoned else stOk) else if done = 0 then stHardware else stPartial

/-- The status of MEM_HOST_COPY for a range and counter that it may use. DESIGN CHOICE (log entry 32): R224 counts 'after every complete part is
visible'; a copy of which no part is complete, or of LEN 0, does not count. -/
def State.hostCopy (s : State) (n : SlotId) (b host : Bytes) (tlp : List Nat) (failed : W64) : State :=
  let out := fld b 0 1 = 1
  let ctr := fld b 2 2
  let haddr := fld b 8 8
  let dev := fld b 0x10 8
  let len := fld b 0x18 8
  let data := host.take len ++ List.replicate (len - host.length) 0
  let parts := hostParts len
  let good := parts.filter fun p => !bit failed.toNat p.1
  let bad := parts.filter fun p => bit failed.toNat p.1
  let poison := if out then s.rangePoisoned dev len else tlp.any fun o => decide (o < len)
  let s := if out then good.foldl (fun s p => s.hostOut haddr dev p) s
           else bad.foldl (fun s p => s.spoil (dev + p.2.1) p.2.2) (good.foldl (fun s p => s.hostIn dev data tlp p) s)
  let s := if !out && bit ctr 15 && good ≠ [] then s.addCtr (512 * bits ctr 9 4 + bits ctr 0 9) 1 (s.slots[n].ctxNo) 0xFF s.slots[n].hdr.tag
           else s
  s.complete n (copyStatus good.length parts.length poison) 0
    (le 8 (good.foldl (fun m p => m + 2 ^ p.1) 0) ++ le 8 (partSize len))

/-- A range meets the sealed image of a loaded schedule (11_time R333). -/
def State.sealed (s : State) (a n : Nat) : Bool := s.scheds.any fun x => overlaps a n x.addr x.len

/-- MEM_HOST_COPY (R223 R224). The operands are what the host path delivers: host memory's bytes, the offsets of poisoned TLPs
and the parts that fail; and what its transfers meet in memory. DONE_CTR counts for the host-to-device direction only (log entry 32). -/
def execMemHostCopy (n : SlotId) (host : Bytes) (poisonedTlp : List Nat) (failedParts : W64) (s : State) (ev : List MemEvent := []) : Res :=
  s.serlothMem n 0x0503 fun x =>
    let b := x.req
    let dir := fld b 0 1
    let ctr := fld b 2 2
    let dev := fld b 0x10 8
    let len := fld b 0x18 8
    let c := x.ctxNo
    if 1 < dir || 2 ^ 40 < len then s.refuse n stMalformed 0
    else if len = 0 then s.complete n stEmpty 0 (le 8 0 ++ le 8 4096)
    else if !(if c = 0 then (sheetRange dev len).all fun sh => (s.regionOf (sh * 1024) 1024).isSome else s.mappedTo c dev len) then
      s.refuse n stState 0
    else if dir = 0 && s.sealed dev len then s.refuse n stState 0
    else if dir = 0 && bit ctr 15 && !s.ownsCtr c (512 * bits ctr 9 4 + bits ctr 0 9) then s.refuse n stContext 0
    else (s.memEvents ev x.hdr.tag 0xFF).hostCopy n b host poisonedTlp failedParts

/-! ## Scrubs and warnings (R273 R275) -/

/-- A sheet of either tier, by its address. -/
def isTier (a : Nat) : Bool := decide (a < nearSize) || (decide (farBase ≤ a) && decide (a < farBase + farSize))

/-- PATROL_SCRUB (R273): a find has no tag. Tiers in self-refresh and fenced channels are not read. -/
def execPatrolScrub (addr : Nat) (found : ScrubFinding) (s : State) : Res :=
  if !isTier addr || s.mem.selfRefresh || s.fenced (addr / 1024) then ok s
  else match found with
    | .clean => ok s
    | .correctable => ok (s.memEvent (.corrected addr) 0 0xFF)
    | .uncorrectable => ok (s.memEvent (.uncorrectable addr) 0 0xFF)

/-- STAGING_SCRUB (R273 R275): at a scratchpad address or at the cache line of a tier sheet; the quire's staging memory counts as
one channel. An uncorrectable word marks its scratchpad sheet or invalidates its line. Nothing is read in Nap or Hold (R284). -/
def execStagingScrub (q : Quire) (addr : Option Nat) (found : ScrubFinding) (s : State) : Res :=
  let c := 0x2000 + q.val
  if s.mem.selfRefresh then ok s
  else match found, addr with
  | .clean, _ => ok s
  | .correctable, _ => ok (s.countWarn c 1 true false)
  | .uncorrectable, some a =>
    if isTier a then ok ((s.dropLine q (a / 1024)).native 3 0x0105 q.val 0 0)
    else if s.storeOf a = some (q.val + 2) then ok (s.uncorrectable a 0 0xFF false)
    else ok s
  | .uncorrectable, none => ok s

/-- CORRECTED_ERROR_WARNING_CLEAR (R275): the count has stayed at or below 64 for 60 s. -/
def execCorrectedErrorWarningClear (channel : Nat) (s : State) : Res :=
  let x := s.chan channel
  match x.lowSince with
  | some t => if x.warned && t + 60000000000 ≤ s.clock then ok (s.setChan channel { x with warned := false, lowSince := none }) else ok s
  | none => ok s

end Sys2Proof.Machine
end

