-- ==== Sys2Proof/Machine/Packet.lean ====
section
/-! DEFINITION. Command packets, operand descriptors and layouts, reading and writing rows of a layout with poison, tensor
scales and observations, and the division of copies into parts (06_programs R169-R181, 09_memory R252, 10_numerics R285-R291,
07_movement R209-R217). -/

namespace Sys2Proof.Machine

/-! ## Packets (Tables 06-2 and 06-3) -/

def pkOp (b : Bytes) : Nat := fld b 0 1
def pkFlags (b : Bytes) : Nat := fld b 2 2
def pkFence (b : Bytes) : Bool := bit (pkFlags b) 0
def pkTrace (b : Bytes) : Bool := bit (pkFlags b) 1
def pkChIn (b : Bytes) : Bool := bit (pkFlags b) 2
def pkChOut (b : Bytes) : Bool := bit (pkFlags b) 3
def pkSigEn (b : Bytes) : Bool := bit (pkFlags b) 4
def pkSigCtr (b : Bytes) : Nat := bits (pkFlags b) 7 9
def pkTag (b : Bytes) : W32 := BitVec.ofNat 32 (fld b 0x1C 4)

/-- The layout index and format code of an operand descriptor; none for an unused slot (R172). -/
def descAt (b : Bytes) (off : Nat) : Option (Nat × Nat) :=
  let v := fld b off 3
  if v % 65536 = 0xFFFF then none else some (v % 65536, bits v 16 4)

/-- CTR of WAIT and SIGNAL as a counter number, 512 x folio + index (R187). -/
def pkCtr (b : Bytes) : Nat := 512 * bits (fld b 4 2) 9 4 + bits (fld b 4 2) 0 9

/-! ## Operands (R172-R174) -/

/-- An operand of a command: its layout, format, row-0 address, scale address, the exponent that the command latched, and
whether it saturates as in a probe pass (10_numerics R287 R296). -/
structure Opnd where
  idx : Nat
  lay : Layout
  fmt : Nat
  addr : Nat
  saddr : Nat
  exp : Int
  sat : Bool
  deriving DecidableEq, Repr

/-- A scaled format: FP16, E4M3 or E5M2 (10_numerics R285). -/
def isScaled (f : Nat) : Bool := f = 2 || f = 3 || f = 4

/-- Bytes of one block of elements of an MX format (R174). -/
def blockBytes (f : Nat) : Nat := if f = 10 then 16 else if f = 8 || f = 9 then 24 else 32

/-- The terms idx[l] x LOOP_STRIDE[l]. -/
def loopTerms (l : Layout) (idx : List Nat) : List Int := List.zipWith (fun (i : Nat) (s : Int) => (i : Int) * s) idx l.loopStride

/-- The addresses of row 0 and of its scales at loop indices, in 64 bits (R174). -/
def addrAt (l : Layout) (idx : List Nat) : Nat := (((l.addr : Int) + (loopTerms l idx).sum) % 18446744073709551616).toNat
def saddrAt (l : Layout) (f : Nat) (idx : List Nat) : Nat :=
  (((l.scaleAddr : Int) + ((loopTerms l idx).map fun t => t / (blockBytes f : Int)).sum) % 18446744073709551616).toNat

/-- The tensor index of a layout in a scaled format; none without one (10_numerics R286). -/
def tensorOf (i : Image) (lay f : Nat) : Option Nat :=
  if isScaled f then
    match i.num with
    | some u => let t := u.map.getD lay 0xFFFF; if t = 0xFFFF then none else some t
    | none => none
  else none

/-- The exponent of a layout's tensor: 0 for an unsettled tensor in a probe pass (10_numerics R287 R296). -/
def State.expOf (s : State) (x : Sched) (lay f : Nat) : Int × Bool :=
  match tensorOf x.image lay f with
  | none => (0, false)
  | some t =>
    if x.probe.pass && x.probe.unsettled.contains t then (0, true)
    else (sgn 8 (s.memNat ((x.image.num.map NumE.tableAddr).getD 0 + 32 * t) 1), false)

/-- The operand of a layout index and format at loop indices; an index beyond the table has an empty layout. -/
def State.opndOf (s : State) (x : Sched) (lay f : Nat) (idx : List Nat) : Opnd :=
  let l := x.image.layouts.getD lay
    { addr := 0, scaleAddr := 0, cols := 0, rows := 0, rowStride := 0, scaleRowStride := 0, kind := 0, loopStride := [] }
  let e := s.expOf x lay f
  { idx := lay, lay := l, fmt := f, addr := addrAt l idx, saddr := saddrAt l f idx, exp := e.1, sat := e.2 }

/-- The operand of a descriptor of a packet; none where the slot is unused. -/
def State.opnd (s : State) (x : Sched) (b : Bytes) (off : Nat) (idx : List Nat) : Option Opnd :=
  (descAt b off).map fun d => s.opndOf x d.1 d.2 idx

/-- The operand with the exponent that the command latched when it began, by the place of its descriptor. -/
def Opnd.latched (o : Opnd) (scales : List Int) (k : Nat) : Opnd := { o with exp := scales.getD k 0 }

/-! ## Addresses of rows -/

def Opnd.rowAddr (o : Opnd) (r : Nat) : Nat := o.addr + r * o.lay.rowStride
def Opnd.scaleRowAddr (o : Opnd) (r : Nat) : Nat := o.saddr + r * o.lay.scaleRowStride

/-- The byte ranges of n elements from element c of a row, and of their scales. -/
def Opnd.ranges (o : Opnd) (r c n : Nat) : List (Nat × Nat) :=
  if n = 0 then []
  else
    let w := elemBits o.fmt
    let lo := c * w / 8
    (o.rowAddr r + lo, ceilDiv ((c + n) * w) 8 - lo) ::
      (if isMX o.fmt then [(o.scaleRowAddr r + c / 32, ceilDiv (c + n) 32 - c / 32)] else [])

/-- The first address of an operand's rows that lies outside the address map (09_memory R250). -/
def State.badOpnd (s : State) (o : Opnd) (rows cols : Nat) : Option Nat :=
  if rows = 0 || cols = 0 then none
  else if s.inMap o.addr ((rows - 1) * o.lay.rowStride + rowBytes o.fmt cols) &&
      (!isMX o.fmt || s.inMap o.saddr ((rows - 1) * o.lay.scaleRowStride + ceilDiv cols 32)) then none
  else (List.range rows).findSome? fun r => (o.ranges r 0 cols).findSome? fun g => if s.inMap g.1 g.2 then none else some g.1

/-! ## Reading -/

/-- Reads sheets through a quire's cache, or directly: the mark that each delivers (09_memory R252 R259). -/
def State.touch (s : State) (q : Option Quire) (shs : List Nat) : List (Nat × Bool) × State :=
  shs.foldl (fun a sh =>
    let r := match q with
      | some q => a.2.cacheRead q sh
      | none => (a.2.poisoned sh, a.2)
    (a.1 ++ [(sh, r.1)], r.2)) ([], s)

/-- The mark of a sheet among those read. -/
def markOf (l : List (Nat × Bool)) (sh : Nat) : Bool := l.any fun x => x.1 = sh && x.2

/-- The sheets that hold element i of a row at an address. -/
def elemSheets (a w i : Nat) : List Nat := [(a + i * w / 8) / 1024, (a + (i * w + w - 1) / 8) / 1024]

/-- A row of values with their poison: an element is poisoned where a sheet of its bits or of its block's scale is (R96). -/
structure RowVals where
  vals : List (FVal × Bool)
  flags : Nat
  deriving DecidableEq, Repr

/-- Reads n elements of row r at their stored values. -/
def State.readRaw (s : State) (q : Option Quire) (o : Opnd) (r n : Nat) : RowVals × State :=
  let a := o.rowAddr r
  let w := elemBits o.fmt
  let nb := rowBytes o.fmt n
  let (ps, s) := s.touch q (sheetRange a nb)
  let sa := o.scaleRowAddr r
  let ns := if isMX o.fmt then ceilDiv n 32 else 0
  let (pz, s) := s.touch q (sheetRange sa ns)
  let (vs, fg) := decodeRow o.fmt n (s.memRead a nb) (s.memRead sa ns)
  ({ vals := vs.mapIdx fun i v => (v, (elemSheets a w i).any (markOf ps) || markOf pz ((sa + i / 32) / 1024)), flags := fg }, s)

/-- Reads n elements of row r at their true values (10_numerics R287). -/
def State.readRow (s : State) (q : Option Quire) (o : Opnd) (r n : Nat) : RowVals × State :=
  let (x, s) := s.readRaw q o r n
  ({ x with vals := x.vals.map fun v => (FV.scale v.1 o.exp, v.2) }, s)

/-! ## Writing -/

/-- The amax code of a value (10_numerics R290 R291): NaN is skipped. -/
def amaxCode (v : FVal) : Nat :=
  match rne32 (FV.abs v) with
  | .nan => 0
  | .inf _ => 0xFF
  | .fin _ m e => if m = 0 then 0 else (Max.max (-126) (Min.min 127 (FV.ilog m e)) + 127).toNat

/-- Folds an observation into a list by tensor index (10_numerics R291 R292). -/
def observeIn (l : List Obs) (o : Obs) : List Obs :=
  if l.any fun x => x.idx = o.idx then
    l.map fun x => if x.idx = o.idx then { x with code := Nat.max x.code o.code, ovf := x.ovf || o.ovf } else x
  else l ++ [o]

/-- Observes values narrowed into a scaled tensor. -/
def State.observe (s : State) (x : Sched) (o : Opnd) (vs : List FVal) (ovf : Bool) : State :=
  match tensorOf x.image o.idx o.fmt, s.sched x.id with
  | some t, some y =>
    s.setSched { y with obs := observeIn y.obs { idx := t, code := (vs.map amaxCode).foldl Nat.max 0, ovf := ovf } }
  | _, _ => s

/-- Result fields of a command: FSAT, IOVF, SHIFT, whether the results are integers, and whether a conversion of formats widens
exactly (R89). -/
structure Narrowing where
  fsat : Bool
  iovf : Bool
  shift : Nat
  intSrc : Bool
  exact : Bool
  deriving DecidableEq, Repr

/-- The unused bits of the last byte of elements c to c + n - 1 of a row: those of the byte in memory where the row goes on
there, else free (log entry 35). -/
def State.spareBits (s : State) (o : Opnd) (r c n : Nat) (here : Bool) : Nat × State :=
  let w := elemBits o.fmt
  let spare := 8 * rowBytes o.fmt n - w * n
  if spare = 0 then (0, s)
  else if here && decide (c + n < o.lay.cols) then ((s.memByte (o.rowAddr r + (c + n) * w / 8)).toNat / 2 ^ (8 - spare), s)
  else ((s.fresh.1).toNat % 2 ^ spare, s.fresh.2)

/-- The sheets that carry poison from elements with marks: the sheets of each marked element, or, in an MX format, those of the
whole block and of its scale. -/
def poisonSheets (f a sa len : Nat) (marks : List Bool) : List Nat :=
  if isMX f then
    let bad : List Nat := ((blocks32 marks).mapIdx fun j bl => if bl.any id then [j] else []).flatten
    bad.flatMap fun j => sheetRange (a + j * blockBytes f) (Min.min (blockBytes f) (len - j * blockBytes f)) ++ [(sa + j) / 1024]
  else (marks.mapIdx fun i v => if v then elemSheets a (elemBits f) i else []).flatten

/-- True values for row r of a destination, from element c on (c a multiple of 32), as they are written; `here` says that the
destination is this device's. A sheet that holds a poisoned element is poisoned; in an MX block one poisoned element poisons the
block and its scale (R96 R133, 07_movement R221). -/
def State.rowPieces (s : State) (x : Sched) (o : Opnd) (r c : Nat) (nw : Narrowing) (vs : List (FVal × Bool)) (here : Bool) : Written × State :=
  if vs = [] then ({ elems := [], scales := [], poisoned := [], flags := 0 }, s)
  else
    let a := o.rowAddr r + c * elemBits o.fmt / 8
    let sa := o.scaleRowAddr r + c / 32
    let (pad, s) := s.spareBits o r c vs.length here
    let st := vs.map fun v => FV.scale v.1 (-o.exp)
    let (b, sb, fl) := encodeRow o.fmt (nw.fsat || o.sat) nw.iovf nw.shift nw.intSrc pad st
    let fg := convFlags nw.exact fl
    ({ elems := [(a, b)], scales := if sb = [] then [] else [(sa, sb)], poisoned := poisonSheets o.fmt a sa b.length (vs.map (·.2)), flags := fg },
      s.observe x o (vs.map (·.1)) (bit fg 2))

/-- The marks of a block-wise operand: an element of a block carries the mark of any of the block's elements (07_movement R221). -/
def blockMarks (marks : List Bool) : List Bool := (blocks32 marks).flatMap fun bl => bl.map fun _ => bl.any id

/-- Writes pieces with the poison of their sheets. -/
def State.putPieces (s : State) (ps : List (Nat × Bytes)) (poisoned : List Nat) : State :=
  ps.foldl (fun s p => s.memWriteP p.1 p.2 poisoned.contains) s

/-- Writes true values to row r of a destination of this device. -/
def State.writeRow (s : State) (x : Sched) (o : Opnd) (r c : Nat) (nw : Narrowing) (vs : List (FVal × Bool)) : Nat × State :=
  let (w, s) := s.rowPieces x o r c nw vs true
  (w.flags, s.putPieces (w.elems ++ w.scales) w.poisoned)

/-! ## Lists (07_movement R209) -/

/-- Bytes of an entry of a list of a kind. -/
def listEntryBytes (kind : Nat) : Nat := if kind = 2 then 16 else 8

/-- What a command latches of a list: none where it is refused, else the poison of its sheets and its entries. -/
def State.readList (s : State) (q : Option Quire) (o : Opnd) : Option (Bool × List Nat) × State :=
  let h := s.memRead o.addr 16
  let n := fld h 0 4
  let sz := listEntryBytes o.lay.kind
  if o.lay.rows < n || fld h 4 1 ≠ o.lay.kind || !allZero h 5 11 then
    let (ps, s) := s.touch q (sheetRange o.addr 16)
    (if ps.any (·.2) then some (true, []) else none, s)
  else
    let (ps, s) := s.touch q (sheetRange o.addr (16 + n * sz))
    (some (ps.any (·.2), (List.range n).map fun i => s.memNat (o.addr + 16 + i * sz) sz), s)

/-! Entries of block lists (Table 07-2) and of row lists (Table 08-3). -/
def blSBR (v : Nat) : Nat := bits v 0 16
def blSBC (v : Nat) : Nat := bits v 16 16
def blDBR (v : Nat) : Nat := bits v 32 16
def blDBC (v : Nat) : Nat := bits v 48 16
def rlSRow (v : Nat) : Nat := bits v 0 32
def rlDRow (v : Nat) : Nat := bits v 32 32
def rlGate (v : Nat) : Nat := bits v 64 32
/-- A hole (Table 08-3). -/
def rlHole (v : Nat) : Bool := rlSRow v = 0xFFFFFFFF

/-- The block of an entry: rows and elements (R210); Int values so that an entry outside either tensor shows as 0 or less. -/
def blockH (src dst : Layout) (v : Nat) : Int := Min.min 32 (Min.min ((src.rows : Int) - 32 * blSBR v) ((dst.rows : Int) - 32 * blDBR v))
def blockW (src dst : Layout) (v : Nat) : Int := Min.min 32 (Min.min ((src.cols : Int) - 32 * blSBC v) ((dst.cols : Int) - 32 * blDBC v))

/-! ## Parts (07_movement R216, Table 07-4) -/

/-- Runs of at most 64 parts over n items: part, first item, items. -/
def runsOf (n : Nat) : List (Nat × Nat × Nat) :=
  let k := if n ≤ 64 then 1 else ceilDiv n 64
  (List.range (ceilDiv n k)).map fun i => (i, i * k, Min.min k (n - i * k))

/-- A packet's copy is to a peer set. -/
def pkMcast (b : Bytes) : Bool := if pkOp b = 0x60 then bit (fld b 0xA 1) 1 else if pkOp b = 0x61 then bit (fld b 0xD 1) 1 else false

/-- PEER of a CPE packet. -/
def pkPeer (b : Bytes) : Nat := fld b 0x16 1

/-- The row of DST that takes row i of a COPY: of a hand-over layout the ring row (06_programs R196). -/
def ringRow (b : Bytes) (d : Layout) (i : Nat) : Nat := if pkChOut b then i % d.rows else i

/-- Destination ranges of one item of a CPE command: a row of COPY, an entry of COPY_LIST, the bytes of TIP. -/
def State.itemRanges (s : State) (x : Sched) (t : Entry) (i : Nat) : List (Nat × Nat) :=
  let b := t.packet
  if pkOp b = 0x62 then [(fld b 0xC 8, fld b 0x14 2)]
  else match s.opnd x b 7 t.idx, s.opnd x b 4 t.idx with
    | some d, some c =>
      if pkOp b = 0x60 then d.ranges (ringRow b d.lay i) 0 d.lay.cols
      else
        let v := t.list.getD i 0
        let kind := match s.opnd x b 0xA t.idx with
          | some l => l.lay.kind
          | none => 1
        if kind = 2 then d.ranges (rlDRow v) 0 d.lay.cols
        else (List.range (blockH c.lay d.lay v).toNat).flatMap fun j =>
          d.ranges (32 * blDBR v + j) (32 * blDBC v) (blockW c.lay d.lay v).toNat
    | _, _ => []

/-- Number of items of a CPE command. -/
def State.cpeItems (s : State) (x : Sched) (t : Entry) : Nat :=
  if pkOp t.packet = 0x62 then 1
  else if pkOp t.packet = 0x61 then t.list.length
  else ((s.opnd x t.packet 4 t.idx).map fun o => o.lay.rows).getD 0

/-- Members of the peer set of a multicast (12_links R371), or the one peer. -/
def peersOf (i : Image) (b : Bytes) : List PeerE :=
  match i.peers[pkPeer b]? with
  | some p => if pkMcast b && p.isSet then (i.peers.drop p.resv).take p.rctx else [p]
  | none => []

/-- The parts of a CPE command: number and items. With MCAST every device's part holds every item. -/
def State.cpeParts (s : State) (x : Sched) (t : Entry) : List (Nat × Nat × Nat) :=
  let n := s.cpeItems x t
  if pkMcast t.packet then (List.range (peersOf x.image t.packet).length).map fun i => (i, 0, n) else runsOf n

/-- Destination ranges of a part. -/
def State.partRanges (s : State) (x : Sched) (t : Entry) (p : Nat × Nat × Nat) : List (Nat × Nat) :=
  (List.range p.2.2).flatMap fun i => s.itemRanges x t (p.2.1 + i)

/-- Marks the destination sheets of every part of a local copy that is not complete (07_movement R219). -/
def State.poisonIncomplete (s : State) (x : Sched) (t : Entry) : State :=
  (s.cpeParts x t).foldl (fun s p =>
    if bit t.done.toNat p.1 then s else (s.partRanges x t p).foldl (fun s r => s.poisonRange r.1 r.2) s) s

end Sys2Proof.Machine
end

