-- ==== Sys2Proof/Machine/Access.lean ====
section
/-! DEFINITION. What the commands in progress read and write: the order of accesses within a stream, and the accesses of different
streams that nothing orders (06_programs R167 R168). -/

namespace Sys2Proof.Machine

/-! ## Fields that name memory (Table 06-11, R180 R181) -/

def tipSrc (b : Bytes) : Nat := fld b 4 8
def tipDst (b : Bytes) : Nat := fld b 0xC 8
def tipLen (b : Bytes) : Nat := fld b 0x14 2
def upAddr (b : Bytes) : Nat := fld b 4 8
def upFirst (b : Bytes) : Nat := fld b 0xC 8
def upCount (b : Bytes) : Nat := fld b 0x14 8
def rtTopk (b : Bytes) : Nat := fld b 0xD 1
def rtExperts (b : Bytes) : Nat := fld b 0xE 2
def rtCapacity (b : Bytes) : Nat := fld b 0x10 4
/-- Operation and U of a VXE packet (Table 06-9). -/
def vxOp (b : Bytes) : Nat := fld b 4 1
def vxU (b : Bytes) : Nat := fld b 0x18 4 % 32

/-- The byte ranges of a tensor operand. -/
def Opnd.allRanges (o : Opnd) : List (Nat × Nat) := (List.range o.lay.rows).flatMap fun r => o.ranges r 0 o.lay.cols

/-- The list pitch P of a capacity, and the length of ROUTE's list region (08_conditional R228). -/
def listPitch (c : Nat) : Nat := ceilDiv (16 + 16 * c) 1024 * 1024
def listRegion (experts cap t topk : Nat) : Nat := 2 * experts * listPitch cap + listPitch (t * topk)

/-- The descriptor that an UPDATE names, with its index. -/
def Sched.descOf (x : Sched) (b : Bytes) : Option (Nat × UpdateE) :=
  ((x.image.updates.mapIdx fun i u => (i, u)).find? fun iu => iu.2.addr = upAddr b)

def UpdateE.work (u : UpdateE) (b : Bool) : Nat := if b then u.workB else u.workA

/-- Bytes of the working copy's elements: whole groups of MXFP6. -/
def workBytes (f n : Nat) : Nat := if elemBits f = 6 then ceilDiv n 4 * 3 else rowBytes f n
/-- Address of its scale array: the first sheet boundary at or after the elements. -/
def UpdateE.workScale (u : UpdateE) (b : Bool) : Nat := ceilDiv (u.work b + workBytes u.wfmt u.count) 1024 * 1024

/-- The regions of a half in the order of the digest string. -/
def UpdateE.regions (u : UpdateE) (b : Bool) : List (Nat × Nat) :=
  [(u.master b, 8 + 4 * u.count)] ++ (if u.hasMom1 then [(u.mom1 b, 4 * u.count)] else []) ++
    (if u.hasMom2 then [(u.mom2 b, 4 * u.count)] else []) ++ [(u.work b, workBytes u.wfmt u.count)] ++
    (if isMX u.wfmt then [(u.workScale b, ceilDiv u.count 32)] else [])

/-- The ranges that an update reads beside the halves: its gradient and its hyperparameters. -/
def UpdateE.inputs (u : UpdateE) : List (Nat × Nat) := [(u.grad, elemBits u.gfmt / 8 * u.count), (u.hyper, 64 * u.hyperCount)]

/-! ## What a command touches -/

/-- The ranges of the operands in slots of a packet. -/
def State.slotRanges (s : State) (x : Sched) (t : Entry) (offs : List Nat) : List (Nat × Nat) :=
  offs.flatMap fun off => match s.opnd x t.packet off t.idx with
    | some o => o.allRanges
    | none => []

/-- Rows 0 to total - 1 of an operand; of a ring, every row. -/
def State.rowRanges (s : State) (x : Sched) (t : Entry) (off : Nat) : List (Nat × Nat) :=
  match s.opnd x t.packet off t.idx with
  | some o => (List.range (Nat.min t.total o.lay.rows)).flatMap fun r => o.ranges r 0 o.lay.cols
  | none => []

/-- The rows that a gathered stream names (08_conditional R237), or the rows or columns of SRC. -/
def State.streamReads (s : State) (x : Sched) (t : Entry) : List (Nat × Nat) :=
  match s.opnd x t.packet 4 t.idx with
  | none => []
  | some o =>
    if o.lay.kind = 2 then
      let u := s.opndOf x (o.idx + 1) o.fmt t.idx
      (t.list.filter fun v => !rlHole v).map fun v => (u.rowAddr (rlSRow v), u.lay.rowStride)
    else o.allRanges

/-- The source ranges of one entry of a list, or of the whole of SRC. -/
def State.copyReads (s : State) (x : Sched) (t : Entry) : List (Nat × Nat) :=
  let b := t.packet
  if pkOp b = 0x62 then [(tipSrc b, tipLen b)]
  else if pkOp b = 0x60 then s.slotRanges x t [4]
  else match s.opnd x b 4 t.idx, s.opnd x b 7 t.idx, s.opnd x b 0xA t.idx with
    | some c, some d, some l => t.list.flatMap fun v =>
        if l.lay.kind = 2 then (if rlHole v then [] else c.ranges (rlSRow v) 0 c.lay.cols)
        else (List.range (blockH c.lay d.lay v).toNat).flatMap fun j => c.ranges (32 * blSBR v + j) (32 * blSBC v) (blockW c.lay d.lay v).toNat
    | _, _, _ => []

/-- The ranges that ROUTE writes. -/
def State.routeWrites (s : State) (x : Sched) (t : Entry) : List (Nat × Nat) :=
  match s.opnd x t.packet 4 t.idx, s.opnd x t.packet 7 t.idx, s.opnd x t.packet 0xA t.idx with
  | some so, some lo, some co =>
    (lo.addr, listRegion (rtExperts t.packet) lo.lay.rows so.lay.rows (rtTopk t.packet)) ::
      (List.range 3).map fun r => (co.rowAddr r, 4 * rtExperts t.packet)
  | _, _, _ => []

/-- The ranges that a command reads while it works. -/
def State.reads (s : State) (x : Sched) (t : Entry) : List (Nat × Nat) :=
  let b := t.packet
  match pkOp b with
  | 0x20 => s.slotRanges x t [4]
  | 0x21 => s.streamReads x t ++ s.rowRanges x t 7
  | 0x40 => s.slotRanges x t [6, 9, 0xC, 0x15] ++
      (if vxOp b = 0x40 then
        match descAt b 6 with
        | some d => (List.range (vxU b - 1)).flatMap fun u => (s.opndOf x (d.1 + u + 1) d.2 t.idx).allRanges
        | none => []
       else [])
  | 0x60 | 0x61 | 0x62 => s.copyReads x t
  | 0x80 => (match x.descOf b with
    | some (_, u) => u.regions (s.lastHalf u) ++ u.inputs
    | none => [])
  | 0xA0 => s.slotRanges x t [4]
  | _ => []

/-- The ranges that a command writes in this device's memory. -/
def State.writes (s : State) (x : Sched) (t : Entry) : List (Nat × Nat) :=
  let b := t.packet
  match pkOp b with
  | 0x21 => s.rowRanges x t 0xA
  | 0x40 => s.slotRanges x t [0xF, 0x12]
  | 0x60 | 0x61 | 0x62 => if pkPeer b = 0xFF then (List.range (s.cpeItems x t)).flatMap fun i => s.itemRanges x t i else []
  | 0x80 => (match x.descOf b with
    | some (_, u) => u.regions (!s.lastHalf u)
    | none => [])
  | 0xA0 => s.routeWrites x t
  | _ => []

/-- Two ranges meet in a sheet. -/
def shareSheet (a b : Nat × Nat) : Bool :=
  decide (0 < a.2) && decide (0 < b.2) && decide (a.1 / 1024 ≤ (b.1 + b.2 - 1) / 1024) && decide (b.1 / 1024 ≤ (a.1 + a.2 - 1) / 1024)

/-- Some range of one list meets one of the other in a sheet. -/
def meetSheets (l m : List (Nat × Nat)) : Bool := l.any fun a => m.any fun b => shareSheet a b

/-- Two commands access a sheet in common that at least one of them writes. -/
def State.conflict (s : State) (x y : Sched) (t u : Entry) : Bool :=
  let w := s.writes x t
  let v := s.writes y u
  meetSheets w v || meetSheets w (s.reads y u) || meetSheets (s.reads x t) v

/-! ## Within a stream (R166 R167) -/

/-- A command has work left: units, or the bubble that carries a turn (04_array R114). -/
def Entry.work (t : Entry) : Bool := !t.ready && !t.stuck && !t.waiting && (decide (t.units < t.total) || t.turn)

/-- An earlier command of the stream that still works holds a later one's accesses: rows of successive STREAM_ROWS follow one another
in launch order (Table 06-1), and an access waits until the earlier access to the same sheet is complete. -/
def State.holds (s : State) (x : Sched) (u t : Entry) : Bool :=
  (pkOp u.packet = 0x21 && pkOp t.packet = 0x21) || s.conflict x x u t

/-- No earlier command of the stream holds a command. -/
def State.mayWork (s : State) (e : EngId) (x : Sched) (t : Entry) : Bool :=
  (s.engines[e].entries.filter fun u => decide (u.pos < t.pos) && u.work).all fun u => !s.holds x u t

/-- No earlier command of the stream is still to write a range that a command reads as it begins: a list, or a loop count. -/
def State.mayRead (s : State) (e : EngId) (x : Sched) (r : Nat × Nat) : Bool :=
  (s.engines[e].entries.filter Entry.work).all fun u => !meetSheets (s.writes x u) [r]

/-- The range that a list occupies. -/
def Opnd.listRange (o : Opnd) : Nat × Nat := (o.addr, 16 + o.lay.rows * listEntryBytes o.lay.kind)

/-! ## Between streams (R168) -/

/-- Two commands that a hand-over joins, or two shares of the OPEs: their accesses are ordered. -/
def State.joined (s : State) (e p : EngId) (t u : Entry) : Bool :=
  (engClass e = 3 && engClass p = 3) ||
  (t.chOut.isSome && t.chOut = u.chIn && s.engines[e].chains.any fun c => some c.k = t.chOut && c.consumer = p) ||
  (u.chOut.isSome && u.chOut = t.chIn && s.engines[p].chains.any fun c => some c.k = u.chOut && c.consumer = e)

/-- The commands in progress of other streams that race with a command: they access a sheet of it, one of the two writes it, and no
token orders two commands that are both in progress. -/
def State.racers (s : State) (e : EngId) (x : Sched) (t : Entry) : List (EngId × Nat) :=
  ((List.finRange 44).filter fun p => p ≠ e && s.engines[p].entries ≠ []).flatMap fun p =>
    match (s.engines[p].grant).bind fun g => s.sched g.sched with
    | none => []
    | some y => (s.engines[p].entries.filter fun u => !u.ready && !s.joined e p t u && s.conflict x y t u).map fun u => (p, u.pos)

/-- Notes a race on a command in progress. -/
def State.race (s : State) (e : EngId) (pos : Nat) : State :=
  s.setEng e { s.engines[e] with entries := s.engines[e].entries.map fun t => if t.pos = pos then { t with raced := true } else t }

/-- Notes the races of a command that has begun, on both sides. -/
def State.noteRaces (s : State) (e : EngId) (x : Sched) (t : Entry) : State :=
  let l := s.racers e x t
  if l = [] then s else (l.foldl (fun s p => s.race p.1 p.2) s).race e t.pos

/-- The result of a command that raced is undefined: what it writes holds free values (R168). -/
def State.undefineRaced (s : State) (x : Sched) (t : Entry) : State :=
  if t.raced then (s.writes x t).foldl (fun s r => s.undefine r.1 r.2) s else s

end Sys2Proof.Machine
end

