-- ==== Sys2Proof/Machine/Stream.lean ====
section
/-! DEFINITION. Streams: how an engine begins, closes and records commands, chains, halts and phase ends, and the common
opcodes (06_programs R163-R200, 08_conditional R241-R243, 11_time R344 R345). -/

namespace Sys2Proof.Machine

/-! ## Slips and phases (11_time R344 R345) -/

/-- Writes a slip record; a schedule keeps its most recent 4,096. -/
def State.slip (s : State) (id : Nat) (r : Slip) : State :=
  match s.sched id with
  | none => s
  | some x =>
    let l := x.slips ++ [r]
    s.setSched { x with slips := l.drop (l.length - 4096), slipTotal := x.slipTotal + 1 }

/-- The nominal end of a launched phase. -/
def PhaseRun.due (r : PhaseRun) (p : PhaseE) : Nat := r.nominal - p.launch + p.deadline

/-- The phase of a launched run. -/
def Sched.phaseOf (x : Sched) (r : PhaseRun) : PhaseE :=
  x.image.phases.getD r.phase
    { launch := 0, deadline := 0, gen := false, every := 0, stepPhase := 0, firstStream := 0, nStreams := 0, nPin := 0, firstPin := 0 }

/-- A DEADLINE slip for a phase that ends late (R345), with the TAG of the END that was late (06_programs R185). -/
def State.deadlineSlip (s : State) (x : Sched) (r : PhaseRun) (tag : W32) : State :=
  let due := r.due (x.phaseOf r)
  if due < s.now then
    s.slip x.id { tag := tag, kind := 2, cause := r.cause, phase := r.phase, unit := 0xFF, step := r.step, nominal := due, actual := s.now }
  else s

/-- The last collated step as SCH_STATUS and SCH_CANCEL give it: all ones where there is none (R335 R337). -/
def Sched.lastBytes (x : Sched) : Bytes := le 8 (x.lastCollated.getD 0xFFFFFFFFFFFFFFFF)

/-- A schedule that is cancelled is removed, and its SCH_CANCEL completes, once none of its launched phases is in progress and its pins
are released (R335). -/
def State.finishCancel (s : State) (id : Nat) : State :=
  match s.sched id with
  | none => s
  | some x =>
    if x.cancel = some false && !x.inProgress && x.pins = [] then
      let s := (List.range 64).foldl (fun s i => if s.slots[ctxId i].held = .cancel id then s.complete (ctxId i) stOk 0 x.lastBytes else s) s
      (s.removeSched id).runPendings
    else s

/-- The Binder writes the sample status word of a generation phase, once: at its completion or at the context reset that ends it
(08_conditional R243; log entry 146). -/
def State.writeSample (s : State) (x : Sched) (r : PhaseRun) : State :=
  let a := Config.sampleAddr x.image.setId r.phase
  if r.gen && s.inMap a 8 then s.memWrite a (le 8 r.status) else s

/-- A stream of a launched phase has completed END; the phase is complete with its last stream (06_programs R165). -/
def State.streamDone (s : State) (e : EngId) (g : Grant) (tag : W32) : State :=
  match s.sched g.sched with
  | none => s
  | some x =>
    match x.runs.find? fun r => r.phase = g.phase && r.inProgress && r.active.contains e with
    | none => s
    | some r =>
      let r' := { r with active := r.active.filter fun i => i ≠ e, complete := decide ((r.active.filter fun i => i ≠ e) = []) }
      let s := s.setSched { x with runs := x.runs.map fun y => if y = r then r' else y }
      if r'.complete then (((s.deadlineSlip x r tag).writeSample x r).finishCancel x.id) else s

/-- The sample status word of a generation phase: the tag of the first command that failed, with bit 63 (08_conditional R243). -/
def State.sampleStatus (s : State) (g : Grant) (tag : W32) : State :=
  match s.sched g.sched with
  | none => s
  | some x => s.setSched { x with runs := x.runs.map fun r =>
      if r.phase = g.phase && !r.complete && r.gen && r.status = 0 then { r with status := tag.toNat + 2 ^ 63 } else r }

/-! ## Completion records (R182-R184) -/

/-- A status that halts the stream (Table 06-13). -/
def halting (op status : Nat) : Bool :=
  status = stState || status = stTimeout || status = stHardware || status = stAborted || (status = stPoisoned && op = 4)

/-- WATERMARK of a command (07_movement Table 07-5). -/
def Entry.mark (t : Entry) : Nat :=
  let op := pkOp t.packet
  if op = 0x60 || op = 0x61 || op = 0x62 then t.done.toNat else t.watermark

/-- The 32 bytes of a completion record (Table 06-12). -/
def State.recordBytes (s : State) (e : EngId) (t : Entry) (status : Nat) : Bytes :=
  le 4 (pkTag t.packet).toNat ++ le 2 status ++ [t.aflags] ++ le 1 (pkOp t.packet) ++ [s.unitByte e] ++ le 3 0 ++ le 4 t.pc ++
    le 8 t.mark ++ le 8 t.doneAt

/-- The program of a grant. -/
def Sched.prog (x : Sched) (g : Grant) : Option ProgE := x.image.progs[g.prog]?

/-- The counter that SIG_EN names: a counter of the engine's folio, or of the lowest active folio of the quire (Table 06-3). -/
def State.sigCtr (s : State) (e : EngId) (b : Bytes) : Nat :=
  if e.val < 36 then 512 * engUnit e + pkSigCtr b
  else
    512 * ((List.range 12).find? fun l => match s.physOf l with
      | some p => p.val / 3 = engUnit e
      | none => false).getD 0 + pkSigCtr b

/-- Writes a trace record of an engine's command. -/
def State.traceCmd (s : State) (e : EngId) (t : Entry) (kind status data : Nat) : State :=
  match s.engines[e].grant with
  | none => s
  | some g => s.trace g.ctx e (pkTrace t.packet)
      { tag := pkTag t.packet, kind := kind, unit := s.unitByte e, engine := e.val, pc := BitVec.ofNat 32 t.pc,
        status := BitVec.ofNat 16 status, data := BitVec.ofNat 64 data, stamp := s.time.stitch }

/-- Writes the completion record of a command into its ring, and every copy and effect that a record has: the error record for
a status other than OK and OK_EMPTY, the last TAG, the flags of the step, the sample status word and the trace (R182 R184
R218, 02_binder R64). -/
def State.writeRecord (s : State) (e : EngId) (t : Entry) (status : Nat) : State :=
  match s.engines[e].grant with
  | none => s
  | some g =>
    match s.sched g.sched with
    | none => s
    | some x =>
      let b := s.recordBytes e t status
      let k := AMap.get zeroN x.ringCounts g.prog
      let s := match x.prog g with
        | some p => s.memWrite (p.ringAddr + 32 * (k % 2 ^ p.ringLog2)) b
        | none => s
      let s := s.setSched { x with ringCounts := AMap.set zeroN x.ringCounts g.prog ((k + 1) % 2 ^ 64) }
      let c := ctxId g.ctx
      let s := s.setCtx c { s.ctxs[c] with lastTag := AMap.set zero32 s.ctxs[c].lastTag e.val (pkTag t.packet) }
      let bad := status ≠ stOk && status ≠ stEmpty
      let s := if bad then s.addRec 3 1 status (BitVec.ofNat 8 g.ctx) t.stuck (s.unitByte e) b else s
      let s := if bad then s.sampleStatus g (pkTag t.packet) else s
      let op := pkOp t.packet
      let s := if x.learning g.phase && (op = 0x60 || op = 0x61 || op = 0x62) && (status = stPartial || status = stHardware) then
        s.colFlag 4#16 else s
      s.traceCmd e t 2 status t.mark

/-- SIG_EN: adds 1 to SIG_CTR on a status that does not halt (Table 06-3). -/
def State.sigEn (s : State) (e : EngId) (t : Entry) (status : Nat) : State :=
  match s.engines[e].grant with
  | none => s
  | some g =>
    if pkSigEn t.packet && !halting (pkOp t.packet) status && status ≠ stContextReset then
      s.addCtr (s.sigCtr e t.packet) 1 g.ctx (s.unitByte e) (pkTag t.packet)
    else s

/-! ## Closing a command -/

/-- Abandons what a command still has in flight to peers: each receiver is told (07_movement R220). -/
def State.abandonSent (s : State) (e : EngId) (pos : Nat) (incomplete : Bool) : State :=
  let mine := s.sent.filter fun y => y.eng = some e && y.pos = pos
  let s := if incomplete then mine.foldl (fun s y => if y.token || y.down then s else s.emit (.abandon y.port y.resId y.copy)) s else s
  { s with sent := s.sent.filter fun y => !(y.eng = some e && y.pos = pos) }

/-- Marks a command of an engine as ended with a status, at this moment (STAMP, R182); a halting one stops the stream from beginning
another (R183). -/
def State.closeEntry (s : State) (e : EngId) (pos status : Nat) : State :=
  let g := s.engines[e]
  s.setEng e { g with
    halted := g.halted || g.entries.any fun t => t.pos = pos && !t.ready && halting (pkOp t.packet) status
    entries := g.entries.map fun t => if t.pos = pos && !t.ready then { t with status := status, ready := true, waiting := false, turn := false, doneAt := s.now } else t }

/-- The chain partners of a command: the consumer of what it produces, the producer of what it consumes (R195). -/
def State.partners (s : State) (e : EngId) (t : Entry) : List (EngId × Nat) :=
  let down := match t.chOut with
    | some k => (s.engines[e].chains.filter fun c => c.k = k).flatMap fun c =>
        (s.engines[c.consumer].entries.filter fun u => u.chIn = some k).map fun u => (c.consumer, u.pos)
    | none => []
  let up := match t.chIn with
    | some k => (List.finRange 44).flatMap fun p =>
        if (s.engines[p].chains.any fun c => c.k = k && c.consumer = e) then
          (s.engines[p].entries.filter fun u => u.chOut = some k).map fun u => (p, u.pos) else []
    | none => []
  down ++ up

/-- A halted producer leaves its hand-over dead, and a halted consumer leaves its position, so that a partner that begins later aborts
(R197). -/
def State.killChain (s : State) (e : EngId) (t : Entry) : State :=
  let g := s.engines[e]
  s.setEng e { g with
    chains := g.chains.map fun c => if t.chOut = some c.k then { c with dead := true } else c
    deadIn := g.deadIn ++ t.chIn.toList }

/-- The turn of a pass is over when its command ends: cell (511, 511) has turned, and with no LEAF_LOAD accepted meanwhile the back leaf
is EMPTY (04_array Table 04-2). -/
def State.endTurn (s : State) (e : EngId) (t : Entry) : State :=
  let g := s.engines[e]
  if pkOp t.packet = 0x21 && g.array.backState = .turning then s.setEng e { g with array := { g.array with backState := .empty } } else s

/-- What a command's record brings with it. The completion of END ends the stream's phase. -/
def State.recordEntry (s : State) (e : EngId) (t : Entry) : State :=
  match s.engines[e].grant with
  | none => s
  | some g =>
    match s.sched g.sched with
    | none => s
    | some x =>
      let cpe := pkOp t.packet = 0x60 || pkOp t.packet = 0x61 || pkOp t.packet = 0x62
      let s := (s.endTurn e t).undefineRaced x t
      let s := if cpe && pkPeer t.packet = 0xFF then s.poisonIncomplete x t else s
      let s := s.abandonSent e t.pos ((s.cpeParts x t).any fun p => !bit t.done.toNat p.1)
      let s := s.writeRecord e t t.status
      let s := s.sigEn e t t.status
      let s :=
        if halting (pkOp t.packet) t.status then
          let s := s.addRec 3 3 0x0402 (BitVec.ofNat 8 g.ctx) t.stuck (s.unitByte e) (nativeBody (pkTag t.packet) t.pc 0 t.status)
          let s := if x.collated then s.colFlag 1#16 else s
          s.killChain e t
        else s
      if pkOp t.packet = 1 && t.status = stOk then
        (s.setEng e { s.engines[e] with running := false, freeAt := s.now }).streamDone e g (pkTag t.packet)
      else s

/-- Records the commands that have ended, in stream order, and aborts the other stages of a chain that halted (R166 R197). -/
def State.flushN : Nat → State → EngId → State
  | 0, s, _ => s
  | f + 1, s, e =>
    let done := s.engines[e].entries.takeWhile Entry.ready
    let s := s.setEng e { s.engines[e] with entries := s.engines[e].entries.dropWhile Entry.ready }
    done.foldl (fun s t =>
      let ps := if halting (pkOp t.packet) t.status then s.partners e t else []
      let s := s.recordEntry e t
      ps.foldl (fun s p => State.flushN f (s.closeEntry p.1 p.2 stAborted) p.1) s) s

def State.flush (s : State) (e : EngId) : State := State.flushN 4 s e

/-- Ends a command and records what can be recorded. -/
def State.endEntry (s : State) (e : EngId) (pos status : Nat) : State := (s.closeEntry e pos status).flush e

/-! ## Beginning a command (R166) -/

/-- No earlier command keeps a later one from beginning: a WAIT in progress, or a command that halts (R183 R187). -/
def Engine.open_ (g : Engine) : Bool :=
  g.running && !g.halted && !g.wedged && g.stopAt = none && g.entries.all fun t => !t.stuck && !(pkOp t.packet = 2 && t.waiting)

/-- A command that begins only after every earlier command of its stream has completed: a fenced one (R166), a SIGNAL (R188), and END, which
is not reached where one of them halts (R165 R183). -/
def waitsAll (b : Bytes) : Bool := pkFence b || pkOp b = 1 || pkOp b = 3

/-- Commands in progress at once (Table 06-1). -/
def Engine.roomFor (g : Engine) (op : Nat) : Bool :=
  let busy := g.entries.filter fun t => !t.ready
  if op = 0x20 then busy.all fun t => pkOp t.packet ≠ 0x20 && !t.turn
  else if op = 0x40 || op = 0x80 || op = 0xA0 then busy.all fun t => pkOp t.packet ≠ op
  else if op = 0x60 || op = 0x61 || op = 0x62 then decide (busy.length < 16)
  else true

/-- The engines can work: the device is in Run, or finishes its phases before NAP or HOLD (16_guard R501), no thermal stall holds the memory,
and the tiers are out of self-refresh. -/
def State.enginesLive (s : State) : Bool :=
  (s.guard.power.pstate = .run || s.guard.power.pstate = .entering) && !s.guard.supply.stall && !s.mem.selfRefresh

/-- Packets in a stream's queue (R164). -/
def queueLen : Nat := 64

/-- Fills a stream's queue from its own program, ahead of the PC (R164). -/
def State.fillQueue (s : State) (e : EngId) : State :=
  let g := s.engines[e]
  match g.grant.bind fun gr => (s.sched gr.sched).bind fun x => x.prog gr with
  | none => s
  | some p =>
    let at_ := g.pc + g.queue.length
    let n := Nat.min (queueLen - g.queue.length) (p.packets - at_)
    s.setEng e { g with queue := g.queue ++ (List.range n).map fun i => s.memRead (p.addr + 32 * (at_ + i)) 32 }

/-- The packet at the PC of a stream, the first of its queue, where the stream may begin a command of an opcode (R164 R166). -/
def State.nextPacket (s : State) (e : EngId) (op : Nat) : Option (Grant × Sched × Bytes) :=
  let g := s.engines[e]
  match g.grant with
  | none => none
  | some gr =>
    match s.sched gr.sched, g.queue with
    | some x, b :: _ =>
      if s.enginesLive && g.open_ && pkOp b = op && g.roomFor op && (!waitsAll b || g.entries = []) then some (gr, x, b) else none
    | _, _ => none

/-- A command in its first state, at the PC of its stream: it keeps the timeout that its context has now (R199, 15_faults R454). -/
def State.entry (s : State) (e : EngId) (b : Bytes) (total : Nat) : Entry :=
  let g := s.engines[e]
  let us := (g.grant.map fun (y : Grant) => s.ctxs[ctxId y.ctx].timeoutUs).getD 0
  { pos := g.nextPos, pc := g.pc, packet := b, idx := g.loops.map LoopF.idx, begun := s.now, units := 0, total := total,
    status := stOk, aflags := 0, poison := false, ready := false, watermark := 0, done := 0, failed := 0, copy := none,
    scales := [], colAcc := [], colPoison := [], stopAt := none, limit := s.now + 1000 * us, waiting := false, detail := 0, list := [], chIn := none,
    chOut := none, turn := false, stuck := false, colPart := [], doneAt := s.now, fetched := 0, bits := none, raced := false }

/-- Begins a command: it joins the stream's commands, with its trace record; the PC moves on, and the queue with it: a jump empties it.
A command of another stream that races with it is noted (R168). -/
def State.begin_ (s : State) (e : EngId) (t : Entry) (pc : Nat) : State :=
  let g := s.engines[e]
  let s := s.setEng e { g with
    entries := g.entries ++ [t], nextPos := g.nextPos + 1, pc := pc, queue := if pc = g.pc + 1 then g.queue.drop 1 else [] }
  let s := match g.grant.bind fun gr => s.sched gr.sched with
    | some x => if t.work || t.waiting then s.noteRaces e x t else s
    | none => s
  (s.fillQueue e).traceCmd e t 1 0 0

/-- A command that begins and ends at once with a status and a watermark. -/
def State.atOnce (s : State) (e : EngId) (b : Bytes) (pc status mark : Nat) : State :=
  let t := { s.entry e b 0 with watermark := mark }
  (s.begin_ e t pc).endEntry e t.pos status

/-- The frame of an engine packet's row: where its stream does not stand at such a packet, nothing happens (log entry 22). The
next command of an instance that an injection stops begins and does not progress (15_faults Table 15-12). The memory events of the row
are those that the command's transfers meet (09_memory R271 R272). -/
def State.packet (s : State) (e : EngId) (op : Nat) (ev : List MemEvent) (f : State → Grant → Sched → Bytes → Res) : Res :=
  match s.nextPacket e op with
  | some (g, x, b) =>
    if s.engines[e].hung then
      let s := s.begin_ e { s.entry e b 1 with stuck := true } (s.engines[e].pc + 1)
      ok (s.setEng e { s.engines[e] with hung := false })
    else f (s.memEvents ev (pkTag b) (s.unitByte e)) g x b
  | none => ok s

/-! ## Work in units: rows, array rows, list entries or parts -/

/-- Changes a command in progress. -/
def State.updEntry (s : State) (e : EngId) (pos : Nat) (f : Entry → Entry) : State :=
  s.setEng e { s.engines[e] with entries := s.engines[e].entries.map fun t => if t.pos = pos then f t else t }

/-- Changes the hand-over k of a producer. -/
def State.updChain (s : State) (p : EngId) (k : Nat) (f : Chain → Chain) : State :=
  s.setEng p { s.engines[p] with chains := s.engines[p].chains.map fun c => if c.k = k then f c else c }

/-- The producer of the hand-over that a command consumes (R195). -/
def State.producer (s : State) (e : EngId) (k : Nat) : Option (EngId × Chain) :=
  (List.finRange 44).findSome? fun p => (s.engines[p].chains.find? fun c => c.k = k && c.consumer = e).map fun c => (p, c)

/-- Rows that the next unit of a command hands over: a row of the MXE, the rows of a part of COPY; COPY_LIST hands all rows of DST over with
its last part (log entry 46). -/
def State.handed (s : State) (x : Sched) (t : Entry) : Nat :=
  if pkOp t.packet = 0x60 then (((s.cpeParts x t)[t.units]?).map fun p => p.2.2).getD 0
  else if pkOp t.packet = 0x61 then
    (if t.units + 1 = t.total then ((s.opnd x t.packet 7 t.idx).map fun o => o.lay.rows).getD 0 else 0)
  else 1

/-- The rows of its hand-over that a command may read now; none of a dead one, all of one that its producer left poisoned (R196 R197
R212). -/
def State.given (s : State) (e : EngId) (t : Entry) : Nat :=
  match t.chIn with
  | some k => (match s.producer e k with
    | some (_, c) => if c.dead then 0 else if c.lost then t.total else c.produced
    | none => 0)
  | none => t.total

/-- Whether the next unit of a command may be done: its producer has written the row that it reads, and its consumer has given a credit for
each row that it hands over (R196). The feeders of the MXE wait for their rows themselves (04_array R116). -/
def State.unitReady (s : State) (e : EngId) (x : Sched) (t : Entry) : Bool :=
  (pkOp t.packet = 0x21 || decide (t.units < s.given e t)) &&
  (match t.chOut with
    | some k => (match s.engines[e].chains.find? fun c => c.k = k with
      | some c => c.lost || decide (c.produced + s.handed x t ≤ c.consumed + ((x.image.layouts[c.layout]?).map Layout.rows).getD 0)
      | none => false)
    | none => true)

/-- Rows taken from a hand-over: each gives its producer a credit (R196). -/
def State.taken (s : State) (e : EngId) (t : Entry) (n : Nat) : State :=
  match t.chIn with
  | some k => (match s.producer e k with
    | some (p, _) => s.updChain p k fun c => { c with consumed := c.consumed + n }
    | none => s)
  | none => s

/-- A unit is done: its rows are handed over. -/
def State.unitMade (s : State) (e : EngId) (t : Entry) (n : Nat) : State :=
  let s := s.updEntry e t.pos fun u => { u with units := u.units + 1 }
  match t.chOut with
  | some k => s.updChain e k fun c => { c with produced := c.produced + n }
  | none => s

/-- A unit is done: the row is handed over and taken over in its chains. -/
def State.unitDone (s : State) (e : EngId) (t : Entry) : State := (s.unitMade e t 1).taken e t 1

/-- Does up to n units of a command, as long as no earlier command of the stream holds its accesses (R166 R167). -/
def State.runUnits (unit : State → EngId → Sched → Entry → State) : Nat → State → EngId → Nat → State
  | 0, s, _, _ => s
  | n + 1, s, e, pos =>
    match s.engines[e].entries.find? fun t => t.pos = pos && t.work, s.sched ((s.engines[e].grant.map Grant.sched).getD 0) with
    | some t, some x =>
      if s.enginesLive && s.mayWork e x t && s.unitReady e x t then State.runUnits unit n (unit s e x t) e pos else s
    | _, _ => s

/-! ## Chains (R195 R196) -/

/-- The MXE stream of a folio carries CH_IN in the current phase: a packet from its entry point to its END does. -/
def State.scanChIn (s : State) (addr : Nat) : Nat → Nat → Bool
  | 0, _ => false
  | f + 1, pc =>
    let b := s.memRead (addr + 32 * pc) 4
    if pkOp b = 1 then false else if pkOp b = 0x21 && pkChIn b then true else State.scanChIn s addr f (pc + 1)

def State.mxeTakes (s : State) (x : Sched) (g : Grant) (folio : Nat) : Bool :=
  match engOf 0 folio with
  | none => false
  | some m =>
    match s.engines[m].grant with
    | none => false
    | some gm =>
      match x.prog gm, x.runs.find? fun r => r.phase = g.phase && r.inProgress with
      | some p, some r =>
        let ph := x.phaseOf r
        if gm.sched = g.sched && gm.phase = g.phase then
          match ((x.image.streams.drop ph.firstStream).take ph.nStreams).find? fun y => y.prog = gm.prog with
          | some y => s.scanChIn p.addr p.packets (if r.halfB then y.entryB else y.entryA)
          | none => false
        else false
      | _, _ => false

/-- The engine that consumes what a CPE or an MXE hands over. -/
def State.consumerOf (s : State) (x : Sched) (g : Grant) (e : EngId) : EngId :=
  let f := engUnit e
  if engClass e = 2 && s.mxeTakes x g f then (engOf 0 f).getD e else (engOf 1 f).getD e

/-- The layout that a command consumes or produces in a chain: SRC or A, and DST. -/
def chainIn (b : Bytes) : Option Nat := (if pkOp b = 0x40 then descAt b 6 else descAt b 4).map (·.1)
def chainOut (b : Bytes) : Option Nat := (if pkOp b = 0x60 || pkOp b = 0x61 then descAt b 7 else descAt b 0xA).map (·.1)

/-- Whether a command consumes or produces a hand-over: R195 pairs no CH_IN of a CPE and no CH_OUT of a VXE (log entry 42). -/
def takesIn (b : Bytes) : Bool := pkChIn b && (pkOp b = 0x21 || pkOp b = 0x40)
def givesOut (b : Bytes) : Bool := pkChOut b && pkOp b ≠ 0x40

/-- Gives a command its positions in the chains and opens the hand-over that it produces. -/
def State.chainBegin (s : State) (e : EngId) (x : Sched) (g : Grant) (b : Bytes) (rows : Nat) : Option Nat × Option Nat × State :=
  let eng := s.engines[e]
  let i := if takesIn b then some eng.chIn else none
  let o := if givesOut b then some eng.chOut else none
  let eng := { eng with chIn := eng.chIn + (if takesIn b then 1 else 0), chOut := eng.chOut + (if givesOut b then 1 else 0) }
  let eng := if givesOut b then
      { eng with chains := eng.chains ++ [{ k := o.getD 0, consumer := s.consumerOf x g e, layout := (chainOut b).getD 0xFFFF, rows := rows,
                                            produced := 0, consumed := 0, dead := false, lost := false }] }
    else eng
  (i, o, s.setEng e eng)

/-- A command that is refused, or that ends before it works, keeps its positions in the chains (R195 Table 06-14), so that its partners are
aborted or find it. -/
def State.refuseCmd (s : State) (e : EngId) (x : Sched) (g : Grant) (b : Bytes) (mark st : Nat) : State :=
  let (i, o, s) := s.chainBegin e x g b 0
  let t := { s.entry e b 0 with chIn := i, chOut := o, watermark := mark }
  let s := s.killChain e t
  (s.begin_ e t (s.engines[e].pc + 1)).endEntry e t.pos st

/-- A command whose list is poisoned takes its positions (R195) and leaves both hand-overs with nothing to wait for: its consumer reads the
marked rows of DST, and its producer needs no credit (07_movement R212; log entry 147). -/
def State.loseCmd (s : State) (e : EngId) (x : Sched) (g : Grant) (b : Bytes) (rows : Nat) : State :=
  let (i, o, s) := s.chainBegin e x g b rows
  let t := { s.entry e b 0 with chIn := i, chOut := o }
  let s := match o with
    | some k => s.updChain e k fun c => { c with lost := true }
    | none => s
  let s := match i.bind fun k => (s.producer e k).map fun p => (p.1, k) with
    | some (p, k) => s.updChain p k fun c => { c with lost := true }
    | none => s
  (s.begin_ e t (s.engines[e].pc + 1)).endEntry e t.pos stPoisoned

/-- Checks a command that has begun against its chain partners: a partner that halted aborts it, and a pair that disagrees on layout or rows
completes both commands with REFUSED_STATE (R195 R197; log entry 37). -/
def State.checkPair (s : State) (e : EngId) (t : Entry) : State :=
  let s := match t.chIn with
    | some k => (match s.producer e k with
      | some (p, c) =>
        if c.dead then s.endEntry e t.pos stAborted
        else if chainIn t.packet ≠ some c.layout || t.total ≠ c.rows then
          let mine := s.engines[p].entries.filter fun u => u.chOut = some k
          let s := (mine.foldl (fun s u => s.closeEntry p u.pos stState) s).closeEntry e t.pos stState
          (s.flush p).flush e
        else s
      | none => s)
    | none => s
  match t.chOut with
  | some k => (match s.engines[e].chains.find? fun c => c.k = k with
    | some c =>
      if s.engines[c.consumer].deadIn.contains k then s.endEntry e t.pos stAborted
      else (match s.engines[c.consumer].entries.find? fun u => u.chIn = some k with
      | some u =>
        if chainIn u.packet ≠ some c.layout || u.total ≠ c.rows then
          let s := (s.closeEntry e t.pos stState).closeEntry c.consumer u.pos stState
          (s.flush e).flush c.consumer
        else s
      | none => s)
    | none => s)
  | none => s

/-! ## Common opcodes -/

/-- NOP (R198). -/
def execNop (e : EngId) (s : State) : Res :=
  s.packet e 0 [] fun s _ _ b => ok (s.atOnce e b (s.engines[e].pc + 1) stOk 0)

/-- END (R165): it completes after every earlier command of the stream. -/
def execEndPkt (e : EngId) (s : State) : Res :=
  s.packet e 1 [] fun s _ _ b => ok (s.atOnce e b (s.engines[e].pc + 1) stOk 0)

/-- DATA of trace records of kinds 3 and 4: counter and value (15_faults Table 15-10; log entry 36). -/
def ctrData (c v : Nat) : Nat := c + 4294967296 * v

/-- The value of a counter as a WAIT.CTR field. -/
def ctrField (c : Nat) : Nat := c % 512 + 512 * (c / 512)

/-- WAIT (R187): a wait begins. A THRESH of 0 completes at once (R198), with the value observed as its watermark (07_movement Table 07-5). -/
def execWait (e : EngId) (s : State) : Res :=
  s.packet e 2 [] fun s _ _ b =>
    if fld b 8 4 = 0 then ok (s.atOnce e b (s.engines[e].pc + 1) stEmpty (s.ctr (pkCtr b)).toNat)
    else ok (s.begin_ e { s.entry e b 0 with waiting := true } (s.engines[e].pc + 1))

/-- WAIT_SATISFIED (R187): the counter holds at least THRESH; with CONSUME, THRESH is subtracted in the same operation. -/
def execWaitSatisfied (e : EngId) (s : State) : Res :=
  match s.engines[e].entries.find? fun t => pkOp t.packet = 2 && t.waiting with
  | none => ok s
  | some t =>
    let c := pkCtr t.packet
    let v := (s.ctr c).toNat
    let th := fld t.packet 8 4
    if v < th || !s.enginesLive then ok s
    else
      let s := if bit (fld t.packet 6 1) 0 then s.setCtr c (BitVec.ofNat 32 (v - th)) else s
      let s := s.setEng e { s.engines[e] with entries := s.engines[e].entries.map fun u => if u.pos = t.pos then { u with watermark := v } else u }
      ok ((s.traceCmd e t 3 0 (ctrData (ctrField c) v)).endEntry e t.pos stOk)

/-- The reservation and the out port of a peer entry's tokens: its RESERVATIONS entry, installed here as a source hop. -/
def State.routeOf (s : State) (x : Sched) (resv : Nat) : Option (W64 × Hop) :=
  match x.image.resvs[resv]? with
  | none => none
  | some r => (s.hopOf r.resId 0).map fun h => (r.resId, h)

/-- A route that carries traffic: its hop is open and its port's peer is admitted. -/
def State.routeUp (s : State) (h : Hop) : Bool :=
  !h.closed && (match portId h.outPort with | some p => s.ports[p].admitted | none => false)

/-- SIGNAL (R188 R190): local, or a token message to a peer. -/
def execSignal (e : EngId) (s : State) : Res :=
  s.packet e 3 [] fun s g x b =>
    let pc := s.engines[e].pc + 1
    let c := pkCtr b
    let inc := fld b 8 4
    let peer := fld b 6 1
    if inc = 0 then ok (s.atOnce e b pc stEmpty 0)
    else if peer = 0xFF then
      let s := s.addCtr c inc g.ctx (s.unitByte e) (pkTag b)
      let s := s.traceCmd e (s.entry e b 0) 4 0 (ctrData (ctrField c) inc)
      ok (s.atOnce e b pc stOk 0)
    else
      let t := s.entry e b 0
      let s := s.countIssue e x
      if x.alone g.phase then ok (s.atOnce e b pc stOk 0)
      else match x.image.peers[peer]? with
      | none => ok ((s.begin_ e t pc).endEntry e t.pos stHardware)
      | some p =>
        match s.routeOf x p.resv with
        | none => ok ((s.begin_ e { t with detail := 0xFF } pc).endEntry e t.pos stHardware)
        | some (res, h) =>
          if !s.routeUp h then ok ((s.begin_ e { t with detail := h.outPort } pc).endEntry e t.pos stHardware)
          else
            match portId h.outPort with
            | none => ok s
            | some port =>
              let s := s.begin_ e { t with waiting := true } pc
              let s := s.emit (.token port { resId := res, ctx := p.rctx, folio := c / 512, index := c % 512, inc := BitVec.ofNat 32 inc, tag := pkTag b })
              let s := s.traceCmd e t 4 0 (ctrData (ctrField c) inc)
              ok { s with sent := s.sent ++ [{ copy := 0, eng := some e, pos := t.pos, resId := res, port := port, parts := 0, token := true, down := false }] }

/-- REMOTE_SIGNAL_ACK (R190): the oldest token of the stream is acknowledged or refused. -/
def execRemoteSignalAck (e : EngId) (accepted : Bool) (s : State) : Res :=
  match s.sent.find? fun y => y.eng = some e && y.token with
  | none => ok s
  | some y =>
    let s := if accepted then s else s.setEng e { s.engines[e] with entries := s.engines[e].entries.map fun t =>
      if t.pos = y.pos then { t with detail := y.port.val } else t }
    let s := { s with sent := s.sent.filter fun z => z ≠ y }
    ok (s.endEntry e y.pos (if accepted then stOk else stHardware))

/-- The packet index after the ENDLOOP that matches a LOOP (R193): `d` counts the loops opened since. -/
def State.afterLoop (s : State) (addr : Nat) : Nat → Nat → Nat → Nat
  | 0, pc, _ => pc
  | f + 1, pc, d =>
    let op := fld (s.memRead (addr + 32 * pc) 1) 0 1
    if op = 5 then (if d = 0 then pc + 1 else State.afterLoop s addr f (pc + 1) (d - 1))
    else State.afterLoop s addr f (pc + 1) (if op = 4 then d + 1 else d)

/-- LOOP (R192 R193): its count is an immediate, a register or a memory word, latched once. A memory word is read after the
writes of earlier commands of the stream (R167). -/
def execLoop (e : EngId) (s : State) (ev : List MemEvent := []) : Res :=
  s.packet e 4 ev fun s g x b =>
    let eng := s.engines[e]
    let kind := fld b 4 1
    let a := fld b 0x10 8
    if kind = 2 && !s.mayRead e x (a, 4) then ok s
    else if kind = 2 && !s.inMap a 4 then .fault (.addressUnmapped a)
    else
      let (bad, s) := if kind = 2 then
          let (ps, s) := s.touch (if engClass e = 2 || engClass e = 3 then none else some (s.engQuire e)) [a / 1024]
          (ps.any (·.2), s)
        else (false, s)
      let n := if kind = 0 then fld b 8 4 else if kind = 1 then (AMap.get zero32 eng.regs (fld b 5 1 % 16)).toNat else s.memNat a 4
      if bad then ok (s.atOnce e b (eng.pc + 1) stPoisoned n)
      else if fld b 0xC 4 < n then ok (s.atOnce e b (eng.pc + 1) stState n)
      else if n = 0 then
        match x.prog g with
        | some p => ok (s.atOnce e b (s.afterLoop p.addr (p.packets - eng.pc) (eng.pc + 1) 0) stEmpty 0)
        | none => ok s
      else
        let s := s.atOnce e b (eng.pc + 1) stOk n
        ok (s.setEng e { s.engines[e] with loops := s.engines[e].loops ++ [{ idx := 0, cnt := n, top := eng.pc + 1 }] })

/-- ENDLOOP (R193). -/
def execEndloop (e : EngId) (s : State) : Res :=
  s.packet e 5 [] fun s _ _ b =>
    let eng := s.engines[e]
    match eng.loops.getLast? with
    | none => ok (s.atOnce e b (eng.pc + 1) stOk 0)
    | some l =>
      let again := decide (l.idx + 1 < l.cnt)
      let s := s.atOnce e b (if again then l.top else eng.pc + 1) stOk 0
      ok (s.setEng e { s.engines[e] with loops := eng.loops.dropLast ++ (if again then [{ l with idx := l.idx + 1 }] else []) })

/-- SETREG (R194). -/
def execSetreg (e : EngId) (s : State) : Res :=
  s.packet e 6 [] fun s _ _ b =>
    let s' := s.atOnce e b (s.engines[e].pc + 1) stOk 0
    ok (s'.setEng e { s'.engines[e] with regs := AMap.set zero32 s'.engines[e].regs (fld b 4 1 % 16) (BitVec.ofNat 32 (fld b 8 4)) })

end Sys2Proof.Machine
end

