-- ==== Sys2Proof/Machine/Copy.lean ====
section
/-! DEFINITION. The copy engine: COPY, COPY_LIST and TIP, local and remote, their parts, and what a receiver does with parts,
declarations, abandonments and token messages (07_movement R202-R222, 06_programs R179 R190, 08_conditional R235). -/

namespace Sys2Proof.Machine

/-! ## Fields (Table 06-11) -/

def cpFsat (b : Bytes) : Bool := if pkOp b = 0x60 then bit (fld b 0xA 1) 0 else bit (fld b 0xD 1) 0
def cpResv (b : Bytes) : Nat := if pkOp b = 0x62 then fld b 0x18 2 else fld b 0x14 2

/-! ## Conversion of one row (R205 R235) -/

/-- An operand seen from element c of each row on (c a multiple of 32). -/
def Opnd.fromElem (o : Opnd) (c : Nat) : Opnd := { o with addr := o.addr + c * elemBits o.fmt / 8, saddr := o.saddr + c / 32 }

/-- The elements of a copy between equal formats: every bit unchanged but for NaN elements, which become canonical; and the flags
(R205, 03_formats R80). -/
def sameElems (f : Nat) (vs : List Nat) : List Nat × Nat :=
  if isInt f then (vs, 0)
  else
    let nan := fun v => FV.isNan (decodeElem f v)
    (vs.map fun v => if nan v then encodeElem f .nan else v, if vs.any nan then fgNanIn else 0)

/-- A microscaling block of such a copy: with a scale of 0xFF or a NaN element it is the NaN block of 03_formats Table 03-3, scale 0xFF and
every field 0. -/
def sameBlock (f : Nat) (sc : Nat) (vs : List Nat) : List Nat × Nat × Nat :=
  if sc = 0xFF || vs.any fun v => FV.isNan (decodeElem f v) then (vs.map fun _ => 0, 0xFF, fgNanIn ||| fgMxNan) else (vs, sc, 0)

/-- The element fields and scale bytes of a copy between equal formats, and the flags. -/
def sameBits (f n : Nat) (b sc : Bytes) : List Nat × Bytes × Nat :=
  let vs := unpackBits (elemBits f) n (unle b)
  if isMX f then
    let bl := (blocks32 vs).mapIdx fun j v => sameBlock f (fld sc j 1) v
    (bl.flatMap (·.1), bl.flatMap (fun x => le 1 x.2.1), bl.foldl (fun g x => g ||| x.2.2) 0)
  else let r := sameElems f vs; (r.1, [], r.2)

/-- n elements of row sr of SRC, from element sc, as they are written to row dr of DST from element dc on, times a gate; with
whether a source sheet is poisoned. A COPY of INT32 to INT8 has no fields of its own: it takes SHIFT 0 and saturates (log entry 154). -/
def State.convRow (s : State) (x : Sched) (src dst : Opnd) (fsat here : Bool) (sr sc dr dc n : Nat) (gate : Option FVal) : Written × Bool × State :=
  let so := src.fromElem sc
  if src.fmt = dst.fmt && gate = none then
    let (raw, s) := s.readRaw none so sr n
    let nb := rowBytes src.fmt n
    let ns := if isMX src.fmt then ceilDiv n 32 else 0
    let (els, sb, fl) := sameBits src.fmt n (s.memRead (so.rowAddr sr) nb) (s.memRead (so.scaleRowAddr sr) ns)
    let (pad, s) := s.spareBits dst dr dc n here
    let w := elemBits dst.fmt
    let a := dst.rowAddr dr + dc * w / 8
    let sa := dst.scaleRowAddr dr + dc / 32
    let marks := raw.vals.map (·.2)
    ({ elems := [(a, le nb (packBits w els + pad * 2 ^ (w * n)))], scales := if sb = [] then [] else [(sa, sb)],
       poisoned := poisonSheets dst.fmt a sa nb marks, flags := fl }, marks.any id, s)
  else
    let (v, s) := s.readRow none so sr n
    let marks := if isMX src.fmt then blockMarks (v.vals.map (·.2)) else v.vals.map (·.2)
    let vals := (v.vals.zip marks).map fun p => let p := (p.1.1, p.2); match gate with
      | some g => (FV.mul p.1 g, p.2)
      | none => p
    let fg := match gate with
      | some g => v.vals.foldl (fun f p => f ||| nanFlag [p.1, g] ||| invFlag [p.1, g] (FV.mul p.1 g)) 0
      | none => nanFlag (valsOf' v.vals)
    let (w, s) := s.rowPieces x dst dr dc {
        fsat := fsat, iovf := false, shift := 0, intSrc := isInt src.fmt && gate = none
        exact := gate = none && widens src.fmt dst.fmt && src.exp = 0 && dst.exp = 0 } vals here
    ({ w with flags := w.flags ||| fg ||| v.flags }, (v.vals.any (·.2)), s)
where
  valsOf' (l : List (FVal × Bool)) : List FVal := l.map (·.1)

/-- Joins what two rows write. -/
def Written.join (a b : Written) : Written :=
  { elems := a.elems ++ b.elems, scales := a.scales ++ b.scales, poisoned := a.poisoned ++ b.poisoned, flags := a.flags ||| b.flags }

def Written.none : Written := { elems := [], scales := [], poisoned := [], flags := 0 }

/-- What one item writes: a row of COPY, an entry of COPY_LIST, the bytes of TIP (R210 R213 R235). -/
def State.itemWrites (s : State) (x : Sched) (t : Entry) (here : Bool) (i : Nat) : Written × Bool × State :=
  let b := t.packet
  if pkOp b = 0x62 then
    let a := tipSrc b
    let p := s.rangePoisoned a (tipLen b)
    ({ elems := [(tipDst b, s.memRead a (tipLen b))], scales := [], poisoned := if p then [tipDst b / 1024] else [], flags := 0 }, p, s)
  else match s.opnd x b 4 t.idx, s.opnd x b 7 t.idx with
    | some c, some d =>
      let c := c.latched t.scales 0
      let d := d.latched t.scales 1
      let fs := cpFsat b
      if pkOp b = 0x60 then s.convRow x c d fs here i 0 (ringRow b d.lay i) 0 d.lay.cols none
      else
        let v := t.list.getD i 0
        let kind := ((s.opnd x b 0xA t.idx).map fun l => l.lay.kind).getD 1
        if kind = 2 then
          if rlHole v then
            let (w, s) := s.rowPieces x d (rlDRow v) 0 { fsat := fs, iovf := false, shift := 0, intSrc := false, exact := false } (List.replicate d.lay.cols (FV.zero, false)) here
            (w, false, s)
          else
            let g := decodeElem fFP32 (rlGate v)
            s.convRow x c d fs here (rlSRow v) 0 (rlDRow v) 0 d.lay.cols (if rlGate v = 0x3F800000 then none else some g)
        else
          (List.range (blockH c.lay d.lay v).toNat).foldl (fun (a : Written × Bool × State) j =>
            let r := a.2.2.convRow x c d fs here (32 * blSBR v + j) (32 * blSBC v) (32 * blDBR v + j) (32 * blDBC v) (blockW c.lay d.lay v).toNat none
            (a.1.join r.1, a.2.1 || r.2.1, r.2.2)) (Written.none, false, s)
    | _, _ => (Written.none, false, s)

/-- What a part writes, and whether its source holds poison. -/
def State.partWrites (s : State) (x : Sched) (t : Entry) (here : Bool) (p : Nat × Nat × Nat) : Written × Bool × State :=
  (List.range p.2.2).foldl (fun (a : Written × Bool × State) i =>
    let r := a.2.2.itemWrites x t here (p.2.1 + i)
    (a.1.join r.1, a.2.1 || r.2.1, r.2.2)) (Written.none, false, s)

/-- Joins pieces that follow one another in memory, in order: the rows of a part that are contiguous land as one write, so that together they
may cover a sheet; those of different parts do not (log entry 155). -/
def mergePieces : List (Nat × Bytes) → List (Nat × Bytes)
  | [] => []
  | (a, d) :: ps =>
    match mergePieces ps with
    | (b, e) :: qs => if a + d.length = b then (a, d ++ e) :: qs else (a, d) :: (b, e) :: qs
    | [] => [(a, d)]

/-- The pieces of a part: elements, then scales, each merged. -/
def Written.pieces (w : Written) : List (Nat × Bytes) := mergePieces w.elems ++ mergePieces w.scales

/-! ## Overlap and capture copies -/

/-- SRC and DST overlap, but for the conversion in place that R206 permits: the result is undefined. -/
def overlapping (c d : Opnd) : Bool :=
  !(c.addr = d.addr && c.lay.rowStride = d.lay.rowStride && elemBits c.fmt = elemBits d.fmt) &&
    c.allRanges.any fun r => d.allRanges.any fun q => overlaps r.1 r.2 q.1 q.2

/-- The command copies into the input area (13_collation R388). -/
def State.capture (s : State) (x : Sched) (t : Entry) : Bool :=
  pkOp t.packet ≠ 0x62 && pkPeer t.packet = 0xFF &&
    (match s.opnd x t.packet 7 t.idx with
     | some d => d.allRanges.any fun r => s.inInput r.1 r.2
     | none => false)

/-! ## Parts -/

/-- The mask of the first n parts. -/
def fullMask (n : Nat) : Nat := 2 ^ n - 1

/-- The copy sent that carries part i of a command. -/
def State.sentPart (s : State) (e : EngId) (t : Entry) (i : Nat) : Option Sent :=
  s.sent.find? fun y => y.eng = some e && y.pos = t.pos && bit y.parts i

/-- What the next part of a copy writes: with MCAST the source is read once, and every device is sent the same bits (R208). -/
def State.partBits (s : State) (e : EngId) (x : Sched) (t : Entry) (here : Bool) (p : Nat × Nat × Nat) : Written × Bool × State :=
  match t.bits with
  | some w => (w.1, w.2, s)
  | none =>
    let (w, bad, s) := s.partWrites x t here p
    (w, bad, if pkMcast t.packet then s.updEntry e t.pos fun u => { u with bits := some (w, bad) } else s)

/-- One part of a copy: written here, or sent to its peer (R207 R216-R221). -/
def State.copyUnit (s : State) (e : EngId) (x : Sched) (t : Entry) : State :=
  let here := pkPeer t.packet = 0xFF
  match (s.cpeParts x t)[t.units]? with
  | none => s
  | some p =>
    let (w, bad, s) := s.partBits e x t here p
    let note := fun (s : State) (done failed : Nat) => s.updEntry e t.pos fun u => { u with
      aflags := u.aflags ||| BitVec.ofNat 8 w.flags, poison := u.poison || bad,
      done := u.done ||| BitVec.ofNat 64 done, failed := u.failed ||| BitVec.ofNat 64 failed }
    if here then
      let s := s.putPieces w.pieces w.poisoned
      let s := w.pieces.foldl (fun s d => if s.inInput d.1 d.2.length then s.feed (.input s.ledger.step (d.1 - s.inputBase) d.2) else s) s
      let s := match s.opnd x t.packet 4 t.idx, s.opnd x t.packet 7 t.idx with
        | some c, some d =>
          if pkOp t.packet ≠ 0x62 && overlapping c d then (s.partRanges x t p).foldl (fun s r => s.undefine r.1 r.2) s else s
        | _, _ => s
      let n := s.handed x t
      (note s (2 ^ p.1) 0).unitMade e t n
    else
      let s := match s.sentPart e t p.1 with
        | some y =>
          if y.down then note s 0 (2 ^ p.1)
          else
            let ctx := ((peersOf x.image t.packet)[if pkMcast t.packet then p.1 else 0]?.map PeerE.rctx).getD 0
            note (s.emit (.part y.port { resId := y.resId, copy := y.copy, part := p.1, ctx := ctx, pieces := w.pieces, poisoned := w.poisoned })) 0 0
        | none => note s 0 (2 ^ p.1)
      s.unitMade e t 0

/-! ## Beginning (R209 R217-R220) -/

/-- The route of each peer of a command: mask of its parts, reservation, hop, context; none where the route is not up. -/
def State.copyRoutes (s : State) (x : Sched) (b : Bytes) (parts : Nat) : List (Option (Nat × W64 × Port × Nat)) :=
  (peersOf x.image b).mapIdx fun i p =>
    match s.routeOf x (if pkMcast b then p.resv else cpResv b) with
    | none => none
    | some (res, h) =>
      match portId h.outPort with
      | none => none
      | some q => if s.routeUp h then some (if pkMcast b then 2 ^ i else fullMask parts, res, q, p.rctx) else none

/-- Opens a remote copy: each peer whose route is up gets the declaring message (R220). -/
def State.openCopies (s : State) (e : EngId) (x : Sched) (t : Entry) (rs : List (Option (Nat × W64 × Port × Nat))) : State :=
  let parts := s.cpeParts x t
  rs.foldl (fun s r => match r with
    | none => s
    | some (m, res, q, ctx) =>
      let ds := (parts.filter fun p => bit m p.1).map fun p => (p.1, s.partRanges x t p)
      { s.emit (.declare q { resId := res, copy := s.nextCopy, ctx := ctx, parts := ds }) with
        sent := s.sent ++ [{ copy := s.nextCopy, eng := some e, pos := t.pos, resId := res, port := q, parts := m, token := false, down := false }]
        nextCopy := s.nextCopy + 1 }) s

/-- Marks the full extent of DST at the peers of a copy that its list ended (R212): a copy of that extent is declared and abandoned, which
makes each receiver mark it (R220; log entry 47). -/
def State.markRemote (s : State) (x : Sched) (b : Bytes) (d : Opnd) : State :=
  (s.copyRoutes x b 1).foldl (fun s r => match r with
    | none => s
    | some (_, res, q, ctx) =>
      let s := (s.emit (.declare q { resId := res, copy := s.nextCopy, ctx := ctx, parts := [(0, d.allRanges)] })).emit (.abandon q res s.nextCopy)
      { s with nextCopy := s.nextCopy + 1 }) s

/-- Begins a copy whose state checks hold: it goes by parts. In a replay a capture copy writes nothing and a remote one sends
nothing; both complete with every part (13_collation R397 R399). -/
def State.copyBegin (s : State) (e : EngId) (g : Grant) (x : Sched) (t : Entry) (rows units : Nat) : State :=
  let b := t.packet
  let pc := s.engines[e].pc + 1
  let remote := pkPeer b ≠ 0xFF
  let s := if remote then s.countIssue e x else s
  let (i, o, s) := s.chainBegin e x g b rows
  let t := { t with chIn := i, chOut := o }
  let n := (s.cpeParts x t).length
  let t := { t with total := n }
  if s.cpeItems x t = 0 then
    let s := s.begin_ e { t with total := 0 } pc
    (s.checkPair e { t with total := 0 }).endEntry e t.pos stEmpty
  else if (remote && x.alone g.phase) || (x.replaying g.phase && s.capture x t) then
    (s.begin_ e { t with units := n, done := BitVec.ofNat 64 (fullMask n) } pc).endEntry e t.pos stOk
  else if remote then
    let rs := s.copyRoutes x b n
    if rs.all Option.isNone then (s.begin_ e t pc).endEntry e t.pos stHardware
    else ((s.begin_ e t pc).openCopies e x t rs).runUnits State.copyUnit units e t.pos
  else ((s.begin_ e t pc).checkPair e t).runUnits State.copyUnit units e t.pos

/-- The first address outside the map of a copy's operands; a remote DST lies in the peer's map. -/
def State.copyBad (s : State) (b : Bytes) (c d : Opnd) : Option Nat :=
  match s.badOpnd c c.lay.rows c.lay.cols with
  | some a => some a
  | none => if pkPeer b = 0xFF then s.badOpnd d d.lay.rows d.lay.cols else none

/-- A copy of no rows or no columns: it keeps its chain positions and completes with OK_EMPTY (06_programs R198). -/
def State.copyEmpty (s : State) (e : EngId) (g : Grant) (x : Sched) (b : Bytes) : State :=
  let (i, o, s) := s.chainBegin e x g b 0
  let t := { s.entry e b 0 with chIn := i, chOut := o }
  ((s.begin_ e t (s.engines[e].pc + 1)).checkPair e t).endEntry e t.pos stEmpty

/-- COPY (R205-R208, 06_programs R179). -/
def execCopy (e : EngId) (units : Nat) (ev : List MemEvent) (s : State) : Res :=
  s.packet e 0x60 ev fun s g x b =>
    let t := s.entry e b 0
    match s.opnd x b 4 t.idx, s.opnd x b 7 t.idx with
    | some c, some d =>
      match s.copyBad b c d with
      | some a => .fault (.addressUnmapped a)
      | none =>
        if c.lay.rows = 0 || c.lay.cols = 0 then ok (s.copyEmpty e g x b)
        else ok (s.copyBegin e g x { t with scales := [c.exp, d.exp] } c.lay.rows units)
    | _, _ => ok (s.refuseCmd e x g b 0 stState)

/-- An entry of a list that no copy may make (R210 R235). -/
def badEntry (kind : Nat) (c d : Layout) (v : Nat) : Bool :=
  if kind = 2 then (!rlHole v && decide (c.rows ≤ rlSRow v)) || decide (d.rows ≤ rlDRow v)
  else decide (blockH c d v ≤ 0) || decide (blockW c d v ≤ 0)

/-- COPY_LIST (R209-R212, 08_conditional R235). The list is read after the writes of earlier commands of the stream; a poisoned
list marks all of DST. -/
def execCopyList (e : EngId) (units : Nat) (s : State) (ev : List MemEvent := []) : Res :=
  s.packet e 0x61 ev fun s g x b =>
    let t := s.entry e b 0
    match s.opnd x b 4 t.idx, s.opnd x b 7 t.idx, s.opnd x b 0xA t.idx with
    | some c, some d, some l =>
      if !s.mayRead e x l.listRange then ok s
      else if !s.inMap l.addr 16 then .fault (.addressUnmapped l.addr)
      else match s.copyBad b c d with
      | some a => .fault (.addressUnmapped a)
      | none =>
        if c.lay.cols = 0 || d.lay.cols = 0 || d.lay.rows = 0 then ok (s.copyEmpty e g x b)
        else match s.readList none l with
        | (none, s) => ok (s.refuseCmd e x g b 0 stState)
        | (some (true, _), s) =>
          let s := if pkPeer b = 0xFF then d.allRanges.foldl (fun s r => s.poisonRange r.1 r.2) s else s.markRemote x b d
          ok (s.loseCmd e x g b d.lay.rows)
        | (some (false, list), s) =>
          if list.any (badEntry l.lay.kind c.lay d.lay) then ok (s.refuseCmd e x g b 0 stState)
          else ok (s.copyBegin e g x { t with list := list, scales := [c.exp, d.exp] } d.lay.rows units)
    | _, _, _ => ok (s.refuseCmd e x g b 0 stState)

/-- TIP (R213 R214). -/
def execTip (e : EngId) (units : Nat) (s : State) (ev : List MemEvent := []) : Res :=
  s.packet e 0x62 ev fun s g x b =>
    let t := s.entry e b 0
    if tipLen b = 0 then
      ok (s.atOnce e b (s.engines[e].pc + 1) stEmpty 0)
    else if !s.inMap (tipSrc b) (tipLen b) then .fault (.addressUnmapped (tipSrc b))
    else if pkPeer b = 0xFF && !s.inMap (tipDst b) (tipLen b) then .fault (.addressUnmapped (tipDst b))
    else ok (s.copyBegin e g x t 0 units)

/-! ## Completion (R218) -/

/-- Part i of a remote copy will not complete: it was refused, or its route is down. -/
def State.partLost (s : State) (e : EngId) (t : Entry) (i : Nat) : Bool :=
  bit t.failed.toNat i || (match s.sentPart e t i with | some y => y.down | none => true)

/-- The status of a copy whose parts have all completed or failed; none while a part is open. -/
def State.copyStatus (s : State) (e : EngId) (t : Entry) : Option Nat :=
  let ps := List.range t.total
  if !ps.all fun i => bit t.done.toNat i || (pkPeer t.packet ≠ 0xFF && s.partLost e t i) then none
  else if ps.all fun i => bit t.done.toNat i then some (if t.poison then stPoisoned else stOk)
  else if ps.any fun i => bit t.done.toNat i then some stPartial
  else some stHardware

/-! ## The receiving side -/

/-- The largest MAX of the loops at each nesting level of a program. -/
def State.loopMax (s : State) (addr : Nat) : Nat → Nat → Nat → List Nat → List Nat
  | 0, _, _, l => l
  | f + 1, pc, d, l =>
    let b := s.memRead (addr + 32 * pc) 32
    if pkOp b = 4 then State.loopMax s addr f (pc + 1) (d + 1) (l.set d (Nat.max (l.getD d 0) (fld b 0xC 4)))
    else if pkOp b = 5 then State.loopMax s addr f (pc + 1) (d - 1) l
    else State.loopMax s addr f (pc + 1) d l

/-- The largest MAX at each level over the programs of a schedule. -/
def State.loopBounds (s : State) (i : Image) : List Nat :=
  i.progs.foldl (fun l p => List.zipWith Nat.max l (s.loopMax p.addr p.packets 0 0 [0, 0, 0, 0])) [0, 0, 0, 0]

/-- Least and greatest offset of a layout's loops, each index below its bound. -/
def loopSpan (l : Layout) (mx : List Nat) : Int × Int :=
  (List.zipWith (fun (st : Int) (m : Nat) => st * ((m - 1 : Nat) : Int)) l.loopStride mx).foldl
    (fun a v => (a.1 + min v 0, a.2 + max v 0)) (0, 0)

/-- The byte extents of an opened layout over every loop index (12_links R371), with elements of some bits and one scale byte for each 32
elements: a layout names no format, and its elements are taken as the widest, of 32 bits, where a part must lie in it, and as the narrowest,
of 4 bits, where its own bytes must be mapped (log entry 48). -/
def openExtent (bits : Nat) (l : Layout) (mx : List Nat) : List (Nat × Nat) :=
  if l.rows = 0 || l.cols = 0 then []
  else
    let sp := loopSpan l mx
    let a := ((l.addr : Int) + sp.1).toNat
    let n := (l.rows - 1) * l.rowStride + ceilDiv (bits * l.cols) 8 + (sp.2 - sp.1).toNat
    (a, n) :: (if l.scaleAddr = 0 then [] else
      [(((l.scaleAddr : Int) + sp.1 / 16).toNat, (l.rows - 1) * l.scaleRowStride + ceilDiv l.cols 32 + ((sp.2 - sp.1) / 16).toNat)])


/-- The halves a replay reads that carry poison: the last collated halves of the descriptors whose digest was poisoned (R397 step 2). -/
def State.spoiltRanges (s : State) (x : Sched) : List (Bool × Nat × Nat × Nat) :=
  [false, true].flatMap fun v => if x.coll.flags.getLsbD (if v then 7 else 6) then
    (descsOf x.image v).flatMap fun d => match x.image.updates[d]? with
      | some u => ((u.regions (s.lastHalf u)).filter fun r => s.rangePoisoned r.1 r.2).map fun r => (v, ordinalOf x.image d, r.1, r.2)
      | none => []
  else []

/-- What the Binder, as context 0, has opened: to a member of a live checkpoint its share of the target slot (14_checkpoint R435), and to a
mirror the halves that a replay waits for (13_collation R397; log entry 84). -/
def State.binderOpened (s : State) (peer : DevId) : List (Nat × Nat) :=
  (s.ckpts.filter Ckpt.live).flatMap (fun k => ((List.range (imgGroupSize s.act)).filter fun d => s.memberDev k d = peer).map fun d =>
    (s.pieceAt k.slot d, s.share)) ++
  (s.scheds.filter fun x => (x.replay.map fun r => !r.started).getD false).flatMap fun x =>
    (s.spoiltRanges x).map fun r => r.2.2

/-- The ranges that a context has opened to a peer (R207, 12_links R371). -/
def State.opened (s : State) (ctx : Nat) (peer : DevId) : List (Nat × Nat) :=
  if ctx = 0 then s.binderOpened peer else
  (s.scheds.filter fun x => x.ctx = ctx).flatMap fun x =>
    (x.image.peers.filter fun p => !p.isSet && p.devId = peer).flatMap fun p =>
      ((x.image.layouts.drop p.openFirst).take p.openCount).flatMap fun l => openExtent 32 l (s.loopBounds x.image)

/-- Every byte of a range lies in the opened regions, in one or in several that meet. -/
def State.isOpenTo (s : State) (ctx : Nat) (peer : DevId) (a n : Nat) : Bool :=
  n = 0 || ((s.opened ctx peer).foldl (fun l r => l.flatMap (cutSeg r.1 r.2)) [(a, n)]).isEmpty

/-- The destination hop by which a port's frame reaches this device (12_links R370). -/
def State.destHop (s : State) (p : Port) (res : W64) : Option Hop :=
  if s.ports[p].admitted then s.hops.find? fun h => h.resId = res && h.role = 2 && h.inPort = p.val else none

/-- Data frames for this device are answered with a refusal: link hold, a partition reset, or a resetting context (12_links R380,
15_faults Table 15-5). -/
def State.refusesData (s : State) (p : Port) (ctx : Nat) : Bool :=
  s.ports[p].hold || decide (s.guard.devState = .resetting) || s.guard.resetReq.isSome || s.ctxs[ctxId ctx].resetting

/-- A remote part (R207 R220, 13_collation R389): discarded whole and counted as malformed outside the open regions; else written, logged and
acknowledged. -/
def State.deliverPart (s : State) (p : Port) (m : PartMsg) : State :=
  match s.destHop p m.resId with
  | none => s.malformed p
  | some h =>
    if s.refusesData p m.ctx then s.emit (.partAck p m.copy m.part false)
    else if !m.pieces.all fun r => s.isOpenTo m.ctx h.peerId r.1 r.2.length then (s.emit (.partAck p m.copy m.part false)).malformed p
    else
      let s := s.putPieces m.pieces m.poisoned
      let s := m.pieces.foldl (fun s r =>
        s.logItem m.ctx 1 h.peerId m.resId r.1 (if (sheetRange r.1 r.2.length).any m.poisoned.contains then 1 else 0) r.2) s
      let rs := s.recvs.map fun r => if r.resId = m.resId && r.copy = m.copy then { r with complete := dedup (r.complete ++ [m.part]) } else r
      ({ s with recvs := rs.filter fun r => r.missing ≠ [] }).emit (.partAck p m.copy m.part true)

/-- The declaring message of a remote copy (R220). A part outside the open regions is never marked, so it is not recorded (log entry 50). -/
def State.deliverDeclare (s : State) (p : Port) (m : DeclareMsg) : State :=
  match s.destHop p m.resId with
  | none => s.malformed p
  | some h =>
    if s.refusesData p m.ctx then s
    else
      let parts := m.parts.filter fun x => x.2.all fun r => s.isOpenTo m.ctx h.peerId r.1 r.2
      { s with recvs := s.recvs ++ [{ resId := m.resId, copy := m.copy, ctx := m.ctx, parts := parts, complete := [] }] }

/-- The sender abandons a copy (R220). -/
def State.deliverAbandon (s : State) (p : Port) (res : W64) (copy : Nat) : State :=
  match s.destHop p res with
  | none => s.malformed p
  | some _ => (s.recvs.filter fun r => r.resId = res && r.copy = copy).foldl State.abandonRecv s

/-- A counter is owned by a context: a loaded schedule of the context declares it (06_programs R186). -/
def State.ownsCounter (s : State) (ctx c : Nat) : Bool := s.scheds.any fun x => x.ctx = ctx && x.image.counters.any fun d => d.ctr = c

/-- A token that comes later than every receive promise of its counter from its sender allows, for a phase in progress, delays the receiver
(11_time R329 R347; log entry 60). -/
def State.tokenLate (s : State) (h : Hop) (c : Nat) : Bool :=
  s.scheds.any fun x => x.runs.any fun r =>
    let ps := x.image.promises.filter fun p => p.recv && p.phase = r.phase && p.ctr = c &&
      ((x.image.peers[p.peer]?).map PeerE.devId).getD 0 = h.peerId
    r.inProgress && ps ≠ [] && ps.all fun p =>
      decide (r.nominal - (x.phaseOf r).launch + p.time + h.fixedNs + ceilDiv 64000 h.rate + 2 * x.image.syncBound < s.now)

/-- A token message (06_programs R190): malformed where it names a counter that its context does not own; refused under link hold or for a
resetting context; else added, logged and acknowledged. -/
def State.deliverToken (s : State) (p : Port) (m : TokenMsg) : State :=
  match s.destHop p m.resId with
  | none => s.malformed p
  | some h =>
    let c := 512 * m.folio + m.index
    if s.refusesData p m.ctx then s.emit (.tokenAck p m false)
    else if !s.ownsCounter m.ctx c then s.malformed p
    else
      let s := if s.tokenLate h c then s.noteCause 9 else s
      let s := s.addCtr c m.inc.toNat m.ctx 0xFF m.tag
      let s := s.logItem m.ctx 2 h.peerId m.resId (c + 4294967296 * m.inc.toNat) 0 []
      s.emit (.tokenAck p m true)

def execDataPartReceive (p : Port) (m : PartMsg) (s : State) : Res := ok (s.deliverPart p m)

def execRemoteCopyDeclare (p : Port) (m : DeclareMsg) (s : State) : Res := ok (s.deliverDeclare p m)

def execCopyAbandon (p : Port) (resId : W64) (copy : Nat) (s : State) : Res := ok (s.deliverAbandon p resId copy)

def execTokenMessageReceive (p : Port) (m : TokenMsg) (s : State) : Res := ok (s.deliverToken p m)

/-- PART_ACKNOWLEDGE (R217): the acknowledgement of a part that is open sets its bit; a refusal leaves the bit clear. -/
def execPartAcknowledge (copy part : Nat) (accepted : Bool) (s : State) : Res :=
  match s.sent.find? fun y => y.copy = copy && !y.token && bit y.parts part && !y.down with
  | none => ok s
  | some y =>
    match y.eng with
    | none => ok s
    | some e => ok (s.updEntry e y.pos fun t =>
        if t.ready || bit t.done.toNat part || bit t.failed.toNat part then t
        else if accepted then { t with done := t.done ||| BitVec.ofNat 64 (2 ^ part) }
        else { t with failed := t.failed ||| BitVec.ofNat 64 (2 ^ part) })

end Sys2Proof.Machine
end

