-- ==== Sys2Proof/Machine/Array.lean ====
section
/-! DEFINITION. The matrix array: leaves, LEAF_LOAD and STREAM_ROWS under the reference order of operations
(04_array R105-R135, 03_formats R91 R95-R102, 08_conditional R237). -/

namespace Sys2Proof.Machine

/-! ## Fields (Tables 06-7 and 06-8) -/

def llKext (b : Bytes) : Nat := bits (fld b 0xA 2) 0 10
def llNext (b : Bytes) : Nat := bits (fld b 0xC 2) 0 10
def llLogk (b : Bytes) : Nat := bits (fld b 0xE 2) 0 12
def llTrans (b : Bytes) : Bool := bit (fld b 0x10 1) 0
def llSparse (b : Bytes) : Nat := bits (fld b 0x10 1) 1 2
def llSplit (b : Bytes) : Nat := bits (fld b 0x10 1) 3 2
def srScale (b : Bytes) : Int := sgn 8 (fld b 0xD 1)
def srTrans (b : Bytes) : Bool := bit (fld b 0xE 1) 0
def srTurn (b : Bytes) : Bool := bit (fld b 0xE 1) 1
def srSplit (b : Bytes) : Nat := bits (fld b 0xE 1) 2 2
def srFsat (b : Bytes) : Bool := bit (fld b 0xE 1) 4
def srIovf (b : Bytes) : Bool := bit (fld b 0xE 1) 5
def srShift (b : Bytes) : Nat := fld b 0xF 1 % 32
def srRows (b : Bytes) : Nat := fld b 0x10 4

/-! ## The stationary tile -/

/-- Reads one element of a layout with the scale byte of block blk: its value, its poison and a NaN scale's flag. -/
def State.elem (s : State) (q : Quire) (o : Opnd) (r e blk : Nat) : FVal × Bool × Nat × State :=
  let w := elemBits o.fmt
  let a := o.rowAddr r + e * w / 8
  let v := bits (s.memNat a 5) (e * w % 8) w
  let (ps, s) := s.touch (some q) (dedup [a / 1024, (o.rowAddr r + (e * w + w - 1) / 8) / 1024])
  if isMX o.fmt then
    let sa := o.scaleRowAddr r + blk
    let (pz, s) := s.touch (some q) [sa / 1024]
    match scaleExp (s.memNat sa 1) with
    | none => (.nan, ps.any (·.2) || pz.any (·.2), fgNanIn, s)
    | some x => (FV.scale (decodeElem o.fmt v) x, ps.any (·.2) || pz.any (·.2), 0, s)
  else (decodeElem o.fmt v, ps.any (·.2), 0, s)

/-- The 2-bit position of a kept value, and its poison. The spec gives positions no address: they stand in memory at a place that nothing
constrains (log entry 38). -/
def State.keptPos (s : State) (o : Opnd) (kept other : Nat) : Nat × Bool :=
  let a := Config.posPlace (o.rowAddr 0) kept other
  (bits (s.memNat (a / 8) 2) (a % 8) 2, s.rangePoisoned (a / 8) 2)

/-- The element (k, n) of a tile as it is stored: non-MX tiles have rows along k; an MX tile, blocked along k, has rows along n
(03_formats R82 R83; log entry 39). TRANSPOSE reads the tile the other way round (04_array R120 R121). -/
def State.tileElem (s : State) (q : Quire) (o : Opnd) (trans : Bool) (k n blk : Nat) : FVal × Bool × Nat × State :=
  if isMX o.fmt != trans then s.elem q o n k (if trans then k / 32 else blk) else s.elem q o k n (if isMX o.fmt then n / 32 else blk)

/-- A block of a tile is present: there is no list, or the list names it (R129, 07_movement R211). -/
def blockPresent (haveList : Bool) (l : List Nat) (k n : Nat) : Bool :=
  !haveList || l.any fun v => blSBR v = k / 32 && blSBC v = n / 32

/-- The kept values of group m of four positions at the other coordinate n, with their positions (R125 R126). -/
def State.keptVals (s : State) (q : Quire) (o : Opnd) (mode m n : Nat) : List (Nat × FVal × Bool × Nat) × State :=
  let per := if mode = 1 then 2 else 1
  (List.range per).foldl (fun a j =>
    let kept := per * m + j
    let r := if isMX o.fmt then a.2.elem q o n kept (4 * m / 32) else a.2.elem q o kept n 0
    let p := a.2.keptPos o kept n
    (a.1 ++ [(p.1, r.1, r.2.1 || p.2, r.2.2.1)], r.2.2.2)) (([], s) : List (Nat × FVal × Bool × Nat) × State)

/-- The cell (i, j) of the tile: none where it is absent (R108 R109 R122). -/
def State.loadCell (s : State) (q : Quire) (o : Opnd) (b : Bytes) (t : Entry) (i j : Nat) : Option Cell × Nat × State :=
  let haveList := (descAt b 7).isSome
  let mode := llSparse b
  if llKext b ≤ i || llNext b ≤ j then (none, 0, s)
  else if mode = 0 then
    if llLogk b ≤ i || !blockPresent haveList t.list i j then (none, 0, s)
    else
      let r := s.tileElem q o (llTrans b) i j (i / 32)
      (some { vals := [(i, r.1)], poison := r.2.1 }, r.2.2.1, r.2.2.2)
  else if llTrans b then
    if llLogk b ≤ i || !blockPresent haveList t.list i j then (none, 0, s)
    else
      let r := s.keptVals q o mode (j / 4) i
      let hit := r.1.filter fun x => x.1 = j % 4
      (some { vals := if hit = [] then [(i, FV.zero)] else hit.map fun x => (i, x.2.1), poison := hit.any fun x => x.2.2.1 },
        hit.foldl (fun g x => g ||| x.2.2.2) 0, r.2)
  else
    let per := if mode = 1 then 2 else 1
    let m := i / per
    if !blockPresent haveList t.list (4 * m) j then (none, 0, s)
    else
      let r := s.keptVals q o mode m j
      match r.1[i % per]? with
      | some x =>
        let k := 4 * m + x.1
        if k < llLogk b then (some { vals := [(k, x.2.1)], poison := x.2.2.1 }, x.2.2.2, r.2) else (none, 0, r.2)
      | none => (none, 0, r.2)

def noCell : Nat → Option Cell := fun _ => none

/-! ## The fold buffer (R120-R122) -/

/-- The slot of the fold buffer that holds a tile of a command. -/
def Array_.foldOf (a : Array_) (pos tile : Nat) : Option FoldSlot :=
  match a.fold with
  | (some x, y) => if x.pos = pos && x.tile = tile then some x else y.filter fun z => z.pos = pos && z.tile = tile
  | (none, y) => y.filter fun z => z.pos = pos && z.tile = tile

/-- Puts a tile into the slot that is filled next; the two slots alternate. -/
def Array_.putFold (a : Array_) (x : FoldSlot) : Array_ :=
  { a with fold := if a.foldNext then (a.fold.1, some x) else (some x, a.fold.2), foldNext := !a.foldNext }

/-- Reads a tile of h x w elements into a slot: number 512 x stored row + stored column, by the cell that each gives. -/
def State.readTile (s : State) (pos tile h w : Nat) (cell : State → Nat → Nat → Option Cell × Nat × State) : FoldSlot × State :=
  (List.range h).foldl (fun a r => (List.range w).foldl (fun (a : FoldSlot × State) c =>
    let y := cell a.2 r c
    ({ a.1 with cells := AMap.set noCell a.1.cells (512 * r + c) y.1, flags := a.1.flags ||| y.2.1 }, y.2.2)) a)
    (({ pos := pos, tile := tile, cells := [], flags := 0 } : FoldSlot), s)

/-- The slot that holds a tile of a command: a tile that neither slot holds is written first. The flags are those of a new tile. -/
def State.foldTile (s : State) (e : EngId) (pos tile h w : Nat) (cell : State → Nat → Nat → Option Cell × Nat × State) :
    FoldSlot × Nat × State :=
  match s.engines[e].array.foldOf pos tile with
  | some x => (x, 0, s)
  | none =>
    let (x, s) := s.readTile pos tile h w cell
    (x, x.flags, s.setEng e { s.engines[e] with array := s.engines[e].array.putFold x })

/-! ## Splits (03_formats R97 R98) -/

/-- The BF16 pieces of an operand that is split: hi, mid and, for split-3, lo (R97). -/
def pieces (n : Nat) (v : FVal) : List FVal :=
  if n = 0 then [v]
  else match v with
    | .fin s m e =>
      let hi := truncBF16 (.fin s m e)
      let r1 := FV.add v (FV.neg hi)
      let mid := truncBF16 r1
      let lo := truncBF16 (FV.add r1 (FV.neg mid))
      if n = 2 then [hi, mid] else [hi, mid, lo]
    | x => if n = 2 then [x, FV.zero] else [x, FV.zero, FV.zero]

/-- The products of the pieces of two operands at one k: those of R98, or the product itself. -/
def crossPieces (sa sb : Nat) (pa pb : List FVal) : List FVal :=
  let at_ := fun (l : List FVal) i => l.getD i FV.zero
  if sa ≠ 0 && sb ≠ 0 then
    let two := [FV.dotMul (at_ pa 0) (at_ pb 0), FV.dotMul (at_ pa 0) (at_ pb 1), FV.dotMul (at_ pa 1) (at_ pb 0)]
    if sa = 2 then two
    else two ++ [FV.dotMul (at_ pa 0) (at_ pb 2), FV.dotMul (at_ pa 1) (at_ pb 1), FV.dotMul (at_ pa 2) (at_ pb 0)]
  else pa.flatMap fun x => pb.map fun y => FV.dotMul x y

/-- The piece products of one k. -/
def pieceProducts (sa sb : Nat) (a b : FVal) : List FVal := crossPieces sa sb (pieces sa a) (pieces sb b)

/-! ## Checksum lanes (R130) -/

/-- The weight of column j in lane q: 1 in a row-sum lane, ⌊j / 4⌋ + 1 in a column-index lane. -/
def laneWeight (q j : Nat) : FVal := if q < 4 then FV.one else FV.ofInt ((j / 4 + 1 : Nat) : Int)

/-- The stationary values of the checking cell of lane q at an array row, from the row's cells by column: for each k that a present cell
names, the exact weighted sum over the lane's columns, of each piece of a split. -/
def laneCell (split q : Nat) (row : List (Nat × Cell)) : List (Nat × List FVal) :=
  let mine := row.filter fun c => c.1 % 4 = q % 4
  (dedup (mine.flatMap fun c => c.2.vals.map (·.1))).map fun k =>
    (k, (List.range (Nat.max 1 split)).map fun p => FV.sum (mine.flatMap fun c =>
      (c.2.vals.filter fun v => v.1 = k).map fun v => FV.mul ((pieces split v.2).getD p FV.zero) (laneWeight q c.1)))

def noLane : Nat → List (Nat × List FVal) := fun _ => []

/-- The present cells of array row i of a leaf, by column. -/
def Leaf.rowCells (l : Leaf) (i : Nat) : List (Nat × Cell) :=
  (List.range l.next).flatMap fun j => match AMap.get noCell l.cells (i * 512 + j) with
    | some c => [(j, c)]
    | none => []

/-- Computes the checking cells of array row i, as the load path writes it. -/
def Leaf.loadLanes (l : Leaf) (i : Nat) : Leaf :=
  { l with lanes := (List.range 8).foldl (fun m q => AMap.set noLane m (512 * q + i) (laneCell l.split q (l.rowCells i))) l.lanes }

/-! ## LEAF_LOAD -/

/-- Writes array row i of the back leaf, from memory or, transposed, from the fold buffer (R109 R120). -/
def State.loadRow (s : State) (e : EngId) (o : Opnd) (b : Bytes) (t : Entry) (i : Nat) (l : Leaf) : Leaf × Nat × State :=
  let q := s.engQuire e
  let r :=
    if llTrans b then
      let (x, fl, s) := s.foldTile e t.pos 0 (llNext b) (llKext b) fun s r c => s.loadCell q o b t c r
      ((List.range (llNext b)).foldl (fun (l : Leaf) j =>
        { l with cells := AMap.set noCell l.cells (i * 512 + j) (AMap.get noCell x.cells (512 * j + i)) }) l, fl, s)
    else
      (List.range (llNext b)).foldl (fun a j =>
        let r := a.2.2.loadCell q o b t i j
        ({ a.1 with cells := AMap.set noCell a.1.cells (i * 512 + j) r.1 }, a.2.1 ||| r.2.1, r.2.2)) (l, 0, s)
  (r.1.loadLanes i, r.2)

/-- One unit of LEAF_LOAD: an array row, row 0 first (R109). The load completes with row 511, and the back leaf is READY. -/
def State.leafUnit (s : State) (e : EngId) (x : Sched) (t : Entry) : State :=
  let b := t.packet
  match s.opnd x b 4 t.idx, s.engines[e].array.back with
  | some o, some l =>
    let (l, fg, s) := s.loadRow e o b t t.units l
    let g := s.engines[e]
    let s := s.setEng e { g with array := { g.array with back := some l, backState := if t.units = 511 then .ready else .loading } }
    let s := s.updEntry e t.pos fun u => { u with
      watermark := t.units + 1, aflags := u.aflags ||| BitVec.ofNat 8 fg
      poison := u.poison || (l.rowCells t.units).any fun c => c.2.poison }
    s.unitDone e t
  | _, _ => s

/-- A leaf that LEAF_LOAD opens, with no cell present yet. -/
def newLeaf (b : Bytes) (o : Opnd) : Leaf :=
  { fmt := o.fmt, sparse := if llTrans b then 0 else llSparse b, split := llSplit b, logk := llLogk b, kext := llKext b, next := llNext b,
    scaleExp := o.exp, cells := [], lanes := [] }

/-- A leaf whose every cell is poisoned: its list could not be read (07_movement R212). -/
def poisonLeaf (l : Leaf) : Leaf :=
  { l with cells := (List.range (512 * 512)).map fun i => (i, some { vals := [], poison := true }) }

/-- Opens the back leaf with a state. -/
def State.openBack (s : State) (e : EngId) (l : Leaf) (st : LeafState) : State :=
  s.setEng e { s.engines[e] with array := { s.engines[e].array with back := some l, backState := st } }

/-- Begins a LEAF_LOAD that its checks accept. -/
def State.leafBegin (s : State) (e : EngId) (b : Bytes) (o : Opnd) (list : List Nat) (units : Nat) : State :=
  let t := { s.entry e b 512 with list := list, scales := [o.exp] }
  let s := (s.openBack e (newLeaf b o) .loading).begin_ e t (s.engines[e].pc + 1)
  s.runUnits State.leafUnit units e t.pos

/-- A BLIST entry that names no block of the tile (07_movement R211). -/
def badBlock (b : Bytes) (v : Nat) : Bool :=
  decide (ceilDiv (llLogk b) 32 ≤ blSBR v) || decide (ceilDiv (llNext b) 32 ≤ blSBC v) || decide (blDBR v ≠ 0xFFFF) || decide (blDBC v ≠ 0xFFFF)

/-- LEAF_LOAD (R110 R128, 07_movement R209-R212): accepted in EMPTY and in TURNING; a turn that an earlier command still owes comes
first (log entry 40). Its flags are those of block scales: an element that is NaN raises NAN_IN where a row multiplies with it (log entry
148). -/
def execLeafLoad (e : EngId) (units : Nat) (s : State) (ev : List MemEvent := []) : Res :=
  s.packet e 0x20 ev fun s g x b =>
    let st := s.engines[e].array.backState
    match s.opnd x b 4 (s.entry e b 0).idx with
    | none => ok (s.refuseCmd e x g b 0 stState)
    | some o =>
      if st = .loading || st = .ready || (llSparse b ≠ 0 && llSplit b ≠ 0) then ok (s.refuseCmd e x g b 0 stState)
      else match s.badOpnd o o.lay.rows o.lay.cols with
      | some a => .fault (.addressUnmapped a)
      | none =>
        match s.opnd x b 7 (s.entry e b 0).idx with
        | none => ok (s.leafBegin e b o [] units)
        | some lo =>
          if !s.mayRead e x lo.listRange then ok s
          else if !s.inMap lo.addr 16 then .fault (.addressUnmapped lo.addr)
          else
            match s.readList (some (s.engQuire e)) lo with
            | (none, s) => ok (s.refuseCmd e x g b 0 stState)
            | (some (true, _), s) =>
              let s := s.openBack e (poisonLeaf (newLeaf b o)) .ready
              let t := { s.entry e b 512 with watermark := 512, units := 512 }
              ok ((s.begin_ e t (s.engines[e].pc + 1)).endEntry e t.pos stPoisoned)
            | (some (false, l), s) =>
              if l.any (badBlock b) then ok (s.refuseCmd e x g b 0 stState) else ok (s.leafBegin e b o l units)

/-! ## The reference order (03_formats R99) -/

/-- One rounding of the FP32 accumulator; a sum beyond its range raises OVF (log entry 34). -/
def accStep (acc s : FVal) : FVal × Nat :=
  let r := narrow fFP32 false (FV.add acc s)
  (r.1, (if bit r.2 2 then fgOvf else 0) ||| invFlag [acc, s] r.1)

/-- The exact sums of the groups of 32 in ascending order, from products by their k, and INV where infinities of both signs meet in a
group. -/
def groupSums (len : Nat) (prods : List (Nat × FVal)) : List FVal × Nat :=
  let gs := (List.range (ceilDiv len 32)).map fun g =>
    let ps := (prods.filter fun p => p.1 / 32 = g).map (·.2)
    (FV.sum ps, invFlag ps (FV.sum ps))
  (gs.map (·.1), gs.foldl (fun f p => f ||| p.2) 0)

/-- The accumulation of group sums: one rounding each (R99). -/
def accGroups (acc : FVal) (gs : List FVal) : FVal × Nat :=
  gs.foldl (fun a s => let r := accStep a.1 s; (r.1, a.2 ||| r.2)) (acc, 0)

/-- The value of an integer element. -/
def fvInt (v : FVal) : Int :=
  match v with
  | .fin s m e => toInt s m e
  | _ => 0

/-- The accumulation of exact INT8 group sums into INT32 by saturation or wrap (R95). -/
def accInts (iovf : Bool) (acc : FVal) (gs : List FVal) : FVal × Nat :=
  let r := gs.foldl (fun (a : Int × Nat) s =>
    let l := limitInt 32 iovf (a.1 + fvInt s)
    (l.1, if l.2 then a.2 ||| fgIsat else a.2)) (fvInt acc, 0)
  (FV.ofInt r.1, r.2)

/-- The present products of a streamed row with column j of a leaf, and whether the column holds poison, and a NaN (R107 R133). -/
def Leaf.column (l : Leaf) (split : Nat) (row : List FVal) (j : Nat) : List (Nat × FVal) × Bool × Bool :=
  (List.range l.kext).foldl (fun a i =>
    match AMap.get noCell l.cells (i * 512 + j) with
    | none => a
    | some c =>
      (a.1 ++ c.vals.flatMap fun v => (pieceProducts split l.split (row.getD v.1 FV.zero) v.2).map fun p => (v.1, p),
        a.2.1 || c.poison, a.2.2 || c.vals.any fun v => FV.isNan v.2)) ([], false, false)

/-! ## The check of the lanes (R131 R132) -/

/-- The exact group sums of lane q of a leaf for a streamed row. -/
def Leaf.laneSums (l : Leaf) (split : Nat) (ein : Int) (q : Nat) (row : List FVal) : List FVal :=
  (groupSums l.logk ((List.range l.kext).flatMap fun i => (AMap.get noLane l.lanes (512 * q + i)).flatMap fun c =>
    (crossPieces split l.split (pieces split (row.getD c.1 FV.zero)) c.2).map fun p => (c.1, FV.scale p ein))).1

/-- A quantity that excludes its band from the check. -/
def unbounded (v : FVal) : Bool := FV.isNan v || FV.isInf v

/-- A lane value of band g is infinite or NaN. -/
def Leaf.laneUnbounded (l : Leaf) (g : Nat) : Bool :=
  (List.range (8 * 512)).any fun i => (AMap.get noLane l.lanes i).any fun c => c.1 / 32 = g && c.2.any unbounded

/-- What each lane's sum in band g differs by from the exact combination of its columns' sums. -/
def laneDiffs (lanes cols : List (List FVal)) (g : Nat) : List FVal :=
  (List.range 8).map fun q =>
    let mine := (cols.mapIdx fun j c => if j % 4 = q % 4 then [FV.mul (c.getD g FV.zero) (laneWeight q j)] else []).flatten
    FV.add ((lanes.getD q []).getD g FV.zero) (FV.neg (FV.sum mine))

/-- The column that the differences locate, when one differing column explains every lane: the row-sum lane that differs names j mod 4, and
the ratio of its column-index lane's difference to its own ⌊j / 4⌋ + 1; 0xFFFF where none does. -/
def locate (next : Nat) (d : List FVal) : Nat :=
  ((List.range next).find? fun j => (List.range 8).all fun q =>
    let v := d.getD q FV.zero
    if q % 4 = j % 4 then !FV.isZero v && decide (FV.cmp v (FV.mul (d.getD (j % 4) FV.zero) (laneWeight q j)) = 0) else FV.isZero v).getD 0xFFFF

/-- The mismatches of a launched row: band, lane mask and column. A band with an infinite or NaN quantity is left out. -/
def Leaf.check (l : Leaf) (split : Nat) (ein : Int) (row : List FVal) (cols : List (List FVal)) : List (Nat × Nat × Nat) :=
  let lanes := (List.range 8).map fun q => l.laneSums split ein q row
  (List.range (ceilDiv l.logk 32)).flatMap fun g =>
    if (lanes ++ cols).any (fun c => unbounded (c.getD g FV.zero)) || l.laneUnbounded g then []
    else
      let d := laneDiffs lanes cols g
      let m := ((List.range 8).filter fun q => !FV.isZero (d.getD q FV.zero)).foldl (fun m q => m + 2 ^ q) 0
      if m = 0 then [] else [(g, m, locate l.next d)]

/-! ## Streaming (R114-R124) -/

/-- The leaf turn (R111): the back leaf becomes the front leaf, and a load may begin. The trace record names the row that carries the token; a
bubble has none, and its record holds 0 (log entry 149). -/
def State.turnLeaf (s : State) (e : EngId) (t : Entry) (row : Nat) : State :=
  let g := s.engines[e]
  let s := s.setEng e { g with array := { g.array with front := g.array.back, back := none, backState := .turning } }
  let s := s.updEntry e t.pos fun u => { u with turn := false }
  s.traceCmd e t 5 0 row

/-- The streamed operand of a command: the tensor that a gathered stream reads, or SRC itself (08_conditional R237). -/
def State.streamed (s : State) (x : Sched) (t : Entry) (leafFmt : Nat) : Option Opnd :=
  match s.opnd x t.packet 4 t.idx with
  | none => none
  | some o => if o.lay.kind = 2 then some (s.opndOf x (o.idx + 1) leafFmt t.idx) else some o

/-- Element k of row r of a transposed operand: row k and column r as stored, from the fold buffer's tile. -/
def State.foldRead (s : State) (e : EngId) (o : Opnd) (t : Entry) (k r : Nat) : (FVal × Bool) × Nat × State :=
  let q := s.engQuire e
  let (x, fl, s) := s.foldTile e t.pos (4 * (r / 512) + k / 512) (Nat.min 512 (o.lay.rows - k / 512 * 512)) (Nat.min 512 (o.lay.cols - r / 512 * 512))
    fun s i j =>
      let y := s.elem q o (k / 512 * 512 + i) (r / 512 * 512 + j) ((r / 512 * 512 + j) / 32)
      (some { vals := [(i, y.1)], poison := y.2.1 }, y.2.2.1, y.2.2.2)
  match AMap.get noCell x.cells (512 * (k % 512) + r % 512) with
  | some c => (((c.vals.head?.map (·.2)).getD FV.zero, c.poison), fl, s)
  | none => ((FV.zero, false), fl, s)

/-- Row r of the streamed operand: gathered, read through the fold buffer, from a chain ring, or plain (R120 R237,
06_programs R196). A hole is a row of zeros that reads nothing. -/
def State.streamRow (s : State) (e : EngId) (o : Opnd) (t : Entry) (gathered : Bool) (len r : Nat) : RowVals × State :=
  let b := t.packet
  let q := s.engQuire e
  if gathered then
    let v := t.list.getD r 0
    if rlHole v then ({ vals := List.replicate len (FV.zero, false), flags := 0 }, s)
    else s.readRaw (some q) o (rlSRow v) len
  else if srTrans b then
    (List.range len).foldl (fun a k =>
      let y := a.2.foldRead e o t k r
      ({ vals := a.1.vals ++ [y.1], flags := a.1.flags ||| y.2.1 }, y.2.2)) (({ vals := [], flags := 0 } : RowVals), s)
  else s.readRaw (some q) o (if pkChIn b then r % o.lay.rows else r) len

/-- The feeders fetch rows into the gathering queues: up to 64 ahead of the launch, and of a chain those that its producer has written (R116).
A row fetched from a chain gives back its credit. -/
def State.feed_ (s : State) (e : EngId) (x : Sched) (t : Entry) (l : Leaf) : State :=
  match s.streamed x t l.fmt with
  | none => s
  | some o =>
    let n := Nat.min (queueLen - s.engines[e].array.queue.length) (Nat.min t.total (s.given e t) - t.fetched)
    (List.range n).foldl (fun s i =>
      let r := t.fetched + i
      let (row, s) := s.streamRow e o t (t.list ≠ []) l.logk r
      let g := s.engines[e]
      let s := s.setEng e { g with array := { g.array with queue := g.array.queue ++ [{ pos := t.pos, row := r, vals := row.vals, flags := row.flags }] } }
      (s.updEntry e t.pos fun u => { u with fetched := r + 1 }).taken e t 1) s

/-- An arithmetic-error record of a folio (13_collation R409): its kernels run before the group replay, and a second record within
1,000 steps of the first takes it over. -/
def State.arithError (s : State) (l : Nat) : State :=
  match s.collated, s.physOf l with
  | some x, some p =>
    let last := AMap.get zeroN s.arith p.val
    let step := if x.coll.state = .collated then x.step + 1 else x.step
    let again := last ≠ 0 && decide (step + 1 ≤ last + 1000)
    let m : BitVec 12 := BitVec.ofNat 12 (2 ^ l)
    let todo := if again then 0 else m
    let failed := if again then m else 0
    let y := if x.takesFlags then
        { x with coll := { x.coll with arbTodo := x.coll.arbTodo ||| todo, arbFailed := x.coll.arbFailed ||| failed } }
      else { x with later := { x.later with arbTodo := x.later.arbTodo ||| todo, arbFailed := x.later.arbFailed ||| failed } }
    { (s.setSched y) with arith := AMap.set zeroN s.arith p.val (step + 1) }
  | _, _ => s

/-- The exact sums of a row that an injection alters (15_faults Table 15-12 TYPE 0x08): a flipped product bit changes the sum of one group of
one column; which, and by how much, are free values (log entry 57). The Boolean says whether an injection was met. -/
def State.flipProduct (s : State) (e : EngId) (l : Leaf) (cols : List (List FVal)) : List (List FVal) × Bool × State :=
  if l.next = 0 then (cols, false, s)
  else match s.meet 8 (engUnit e) with
    | none => (cols, false, s)
    | some (_, s) =>
      let (c, s) := s.fresh
      let (k, s) := s.fresh
      let (v, s) := s.fresh
      let j := c.toNat % l.next
      let g := k.toNat % Nat.max 1 (ceilDiv l.logk 32)
      let d := FV.ofSig (v.toInt) (v.toNat % 512 - 256)
      (cols.mapIdx fun i gs => if i = j then gs.mapIdx (fun n s => if n = g then FV.add s d else s) else gs, true, s)

/-- The records of the mismatches that the checker finds in a row, and their effects (R132): one for each band. -/
def State.checkRow (s : State) (e : EngId) (t : Entry) (row : Nat) (inj : Bool) (bad : List (Nat × Nat × Nat)) : State :=
  bad.foldl (fun s m =>
    let g := s.engines[e].grant
    let s := s.addRec 3 3 0x0401 (BitVec.ofNat 8 ((g.map Grant.ctx).getD 0)) inj (s.unitByte e)
      (nativeBody (pkTag t.packet) row 0 (m.1 % 256 + 256 * m.2.1 + 65536 * m.2.2))
    let s := match g with
      | some g => s.sampleStatus g (pkTag t.packet)
      | none => s
    (s.arithError (engUnit e)).colFlag 2#16) s

/-- Exact values that a row's groups sum in a column, with the format's scales. -/
def Leaf.columnSums (l : Leaf) (split : Nat) (ein : Int) (row : List FVal) (j : Nat) : List FVal × Nat :=
  groupSums l.logk ((l.column split row j).1.map fun p => (p.1, FV.scale p.2 ein))

/-- One output element: the accumulation of its groups, OUT_SCALE and the flags (R99 R104 R118). -/
def outElem (isI iovf : Bool) (outScale : Int) (acc : FVal) (gs : List FVal) : FVal × Nat :=
  let r := if isI then accInts iovf acc gs else accGroups acc gs
  (FV.scale r.1 outScale, r.2)

/-- Writes output row r of a command and notes it done: its value, its poison and its flags. -/
def State.outRow (s : State) (e : EngId) (x : Sched) (t : Entry) (d : Opnd) (r : Nat) (isI : Bool) (out : List (FVal × Bool)) (fl : Nat) : State :=
  let b := t.packet
  let nw : Narrowing := { fsat := srFsat b, iovf := srIovf b, shift := srShift b, intSrc := isI, exact := false }
  let (fg, s) := s.writeRow x { d with exp := t.scales.getD 2 0 } (ringRow b d.lay r) 0 nw out
  let s := s.updEntry e t.pos fun u => { u with
    watermark := r + 1, aflags := u.aflags ||| BitVec.ofNat 8 (fg ||| fl), poison := u.poison || out.any (·.2) }
  s.unitMade e t 1

/-- Takes the row at the head of the queues out of them. -/
def State.popRow (s : State) (e : EngId) : State :=
  let g := s.engines[e]
  s.setEng e { g with array := { g.array with queue := g.array.queue.drop 1 } }

/-- A row of STREAM_ROWS through a leaf: skipped where it is all zero, else launched and checked (R99 R117 R118 R131 R133). A skipped row has
the flags of a computed one, and no poison of a column that it does not meet. -/
def State.rowThrough (s : State) (e : EngId) (x : Sched) (t : Entry) (l : Leaf) (d : Opnd) (row : Gathered) (skip : Bool) : State :=
  let b := t.packet
  let (acc, s) := match s.opnd x b 7 t.idx with
    | some ai => s.readRow (some (s.engQuire e)) { ai with exp := t.scales.getD 1 0 } row.row l.next
    | none => ({ vals := List.replicate l.next (FV.zero, false), flags := 0 }, s)
  let rowPoison := row.vals.any (·.2)
  let vals := row.vals.map (·.1)
  let isI := l.fmt = fINT8
  let ein := if isI then 0 else t.scales.getD 0 0 + l.scaleExp
  let js := List.range l.next
  let sums := js.map fun j => l.columnSums (srSplit b) ein vals j
  let (cols, inj, s) := if skip then (sums.map (·.1), false, s) else s.flipProduct e l (sums.map (·.1))
  let s := if skip then s else s.checkRow e t row.row inj (l.check (srSplit b) ein vals cols)
  let outs := js.map fun j =>
    let a := acc.vals.getD j (FV.zero, false)
    let c := l.column (srSplit b) vals j
    let r := outElem isI (srIovf b) (srScale b) a.1 (cols.getD j [])
    ((r.1, rowPoison || a.2 || (c.2.1 && !skip)), r.2 ||| nanFlag [a.1] ||| (if c.2.2 then fgNanIn else 0))
  let fl := row.flags ||| acc.flags ||| nanFlag vals ||| sums.foldl (fun g c => g ||| c.2) 0 ||| outs.foldl (fun g v => g ||| v.2) 0
  s.outRow e x t d row.row isI (outs.map (·.1)) fl

/-- The leaf that the next launched row meets: the back leaf where the command owes a turn (R113 R119). -/
def Array_.nextLeaf (a : Array_) (turn : Bool) : Option Leaf := if turn then a.back else a.front

/-- One unit of STREAM_ROWS: the next row is fetched, and skipped or launched. The first launched row carries the turn, and waits for the back
leaf; where every row is skipped a bubble carries it (R112 R114 R119). -/
def State.streamUnit (s : State) (e : EngId) (x : Sched) (t : Entry) : State :=
  let ready := s.engines[e].array.backState = .ready
  if t.total ≤ t.units then (if t.turn && ready then s.turnLeaf e t 0 else s)
  else
    match s.engines[e].array.nextLeaf t.turn, s.opnd x t.packet 0xA t.idx with
    | some l, some d =>
      let s := s.feed_ e x t l
      match s.engines[e].array.queue with
      | [] => s
      | row :: _ =>
        if !row.vals.any (·.2) && row.vals.all fun v => FV.isZero v.1 then (s.popRow e).rowThrough e x t l d row true
        else if t.turn && !ready then s
        else
          let s := if t.turn then s.turnLeaf e t row.row else s
          (s.popRow e).rowThrough e x { t with turn := false } l d row false
    | _, _ => s

/-- The leaf that the first row of a new command meets: the back leaf where it or an earlier command owes a turn (R113). -/
def Engine.meets (g : Engine) (turn : Bool) : Option Leaf :=
  if turn || g.entries.any Entry.turn then g.array.back else g.array.front

/-- Rows and row length of a streamed tensor as it is read: TRANSPOSE reads columns (R120; log entry 41). -/
def asRead (trans : Bool) (l : Layout) : Nat × Nat := if trans then (l.cols, l.rows) else (l.rows, l.cols)

/-- Begins a STREAM_ROWS whose checks hold, with the exponents that it latches. A count of 0 completes with OK_EMPTY, or launches a bubble
(R114). -/
def State.streamBegin (s : State) (e : EngId) (g : Grant) (x : Sched) (b : Bytes) (leafFmt rows : Nat) (list : List Nat) (units : Nat) : State :=
  let pc := s.engines[e].pc + 1
  let (i, o, s) := s.chainBegin e x g b rows
  let t := s.entry e b rows
  let exps := [(s.streamed x t leafFmt).map (·.exp), (s.opnd x b 7 t.idx).map (·.exp), (s.opnd x b 0xA t.idx).map (·.exp)].map fun v => v.getD 0
  let t := { t with list := list, scales := exps, chIn := i, chOut := o, turn := srTurn b }
  let s := s.begin_ e t pc
  let s := s.checkPair e t
  if rows = 0 && !srTurn b then s.endEntry e t.pos stEmpty
  else s.runUnits State.streamUnit units e t.pos

/-- The first address outside the map that a STREAM_ROWS of some rows uses. -/
def State.streamBad (s : State) (b : Bytes) (u d : Opnd) (ai : Option Opnd) (list : List Nat) (rows len next : Nat) : Option Nat :=
  let src := if list ≠ [] then
      (list.filter fun v => !rlHole v).findSome? fun v => (u.ranges (rlSRow v) 0 len).findSome? fun p => if s.inMap p.1 p.2 then none else some p.1
    else s.badOpnd u (if pkChIn b || srTrans b then u.lay.rows else rows) u.lay.cols
  match src with
  | some a => some a
  | none => match s.badOpnd d (if pkChOut b then Nat.min rows d.lay.rows else rows) next with
    | some a => some a
    | none => ai.bind fun a => s.badOpnd a rows next

/-- STREAM_ROWS of a count of rows of a length: the zero rule first (R198), then the state checks (R110 R115 R177). Where no leaf has been
turned to the front the command is refused (log entry 150). A count of 0 with TURN asks only for a loaded leaf. -/
def State.streamRows (s : State) (e : EngId) (g : Grant) (x : Sched) (b : Bytes) (o d : Opnd) (rows len : Nat) (list : List Nat) (units : Nat) : Res :=
  let eng := s.engines[e]
  let rows := if len = 0 then 0 else rows
  if rows = 0 && !srTurn b then ok (s.streamBegin e g x b o.fmt 0 [] units)
  else if srTurn b && (eng.array.backState = .empty || eng.array.backState = .turning || eng.entries.any Entry.turn) then
    ok (s.refuseCmd e x g b 0 stState)
  else match eng.meets (srTurn b) with
  | none => ok (s.refuseCmd e x g b 0 stState)
  | some l =>
    if rows = 0 then ok (s.streamBegin e g x b l.fmt 0 [] units)
    else if (srSplit b ≠ 0 && l.split ≠ 0 && srSplit b ≠ l.split) || len ≠ l.logk then ok (s.refuseCmd e x g b 0 stState)
    else
      let idx := (s.entry e b 0).idx
      let u := if o.lay.kind = 2 then s.opndOf x (o.idx + 1) l.fmt idx else o
      match s.streamBad b u d (s.opnd x b 7 idx) list rows len l.next with
      | some a => .fault (.addressUnmapped a)
      | none => ok (s.streamBegin e g x b l.fmt rows list units)

/-- STREAM_ROWS (R110 R114 R115, 06_programs R177). A gathered stream latches its list (08_conditional R237): a poisoned one marks DST, and an
entry's row is read at its place in the layout whatever the layout's ROWS (log entry 151). -/
def execStreamRows (e : EngId) (units : Nat) (ev : List MemEvent) (s : State) : Res :=
  s.packet e 0x21 ev fun s g x b =>
    let idx := (s.entry e b 0).idx
    match s.opnd x b 4 idx, s.opnd x b 0xA idx with
    | some o, some d =>
      if o.lay.kind = 2 then
        if !s.mayRead e x o.listRange then ok s
        else if !s.inMap o.addr 16 then .fault (.addressUnmapped o.addr)
        else
          match s.readList (some (s.engQuire e)) o with
          | (none, s) => ok (s.refuseCmd e x g b 0 stState)
          | (some (true, _), s) =>
            let s := d.allRanges.foldl (fun s p => s.poisonRange p.1 p.2) s
            ok (s.loseCmd e x g b d.lay.rows)
          | (some (false, list), s) =>
            let n := if list = [] then 0 else ((x.image.layouts[o.idx + 1]?).map Layout.cols).getD 0
            s.streamRows e g x b o d list.length n list units
      else
        let (n, len) := asRead (srTrans b) o.lay
        s.streamRows e g x b o d (if srRows b = 0xFFFFFFFF then n else srRows b) len [] units
    | _, _ => ok (s.refuseCmd e x g b 0 stState)

/-- Array status at the end: every row's output is written, and POISONED where one was poisoned (Table 06-13). -/
def Entry.endStatus (t : Entry) : Nat := if t.poison then stPoisoned else stOk

end Sys2Proof.Machine
end

