-- ==== Sys2Proof/Machine/Functions.lean ====
section
/-! DEFINITION. The functions of the vector engine: quotient, square roots, exponential, logarithm, hyperbolic tangent, sigmoid
and error function as values that round, in every format, as the exact mathematical value does (05_vector_optimizer R140). A
value between two neighbours of a fine grid is given as their midpoint, which any coarser rounding treats alike. The
transcendental functions are enclosed by rational bounds; a grid that the bounds do not separate gives the free rounding of log
entry 20. -/

namespace Sys2Proof.Machine
namespace FV

/-- The midpoint above n units of 2^q, or n itself where the value is exact. -/
def sticky (s : Bool) (n : Nat) (q : Int) (exact : Bool) : FVal := .fin s (if exact then 2 * n else 2 * n + 1) (q - 1)

/-- The quotient (R140). -/
def div : FVal → FVal → FVal
  | .nan, _ => .nan
  | _, .nan => .nan
  | .inf _, .inf _ => .nan
  | .inf s, .fin t _ _ => .inf (xor s t)
  | .fin s _ _, .inf t => .fin (xor s t) 0 0
  | .fin s m e, .fin t n f =>
    if n = 0 then (if m = 0 then .nan else .inf (xor s t))
    else if m = 0 then .fin (xor s t) 0 0
    else
      let k : Nat := 96 + n.log2 - m.log2
      let x := m * 2 ^ k
      sticky (xor s t) (x / n) (e - f - k) (x % n = 0)

/-- Bits of an integer square root, from bit b - 1 down. -/
def isqrtBits : Nat → Nat → Nat → Nat
  | 0, _, r => r
  | b + 1, n, r => isqrtBits b n (if (r + 2 ^ b) * (r + 2 ^ b) ≤ n then r + 2 ^ b else r)

def isqrt (n : Nat) : Nat := isqrtBits (n.log2 / 2 + 1) n 0

/-- The square root to n bits and more (R140). -/
def sqrtTo (n : Nat) : FVal → FVal
  | .nan => .nan
  | .inf s => if s then .nan else .inf false
  | .fin s m e =>
    if m = 0 then .fin s 0 0 else if s then .nan
    else
      let k : Nat := if e % 2 = 0 then 2 * n else 2 * n + 1
      let x := m * 2 ^ k
      let r := isqrt x
      sticky false r ((e - k) / 2) (r * r = x)

def sqrt (v : FVal) : FVal := sqrtTo 96 v

/-- The reciprocal square root (R140). -/
def rsqrt : FVal → FVal
  | .nan => .nan
  | .inf s => if s then .nan else zero
  | .fin s m e =>
    if m = 0 then .inf s else if s then .nan
    else
      let m := if e % 2 = 0 then m else 2 * m
      let e := if e % 2 = 0 then e else e - 1
      let k := 100 + m.log2
      let r := isqrt (2 ^ (2 * k) / m)
      sticky false r (-(e / 2) - k) (r * r * m = 2 ^ (2 * k))

/-! Enclosures: a pair of bounds in units of 2^-320, unless a unit is named. -/

def fb : Nat := 320
def unit320 : Nat := 2 ^ 320
/-- The natural logarithm of 2 and 2 over the root of pi, in units of 2^-320, rounded down. -/
def ln2 : Nat := 0xb17217f7d1cf79abc9e3b39803f2f6af40f343267298b62d8a0d175b8baafa2be7b876206debac98
def twoRootPi : Nat := 0x120dd750429b6d11ae3a914fed7fd8688281341d7587cea2e7342b06199cc416180eb39f0b24e1e22

/-- A positive irrational value between lo and hi units of 2^q, to 80 bits, if the bounds agree on them. -/
def between (s : Bool) (lo hi : Nat) (q : Int) : Option FVal :=
  let k := lo.log2 - 80
  if 80 ≤ lo.log2 && lo / 2 ^ k = hi / 2 ^ k then some (sticky s (lo / 2 ^ k) (q + k) false) else none

/-- A value just above or just below 2^q. -/
def above (s : Bool) (q : Int) : FVal := .fin s (2 ^ 81 + 1) (q - 81)
def below (s : Bool) (q : Int) : FVal := .fin s (2 ^ 81 - 1) (q - 81)

/-- A positive value in units of 2^-320, rounded down. -/
def fixed (m : Nat) (e : Int) : Nat := if 0 ≤ e + 320 then m * 2 ^ (e + 320).toNat else m / 2 ^ (-(e + 320)).toNat

/-- Terms of the exponential series from term i on: a lower and an upper sum. -/
def expTerms : Nat → Nat → Nat → Nat → Nat → Nat → Nat → Nat → Nat × Nat
  | 0, _, _, _, _, th, sl, sh => (sl, sh + 2 * th + 2)
  | f + 1, i, rl, rh, tl, th, sl, sh =>
    let tl := tl * rl / unit320 / i
    let th := (th * rh / unit320 + 1) / i + 1
    expTerms f (i + 1) rl rh tl th (sl + tl) (sh + th)

/-- e^(x) for x between lo and hi units: bounds in units of 2^q. -/
def expBounds (lo hi : Int) : Nat × Nat × Int :=
  let k : Int := lo / (ln2 : Int)
  let rl := if 0 ≤ k then lo - k * (ln2 + 1) else lo - k * ln2
  let rh := if 0 ≤ k then hi - k * ln2 else hi - k * (ln2 + 1)
  let r := expTerms 90 1 rl.toNat rh.toNat unit320 unit320 unit320 unit320
  (r.1, r.2, k - 320)

/-- Terms of the inverse hyperbolic tangent series: z^2 between zl and zh, the current power between pl and ph. -/
def atanhTerms : Nat → Nat → Nat → Nat → Nat → Nat → Nat → Nat → Nat × Nat
  | 0, _, _, _, _, ph, sl, sh => (sl, sh + 2 * ph + 2)
  | f + 1, i, zl, zh, pl, ph, sl, sh =>
    atanhTerms f (i + 2) zl zh (pl * zl / unit320) (ph * zh / unit320 + 1) (sl + pl / i) (sh + ph / i + 1)

/-- The logarithm of a positive m x 2^e: bounds in units. -/
def logBounds (m : Nat) (e : Int) : Int × Int :=
  let l := m.log2
  let ex : Int := e + l
  let num := (m - 2 ^ l) * unit320
  let den := m + 2 ^ l
  let zl := num / den
  let zh := zl + 1
  let r := atanhTerms 110 1 (zl * zl / unit320) (zh * zh / unit320 + 1) zl zh 0 0
  let cl : Int := if 0 ≤ ex then ex * ln2 else ex * (ln2 + 1)
  let ch : Int := if 0 ≤ ex then ex * (ln2 + 1) else ex * ln2
  (cl + 2 * r.1, ch + 2 * r.2)

/-- Terms of the error function's series of positive terms: the next is 2 x^2 / i times the last. -/
def erfTerms : Nat → Nat → Nat → Nat → Nat → Nat → Nat → Nat → Nat × Nat
  | 0, _, _, _, _, th, sl, sh => (sl, sh + 2 * th + 2)
  | f + 1, i, xl, xh, tl, th, sl, sh =>
    let tl := 2 * tl * xl / unit320 / i
    let th := (2 * th * xh / unit320 + 1) / i + 1
    erfTerms f (i + 2) xl xh tl th (sl + tl) (sh + th)

/-- An operand as bytes, for a free rounding. -/
def key (v : FVal) : Bytes :=
  match v with
  | .fin s m e => [if s then 1 else 0] ++ le 16 m ++ le 4 (unsgn 32 e)
  | .inf s => [if s then 3 else 2]
  | .nan => [4]

/-- What an enclosure gives, or the free rounding (log entry 20). -/
def orFree (op : Nat) (v : FVal) (r : Option FVal) : FVal := r.getD (Config.freeRounding op (key v))

/-- EXP. -/
def exp : FVal → FVal
  | .nan => .nan
  | .inf s => if s then zero else .inf false
  | .fin s m e =>
    if m = 0 then one
    else if ilog m e < -100 then (if s then below false 0 else above false 0)
    else if 11 ≤ ilog m e then .fin false 1 (if s then -3000 else 3000)
    else
      let x : Int := fixed m e
      let b := if s then expBounds (-x - 1) (-x) else expBounds x (x + 1)
      orFree 0x10 (.fin s m e) (between false b.1 b.2.1 b.2.2)

/-- LOG. -/
def log : FVal → FVal
  | .nan => .nan
  | .inf s => if s then .nan else .inf false
  | .fin s m e =>
    if m = 0 then .inf true else if s then .nan
    else if m = 2 ^ m.log2 && e + m.log2 = 0 then zero
    else
      let b := logBounds m e
      orFree 0x11 (.fin s m e) (if 0 < b.1 then between false b.1.toNat b.2.toNat (-320)
        else if b.2 < 0 then between true (-b.2).toNat (-b.1).toNat (-320) else none)

/-- e^(-a) for a positive a = m x 2^e below 2,048. -/
def expNeg (m : Nat) (e : Int) : Nat × Nat × Int := let x : Int := fixed m e; expBounds (-x - 1) (-x)

/-- Bounds in units of 2^-320 of bounds in units of 2^q, for q at most -320. -/
def toFixed (b : Nat × Nat × Int) : Nat × Nat :=
  let d := 2 ^ (-320 - b.2.2).toNat
  (b.1 / d, b.2.1 / d + 1)

/-- TANH. -/
def tanh : FVal → FVal
  | .nan => .nan
  | .inf s => .fin s 1 0
  | .fin s m e =>
    if m = 0 then .fin s 0 0
    else if ilog m e < -60 then .fin s (m * 2 ^ 90 - 1) (e - 90)
    else if 5 ≤ ilog m e then below s 0
    else
      let t := toFixed (expNeg m (e + 1))
      orFree 0x16 (.fin s m e) (between s ((unit320 - t.2) * unit320 / (unit320 + t.2)) ((unit320 - t.1) * unit320 / (unit320 + t.1) + 1) (-320))

/-- SIGMOID. -/
def sigmoid : FVal → FVal
  | .nan => .nan
  | .inf s => if s then zero else one
  | .fin s m e =>
    if m = 0 then .fin false 1 (-1)
    else if ilog m e < -100 then (if s then below false (-1) else above false (-1))
    else if !s && 6 ≤ ilog m e then below false 0
    else if 11 ≤ ilog m e then .fin false 1 (-3000)
    else
      let b := expNeg m e
      let t := toFixed b
      orFree 0x17 (.fin s m e)
        (if s then between false (b.1 * unit320 / (unit320 + t.2)) (b.2.1 * unit320 / (unit320 + t.1) + 1) b.2.2
         else between false (unit320 * unit320 / (unit320 + t.2)) (unit320 * unit320 / (unit320 + t.1) + 1) (-320))

/-- ERF. -/
def erf : FVal → FVal
  | .nan => .nan
  | .inf s => .fin s 1 0
  | .fin s m e =>
    if m = 0 then .fin s 0 0
    else if ilog m e < -60 then
      orFree 0x18 (.fin s m e) (between s (m * (twoRootPi - twoRootPi / 2 ^ 110)) (m * (twoRootPi + 1)) (e - 320))
    else if 3 ≤ ilog m e then below s 0
    else
      let x := fixed m e
      let xl := x * x / unit320
      let xh := (x + 1) * (x + 1) / unit320 + 1
      let sum := erfTerms 500 3 xl xh x (x + 1) x (x + 1)
      let t := toFixed (expBounds (-(xh : Int)) (-(xl : Int)))
      orFree 0x18 (.fin s m e) (between s (twoRootPi * t.1 / unit320 * sum.1 / unit320)
        ((((twoRootPi + 1) * t.2 / unit320 + 1) * sum.2) / unit320 + 1) (-320))

end FV
end Sys2Proof.Machine
end

