-- ==== Sys2Proof/Machine/Vector.lean ====
section
/-! DEFINITION. The vector engine: elementwise operations, row operations, column sums and folds
(05_vector_optimizer R138-R148, 06_programs R178 R198). -/

namespace Sys2Proof.Machine

/-! ## Fields (Table 06-9) -/

def vxPred (b : Bytes) : Nat := fld b 5 1 % 4
def vxFsat (b : Bytes) : Bool := bit (fld b 5 1) 2
def vxIovf (b : Bytes) : Bool := bit (fld b 5 1) 3
def vxImm (b : Bytes) : Nat := fld b 0x18 4
/-- EPS of the normalisations. -/
def vxEps (b : Bytes) : FVal := decodeElem fFP32 (vxImm b)

/-! ## Single and composite element operations (R139, Table 05-1): the exact result and its flags -/

/-- A step whose result is rounded to FP32: its flags OVF and INV (log entry 34). -/
def step32 (ops : List FVal) (v : FVal) : FVal × Nat :=
  (rne32 v, (if bit (narrow fFP32 false v).2 2 then fgOvf else 0) ||| invFlag ops v)

/-- A last step, rounded where it is written. -/
def lastStep (ops : List FVal) (v : FVal) : FVal × Nat := (v, nanFlag ops ||| invFlag ops v)

def addElem (a b : FVal) : FVal × Nat := lastStep [a, b] (FV.add a b)
def subElem (a b : FVal) : FVal × Nat := lastStep [a, b] (FV.add a (FV.neg b))
def mulElem (a b : FVal) : FVal × Nat := lastStep [a, b] (FV.mul a b)
def fmaElem (a b c : FVal) : FVal × Nat := lastStep [a, b, c] (FV.add (FV.mul a b) c)
def maxElem (a b : FVal) : FVal × Nat := (FV.max a b, nanFlag [a, b])
def minElem (a b : FVal) : FVal × Nat := (FV.min a b, nanFlag [a, b])
def absElem (a : FVal) : FVal × Nat := (FV.abs a, nanFlag [a])
def negElem (a : FVal) : FVal × Nat := (FV.neg a, nanFlag [a])
def cvtElem (a : FVal) : FVal × Nat := (a, nanFlag [a])
def scaleElem (n : Int) (a : FVal) : FVal × Nat := (FV.scale a n, nanFlag [a])
/-- SELECT: only the operand that it chooses counts as one whose NaN raises NAN_IN (log entry 153). -/
def selectElem (a b c : FVal) : FVal × Nat := if FV.isZero c then (b, nanFlag [b]) else (a, nanFlag [a])
/-- CMP: a NaN operand compares false. -/
def cmpElem (pred : Nat) (a b : FVal) : FVal × Nat :=
  let r := !FV.isNan a && !FV.isNan b &&
    (if pred = 0 then decide (FV.cmp a b < 0) else if pred = 1 then decide (FV.cmp a b = 0) else decide (FV.cmp a b ≤ 0))
  (if r then FV.one else FV.zero, nanFlag [a, b])
def expElem (a : FVal) : FVal × Nat := lastStep [a] (FV.exp a)
def logElem (a : FVal) : FVal × Nat := lastStep [a] (FV.log a)
def sqrtElem (a : FVal) : FVal × Nat := lastStep [a] (FV.sqrt a)
def rsqrtElem (a : FVal) : FVal × Nat := lastStep [a] (FV.rsqrt a)
def recipElem (a : FVal) : FVal × Nat := lastStep [a] (FV.div FV.one a)
def divElem (a b : FVal) : FVal × Nat := lastStep [a, b] (FV.div a b)
def tanhElem (a : FVal) : FVal × Nat := lastStep [a] (FV.tanh a)
def sigmoidElem (a : FVal) : FVal × Nat := lastStep [a] (FV.sigmoid a)
def erfElem (a : FVal) : FVal × Nat := lastStep [a] (FV.erf a)

/-- 2^(-1/2) as FP32 0x3F35_04F3. -/
def rootHalf : FVal := .fin false 0xB504F3 (-24)

def geluElem (a : FVal) : FVal × Nat :=
  let x := step32 [a] (FV.mul a rootHalf)
  let t := step32 [x.1] (FV.erf x.1)
  let u := step32 [t.1] (FV.add FV.one t.1)
  let h := step32 [u.1] (FV.scale u.1 (-1))
  let y := lastStep [a, h.1] (FV.mul a h.1)
  (y.1, x.2 ||| t.2 ||| u.2 ||| h.2 ||| y.2)

def siluElem (a : FVal) : FVal × Nat :=
  let g := step32 [a] (FV.sigmoid a)
  let y := lastStep [a, g.1] (FV.mul a g.1)
  (y.1, g.2 ||| y.2)

/-- The element operation of a code, on the operands a, b and c of a packet. -/
def elemOp (b : Bytes) (x y z : FVal) : FVal × Nat :=
  match vxOp b with
  | 0x01 => addElem x y
  | 0x02 => subElem x y
  | 0x03 => mulElem x y
  | 0x04 => fmaElem x y z
  | 0x05 => maxElem x y
  | 0x06 => minElem x y
  | 0x07 => absElem x
  | 0x08 => negElem x
  | 0x09 => cvtElem x
  | 0x0A => scaleElem (sgn 8 (vxImm b)) x
  | 0x0B => selectElem x y z
  | 0x0C => cmpElem (vxPred b) x y
  | 0x10 => expElem x
  | 0x11 => logElem x
  | 0x12 => sqrtElem x
  | 0x13 => rsqrtElem x
  | 0x14 => recipElem x
  | 0x15 => divElem x y
  | 0x16 => tanhElem x
  | 0x17 => sigmoidElem x
  | 0x18 => erfElem x
  | 0x20 => geluElem x
  | _ => siluElem x

/-! ## Row operations (R141-R144, Table 05-2) -/

/-- What a row gives: the values written, the terms of the column sums, and flags. -/
structure RowOut where
  out : List (FVal × Bool)
  terms : List (List (FVal × Bool))
  flags : Nat
  deriving DecidableEq, Repr

/-- A list of steps and the flags of them all. -/
def steps (l : List (FVal × Nat)) : List FVal × Nat := (l.map (·.1), l.foldl (fun g p => g ||| p.2) 0)

/-- A sum along a row (R141): groups of 32, one rounding each. -/
def rowSum (terms : List FVal) : FVal × Nat :=
  let r := (blocks32 terms).foldl (fun a g => let r := accStep a.1 (FV.sum g); (r.1, a.2 ||| r.2)) (FV.zero, 0)
  (r.1, r.2 ||| invFlag terms r.1)

/-- A sum of products along a row, under R91. -/
def rowDot (a b : List FVal) : FVal × Nat := rowSum (List.zipWith FV.dotMul a b)

/-- A mean: rne_fp32(sum / N). -/
def rowMean (sum : FVal × Nat) (n : Nat) : FVal × Nat :=
  let m := step32 [sum.1] (FV.div sum.1 (FV.ofInt n))
  (m.1, sum.2 ||| m.2)

def anyPoison (l : List (FVal × Bool)) : Bool := l.any (·.2)
def valsOf (l : List (FVal × Bool)) : List FVal := l.map (·.1)
/-- Values with one poison mark each. -/
def withPoison (p : List Bool) (l : List FVal) : List (FVal × Bool) := List.zipWith (fun v q => (v, q)) l p

/-- One scalar per row. -/
def scalarOut (p : Bool) (r : FVal × Nat) (ops : List FVal) : RowOut := { out := [(r.1, p)], terms := [], flags := r.2 ||| nanFlag ops }

def rsumRow (a : List (FVal × Bool)) : RowOut := scalarOut (anyPoison a) (rowSum (valsOf a)) (valsOf a)
def rsumsqRow (a : List (FVal × Bool)) : RowOut := scalarOut (anyPoison a) (rowDot (valsOf a) (valsOf a)) (valsOf a)
def rmaxRow (a : List (FVal × Bool)) : RowOut := scalarOut (anyPoison a) ((valsOf a).foldl FV.max .nan, 0) (valsOf a)
def rminRow (a : List (FVal × Bool)) : RowOut := scalarOut (anyPoison a) ((valsOf a).foldl FV.min .nan, 0) (valsOf a)
def ramaxRow (a : List (FVal × Bool)) : RowOut := scalarOut (anyPoison a) (((valsOf a).map FV.abs).foldl FV.max .nan, 0) (valsOf a)
def rdotRow (a b : List (FVal × Bool)) : RowOut :=
  scalarOut (anyPoison a || anyPoison b) (rowDot (valsOf a) (valsOf b)) (valsOf a ++ valsOf b)

/-- SOFTMAX (R144): a row whose every element is minus infinity writes +0 and raises no flag. -/
def softmaxRow (a : List (FVal × Bool)) : RowOut :=
  let x := valsOf a
  let p := a.map fun _ => anyPoison a
  let m := x.foldl FV.max .nan
  if x.all fun v => v = .inf true then { out := withPoison p (x.map fun _ => FV.zero), terms := [], flags := 0 }
  else
    let d := steps (x.map fun v => step32 [v, m] (FV.add v (FV.neg m)))
    let e := steps (d.1.map fun v => step32 [v] (FV.exp v))
    let s := rowSum e.1
    let y := steps (e.1.map fun v => lastStep [v, s.1] (FV.div v s.1))
    { out := withPoison p y.1, terms := [], flags := d.2 ||| e.2 ||| s.2 ||| (y.2 &&& (63 - fgNanIn)) ||| nanFlag x }

def softmaxBwdRow (a b : List (FVal × Bool)) : RowOut :=
  let y := valsOf a
  let dy := valsOf b
  let d := rowDot y dy
  let u := steps (dy.map fun v => step32 [v, d.1] (FV.add v (FV.neg d.1)))
  let r := steps (List.zipWith (fun v w => lastStep [v, w] (FV.mul v w)) y u.1)
  { out := withPoison (a.map fun _ => anyPoison a || anyPoison b) r.1, terms := [],
    flags := d.2 ||| u.2 ||| (r.2 &&& (63 - fgNanIn)) ||| nanFlag (y ++ dy) }

/-- The statistics of LNORM: d_i, r and the flags. -/
def lnormStats (eps : FVal) (x : List FVal) : List FVal × FVal × Nat :=
  let mu := rowMean (rowSum x) x.length
  let d := steps (x.map fun v => step32 [v, mu.1] (FV.add v (FV.neg mu.1)))
  let var := rowMean (rowDot d.1 d.1) x.length
  let w := step32 [var.1, eps] (FV.add var.1 eps)
  let r := step32 [w.1] (FV.rsqrt w.1)
  (d.1, r.1, mu.2 ||| d.2 ||| var.2 ||| w.2 ||| r.2)

/-- The statistics of RMSNORM: r and the flags. -/
def rmsStats (eps : FVal) (x : List FVal) : FVal × Nat :=
  let q := rowMean (rowDot x x) x.length
  let w := step32 [q.1, eps] (FV.add q.1 eps)
  let r := step32 [w.1] (FV.rsqrt w.1)
  (r.1, q.2 ||| w.2 ||| r.2)

/-- Products of two lists, each rounded to FP32. -/
def mul32 (a b : List FVal) : List FVal × Nat := steps (List.zipWith (fun v w => step32 [v, w] (FV.mul v w)) a b)
/-- Differences of a list and a scalar, or of two lists, each rounded to FP32. -/
def subS32 (a : List FVal) (v : FVal) : List FVal × Nat := steps (a.map fun x => step32 [x, v] (FV.add x (FV.neg v)))
def sub32 (a b : List FVal) : List FVal × Nat := steps (List.zipWith (fun v w => step32 [v, w] (FV.add v (FV.neg w))) a b)

def lnormRow (eps : FVal) (a g be : List (FVal × Bool)) : RowOut :=
  let st := lnormStats eps (valsOf a)
  let xh := steps (st.1.map fun v => step32 [v, st.2.1] (FV.mul v st.2.1))
  let yg := mul32 xh.1 (valsOf g)
  let y := steps (List.zipWith (fun v w => lastStep [v, w] (FV.add v w)) yg.1 (valsOf be))
  { out := withPoison (List.zipWith (fun p q => anyPoison a || p.2 || q.2) g be) y.1, terms := [],
    flags := st.2.2 ||| xh.2 ||| yg.2 ||| (y.2 &&& (63 - fgNanIn)) ||| nanFlag (valsOf a ++ valsOf g ++ valsOf be) }

def rmsnormRow (eps : FVal) (a g : List (FVal × Bool)) : RowOut :=
  let st := rmsStats eps (valsOf a)
  let xh := steps ((valsOf a).map fun v => step32 [v, st.1] (FV.mul v st.1))
  let y := steps (List.zipWith (fun v w => lastStep [v, w] (FV.mul v w)) xh.1 (valsOf g))
  { out := withPoison (g.map fun p => anyPoison a || p.2) y.1, terms := [],
    flags := st.2 ||| xh.2 ||| (y.2 &&& (63 - fgNanIn)) ||| nanFlag (valsOf a ++ valsOf g) }

/-- The terms of dγ: Σ dy·x̂ under R91, poisoned with the whole row of x. -/
def gammaTerms (xPoison : Bool) (dy : List (FVal × Bool)) (xh : List FVal) : List (FVal × Bool) :=
  List.zipWith (fun v w => (FV.dotMul v.1 w, v.2 || xPoison)) dy xh

def lnormBwdRow (eps : FVal) (a g dy : List (FVal × Bool)) : RowOut :=
  let st := lnormStats eps (valsOf a)
  let r := st.2.1
  let xh := steps (st.1.map fun v => step32 [v, r] (FV.mul v r))
  let gi := mul32 (valsOf dy) (valsOf g)
  let ma := rowMean (rowSum gi.1) a.length
  let mb := rowMean (rowDot gi.1 xh.1) a.length
  let u := subS32 gi.1 ma.1
  let v := steps (xh.1.map fun x => step32 [x, mb.1] (FV.mul x mb.1))
  let w := sub32 u.1 v.1
  let y := steps (w.1.map fun x => lastStep [r, x] (FV.mul r x))
  let p := anyPoison a || anyPoison g || anyPoison dy
  { out := withPoison (a.map fun _ => p) y.1, terms := [gammaTerms (anyPoison a) dy xh.1, dy],
    flags := st.2.2 ||| xh.2 ||| gi.2 ||| ma.2 ||| mb.2 ||| u.2 ||| v.2 ||| w.2 ||| (y.2 &&& (63 - fgNanIn)) |||
      nanFlag (valsOf a ++ valsOf g ++ valsOf dy) }

/-- RMSNORM_BWD; its column sums take x̂_i = rne(x_i × r) (log entry 43). -/
def rmsnormBwdRow (eps : FVal) (a g dy : List (FVal × Bool)) : RowOut :=
  let x := valsOf a
  let st := rmsStats eps x
  let r := st.1
  let gi := mul32 (valsOf dy) (valsOf g)
  let mb := rowMean (rowDot gi.1 x) a.length
  let rr := step32 [r] (FV.mul r r)
  let c := step32 [mb.1, rr.1] (FV.mul mb.1 rr.1)
  let v := steps (x.map fun y => step32 [y, c.1] (FV.mul y c.1))
  let w := sub32 gi.1 v.1
  let y := steps (w.1.map fun z => lastStep [r, z] (FV.mul r z))
  let xh := steps (x.map fun z => step32 [z, r] (FV.mul z r))
  let p := anyPoison a || anyPoison g || anyPoison dy
  { out := withPoison (a.map fun _ => p) y.1, terms := [gammaTerms (anyPoison a) dy xh.1],
    flags := st.2 ||| gi.2 ||| mb.2 ||| rr.2 ||| c.2 ||| v.2 ||| w.2 ||| (y.2 &&& (63 - fgNanIn)) ||| xh.2 |||
      nanFlag (x ++ valsOf g ++ valsOf dy) }

/-- CSUM: the row's elements are the terms. -/
def csumRow (a : List (FVal × Bool)) : RowOut := { out := [], terms := [a], flags := nanFlag (valsOf a) }

/-- The row operation of a code on the rows of its operands. -/
def rowOp (pk : Bytes) (a b c : List (FVal × Bool)) : RowOut :=
  match vxOp pk with
  | 0x30 => rsumRow a
  | 0x31 => rsumsqRow a
  | 0x32 => rmaxRow a
  | 0x33 => rminRow a
  | 0x34 => ramaxRow a
  | 0x35 => rdotRow a b
  | 0x38 => softmaxRow a
  | 0x39 => softmaxBwdRow a b
  | 0x3A => lnormRow (vxEps pk) a b c
  | 0x3B => rmsnormRow (vxEps pk) a b
  | 0x3C => lnormBwdRow (vxEps pk) a b c
  | 0x3D => rmsnormBwdRow (vxEps pk) a b c
  | _ => csumRow a

/-! ## Shapes (R178, Table 06-10) -/

/-- An elementwise operation. -/
def vxElementwise (op : Nat) : Bool := decide (op ≤ 0x21)
/-- B is one row: γ. -/
def vxRowB (op : Nat) : Bool := decide (0x3A ≤ op) && decide (op ≤ 0x3D)
/-- C is one row: β. -/
def vxRowC (op : Nat) : Bool := op = 0x3A
/-- Rows of column sums in DST2 and ACC_IN. -/
def vxSums (op : Nat) : Nat := if op = 0x3C then 2 else if op = 0x3D || op = 0x3E then 1 else 0
/-- DST holds one scalar per row. -/
def vxScalar (op : Nat) : Bool := decide (0x30 ≤ op) && decide (op ≤ 0x35)
/-- Results that are integers where every operand is (log entry 45). -/
def vxIntOp (op : Nat) : Bool := decide (op ≤ 0x0C) || (decide (0x32 ≤ op) && decide (op ≤ 0x34))

/-- The operands of a packet: A, B, C, DST, DST2, ACC_IN and, for RFOLD, the further buffers. -/
def State.vxOpnds (s : State) (x : Sched) (b : Bytes) (idx : List Nat) : List (Option Opnd) :=
  ([0x06, 0x09, 0x0C, 0x0F, 0x12, 0x15].map fun off => s.opnd x b off idx) ++
    (if vxOp b = 0x40 then
      match descAt b 0x06 with
      | some d => (List.range (vxU b - 1)).map fun u => some (s.opndOf x (d.1 + u + 1) d.2 idx)
      | none => []
     else [])

/-- Operand k of a command with the exponent it latched. -/
def State.vxOpnd (s : State) (x : Sched) (t : Entry) (k : Nat) : Option Opnd :=
  ((s.vxOpnds x t.packet t.idx).getD k none).map fun o => o.latched t.scales k

/-- Rows and columns that a command touches of operand k. -/
def vxShape (op rows cols k : Nat) : Nat × Nat :=
  match k with
  | 1 => (if vxRowB op then 1 else rows, cols)
  | 2 => (if vxRowC op then 1 else rows, cols)
  | 3 => (rows, if vxScalar op then 1 else cols)
  | 4 => (vxSums op, cols)
  | 5 => (vxSums op, cols)
  | _ => (rows, cols)

/-! ## Units -/

/-- Reads row r of operand k; an absent operand gives an empty row. -/
def State.vxRead (s : State) (e : EngId) (x : Sched) (t : Entry) (k r n : Nat) : RowVals × State :=
  match s.vxOpnd x t k with
  | some o => s.readRow (some (s.engQuire e)) o r n
  | none => ({ vals := [], flags := 0 }, s)

/-- Closes a group of 32 rows: one rounding of each column accumulator (R147). -/
def closeGroup (acc part : List FVal) : List FVal × Nat :=
  let r := List.zipWith accStep acc (part.map fun v => FV.sum [v])
  (r.map (·.1), r.foldl (fun g p => g ||| p.2) 0)

/-- Column sums after a row: its terms enter the exact sums of their group, and the group closes with its last row. -/
def Entry.addTerms (t : Entry) (terms : List (FVal × Bool)) (r rows : Nat) : Entry × Nat :=
  let part := List.zipWith (fun v w => FV.add v w.1) t.colPart terms
  let inv := (List.zipWith (fun v w => invFlag [v, w.1] (FV.add v w.1)) t.colPart terms).foldl (fun g f => g ||| f) 0
  let poison := List.zipWith (fun v w => v || w.2) t.colPoison terms
  if r % 32 = 31 || r + 1 = rows then
    let c := closeGroup t.colAcc part
    ({ t with colAcc := c.1, colPart := part.map fun _ => FV.zero, colPoison := poison }, inv ||| c.2)
  else ({ t with colPart := part, colPoison := poison }, inv)

/-- Writes the column sums: DST2 row i holds the i-th sums (Table 06-10). -/
def State.writeSums (s : State) (x : Sched) (t : Entry) (cols : Nat) : Nat × State :=
  match s.vxOpnd x t 4 with
  | none => (0, s)
  | some d => (List.range (vxSums (vxOp t.packet))).foldl (fun a i =>
      let w := a.2.writeRow x d i 0 { fsat := false, iovf := false, shift := 0, intSrc := false, exact := true }
        (((t.colAcc.drop (i * cols)).take cols).zip ((t.colPoison.drop (i * cols)).take cols))
      (a.1 ||| w.1, w.2)) (0, s)

/-- RFOLD (R148): a left fold in ascending use index, rounded to FP32 at each addition. -/
def foldElem (vs : List FVal) : FVal × Nat :=
  match vs with
  | [] => (FV.zero, 0)
  | v :: rest => rest.foldl (fun a w => let r := step32 [a.1, w] (FV.add a.1 w); (r.1, a.2 ||| r.2)) (v, nanFlag vs)

/-- The elements of several rows, position by position. -/
def transposeRows (n : Nat) (rows : List (List (FVal × Bool))) : List (List (FVal × Bool)) :=
  (List.range n).map fun i => rows.map fun r => r.getD i (FV.zero, false)

/-- One row of a VXE command. DST2 is written only when the command has done all its rows (07_movement Table 07-5). -/
def State.vecUnit (s : State) (e : EngId) (x : Sched) (t : Entry) : State :=
  let pk := t.packet
  let op := vxOp pk
  match s.vxOpnd x t 0 with
  | none => s
  | some o =>
    let n := o.lay.cols
    let r := t.units
    let ints := op = 0x0C || (vxIntOp op && (List.range 3).all fun k => ((s.vxOpnd x t k).map fun v => isInt v.fmt).getD true)
    let shift := if op = 0x09 && o.fmt = fINT32 then vxImm pk % 32 else 0
    let exact := op = 0x09 && (match s.vxOpnd x t 3 with | some d => widens o.fmt d.fmt && o.exp = 0 && d.exp = 0 | none => false)
    let nw : Narrowing := ⟨vxFsat pk, vxIovf pk, shift, ints, exact⟩
    let (a, s) := s.vxRead e x t 0 r n
    let (b, s) := s.vxRead e x t 1 (if vxRowB op then 0 else r) n
    let (c, s) := s.vxRead e x t 2 (if vxRowC op then 0 else r) n
    let fin := fun (s : State) (fl : Nat) (bad : Bool) =>
      (s.updEntry e t.pos fun u => { u with watermark := r + 1, aflags := u.aflags ||| BitVec.ofNat 8 fl, poison := u.poison || bad }).unitDone e t
    let write := fun (s : State) (vs : List (FVal × Bool)) =>
      match s.vxOpnd x t 3 with
      | some d => s.writeRow x d r 0 nw vs
      | none => (0, s)
    let rf := a.flags ||| b.flags ||| c.flags
    if op = 0x40 then
      let (rows, fl, s) := (List.range (vxU pk - 1)).foldl (fun (y : List (List (FVal × Bool)) × Nat × State) u =>
        let z := y.2.2.vxRead e x t (6 + u) r n
        (y.1 ++ [z.1.vals], y.2.1 ||| z.1.flags, z.2)) ([a.vals], rf, s)
      let out := (transposeRows n rows).map fun l => let f := foldElem (valsOf l); ((f.1, anyPoison l), f.2)
      let (fg, s) := write s (out.map (·.1))
      fin s (fl ||| fg ||| out.foldl (fun g v => g ||| v.2) 0) (out.any fun v => v.1.2)
    else if vxElementwise op then
      let out := (List.range n).map fun i =>
        let p := a.vals.getD i (FV.zero, false)
        let q := b.vals.getD i (FV.zero, false)
        let z := c.vals.getD i (FV.zero, false)
        let f := elemOp pk p.1 q.1 z.1
        ((f.1, p.2 || q.2 || z.2), f.2)
      let (fg, s) := write s (out.map (·.1))
      fin s (rf ||| fg ||| out.foldl (fun g v => g ||| v.2) 0) (out.any fun v => v.1.2)
    else
      let y := rowOp pk a.vals b.vals c.vals
      let (fg, s) := if y.out = [] then (0, s) else write s y.out
      if vxSums op = 0 then fin s (rf ||| fg ||| y.flags) (anyPoison y.out)
      else
        let (t', cf) := t.addTerms y.terms.flatten r t.total
        let s := s.updEntry e t.pos fun u => { u with colAcc := t'.colAcc, colPart := t'.colPart, colPoison := t'.colPoison }
        fin s (rf ||| fg ||| y.flags ||| cf) (anyPoison y.out)

/-- The completion of a command with column sums: DST2 receives them (R143 R147). -/
def State.vecClose (s : State) (e : EngId) (x : Sched) (t : Entry) : State :=
  if vxSums (vxOp t.packet) = 0 then s
  else match s.vxOpnd x t 0 with
  | none => s
  | some o =>
    let (fl, s) := s.writeSums x t o.lay.cols
    s.updEntry e t.pos fun u => { u with aflags := u.aflags ||| BitVec.ofNat 8 fl, poison := u.poison || t.colPoison.any id }

/-! ## Beginning -/

/-- The slots that a code uses (Table 06-10): A, B, C, DST, DST2. -/
def vxUses (op k : Nat) : Bool :=
  match k with
  | 0 => true
  | 1 => decide (1 ≤ op ∧ op ≤ 6) || op = 0x0B || op = 0x0C || op = 0x15 || op = 0x35 || op = 0x39 || decide (0x3A ≤ op ∧ op ≤ 0x3D)
  | 2 => op = 0x04 || op = 0x0B || op = 0x3A || op = 0x3C || op = 0x3D
  | 3 => op ≠ 0x3E
  | 4 => vxSums op ≠ 0
  | _ => false

/-- The first address of a command's operands outside the map. -/
def State.vxBad (s : State) (b : Bytes) (os : List (Option Opnd)) (rows cols : Nat) : Option Nat :=
  (List.range os.length).findSome? fun k =>
    let sh := vxShape (vxOp b) rows cols k
    (os.getD k none).bind fun o => s.badOpnd o sh.1 sh.2

/-- The accumulators that a command starts from: ACC_IN, or +0 (R147). -/
def State.accIn (s : State) (e : EngId) (x : Sched) (t : Entry) (cols : Nat) : List (FVal × Bool) × Nat × State :=
  (List.range (vxSums (vxOp t.packet))).foldl (fun (a : List (FVal × Bool) × Nat × State) i =>
    let r := a.2.2.vxRead e x t 5 i cols
    (a.1 ++ (if r.1.vals = [] then List.replicate cols (FV.zero, false) else r.1.vals), a.2.1 ||| r.1.flags, r.2)) ([], 0, s)

/-- Begins a VXE command (R145 R178 R198, Table 06-14): zero rows or columns end it at once with OK_EMPTY, but column sums with no rows and
ACC_IN copy it to DST2. -/
def State.vecOp (s : State) (e : EngId) (op units : Nat) (ev : List MemEvent) : Res :=
  match s.nextPacket e 0x40 with
  | none => ok s
  | some (_, _, b) =>
    if vxOp b ≠ op then ok s
    else s.packet e 0x40 ev fun s g x b =>
      let t := s.entry e b 0
      let os := s.vxOpnds x b t.idx
      match os.getD 0 none with
      | none => ok (s.refuseCmd e x g b 0 stState)
      | some o =>
        if (List.range 5).any fun k => vxUses op k && (os.getD k none).isNone then ok (s.refuseCmd e x g b 0 stState)
        else match s.vxBad b os o.lay.rows o.lay.cols with
        | some a => .fault (.addressUnmapped a)
        | none =>
          let (i, og, s) := s.chainBegin e x g b (if o.lay.cols = 0 then 0 else o.lay.rows)
          let t := { t with total := if o.lay.cols = 0 then 0 else o.lay.rows, scales := os.map fun v => (v.map (·.exp)).getD 0, chIn := i, chOut := og }
          let (acc, fl, s) := s.accIn e x t o.lay.cols
          let t := { t with colAcc := valsOf acc, colPoison := acc.map (·.2), colPart := acc.map fun _ => FV.zero, aflags := BitVec.ofNat 8 fl }
          let s := s.begin_ e t (s.engines[e].pc + 1)
          let s := s.checkPair e t
          if t.total = 0 then
            if vxSums op ≠ 0 && decide (0 < o.lay.cols) && (os.getD 5 none).isSome then
              ok ((s.vecClose e x t).endEntry e t.pos (if t.colPoison.any id then stPoisoned else stOk))
            else ok (s.endEntry e t.pos stEmpty)
          else ok (s.runUnits State.vecUnit units e t.pos)

/-! ## The commands -/

def execAdd (e : EngId) (units : Nat) (s : State) (ev : List MemEvent := []) : Res := s.vecOp e 0x01 units ev
def execSub (e : EngId) (units : Nat) (s : State) (ev : List MemEvent := []) : Res := s.vecOp e 0x02 units ev
def execMul (e : EngId) (units : Nat) (s : State) (ev : List MemEvent := []) : Res := s.vecOp e 0x03 units ev
def execFma (e : EngId) (units : Nat) (s : State) (ev : List MemEvent := []) : Res := s.vecOp e 0x04 units ev
def execMax (e : EngId) (units : Nat) (s : State) (ev : List MemEvent := []) : Res := s.vecOp e 0x05 units ev
def execMin (e : EngId) (units : Nat) (s : State) (ev : List MemEvent := []) : Res := s.vecOp e 0x06 units ev
def execAbs (e : EngId) (units : Nat) (s : State) (ev : List MemEvent := []) : Res := s.vecOp e 0x07 units ev
def execNeg (e : EngId) (units : Nat) (s : State) (ev : List MemEvent := []) : Res := s.vecOp e 0x08 units ev
def execCvt (e : EngId) (units : Nat) (s : State) (ev : List MemEvent := []) : Res := s.vecOp e 0x09 units ev
def execScale (e : EngId) (units : Nat) (s : State) (ev : List MemEvent := []) : Res := s.vecOp e 0x0A units ev
def execSelect (e : EngId) (units : Nat) (s : State) (ev : List MemEvent := []) : Res := s.vecOp e 0x0B units ev
def execCmp (e : EngId) (units : Nat) (s : State) (ev : List MemEvent := []) : Res := s.vecOp e 0x0C units ev
def execExp (e : EngId) (units : Nat) (s : State) (ev : List MemEvent := []) : Res := s.vecOp e 0x10 units ev
def execLog (e : EngId) (units : Nat) (s : State) (ev : List MemEvent := []) : Res := s.vecOp e 0x11 units ev
def execSqrt (e : EngId) (units : Nat) (s : State) (ev : List MemEvent := []) : Res := s.vecOp e 0x12 units ev
def execRsqrt (e : EngId) (units : Nat) (s : State) (ev : List MemEvent := []) : Res := s.vecOp e 0x13 units ev
def execRecip (e : EngId) (units : Nat) (s : State) (ev : List MemEvent := []) : Res := s.vecOp e 0x14 units ev
def execDiv (e : EngId) (units : Nat) (s : State) (ev : List MemEvent := []) : Res := s.vecOp e 0x15 units ev
def execTanh (e : EngId) (units : Nat) (s : State) (ev : List MemEvent := []) : Res := s.vecOp e 0x16 units ev
def execSigmoid (e : EngId) (units : Nat) (s : State) (ev : List MemEvent := []) : Res := s.vecOp e 0x17 units ev
def execErf (e : EngId) (units : Nat) (s : State) (ev : List MemEvent := []) : Res := s.vecOp e 0x18 units ev
def execGelu (e : EngId) (units : Nat) (s : State) (ev : List MemEvent := []) : Res := s.vecOp e 0x20 units ev
def execSilu (e : EngId) (units : Nat) (s : State) (ev : List MemEvent := []) : Res := s.vecOp e 0x21 units ev
def execRsum (e : EngId) (units : Nat) (s : State) (ev : List MemEvent := []) : Res := s.vecOp e 0x30 units ev
def execRsumsq (e : EngId) (units : Nat) (s : State) (ev : List MemEvent := []) : Res := s.vecOp e 0x31 units ev
def execRmax (e : EngId) (units : Nat) (s : State) (ev : List MemEvent := []) : Res := s.vecOp e 0x32 units ev
def execRmin (e : EngId) (units : Nat) (s : State) (ev : List MemEvent := []) : Res := s.vecOp e 0x33 units ev
def execRamax (e : EngId) (units : Nat) (s : State) (ev : List MemEvent := []) : Res := s.vecOp e 0x34 units ev
def execRdot (e : EngId) (units : Nat) (s : State) (ev : List MemEvent := []) : Res := s.vecOp e 0x35 units ev
def execSoftmax (e : EngId) (units : Nat) (s : State) (ev : List MemEvent := []) : Res := s.vecOp e 0x38 units ev
def execSoftmaxBwd (e : EngId) (units : Nat) (s : State) (ev : List MemEvent := []) : Res := s.vecOp e 0x39 units ev
def execLnorm (e : EngId) (units : Nat) (s : State) (ev : List MemEvent := []) : Res := s.vecOp e 0x3A units ev
def execRmsnorm (e : EngId) (units : Nat) (s : State) (ev : List MemEvent := []) : Res := s.vecOp e 0x3B units ev
def execLnormBwd (e : EngId) (units : Nat) (s : State) (ev : List MemEvent := []) : Res := s.vecOp e 0x3C units ev
def execRmsnormBwd (e : EngId) (units : Nat) (s : State) (ev : List MemEvent := []) : Res := s.vecOp e 0x3D units ev
def execCsum (e : EngId) (units : Nat) (s : State) (ev : List MemEvent := []) : Res := s.vecOp e 0x3E units ev
def execRfold (e : EngId) (units : Nat) (s : State) (ev : List MemEvent := []) : Res := s.vecOp e 0x40 units ev

end Sys2Proof.Machine
end

