-- ==== Sys2Proof/Machine/Optimizer.lean ====
section
/-! DEFINITION. The optimizer engine: the scan of the gradient, the group vote, the update of a share and the digests of the halves
(05_vector_optimizer R149-R161 R535-R537, 10_numerics R296 R302, 01_step R32). -/

namespace Sys2Proof.Machine

/-! ## Descriptors and halves (R150 R535 R537) -/

/-- Makes a half the last collated one of a descriptor. -/
def State.setHalf (s : State) (u : UpdateE) (b : Bool) : State :=
  { s with ledger.recs := s.ledger.recs.map fun r => if r.masterA = u.masterA then { r with halfB := b } else r }

/-- The hyperparameter record of a step (R535). -/
def UpdateE.record (u : UpdateE) (t : Nat) : Nat :=
  if t < u.hyperCount then t else if u.hcycle then t % u.hyperCount else u.hyperCount - 1

/-- The nine values of a record. -/
structure Hyper where
  lr : FVal
  wd : FVal
  beta1 : FVal
  b1c : FVal
  beta2 : FVal
  b2c : FVal
  k1 : FVal
  k2 : FVal
  eps : FVal
  deriving DecidableEq, Repr

def State.hyper (s : State) (u : UpdateE) (t : Nat) : Hyper :=
  let a := u.hyper + 64 * u.record t
  let v := fun i => decodeElem fFP32 (s.memNat (a + 4 * i) 4)
  { lr := v 0, wd := v 1, beta1 := v 2, b1c := v 3, beta2 := v 4, b2c := v 5, k1 := v 6, k2 := v 7, eps := v 8 }

/-! ## Digests (R158 R159, 13_collation R384) -/

/-- The digest of a half: poisoned where any sheet of its regions is. -/
def State.digestOf (s : State) (u : UpdateE) (b : Bool) : Dig :=
  { val := ghash ((u.regions b).flatMap fun r => s.memRead r.1 r.2), poison := (u.regions b).any fun r => s.rangePoisoned r.1 r.2 }

def noDig : Nat → Dig := fun _ => { val := 0, poison := false }

/-- The bytes of a digest as text order gives them: the block's first byte first. -/
def digBytes (d : Dig) : Bytes := be 16 d.val.toNat

/-- The recto or verso digest of a device (13_collation R384). -/
def combineDigs (ds : List Dig) : Dig :=
  match ds with
  | [d] => d
  | ds => { val := ghash (ds.flatMap digBytes), poison := ds.any Dig.poison }

/-- The digest over a schedule's recto, or verso, descriptors from those formed in the step. -/
def Sched.deviceDigest (x : Sched) (verso : Bool) : Dig := combineDigs ((descsOf x.image verso).map (AMap.get noDig x.coll.digests))

/-! ## The scan (R151 R152, 10_numerics R302) -/

/-- Elements first to first + n - 1 of an FP32 or BF16 region, with their poison. -/
def State.elems (s : State) (f a first n : Nat) : List (FVal × Bool) :=
  let w := elemBits f / 8
  (List.range n).map fun i =>
    let p := a + w * (first + i)
    (decodeElem f (s.memNat p w), s.poisoned (p / 1024) || s.poisoned ((p + w - 1) / 1024))

/-- The scaled gradient: rounded where it leaves the FP32 range. -/
def State.gradient (s : State) (u : UpdateE) (first n : Nat) : List (FVal × Bool) :=
  (s.elems u.gfmt u.grad first n).map fun v => (rne32 (FV.scale v.1 u.gscale), v.2)

/-- The flags of a scaled gradient: those of its roundings, and NAN_IN (03_formats R104). -/
def State.gradFlags (s : State) (u : UpdateE) (first n : Nat) : Nat :=
  (s.elems u.gfmt u.grad first n).foldl (fun g v => g ||| (step32 [v.1] (FV.scale v.1 u.gscale)).2 ||| nanFlag [v.1]) 0

def nonFinite (v : FVal) : Bool := FV.isNan v || FV.isInf v

/-- Z and U of a monitor range over elements from `first` on; a poisoned element contributes nothing. -/
def monCount (m : MonE) (first : Nat) (g : List (FVal × Bool)) : Nat × Nat :=
  (g.mapIdx fun i v =>
    if m.first ≤ first + i && first + i < m.first + m.count && !v.2 then
      (if FV.isZero v.1 then (1, 0) else if FV.cmp (FV.abs v.1) (.fin false 1 m.floorExp) < 0 && !FV.isNan v.1 then (0, 1) else (0, 0))
    else (0, 0)).foldl (fun (a b : Nat × Nat) => (a.1 + b.1, a.2 + b.2)) (0, 0)

def noCounts : Nat → Nat × Nat := fun _ => (0, 0)

/-- Adds the monitor counts of a scanned share. -/
def Sched.countMons (x : Sched) (d first : Nat) (g : List (FVal × Bool)) : Sched :=
  match x.image.num with
  | none => x
  | some n =>
    { x with monCounts := (n.mons.mapIdx fun i m => (i, m)).foldl (fun c im =>
        if im.2.desc = d then
          let k := monCount im.2 first g
          let o := AMap.get noCounts c im.1
          AMap.set noCounts c im.1 (o.1 + k.1, o.2 + k.2)
        else c) x.monCounts }

/-! ## The vote (R151-R153 R536) -/

/-- The outcome of a group vote on one ordinal: the bits ORed, the partials folded in ascending logical device coordinate (R101). -/
def foldVotes (es : List VoteEntry) : VoteEntry :=
  let byDev := (List.range ((es.map VoteEntry.dev).foldl Nat.max 0 + 1)).flatMap fun d => es.filter fun v => v.dev = d
  let n2 := match byDev with
    | [] => FV.zero
    | v :: vs => vs.foldl (fun r w => rne32 (FV.add r (decodeElem fFP32 w.n2.toNat))) (decodeElem fFP32 v.n2.toNat)
  { dev := 0, ordinal := (byDev.head?.map VoteEntry.ordinal).getD 0, nonfinite := es.any VoteEntry.nonfinite, poison := es.any VoteEntry.poison,
    n2 := BitVec.ofNat 32 (encodeElem fFP32 n2) }

/-- Clipping makes an infinite or NaN norm non-finite (R152). -/
def UpdateE.judge (u : UpdateE) (v : VoteEntry) : VoteEntry :=
  { v with nonfinite := v.nonfinite || (u.clipOn && nonFinite (decodeElem fFP32 v.n2.toNat)) }

/-- The factor of R154, where the norm exceeds CLIP. -/
def UpdateE.clipBy (u : UpdateE) (v : VoteEntry) : Option FVal :=
  let nrm := rne32 (FV.sqrt (decodeElem fFP32 v.n2.toNat))
  let c := decodeElem fFP32 u.clip.toNat
  if u.clipOn && decide (FV.cmp nrm c > 0) then some (rne32 (FV.div c nrm)) else none

/-! ## The update kinds (R155) -/

/-- A result in FP32 with its flags. -/
def to32 (ops : List FVal) (v : FVal) : FVal × Nat := (rne32 v, (narrow fFP32 false v).2 ||| nanFlag ops ||| invFlag ops v)

def fma (a b c : FVal) : FVal := FV.add (FV.mul a b) c

/-- w1 = fma(-lr, fma(wd, w, u), w). -/
def decayed (h : Hyper) (w u : FVal) : FVal × Nat :=
  let a := step32 [h.wd, w, u] (fma h.wd w u)
  let b := to32 [h.lr, a.1, w] (fma (FV.neg h.lr) a.1 w)
  (b.1, a.2 ||| b.2)

/-- New weight, first and second moment, and the flags. -/
structure NewElem where
  w : FVal
  m : FVal
  v : FVal
  flags : Nat
  deriving DecidableEq, Repr

def sgdM (h : Hyper) (w m g : FVal) : NewElem :=
  let m1 := to32 [h.beta1, m, g] (fma h.beta1 m g)
  let w1 := decayed h w m1.1
  { w := w1.1, m := m1.1, v := FV.zero, flags := m1.2 ||| w1.2 }

/-- The square root of the second moment enters the sum with EPS exactly, and the sum is rounded once. -/
def adamw (h : Hyper) (w m v g : FVal) : NewElem :=
  let a := step32 [h.b1c, g] (FV.mul h.b1c g)
  let m1 := to32 [h.beta1, m, a.1] (fma h.beta1 m a.1)
  let gg := step32 [g] (FV.mul g g)
  let b := step32 [h.b2c, gg.1] (FV.mul h.b2c gg.1)
  let v1 := to32 [h.beta2, v, b.1] (fma h.beta2 v b.1)
  let n := step32 [m1.1, h.k1] (FV.mul m1.1 h.k1)
  let k := step32 [v1.1, h.k2] (FV.mul v1.1 h.k2)
  let d := step32 [k.1, h.eps] (FV.add (FV.sqrtTo 704 k.1) h.eps)
  let u := step32 [n.1, d.1] (FV.div n.1 d.1)
  let w1 := decayed h w u.1
  { w := w1.1, m := m1.1, v := v1.1, flags := a.2 ||| m1.2 ||| gg.2 ||| b.2 ||| v1.2 ||| n.2 ||| k.2 ||| d.2 ||| u.2 ||| w1.2 }

/-- sign(c): the spec states none for a NaN, and that value is free (log entry 56). -/
def signOf (c : FVal) : FVal :=
  match c with
  | .nan => rne32 (Config.freeRounding 0x100 (FV.key c))
  | v => if FV.isZero v then FV.zero else if FV.sign v then .fin true 1 0 else .fin false 1 0

def lion (h : Hyper) (w m g : FVal) : NewElem :=
  let a := step32 [h.b1c, g] (FV.mul h.b1c g)
  let c := step32 [h.beta1, m, a.1] (fma h.beta1 m a.1)
  let w1 := decayed h w (signOf c.1)
  let b := step32 [h.b2c, g] (FV.mul h.b2c g)
  let m1 := to32 [h.beta2, m, b.1] (fma h.beta2 m b.1)
  { w := w1.1, m := m1.1, v := FV.zero, flags := a.2 ||| c.2 ||| w1.2 ||| b.2 ||| m1.2 }

/-- The update of an element by KIND. -/
def updElem (kind : Nat) (h : Hyper) (w m v g : FVal) : NewElem :=
  if kind = 1 then sgdM h w m g else if kind = 2 then adamw h w m v g else lion h w m g

/-! ## A share -/

/-- The new elements first to first + n - 1 of a descriptor, each with its poison: the pre-image's and the gradient's. -/
def State.newElems (s : State) (u : UpdateE) (h : Hyper) (src : Bool) (clip : Option FVal) (first n : Nat) : List (NewElem × Bool) :=
  let g := s.gradient u first n
  let w := s.elems fFP32 (u.master src + 8) first n
  let m := if u.hasMom1 then s.elems fFP32 (u.mom1 src) first n else List.replicate n (FV.zero, false)
  let v := if u.hasMom2 then s.elems fFP32 (u.mom2 src) first n else List.replicate n (FV.zero, false)
  (List.range n).map fun i =>
    let at_ := fun (l : List (FVal × Bool)) => l.getD i (FV.zero, false)
    let gi := match clip with
      | some c => step32 [(at_ g).1, c] (FV.mul (at_ g).1 c)
      | none => ((at_ g).1, 0)
    let r := updElem u.kind h (at_ w).1 (at_ m).1 (at_ v).1 gi.1
    ({ r with flags := r.flags ||| gi.2 }, (at_ g).2 || (at_ w).2 || (at_ m).2 || (at_ v).2)

/-- Writes FP32 values at an address with their poison. -/
def State.put32 (s : State) (a : Nat) (vs : List (FVal × Bool)) : State :=
  let b := vs.flatMap fun v => le 4 (encodeElem fFP32 v.1)
  s.memWriteP a b (poisonSheets fFP32 a 0 b.length (vs.map (·.2))).contains

/-- Writes the working copy of elements first to first + vs.length - 1, where `first` begins a block (R537): unused bits of its last
byte or group are 0 (log entry 55). -/
def State.putWork (s : State) (u : UpdateE) (dst : Bool) (first : Nat) (vs : List (FVal × Bool)) : Nat × State :=
  let f := u.wfmt
  let (b, sb, fl) := encodeRow f false false 0 false 0 (vs.map (·.1))
  let b := if elemBits f = 6 then padTo 3 b else b
  let a := u.work dst + first * elemBits f / 8
  let sa := u.workScale dst + first / 32
  let bad := poisonSheets f a sa b.length (vs.map (·.2))
  let s := s.memWriteP a b bad.contains
  (fl, if sb = [] then s else s.memWriteP sa sb bad.contains)

/-- A master-weight bit that an injection flips on its write (15_faults Table 15-12 TYPE 0x09; log entry 57). -/
def State.flipMaster (s : State) (u : UpdateE) (d : Nat) (dst : Bool) (first n : Nat) : State :=
  match s.meet 9 d with
  | none => s
  | some (l, s') =>
    let i := Config.faultElement l.param
    if first ≤ i && decide (i < first + n) then
      let a := u.master dst + 8 + 4 * i
      let w := BitVec.ofNat 32 (s'.memNat a 4) ^^^ BitVec.ofNat 32 (2 ^ (Config.faultBit l.param % 32))
      s'.memWriteP a (le 4 w.toNat) fun _ => s'.rangePoisoned a 4
    else s

/-- Applies an update to a share: it reads the last collated half and writes the other (R150 R155). An MX block that two shares
meet in is written whole by each. -/
def State.updateShare (s : State) (u : UpdateE) (d t : Nat) (v : VoteEntry) (first n : Nat) : Bool × Nat × State :=
  let src := s.lastHalf u
  let h := s.hyper u t
  let clip := u.clipBy v
  let new := s.newElems u h src clip first n
  let lo := first / 32 * 32
  let hi := Nat.min (ceilDiv (first + n) 32 * 32) u.count
  let wide := if n = 0 then [] else s.newElems u h src clip lo (hi - lo)
  let step := s.memNat (u.master src) 8
  let stepBad := s.poisoned (u.master src / 1024)
  let s := if first = 0 then s.memWriteP (u.master (!src)) (le 8 (step + 1)) fun _ => stepBad else s
  let s := s.put32 (u.master (!src) + 8 + 4 * first) (new.map fun e => (e.1.w, e.2))
  let s := s.flipMaster u d (!src) first n
  let s := if u.hasMom1 then s.put32 (u.mom1 (!src) + 4 * first) (new.map fun e => (e.1.m, e.2)) else s
  let s := if u.hasMom2 then s.put32 (u.mom2 (!src) + 4 * first) (new.map fun e => (e.1.v, e.2)) else s
  let (wf, s) := s.putWork u (!src) lo (wide.map fun e => (e.1.w, e.2))
  (new.any (·.2), new.foldl (fun f e => f ||| e.1.flags) wf, s)

/-! ## The fields and the course of a command (06_programs R180) -/

/-- The decision that a command follows: the vote record in a local or diagnostic replay, else the vote of the pass. A non-finite element of any
descriptor skips the step's update (01_step R31). -/
def State.decision (s : State) (x : Sched) (phase d : Nat) : Option VoteEntry :=
  let l := if x.byRecord phase then s.ledger.votes else x.vote.decided
  (l.find? fun v => v.ordinal = ordinalOf x.image d).map fun v => { v with nonfinite := l.any VoteEntry.nonfinite }

/-- A half is under a read pin of its schedule (01_step R32). -/
def Sched.pinned (x : Sched) (d : Nat) (b : Bool) : Bool := x.pins.contains (d, b)

/-- A diagnostic replay, in which the OPEs write no half and only form digests (13_collation R402). -/
def Sched.diagnosing (x : Sched) : Bool := match x.replay with | some r => r.started && decide (r.kind = .diagnostic) | none => false

/-- A finished share: with the last one of its descriptor the digest is formed (R151). -/
def State.shareDone (s : State) (id d n : Nat) (form : State → UpdateE → Dig) : State :=
  match s.sched id with
  | none => s
  | some x =>
    let sh := x.coll.shares ++ [(d, n)]
    let full := decide (((x.image.updates[d]?).map UpdateE.count).getD 0 ≤ ((sh.filter fun y => y.1 = d).map (·.2)).sum)
    match x.image.updates[d]? with
    | some u =>
      let dg := if full then AMap.set noDig x.coll.digests d (form s u) else x.coll.digests
      s.setSched { x with coll := { x.coll with shares := sh, digests := dg } }
    | none => s

/-- An UPDATE is done: its digest is formed with its descriptor's last share, and a result that is not finite is noted (10_numerics R305). -/
def State.updateDone (s : State) (e : EngId) (id d n : Nat) (t : Entry) (form : State → UpdateE → Dig) : State :=
  let s := s.updEntry e t.pos fun y => { y with units := 1, waiting := false }
  s.shareDone id d n form

/-- The elements that an UPDATE writes next of at most n: whole blocks of 32, but for the end of its share. -/
def upChunk (t : Entry) (n : Nat) : Nat × Nat :=
  let lo := upFirst t.packet + t.watermark
  let left := upCount t.packet - t.watermark
  (lo, if left ≤ n then lo + left else (lo + n) / 32 * 32)

/-- Writes the next elements of a share, at most n; the share is done with its last (R155 R161). -/
def State.opeWrite (s : State) (e : EngId) (x : Sched) (t : Entry) (d : Nat) (u : UpdateE) (v : VoteEntry) (n : Nat) : State :=
  let (lo, hi) := upChunk t n
  if hi ≤ lo && decide (t.watermark < upCount t.packet) then s
  else
    let src := s.lastHalf u
    let (bad, fl, s) := s.updateShare u d x.step v lo (hi - lo)
    let s := s.updEntry e t.pos fun y => { y with poison := y.poison || bad, aflags := y.aflags ||| BitVec.ofNat 8 fl, watermark := hi - upFirst t.packet }
    if hi < upFirst t.packet + upCount t.packet then s
    else
      let af := (t.aflags ||| BitVec.ofNat 8 fl).toNat
      let s := match s.sched x.id with
        | some y => s.setSched { y with
            stateAlarms := if af &&& (fgOvf ||| fgInv) = 0 then y.stateAlarms else y.stateAlarms ++ [(pkTag t.packet, BitVec.ofNat 8 af)]
            coll := { y.coll with wrote := dedup (y.coll.wrote ++ [d]) } }
        | none => s
      s.updateDone e x.id d (upCount t.packet) t fun s u => s.digestOf u (!src)

/-- Does the work of an UPDATE whose vote is decided, up to n elements: update, skip or withhold (R153). A half under a read pin waits, and the
wait is noted (01_step R32, 11_time Table 11-12). -/
def State.opeWork (s : State) (e : EngId) (n : Nat) : State :=
  match s.engines[e].entries.find? fun t => pkOp t.packet = 0x80 && t.waiting && !t.ready && !t.stuck, s.engines[e].grant with
  | some t, some g =>
    match s.sched g.sched with
    | none => s
    | some x =>
      match x.descOf t.packet with
      | none => s
      | some (d, u) =>
        match s.decision x g.phase d with
        | none => s
        | some v =>
          if !s.enginesLive then s
          else
            let m := upCount t.packet
            let src := s.lastHalf u
            let note := fun (s : State) (bad : Bool) (mark : Nat) => s.updEntry e t.pos fun y => { y with
              units := 1, waiting := false, poison := y.poison || bad, watermark := mark }
            if v.poison then note s false 0
            else if v.nonfinite then (note s (s.digestOf u src).poison 0).shareDone x.id d m fun s u => s.digestOf u src
            else if x.diagnosing then
              let pre := if x.coll.wrote.contains d then !src else src
              (note s false m).shareDone x.id d m fun s u =>
                ((s.setHalf u pre).updateShare u d x.step v 0 u.count).2.2.digestOf u (!pre)
            else if x.pinned d (!src) then s.noteCause 4
            else s.opeWrite e x t d u v n
  | _, _ => s

/-- Every OPE does what its vote decides, up to the elements that its row named (log entry 157). -/
def State.opeAll (s : State) : State :=
  (List.finRange 44).foldl (fun s e => if engClass e = 3 then
    s.opeWork e (((s.engines[e].entries.find? fun t => pkOp t.packet = 0x80).map Entry.fetched).getD 0) else s) s

/-- A skip forms every digest of the step over unchanged weights: those of descriptors that were updated before its vote are formed again
(01_step R31). -/
def State.skipStep (s : State) (id : Nat) : State :=
  match s.sched id with
  | none => s
  | some x =>
    let dg := x.coll.digests.map fun kv => match x.image.updates[kv.1]? with
      | some u => (kv.1, s.digestOf u (s.lastHalf u))
      | none => kv
    s.setSched { x with coll := { x.coll with wrote := [], digests := dg.filter fun kv => kv.2 ≠ noDig kv.1 } }

/-! ## The tree (R536) -/

def barPorts (m : BitVec 12) : List Port := (List.finRange 12).filter fun p => m.getLsbD p.val

/-- The logical coordinate that the schedule assigns to this device's shard: the spec gives it no field of the image, and one device has 0
(03_formats R101; log entry 156). -/
def Sched.coordinate (x : Sched) : Nat := Config.coordinate x.image.setId % Nat.max 1 x.image.bar.nDev

/-- The entries of this device's subtree for an ordinal, if every child's and its own are there. -/
def Sched.subtree (x : Sched) (o : Nat) : Option (List VoteEntry) :=
  let mine := x.vote.own.filter fun v => v.ordinal = o
  let kids := barPorts x.image.bar.children
  if mine = [] || !kids.all fun p => x.vote.got.any fun y => y.1 = p && y.2.ordinal = o then none
  else some (mine ++ (x.vote.got.filter fun y => y.2.ordinal = o).map (·.2))

/-- Takes the outcome of an ordinal, which comes late 10 µs after this device's vote (Table 05-4, 11_time R347), records it in the ledger, and
passes every entry down (R536, 13_collation Table 13-2). In a step with probed tensors a skip that another device's vote causes counts as one
under 10_numerics R296 (log entry 165). -/
def State.decideVote (s : State) (id : Nat) (o : Nat) (es : List VoteEntry) : State :=
  match s.sched id with
  | none => s
  | some x =>
    match (descsOf x.image false)[o]?.bind fun d => x.image.updates[d]? with
    | none => s
    | some u =>
      let v : VoteEntry := u.judge { foldVotes es with ordinal := o }
      let s := if x.vote.castAt ≠ 0 && decide (x.vote.castAt + 10000 < s.now) then s.noteCause 9 else s
      let x := (s.sched id).getD x
      let theirs := v.nonfinite && x.probe.probed ≠ [] && x.vote.own.all fun y => !y.nonfinite
      let s := s.setSched { x with probe := { x.probe with skipped := x.probe.skipped || theirs }, vote := { x.vote with decided := x.vote.decided.filter (fun (y : VoteEntry) => y.ordinal ≠ o) ++ [v] } }
      let s := { s with ledger.votes := s.ledger.votes.filter (fun (y : VoteEntry) => y.ordinal ≠ o) ++ [v] }
      let s := if v.nonfinite then s.skipStep id else s
      let s := s.feed (.vote x.step [v])
      let s := (barPorts x.image.bar.children).foldl (fun s p =>
        s.emit (.vote p { setId := x.image.setId, step := x.step, down := true, entries := es })) s
      s.opeAll

/-- Sends a subtree's entries up, or, at the root, decides. -/
def State.castUp (s : State) (id o : Nat) : State :=
  match s.sched id with
  | none => s
  | some x =>
    match x.subtree o with
    | none => s
    | some es =>
      if x.vote.sentUp.contains o then s
      else
        let s := s.setSched { x with vote := { x.vote with sentUp := x.vote.sentUp ++ [o] } }
        match portId x.image.bar.parent with
        | some p => s.emit (.vote p { setId := x.image.setId, step := x.step, down := false, entries := es })
        | none => s.decideVote id o es

/-- Casts this device's vote on a recto descriptor once every share of it is scanned (R151 R152). The poison bit covers the mirror
descriptor's gradient too; a probed tensor that overflowed sets the non-finite bit (10_numerics R296). -/
def State.castVote (s : State) (id d : Nat) : State :=
  match s.sched id with
  | none => s
  | some x =>
    match x.image.updates[d]? with
    | none => s
    | some u =>
      let o := ordinalOf x.image d
      let sc := x.vote.scans.filter fun (y : Scan) => y.ordinal = o
      if (sc.map Scan.count).sum < u.count || x.vote.own.any (fun v => v.ordinal = o) then s
      else
        let verso := (descsOf x.image true)[o]?.bind fun k => x.image.updates[k]?
        let vp := match verso with
          | some w => s.rangePoisoned w.grad (elemBits w.gfmt / 8 * w.count)
          | none => false
        let probe := x.obs.any fun b => b.ovf && x.probe.probed.contains b.idx
        let g := (s.gradient u 0 u.count).map (·.1)
        let n2 := if u.clipOn then encodeElem fFP32 (rowDot g g).1 else 0
        let v : VoteEntry := { dev := x.coordinate, ordinal := o, nonfinite := sc.any Scan.nonfinite || probe, poison := sc.any Scan.poison || vp,
                               n2 := BitVec.ofNat 32 n2 }
        let fl : BitVec 16 := if v.poison then 0x10 else 0
        let s := s.setSched { x with vote := { x.vote with own := x.vote.own ++ [v], castAt := s.now }, probe := { x.probe with skipped := x.probe.skipped || probe }
                                     coll := { x.coll with flags := x.coll.flags ||| fl } }
        s.castUp id o

/-- The flags of a scan: those of the scaled gradient, and with the descriptor's last share those of the norm (R151 R152). -/
def State.scanFlags (s : State) (u : UpdateE) (first n : Nat) (last : Bool) : Nat :=
  s.gradFlags u first n ||| (if last && u.clipOn then let g := (s.gradient u 0 u.count).map (·.1); (rowDot g g).2 else 0)

/-- A share's elements up to which its descriptor is scanned. -/
def Sched.scanned (x : Sched) (o : Nat) : Nat := ((x.vote.scans.filter fun (y : Scan) => y.ordinal = o).map Scan.count).sum

/-- UPDATE (R151-R157, 06_programs R180). In a probe pass it writes nothing and casts no vote (10_numerics R296); in a local replay it follows the
vote record (13_collation R397). -/
def execUpdate (e : EngId) (units : Nat) (s : State) (ev : List MemEvent := []) : Res :=
  s.packet e 0x80 ev fun s g x b =>
    let pc := s.engines[e].pc + 1
    let t := { s.entry e b 1 with fetched := units }
    match x.descOf b with
    | none => ok (s.refuseCmd e x g b 0 stState)
    | some (d, u) =>
      match (u.regions true ++ u.regions false ++ u.inputs).find? fun r => !s.inMap r.1 r.2 with
      | some r => .fault (.addressUnmapped r.1)
      | none =>
        let n := upCount b
        let s := s.setSched { x with shareTags := x.shareTags ++ [(d, upFirst b, n, pkTag b)] }
        if x.probe.pass then ok (s.begin_ e { t with units := 1, watermark := n } pc)
        else
          let gr := s.gradient u (upFirst b) n
          let bad := gr.any (·.2)
          let last := decide (u.count ≤ x.scanned (ordinalOf x.image d) + n)
          let fl := BitVec.ofNat 8 (s.scanFlags u (upFirst b) n last)
          let s := s.begin_ e { t with waiting := true, poison := bad, aflags := fl } pc
          if u.verso then ok (s.opeWork e units)
          else
            match s.sched x.id with
            | none => ok s
            | some y =>
              let y := y.countMons d (upFirst b) gr
              if y.byRecord g.phase then ok ((s.setSched y).opeWork e units)
              else
                let sc : Scan := { ordinal := ordinalOf y.image d, first := upFirst b, count := n, nonfinite := gr.any (fun v => !v.2 && nonFinite v.1), poison := bad }
                let s := s.setSched { y with vote := { y.vote with scans := y.vote.scans ++ [sc] } }
                ok ((s.castVote y.id d).opeWork e units)

/-- The collated schedule whose step awaits a vote message that verifies (R536, 12_links R363). -/
def State.awaitsVote (s : State) (m : VoteMsg) : Option Sched :=
  if !m.authOk then none else s.scheds.find? fun x => x.collated && x.active && x.image.setId = m.setId && x.step = m.step

/-- VOTE_RECEIVE (R536): an up message from a child, or the down message from the parent; any other is discarded and counted (11_time
R332). -/
def execVoteReceive (p : Port) (m : VoteMsg) (s : State) : Res :=
  if !s.ports[p].admitted then ok s
  else match s.awaitsVote m with
  | none => ok (s.malformed p)
  | some x =>
    if m.down then
      if portId x.image.bar.parent = some p then
        ok ((dedup (m.entries.map VoteEntry.ordinal)).foldl (fun s o => s.decideVote x.id o (m.entries.filter fun v => v.ordinal = o)) s)
      else ok (s.malformed p)
    else if x.image.bar.children.getLsbD p.val then
      let got := x.vote.got.filter (fun y => !(y.1 = p && m.entries.any fun v => v.ordinal = y.2.ordinal && v.dev = y.2.dev)) ++ m.entries.map fun v => (p, v)
      let s := s.setSched { x with vote := { x.vote with got := got } }
      ok ((dedup (m.entries.map VoteEntry.ordinal)).foldl (fun s o => s.castUp x.id o) s)
    else ok (s.malformed p)

end Sys2Proof.Machine
end

