-- ==== Sys2Proof/Machine/Route.lean ====
section
/-! DEFINITION. The routing engine: ROUTE builds the expert row lists and counts from router scores (08_conditional R226-R233,
06_programs R181). -/

namespace Sys2Proof.Machine

/-! ## Selection (R229 R230) -/

/-- An assignment of a token: expert and score. -/
structure Assign where
  expert : Nat
  score : FVal
  deriving DecidableEq, Repr

/-- Puts a score in its place among those of higher rank: ties keep the lower expert first. -/
def insertScore (l : List Assign) (a : Assign) : List Assign :=
  (l.takeWhile fun x => decide (FV.cmp a.score x.score ≤ 0)) ++ a :: (l.dropWhile fun x => decide (FV.cmp a.score x.score ≤ 0))

/-- The TOPK highest selectable scores of a row, by rank: a score of minus infinity or NaN is never selected. -/
def selectRow (topk : Nat) (row : List FVal) : List Assign :=
  (row.mapIdx fun i v => ({ expert := i, score := v } : Assign)).foldl (fun l a =>
    if FV.isNan a.score || a.score = .inf true then l else (insertScore l a).take topk) []

/-- The assignments to an expert in ascending order of rank, then of token row: rank, row and score. -/
def assignedTo (sel : List (List Assign)) (topk e : Nat) : List (Nat × Nat × FVal) :=
  (List.range topk).flatMap fun r =>
    (sel.mapIdx fun t row => match row[r]? with
      | some a => if a.expert = e then [(r, t, a.score)] else []
      | none => []).flatten

/-- Whether an expert accepts a token's assignment at a rank. -/
def accepted (sel : List (List Assign)) (topk cap e : Nat) : List (Nat × Nat × FVal) := (assignedTo sel topk e).take cap

/-- Accepted assignments in ascending token row. -/
def byRow (n : Nat) (l : List (Nat × Nat × FVal)) : List (Nat × Nat × FVal) :=
  (List.range n).flatMap fun t => l.filter fun a => a.2.1 = t

/-! ## Lists (Tables 07-1, 08-3 and 08-4) -/

def rowEntry (srow drow gate rank : Nat) : Bytes := le 4 srow ++ le 4 drow ++ le 4 gate ++ le 4 rank
def rowList (l : List Bytes) : Bytes := le 4 l.length ++ [2] ++ le 11 0 ++ l.flatten

/-- The gate of a score: its value widened to FP32. -/
def gateOf (v : FVal) : Nat := encodeElem fFP32 (rne32 v)

/-- The scores of every row, at their stored values (log entry 53), read through the quire's cache. -/
def State.scores (s : State) (q : Quire) (o : Opnd) : List RowVals × State :=
  (List.range o.lay.rows).foldl (fun a r =>
    let y := a.2.readRaw (some q) o r o.lay.cols
    (a.1 ++ [y.1], y.2)) ([], s)

/-- The hole list: the assignments that no expert accepted (R232). -/
def holeList (sel : List (List Assign)) (n k cap experts : Nat) : Bytes :=
  let filled := (List.range experts).flatMap fun ex => (accepted sel k cap ex).map fun a => a.1 * n + a.2.1
  rowList (((List.range (n * k)).filter fun i => !filled.contains i).map fun i => rowEntry 0xFFFFFFFF i 0 (i / n))

/-- CAPACITY, or the list layout's ROWS where it is 0. -/
def routeCap (b : Bytes) (c : Nat) : Nat := if rtCapacity b = 0 then c else rtCapacity b

/-- Unit u of ROUTE: the lists and counts of expert u (R232). -/
def State.routeUnit (s : State) (e : EngId) (x : Sched) (t : Entry) : State :=
  let b := t.packet
  match s.opnd x b 4 t.idx, s.opnd x b 7 t.idx, s.opnd x b 0xA t.idx with
  | some so, some lo, some co =>
    let n := so.lay.rows
    let k := rtTopk b
    let c := lo.lay.rows
    let (rows, s) := s.scores (s.engQuire e) so
    let sel := rows.map fun r => selectRow k (r.vals.map (·.1))
    let p := listPitch c
    let u := t.units
    let all := assignedTo sel k u
    let acc := byRow n (all.take (routeCap b c))
    let d := acc.mapIdx fun i a => rowEntry a.2.1 i 0x3F800000 a.1
    let m := acc.mapIdx fun i a => rowEntry i (a.1 * n + a.2.1) (gateOf a.2.2) a.1
    let s := s.memWrite (lo.addr + 2 * u * p) (rowList d)
    let s := s.memWrite (lo.addr + (2 * u + 1) * p) (rowList m)
    let s := s.memWrite (co.rowAddr 0 + 4 * u) (le 4 acc.length)
    let s := s.memWrite (co.rowAddr 1 + 4 * u) (le 4 (all.length - acc.length))
    let s := s.memWrite (co.rowAddr 2 + 4 * u) (le 4 (if acc = [] then 0 else 1))
    let fl := if rows.any fun r => r.vals.any fun v => FV.isNan v.1 then fgNanIn else 0
    (s.updEntry e t.pos fun y => { y with watermark := u + 1, aflags := y.aflags ||| BitVec.ofNat 8 fl }).unitDone e t
  | _, _, _ => s

/-- The completion of ROUTE: the hole list is written (R232). -/
def State.routeClose (s : State) (e : EngId) (x : Sched) (t : Entry) : State :=
  let b := t.packet
  match s.opnd x b 4 t.idx, s.opnd x b 7 t.idx with
  | some so, some lo =>
    let (rows, s) := s.scores (s.engQuire e) so
    let sel := rows.map fun r => selectRow (rtTopk b) (r.vals.map (·.1))
    s.memWrite (lo.addr + 2 * rtExperts b * listPitch lo.lay.rows) (holeList sel so.lay.rows (rtTopk b) (routeCap b lo.lay.rows) (rtExperts b))
  | _, _ => s

/-- ROUTE (R226-R233). A poisoned score sheet marks every output; zero scored rows give empty lists (06_programs Table 06-14). -/
def execRoute (e : EngId) (units : Nat) (s : State) (ev : List MemEvent := []) : Res :=
  s.packet e 0xA0 ev fun s g x b =>
    let t := s.entry e b (rtExperts b)
    match s.opnd x b 4 t.idx, s.opnd x b 7 t.idx, s.opnd x b 0xA t.idx with
    | some so, some lo, some co =>
      let n := listRegion (rtExperts b) lo.lay.rows so.lay.rows (rtTopk b)
      match s.badOpnd so so.lay.rows so.lay.cols, s.badOpnd co 3 (rtExperts b) with
      | some a, _ => .fault (.addressUnmapped a)
      | none, some a => .fault (.addressUnmapped a)
      | none, none =>
        if !s.inMap lo.addr n then .fault (.addressUnmapped lo.addr)
        else
          let (rows, s) := s.scores (s.engQuire e) so
          if rows.any fun r => r.vals.any (·.2) then
            let s := s.poisonRange lo.addr n
            let s := (List.range 3).foldl (fun s r => s.poisonRange (co.rowAddr r) (4 * rtExperts b)) s
            ok (s.refuseCmd e x g b 0 stPoisoned)
          else ok ((s.begin_ e t (s.engines[e].pc + 1)).runUnits State.routeUnit units e t.pos)
    | _, _, _ => ok (s.refuseCmd e x g b 0 stState)

end Sys2Proof.Machine
end

