-- ==== Sys2Proof/Machine/Complete.lean ====
section
/-! DEFINITION. The end of engine commands that take time, and stops: completion, the per-command timeout, its
acknowledgement and a wedged unit (06_programs R182 R199, 15_faults R453). -/

namespace Sys2Proof.Machine

/-! ## Completion (R182) -/

/-- A command in progress at a position of a stream. -/
def State.entryAt (s : State) (e : EngId) (pos : Nat) : Option Entry :=
  s.engines[e].entries.find? fun t => t.pos = pos && !t.ready && !t.stuck

/-- The work that a command has left, by the unit of its opcode. -/
def State.runAll (s : State) (e : EngId) (t : Entry) : State :=
  let op := pkOp t.packet
  let n := t.total - t.units + 1
  if op = 0x20 then s.runUnits State.leafUnit n e t.pos
  else if op = 0x21 then s.runUnits State.streamUnit n e t.pos
  else if op = 0x40 then s.runUnits State.vecUnit n e t.pos
  else if op = 0x60 || op = 0x61 || op = 0x62 then s.runUnits State.copyUnit n e t.pos
  else if op = 0x80 then s.opeWork e (upCount t.packet)
  else if op = 0xA0 then s.runUnits State.routeUnit n e t.pos
  else s

/-- The status with which a command that has done all its work ends; none while work is left. -/
def State.endedWith (s : State) (e : EngId) (t : Entry) : Option Nat :=
  let op := pkOp t.packet
  if t.waiting || decide (t.units < t.total) || t.turn then none
  else if op = 0x60 || op = 0x61 || op = 0x62 then s.copyStatus e t
  else if op = 0x40 && t.colPoison.any id then some stPoisoned
  else if op = 0x20 || op = 0x21 || op = 0x40 || op = 0x80 || op = 0xA0 then some t.endStatus
  else none

/-- What a command writes only when it completes: DST2 of column sums (07_movement Table 07-5), the hole list of ROUTE (08_conditional R232). -/
def State.closeWork (s : State) (e : EngId) (t : Entry) : State :=
  match (s.engines[e].grant).bind fun g => s.sched g.sched with
  | none => s
  | some x => if pkOp t.packet = 0x40 then s.vecClose e x t else if pkOp t.packet = 0xA0 then s.routeClose e x t else s

/-- ENGINE_COMMAND_COMPLETE (R182): the command finishes its work and its record is written in stream order. A command that still
waits, or that has been sent a stop, does not complete (log entry 22). -/
def execEngineCommandComplete (e : EngId) (pos : Nat) (s : State) (ev : List MemEvent := []) : Res :=
  match s.entryAt e pos with
  | none => ok s
  | some t =>
    if !s.enginesLive || t.stopAt.isSome || s.engines[e].wedged then ok s
    else
      let s := (s.memEvents ev (pkTag t.packet) (s.unitByte e)).runAll e t
      match s.entryAt e pos with
      | none => ok s
      | some u =>
        match s.endedWith e u with
        | some st => ok ((s.closeWork e u).endEntry e pos st)
        | none => ok s

/-! ## Stops (R199, 15_faults R453) -/

/-- Sends an engine a stop for the commands that a predicate names. -/
def State.sendStop (s : State) (e : EngId) (status : Nat) (p : Entry → Bool) : State :=
  let g := s.engines[e]
  let hit := g.entries.filter fun t => !t.ready && t.stopAt.isNone && p t
  if hit = [] then s
  else
    let s := s.setEng e { g with
      stopAt := some (g.stopAt.getD s.clock)
      entries := g.entries.map fun t => if hit.contains t then { t with stopAt := some s.clock } else t }
    hit.foldl (fun s t => s.traceCmd e t 7 status 0) s

/-- COMMAND_TIMEOUT (R199 R453): commands of the engine have reached the bound that they began with. -/
def execCommandTimeout (e : EngId) (s : State) : Res := ok (s.sendStop e stTimeout fun t => decide (t.limit ≤ s.now))

/-- Clears the back leaf that a stopped LEAF_LOAD was filling (07_movement Table 07-5). -/
def State.dropLoad (s : State) (e : EngId) (t : Entry) : State :=
  if pkOp t.packet = 0x20 && !t.ready then
    let g := s.engines[e]
    s.setEng e { g with array := { g.array with back := none, backState := .empty } }
  else s

/-- STOP_ACKNOWLEDGE (R453): the stopped commands complete with TIMEOUT, with their watermarks as of the stop. -/
def execStopAcknowledge (e : EngId) (s : State) : Res :=
  let g := s.engines[e]
  if g.stopAt.isNone || g.noAck || g.wedged then ok s
  else
    let hit := g.entries.filter fun t => t.stopAt.isSome && !t.ready
    let s := s.setEng e { g with stopAt := none }
    let s := hit.foldl (fun s t => (s.dropLoad e t).closeEntry e t.pos stTimeout) s
    ok (s.flush e)

/-- The injection that keeps an engine from answering (15_faults Table 15-12 TYPE 0x0C). -/
def State.hangInj (s : State) (e : EngId) : Option Latent := s.latents.find? fun l => (l.type = 0x0B || l.type = 0x0C) && l.target = e.val

/-- UNIT_WEDGED (R453): a stop has gone unanswered for 10 ms; the Binder writes record 0x0403 and requests a compute-partition
reset. The PC is that of the oldest command that was stopped. -/
def execUnitWedged (e : EngId) (s : State) : Res :=
  let g := s.engines[e]
  match g.stopAt with
  | none => ok s
  | some t0 =>
    if s.clock < t0 + 10000000 || g.wedged || s.binder.run = .off then ok s
    else
      let t := g.entries.find? fun t => t.stopAt.isSome && !t.ready
      let l := s.hangInj e
      let c := (g.grant.map Grant.ctx).getD 0xFF
      let tag := (t.map fun t => pkTag t.packet).getD 0
      let seq := s.guard.logNext
      let s := s.addRec 4 3 0x0403 (BitVec.ofNat 8 c) l.isSome (s.unitByte e) (nativeBody tag e.val 0 ((t.map Entry.pc).getD g.pc))
      let s := s.setEng e { s.engines[e] with wedged := true }
      ok (s.askPartition (some seq) ((l.map Latent.noesc).getD false))

end Sys2Proof.Machine
end

