-- ==== Sys2Proof/Machine/Numerics.lean ====
section
/-! DEFINITION. Training numerics: the scale table, its rewrite at collation and at a probe barrier, the health monitors and
their alarms, and the NUM commands (10_numerics R290-R308). -/

namespace Sys2Proof.Machine

/-! ## The scale table (Table 10-2) -/

/-- A scale-table entry. -/
structure ScaleEnt where
  exp : Int
  valid : Bool
  ovfLast : Bool
  probedLast : Bool
  resv : Nat
  fmt : Nat
  hlen : Nat
  hpos : Nat
  hist : List Nat
  ovfCount : Nat
  deriving DecidableEq, Repr

def ScaleEnt.parse (b : Bytes) : ScaleEnt :=
  let f := fld b 1 1
  { exp := sgn 8 (fld b 0 1), valid := bit f 0, ovfLast := bit f 1, probedLast := bit f 2, resv := f / 8, fmt := fld b 2 1,
    hlen := fld b 3 1, hpos := fld b 4 1, hist := (sub b 8 16).map BitVec.toNat, ovfCount := fld b 0x18 4 }

/-- The entry's bytes; the reserved fields stay as they stood. -/
def ScaleEnt.bytes (e : ScaleEnt) (old : Bytes) : Bytes :=
  le 1 (unsgn 8 e.exp) ++ le 1 (bnat e.valid + 2 * bnat e.ovfLast + 4 * bnat e.probedLast + 8 * e.resv) ++ le 1 e.fmt ++ le 1 e.hlen ++
    le 1 e.hpos ++ sub old 5 3 ++ sub (e.hist.flatMap (le 1)) 0 16 ++ le 4 e.ovfCount ++ sub old 0x1C 4

/-- emax of a scaled format (R293). -/
def emaxOf (fmt : Nat) : Int := if fmt = 3 then 8 else 15

/-- The history of HLEN equal codes. -/
def flatHist (hlen code : Nat) : List Nat := (List.range 16).map fun i => if i < hlen then code else 0

/-- The rewrite of an entry at collation (R293). -/
def ScaleEnt.update (e : ScaleEnt) (code : Nat) (ovf probed : Bool) : ScaleEnt :=
  let e := if ovf && code = 0xFF then { e with hist := flatHist e.hlen 0, exp := min (e.exp + 16) 127 }
    else if ovf then { e with hist := flatHist e.hlen code }
    else { e with hist := e.hist.set e.hpos code, hpos := (e.hpos + 1) % e.hlen }
  let est := e.hist.foldl Nat.max 0
  let e := if 0 < est && decide (est < 0xFF) then { e with exp := max (-128) (min 127 ((est : Int) - 127 + 3 - emaxOf e.fmt)) } else e
  { e with ovfLast := ovf, probedLast := probed, valid := true, ovfCount := if ovf then min (e.ovfCount + 1) 0xFFFFFFFF else e.ovfCount }

/-- An unsettled entry at the probe barrier: EXP from its group code and every slot of HIST that code (Table 10-4 order 3). An
entry without an observation takes the code 0 and keeps EXP. -/
def ScaleEnt.settle (e : ScaleEnt) (code : Nat) : ScaleEnt :=
  { e with hist := flatHist e.hlen code, valid := true, probedLast := true
           exp := if 0 < code && decide (code < 0xFF) then max (-128) (min 127 ((code : Int) - 127 + 3 - emaxOf e.fmt)) else e.exp }

def Sched.numTable (x : Sched) : Nat := (x.image.num.map NumE.tableAddr).getD 0
def Sched.numTensors (x : Sched) : Nat := (x.image.num.map NumE.nTensors).getD 0

/-- Rewrites entry t of a schedule's scale table. -/
def State.rewriteScale (s : State) (x : Sched) (t : Nat) (f : ScaleEnt → ScaleEnt) : State :=
  let a := x.numTable + 32 * t
  let b := s.memRead a 32
  s.memWrite a ((f (ScaleEnt.parse b)).bytes b)

/-- The rewrite of every tensor with a group observation (R293). -/
def State.scaleUpdate (s : State) (x : Sched) (obs : List Obs) : State :=
  (obs.filter fun o => o.idx < x.numTensors).foldl (fun s o =>
    s.rewriteScale x o.idx fun e => e.update o.code o.ovf (x.probe.probed.contains o.idx)) s

/-- The rewrite at a probe barrier: the unsettled entries only (R296 Table 10-4). -/
def State.scaleSettle (s : State) (x : Sched) (obs : List Obs) : State :=
  (x.probe.unsettled.filter fun t => t < x.numTensors).foldl (fun s t =>
    s.rewriteScale x t fun e => e.settle (((obs.find? fun o => o.idx = t).map Obs.code).getD 0)) s

/-! ## Monitors and alarms (R301-R306) -/

/-- An alarm record (Table 10-7), class 2, SOURCE 2. -/
def State.alarm (s : State) (x : Sched) (tag : W32) (kind id value : Nat) : State :=
  s.addRec 2 2 kind (BitVec.ofNat 8 x.ctx) false 0xFF
    (le 4 tag.toNat ++ le 2 stOk ++ le 1 kind ++ le 1 0 ++ le 2 id ++ le 2 value ++ le 4 0 ++ le 8 x.step ++ le 8 s.now)

/-- The tag of the UPDATE command whose share holds an element of a descriptor (R306). -/
def Sched.updateTag (x : Sched) (d k : Nat) : W32 :=
  match x.shareTags.find? fun t => t.1 = d && decide (t.2.1 ≤ k) && decide (k < t.2.1 + t.2.2.1) with
  | some t => t.2.2.2
  | none => 0

/-- The tag of the step's first UPDATE command, which a probe alarm carries where a skip concerns several (log entry 165). -/
def Sched.firstTag (x : Sched) : W32 := ((x.shareTags.head?).map fun t => t.2.2.2).getD 0

/-- The collation of monitor entry i; its alarms carry the tag of the UPDATE of its first element (R303 R304 R306). -/
def State.monitor (s : State) (x : Sched) (base i : Nat) (m : MonE) : State :=
  let c := s.ctxs[ctxId x.ctx]
  let a := base + 8 * i
  let b := s.memRead a 8
  let (z, u) := AMap.get noCounts x.monCounts i
  let streak := if z = m.count then min (fld b 0 2 + 1) 65535 else 0
  let uf := min (65536 * (z + u) / m.count) 65535
  let f := fld b 4 1
  let alarmS := decide (c.streakLimit.toNat < streak) && !bit f 0
  let alarmU := decide (c.ufThresh.toNat < uf) && !bit f 1
  let f0 := streak ≠ 0 && (bit f 0 || alarmS)
  let f1 := decide (c.ufThresh.toNat < uf) && (bit f 1 || alarmU)
  let s := s.memWrite a (le 2 streak ++ le 2 uf ++ le 1 (bnat f0 + 2 * bnat f1 + f / 4 * 4) ++ sub b 5 3)
  let s := if alarmS then s.alarm x (x.updateTag m.desc m.first) 1 m.monId streak else s
  if alarmU then s.alarm x (x.updateTag m.desc m.first) 2 m.monId uf else s

/-- What the collation of a step does to the scale table, the monitor state and the alarms, with the group's observations (R293
R303-R306). -/
def State.numCollate (s : State) (x : Sched) (obs : List Obs) : State :=
  match x.image.num with
  | none => x.stateAlarms.foldl (fun s a => s.alarm x a.1 3 0 a.2.toNat) s
  | some n =>
    let s := s.scaleUpdate x obs
    let s := (n.mons.mapIdx fun i m => (i, m)).foldl (fun s im => s.monitor x n.monAddr im.1 im.2) s
    let s := x.stateAlarms.foldl (fun s a => s.alarm x a.1 3 0 a.2.toNat) s
    let s := (obs.filter Obs.ovf).foldl (fun s o => s.alarm x 0 4 o.idx o.code) s
    (obs.filter fun o => x.probe.skipped && o.ovf && x.probe.probed.contains o.idx).foldl (fun s o => s.alarm x x.firstTag 5 o.idx o.code) s

/-! ## Commands -/

/-- The schedule whose scale table a context names; all schedules of one context name the same (R286). -/
def State.numOf (s : State) (c : Nat) : Option Sched := s.scheds.find? fun x => x.ctx = c && x.image.num.isSome

/-- The checks that both operations of NUM_SCALES share (R297): the status, if any. A context without a table has no entries. -/
def State.scalesBad (s : State) (x : Slot) : Option Nat :=
  let b := x.req
  let n := fld b 4 2
  let w := fld b 0 1 = 1
  if 1 < fld b 0 1 || 125 < n || ((s.numOf x.ctxNo).map Sched.numTensors).getD 0 < fld b 2 2 + n || (w && x.hdr.len.toNat ≠ 8 + 32 * n)
  then some stMalformed else if n = 0 then some stEmpty else none

/-- NUM_SCALES, OP 0 (R297); an OP that is reserved is refused here. -/
def execNumScalesRead (n : SlotId) (s : State) : Res :=
  if fld s.slots[n].req 0 1 = 1 then ok s
  else s.serlothMem n 0x0A01 fun x =>
    match s.scalesBad x, s.numOf x.ctxNo with
    | some st, _ => s.complete n st 0 []
    | none, none => s.complete n stMalformed 0 []
    | none, some y =>
      let a := y.numTable + 32 * fld x.req 2 2
      let k := 32 * fld x.req 4 2
      s.complete n (if s.rangePoisoned a k then stPoisoned else stOk) 0 (s.memRead a k)

/-- An entry that NUM_SCALES may write (R297). -/
def scaleEntOk (b : Bytes) : Bool := decide (2 ≤ fld b 2 1) && decide (fld b 2 1 ≤ 4) && decide (1 ≤ fld b 3 1) && decide (fld b 3 1 ≤ 16)

/-- NUM_SCALES, OP 1 (R297). -/
def execNumScalesWrite (n : SlotId) (s : State) : Res :=
  if fld s.slots[n].req 0 1 ≠ 1 then ok s
  else s.serlothMem n 0x0A01 fun x =>
    match s.scalesBad x, s.numOf x.ctxNo with
    | some st, _ => s.complete n st 0 []
    | none, none => s.complete n stMalformed 0 []
    | none, some y =>
      let k := fld x.req 4 2
      let data := sub x.req 8 (32 * k)
      if s.scheds.any fun z => z.ctx = x.ctxNo && z.active then s.refuse n stBusy 0
      else if !(List.range k).all fun i => scaleEntOk (sub data (32 * i) 32) then s.refuse n stState 0
      else (s.memWrite (y.numTable + 32 * fld x.req 2 2) data).complete n stOk 0 []

/-- NUM_MONITOR (R307). -/
def execNumMonitor (n : SlotId) (s : State) : Res :=
  s.serloth n 0x0A02 fun x =>
    let c := s.ctxs[ctxId x.ctxNo]
    let a := fld x.req 0 2
    let b := fld x.req 2 2
    let s := s.setCtx (ctxId x.ctxNo) { c with
      streakLimit := if a = 0 then c.streakLimit else BitVec.ofNat 16 a, ufThresh := if b = 0 then c.ufThresh else BitVec.ofNat 16 b }
    s.complete n stOk 0 (le 2 c.streakLimit.toNat ++ le 2 c.ufThresh.toNat ++ le 4 0)

end Sys2Proof.Machine
end

