-- ==== Sys2Proof/Machine/Steps.lean ====
section
/-! DEFINITION. Steps of a schedule: launches, the step ledger's copies, and background windows (01_step R25-R36, 08_conditional
R241-R243, 11_time R318 R321 R327 R345, 13_collation R387). -/

namespace Sys2Proof.Machine

/-! ## Times -/

/-- The first multiple of the 8 ns launch granule at or after a time (R311). -/
def granule (t : Nat) : Nat := ceilDiv t 8 * 8

/-- The device counts as locked for a scope (R321). -/
def State.lockedFor (s : State) (machine : Bool) : Bool :=
  let t := s.time.tstate
  if imgMaster s.act then !machine || (t ≠ .acquiring && t ≠ .unlocked) else t = .locked || t = .holdover

/-- PATH and GROUP_PATH as the device reports them (R318). -/
def State.repPath (s : State) : Nat :=
  if imgRoot s.act then 0 else if s.time.tstate = .acquiring || s.time.tstate = .unlocked then 0xFFFF else s.time.path.toNat
def State.repGroupPath (s : State) : Nat :=
  if imgMaster s.act then 0 else if s.time.tstate = .acquiring || s.time.tstate = .unlocked then 0xFFFF else s.time.groupPath.toNat

/-- The nominal start of step n (R327). -/
def Sched.stepStart (x : Sched) (n : Nat) : Nat := x.armTime + n * x.image.period

/-- The current step has not launched, or is collated, and no diagnostic replay of it runs. -/
def Sched.between (x : Sched) : Bool := !x.inReplay && (x.coll.state = .none || x.coll.state = .collated)

/-- The step of the next launch: the one after a collated step, else the current one. -/
def Sched.launchStep (x : Sched) : Nat := if x.between && x.coll.state = .collated then x.step + 1 else x.step

/-- A diagnostic replay of the collated step is due before the next launch (13_collation R402). -/
def Sched.diagDue (x : Sched) : Bool := x.coll.state = .collated && (match x.diag with | some d => decide (d.1 = x.step) | none => false)

/-- A phase that a step selects (Table 11-6). -/
def PhaseE.inStep (p : PhaseE) (n : Nat) : Bool := n % 2 ^ p.every = p.stepPhase

/-- The learning phases that a step selects. -/
def Sched.learningOf (x : Sched) (n : Nat) : List Nat :=
  (List.range x.image.phases.length).filter fun p => match x.image.phases[p]? with
    | some e => !e.gen && e.inStep n
    | none => false

/-- A launched run of a phase in a step. -/
def Sched.runOf (x : Sched) (p n : Nat) : Option PhaseRun := x.runs.find? fun r => r.phase = p && r.step = n

/-- Every learning phase of a step has been launched, and is complete or has stopped. -/
def Sched.learned (x : Sched) (n : Nat) : Bool :=
  (x.learningOf n).all fun p => match x.runOf p n with
    | some r => !r.inProgress
    | none => false

/-! ## Streams that halt (06_programs R184) -/

/-- Every stream of a run that is still active has halted, with nothing in progress. -/
def State.runHalted (s : State) (r : PhaseRun) : Bool :=
  r.inProgress && r.active ≠ [] && r.active.all fun e => s.engines[e].halted && s.engines[e].entries = []

/-- Ends a run: its engines are free, and a late one writes its DEADLINE slip (R345). -/
def State.stopRun (s : State) (x : Sched) (r : PhaseRun) : State :=
  let s := s.deadlineSlip x r 0
  let s := r.active.foldl (fun s e => s.setEng e { s.engines[e] with running := false, freeAt := s.now }) s
  match s.sched x.id with
  | none => s
  | some y => s.setSched { y with runs := y.runs.map fun z => if z = r then { r with stopped := true, active := [] } else z }

/-- Ends the runs of a schedule whose streams have all halted (log entry 59). -/
def State.settle (s : State) (id : Nat) : State :=
  match s.sched id with
  | none => s
  | some x => ((x.runs.filter s.runHalted).foldl (fun s r => s.stopRun x r) s).finishCancel id

/-! ## The ledger's copies (13_collation R387) -/

def State.snapBase (s : State) : Nat := s.ledgerBase + 0x2000
def State.scaleCopy (s : State) : Nat := s.ledgerBase + 0x10000
def State.monCopy (s : State) : Nat := s.ledgerBase + 0x90000

/-- The counter snapshot: 12 folios x 512 counters. -/
def State.ctrBytes (s : State) : Bytes := (List.range 6144).flatMap fun c => le 4 (s.ctr c).toNat

/-- A copy into the control area; the working device of a shadow pair sends it (R415). -/
def State.controlWrite (s : State) (step a : Nat) (d : Bytes) : State :=
  if d = [] then s else (s.memWrite a d).feed (.control step (a - s.ledgerBase) d)

/-- Copies the scale table into the ledger (R387, 10_numerics R294). -/
def State.copyScales (s : State) (x : Sched) : State :=
  s.controlWrite x.step s.scaleCopy (s.memRead x.numTable (32 * x.numTensors))

/-- The first launch of a step of the collated schedule writes its ledger (R387 R392). -/
def State.openLedger (s : State) (x : Sched) (n : Nat) : State :=
  if !x.collated then s
  else
    let s := { s with ledger := { s.ledger with
      schedId := x.id, setId := x.image.setId, step := n, logPos := 0, logIdx := 0, overflow := false, incomplete := false, held := true, votes := [] } }
    let s := s.controlWrite n s.snapBase s.ctrBytes
    let s := s.copyScales { x with step := n }
    match x.image.num with
    | some u => s.controlWrite n s.monCopy (s.memRead u.monAddr (8 * u.mons.length))
    | none => s

/-- Collation of a step that has not begun its work. -/
def Coll.start : Coll :=
  { state := .running, lastRound := 0, roundFlags := 0, firstBad := 0xFF, locals := 0, groups := 0, flags := 0, flags0 := 0,
    replayers := 0, entries := [], digests := [], shares := [], recto := ⟨0, false⟩, verso := ⟨0, false⟩, wrote := [], arbTodo := 0, arbFailed := 0,
    takes := [], obs := [] }

/-- What each pass of a step begins with: no shares, no digests, no vote, no observations; the issue counts restart (R390). -/
def Sched.freshPass (x : Sched) : Sched :=
  { x with
    vote := { own := [], got := [], sentUp := [], castAt := 0, decided := [], scans := [] }
    obs := [], monCounts := [], stateAlarms := [], shareTags := []
    coll := { x.coll with flags := 0, digests := [], shares := [] } }

def State.clearIssue (s : State) (x : Sched) : State :=
  if x.collated then { s with engines := s.engines.map fun (e : Engine) => { e with issue := 0 } } else s

/-- The first launch of a step (R327 R387): the step becomes the current one, and a probe step begins with its probe pass
(10_numerics R295 R296). The runs of the step before stay to name the cause of a late launch, and a run that holds pins stays. The device's last
digests stay until it forms new ones (13_collation R393 R417). -/
def State.firstLaunch (s : State) (id n : Nat) : State :=
  match s.sched id with
  | none => s
  | some x =>
    let s := (s.openLedger x n).clearIssue x
    let probing := n = 0 && x.probe.unsettled ≠ []
    let y := { x with
      step := n, state := .running, launchedBg := [], pendingStep := none, replay := none
      runs := x.runs.filter fun r => r.inProgress || (!r.complete && r.pins ≠ []) || r.step + 1 = n
      coll := { Coll.start with recto := x.coll.recto, verso := x.coll.verso }, bar := { x.bar with roundStart := x.stepStart n }
      probe := { x.probe with pass := probing, probed := if probing then x.probe.unsettled else [], skipped := false } }
    s.setSched y.freshPass.mergeLater

/-! ## Launches (R25 R327 R345) -/

/-- The streams of a phase with their engines. -/
def Sched.streamsOf (x : Sched) (p : PhaseE) : List (StreamE × EngId) :=
  ((x.image.streams.drop p.firstStream).take p.nStreams).filterMap fun y => (x.image.progs[y.prog]?).map fun g => (y, g.eng)

/-- An engine is ready for a launch (R25). -/
def Engine.ready (g : Engine) : Bool := !g.running && g.entries = [] && !g.wedged

/-- The real pass of a probe step (10_numerics R296). -/
def Sched.realPass (x : Sched) : Bool := match x.replay with | some r => decide (r.kind = .probe) | none => false

/-- The nominal launch of a phase: from the step's start, or from a replay's start (13_collation R397). The real pass of a probe step
keeps the step's nominal times (10_numerics Table 10-4). -/
def Sched.nominal (x : Sched) (p : PhaseE) : Nat :=
  match x.replay with
  | some r => if !p.gen && r.started && decide (r.kind ≠ .probe) then r.start + p.launch else x.stepStart x.launchStep + p.launch
  | none => x.stepStart x.launchStep + p.launch

/-- The time before which a phase does not launch. -/
def Sched.launchAt (x : Sched) (p : PhaseE) : Nat :=
  match x.replay with
  | some r => if !p.gen && r.started then r.start + p.launch else x.nominal p
  | none => x.nominal p

/-- A shadow's local replay of a fed step, which runs while its schedule is ADMITTED (13_collation R415). -/
def State.shadowRuns (s : State) (x : Sched) : Bool :=
  (s.shadow.status = 1 || s.shadow.status = 2) && s.shadow.sched = x.id && x.state = .admitted && s.shadow.atBase.isSome

/-- The conditions of R327, and those of a cancellation (R335), of the arm exchange (10_numerics R295) and of a replay, which is exempt
from HELD (13_collation R397). A change of the staging split defers a launch until it is done (09_memory R262). -/
def State.launchable (s : State) (x : Sched) (i : Nat) (p : PhaseE) : Bool :=
  let n := x.launchStep
  let rep := x.inReplay && !p.gen
  p.inStep n && (x.runOf i n).isNone && decide (granule (x.launchAt p) ≤ s.now) && s.now % 8 = 0 &&
    ((x.state = .armed && x.probe.exchange.isSome && x.probe.armOk) || x.state = .running || (rep && (x.state = .held || s.shadowRuns x))) &&
    (x.cancel = none || (x.cancel = some true && !x.between)) &&
    (x.image.nSteps = 0 || decide (n < x.image.nSteps)) &&
    (rep || (p.gen && !x.between) || (x.replay.isNone && !x.diagDue && (x.between || x.coll.state = .running))) &&
    s.guard.power.pstate = .run && !s.guard.supply.stall && s.guard.devState = .ready && decide (s.mem.splitUntil ≤ s.now) &&
    (x.streamsOf p).all fun y => s.engines[y.2].ready

/-- The cause noted for the run that held an engine last. -/
def Sched.heldBy (x : Sched) (e : EngId) : Nat :=
  ((x.runs.reverse.find? fun r => (x.streamsOf (x.phaseOf r)).any fun y => y.2 = e).map PhaseRun.cause).getD 0

/-- The cause of a deferred launch (Table 11-12): the emergency point while it lasts, or the first condition that failed at the nominal
time, with the unit of the first stream that was not ready then. An engine that a late peer kept busy is late for the peer's sake
(R345 R347; log entry 60). -/
def State.deferCause (s : State) (x : Sched) (p : PhaseE) (nom : Nat) : Nat × Byte :=
  let late := (x.streamsOf p).find? fun y => decide (nom < s.engines[y.2].freeAt)
  if s.guard.supply.opPoint = .emergency || decide (nom < s.guard.supply.leftAt) then (5, ((late.map fun y => s.unitByte y.2).getD 0xFF#8)) else
  match late with
  | some y => (if x.heldBy y.2 = 9 then 9 else 1, s.unitByte y.2)
  | none =>
    (if x.realPass then 8
     else if nom < x.downAt then 2 else if nom < x.collAt then 3 else if nom < s.guard.power.runAt then 6
     else if nom < x.heldUntil then 12 else if nom < s.mem.splitUntil then 7 else 0, 0xFF#8)

/-- Starts the stream of a phase on its engine (06_programs R165): an engine that passes to another context is cleared (04_array
R134). -/
def State.startStream (s : State) (x : Sched) (i : Nat) (e : EngId) (prog entry : Nat) : State :=
  let g := s.engines[e]
  let a := if (g.grant.map Grant.ctx) = some x.ctx then { g.array with queue := [] } else Array_.reset
  let s := s.setEng e { g with
    grant := some { ctx := x.ctx, sched := x.id, phase := i, prog := prog }, pc := entry, running := true, halted := false
    queue := [], loops := [], regs := [], entries := [], chains := [], deadIn := [], chIn := 0, chOut := 0, stopAt := none, array := a }
  (s.fillQueue e).trace x.ctx e false
    { tag := 0, kind := 6, unit := s.unitByte e, engine := e.val, pc := BitVec.ofNat 32 entry, status := 0, data := 0, stamp := s.time.stitch }

/-- The arbiters take the demands that admission computed for a phase and its streams (R340). -/
def State.loadArbiters (s : State) (x : Sched) (i : Nat) : State :=
  let l := (x.demands.filter fun d => d.1 = i).map Prod.snd
  { s with mem.arbiters := (s.mem.arbiters.filter fun a => !(l.any fun d => d.1 = a.1)) ++ l }

/-- Launches a phase: its slips, its pins, the arbiters' weights and its streams. The choice of the half is that of the first descriptor
named, and the pins lie on that half of every one (08_conditional R241). -/
def State.launch (s : State) (x : Sched) (i : Nat) (p : PhaseE) : State :=
  let nom := x.nominal p
  let late := decide (granule nom < s.now)
  let (c, u) := s.deferCause x p nom
  let s := if late then s.slip x.id { tag := 0, kind := 1, cause := c, phase := i, unit := u, step := x.step, nominal := nom, actual := s.now } else s
  let locked := s.lockedFor x.image.machineScope
  let s := if locked then s else
    s.slip x.id { tag := 0, kind := 4, cause := 10, phase := i, unit := 0xFF, step := x.step, nominal := nom, actual := s.now }
  let ds := (List.range p.nPin).map (· + p.firstPin)
  let half := fun d => match x.image.updates[d]? with | some u => s.lastHalf u | none => false
  let halfB := p.gen && (match ds.head? with | some d => half d | none => false)
  let emergency := decide (s.guard.supply.opPoint = .emergency)
  let r : PhaseRun := { phase := i, step := x.step, nominal := nom, launched := s.now, gen := p.gen, halfB := halfB,
                        active := (x.streamsOf p).map (·.2), complete := false, stopped := false,
                        cause := if late then c else if emergency then 5 else 0,
                        pins := if p.gen then ds.map fun d => (d, halfB) else [], status := 0 }
  let s := match s.sched x.id with
    | some y => s.setSched { y with runs := y.runs ++ [r] }
    | none => s
  let s := s.loadArbiters x i
  (x.streamsOf p).foldl (fun s y => s.startStream x i y.2 y.1.prog (if p.gen && halfB then y.1.entryB else y.1.entryA)) s

/-- PHASE_LAUNCH (R327). The first launch of a step writes the ledger first. -/
def execPhaseLaunch (sched phase : Nat) (s : State) : Res :=
  let s0 := s
  let s := s.settle sched
  match s.sched sched with
  | none => ok s0
  | some x =>
    match x.image.phases[phase]? with
    | none => ok s0
    | some p =>
      if !s.launchable x phase p then ok s0
      else
        let s' := if x.between then s.firstLaunch sched x.launchStep else s
        match s'.sched sched with
        | none => ok s0
        | some y => ok (s'.launch y phase p)

/-! ## Background windows (R326) -/

/-- The window of a background entry in the current step. -/
def Sched.bgOpen (x : Sched) (b : BgE) (now : Nat) : Bool :=
  decide (x.stepStart x.step + b.start ≤ now) && decide (now < x.stepStart x.step + b.stop)

/-- BACKGROUND_WINDOW (R326): the activity may run until its window closes. A replay runs no background entry (13_collation,
Replay). -/
def execBackgroundWindow (sched entry : Nat) (s : State) : Res :=
  match s.sched sched with
  | none => ok s
  | some x =>
    match x.image.bgs[entry]? with
    | none => ok s
    | some b =>
      if x.state = .running && x.coll.state ≠ .none && x.replay.isNone && x.cancel ≠ some false && x.bgOpen b s.now &&
          s.guard.power.pstate = .run && !x.launchedBg.contains entry then
        ok (s.setSched { x with launchedBg := x.launchedBg ++ [entry] })
      else ok s

/-- A window of a KIND is open on the device. -/
def State.bgWindow (s : State) (kind : Nat) : Bool :=
  s.scheds.any fun x => x.active && x.launchedBg.any fun i => match x.image.bgs[i]? with
    | some b => b.kind = kind && x.bgOpen b s.now
    | none => false

end Sys2Proof.Machine
end

