-- ==== Sys2Proof/Machine/Collate.lean ====
section
/-! DEFINITION. Barriers, collation rounds, replays, known-answer runs, arbitration and takeovers (11_time R330-R332, 13_collation
R393-R410 R417 R418, 15_faults R469-R471). -/

namespace Sys2Proof.Machine

/-! ## The round's outcome (R394) -/

inductive Outcome where
  | collated
  | localReplay (devs : List Nat)
  | group
  | arbitrate (bad : List Nat)
  | escalate (bad : List Nat)
  deriving DecidableEq, Repr

/-- The facing device of a group index, from the arm exchange (R382). -/
def Sched.facing (x : Sched) (g : Nat) : Nat :=
  (((x.probe.exchange.getD []).find? fun a => a.index = g).map ArmEntry.facing).getD g

/-- Two digests agree: a poisoned one never does (05_vector_optimizer R159). -/
def digAgrees (a b : Dig) : Bool := a.val = b.val && !a.poison && !b.poison

/-- The failing group indices: an entry whose recto digest and its facing device's verso digest do not agree. -/
def failingPairs (es : List RoundEntry) (facing : Nat → Nat) : List Nat :=
  (es.filter fun e => match es.find? fun f => f.index = facing e.index with
    | some f => !digAgrees e.recto f.verso || e.flags.getLsbD 6 || f.flags.getLsbD 7
    | none => true).map RoundEntry.index

/-- The outcome that every device computes from a round's entries (R394). -/
def roundOutcome (es : List RoundEntry) (facing : Nat → Nat) (locals groups localLimit groupLimit : Nat) : Outcome :=
  let bad := failingPairs es facing
  let again := if groups < groupLimit then Outcome.group else .escalate bad
  if es.any fun e => e.flags &&& 0x023F#16 ≠ 0 then again
  else if bad = [] then .collated
  else
    let devs := dedup (bad ++ bad.map facing)
    if es.any fun e => devs.contains e.index && e.flags.getLsbD 8 then again
    else if locals < localLimit then .localReplay devs
    else .arbitrate bad

/-! ## Known-answer runs (15_faults R469-R471) and takeovers (Table 13-8) -/

/-- The logical folio of a physical one. -/
def State.logOf (s : State) (p : Phys) : Option Nat := (List.range 12).find? fun l => s.physOf l = some p

/-- The active logical folios, ascending. -/
def State.activeFolios (s : State) : List Nat := (List.range 12).filter fun l => (s.physOf l).isSome

/-- An engine of a logical folio is granted to a launched phase. -/
def State.folioBusy (s : State) (l : Nat) : Bool :=
  s.scheds.any fun x => x.runs.any fun r => r.inProgress && r.active.any fun e => decide (e.val < 36) && engUnit e = l

/-- Enters HELD. -/
def State.holdSched (s : State) (id : Nat) : State :=
  match s.sched id with
  | some x => (s.setSched { x with state := .held }).cutCheck
  | none => s

/-- Escalation (R396): the schedule is HELD, with record 0x0502 and the Guard's report, which carries the round's flags and above them the mask
of the failing pairs. -/
def State.escalate (s : State) (id : Nat) (bad : List Nat) : State :=
  match s.sched id with
  | none => s
  | some x =>
    let first := (minOf bad).getD 0xFF
    let s := s.setSched { x with state := .held, replay := none, coll := { x.coll with state := .escalated, firstBad := first, arbTodo := 0, arbFailed := 0, takes := [] } }
    ((s.nativeE 3 0x0502 x.ctx 0xFF 0 first 0 x.coll.roundFlags.toNat).emit (.report 0x0502 (x.coll.roundFlags.toNat + 65536 * bad.foldl (fun m g => m.lor (2 ^ g)) 0))).cutCheck

/-- The quire's spare folio and whether it is available in standard mode (R409). -/
def spareOf (q : Nat) : Phys := Fin.ofNat 12 (3 * q + 2)
def State.spareFree (s : State) (q : Nat) : Bool := !s.frw.fullLeaf && bit s.frw.spare.toNat q

/-- Asks for the takeover of a logical folio; where its quire has no spare left the step escalates (R409). -/
def State.wantTake (s : State) (id l cause : Nat) : State :=
  match s.sched id with
  | none => s
  | some x =>
    let q := (s.quireOf l).val
    if s.spareFree q && !(x.coll.takes.any fun t => (s.quireOf t.1).val = q) then
      s.setSched { x with coll := { x.coll with takes := x.coll.takes ++ [(l, cause)] } }
    else s.escalate id [imgGroupIndex s.act]

/-- Moves a logical folio to a physical one (R36, Table 13-8 orders 3 and 4): its engines are cleared, the failed physical folio is
power-gated, FRW changes with measurement 9, and record 0x0503 is written. The cause's code is not given in the spec (log entry 61). -/
def State.moveFolio (s : State) (l : Nat) (p : Phys) (cause : Nat) : State :=
  let old := ((s.physOf l).map (·.val)).getD 0xF
  let clear := fun (s : State) (c : Nat) => match engOf c l with
    | some e => s.setEng e { s.engines[e] with array := Engine.reset.array, hung := false, noAck := false, wedged := false }
    | none => s
  let s := clear (clear (clear s 0) 1) 2
  let s := { s with frw := { s.frw with
    gated := if old < 12 then s.frw.gated ||| BitVec.ofNat 12 (2 ^ old) else s.frw.gated
    gen := s.frw.gen + 1, spare := s.frw.spare &&& ~~~(BitVec.ofNat 4 (2 ^ (p.val / 3)))
    map := if h : l < 12 then s.frw.map.set l (some p) else s.frw.map } }
  s.measure9.native 0 0x0503 l 0 (old + 16 * p.val + 256 * (Config.takeoverCause cause).toNat)

/-- Counters of a folio as the step's snapshot holds them (R36). -/
def State.snapCounters (s : State) (l : Nat) : State :=
  (List.range 512).foldl (fun s i => s.setCtr (512 * l + i) (BitVec.ofNat 32 (s.memNat (s.snapBase + 4 * (512 * l + i)) 4))) s

/-- A replay that begins: its start is the first granule at or after 50 us from now (R397 R399). -/
def Replay.at (kind : ReplayKind) (start step : Nat) : Replay :=
  { kind := kind, start := granule start, step := step, logPos := 0, logIdx := 0, started := false, saved := [], savedCtrs := [] }

/-- The elements that a sheet of a half's region holds: the first and how many. The step count goes with element 0 (05_vector_optimizer R537). -/
def UpdateE.elemsIn (u : UpdateE) (b : Bool) (r : Nat × Nat) (sheet : Nat) : Nat × Nat :=
  let lo := sheet * 1024 - r.1
  let hi := min ((sheet + 1) * 1024 - r.1) r.2 - 1
  let at_ := fun (o : Nat) =>
    if r.1 = u.master b then (o - 8) / 4 else if r.1 = u.work b then o * 8 / elemBits u.wfmt
    else if isMX u.wfmt && r.1 = u.workScale b then 32 * o else o / 4
  let last := if isMX u.wfmt && r.1 = u.workScale b then at_ hi + 31 else if r.1 = u.work b then (8 * hi + 7) / elemBits u.wfmt else at_ hi
  (at_ lo, min (last + 1) u.count - at_ lo)

/-- The poisoned ranges of the last collated halves concerned: verso or recto, ordinal, first element and count (R397). -/
def State.poisonedElems (s : State) (x : Sched) : List (Bool × Nat × Nat × Nat) :=
  ((s.spoiltRanges x).flatMap fun r => match (descsOf x.image r.1)[r.2.1]?.bind fun d => x.image.updates[d]? with
    | some u => ((sheetRange r.2.2.1 r.2.2.2).filter s.poisoned).map fun k =>
        let e := u.elemsIn (s.lastHalf u) (r.2.2.1, r.2.2.2) k
        (r.1, r.2.1, e.1, e.2)
    | none => []).eraseDups

/-- Asks the mirrors for the poisoned ranges: recto from the facing device's verso, verso from the device it faces
(R397). The data arrive as remote parts. -/
def State.askRepair (s : State) (x : Sched) : State :=
  let me := imgGroupIndex s.act
  let faced := (((x.probe.exchange.getD []).find? fun a => a.facing = me).map ArmEntry.index).getD me
  (s.poisonedElems x).foldl (fun s e =>
    s.emit (.peerLoad (if e.1 then faced else x.facing me) (if e.1 then 2 else 1) e.2.1 e.2.2.1 e.2.2.2)) s

/-- Enters the replay that an outcome requires on this device. A repair clears both counts (R400). -/
def State.enterReplay (s : State) (id : Nat) (kind : ReplayKind) : State :=
  match s.sched id with
  | none => s
  | some x =>
    let st := if kind = .group then CollState.groupReplay else .localReplay
    let fixed := s.spoiltRanges x ≠ []
    let s := s.setSched { x with replay := some (Replay.at kind (s.now + 50000) x.step), coll := { x.coll with
      state := st, locals := if fixed then 0 else x.coll.locals, groups := if fixed then 0 else x.coll.groups } }
    s.askRepair x

/-- Arbitration that has run every kernel and every takeover (Table 13-7). What the partner's kernels gave is not sent in any message
of the spec: where this device's folios all passed, a free value decides (log entry 62). -/
def State.endArbitration (s : State) (id : Nat) : State :=
  match s.sched id with
  | none => s
  | some x =>
    if x.coll.state ≠ .arbitration || x.coll.arbTodo ≠ 0 || x.coll.takes ≠ [] then s
    else if x.coll.arbFailed ≠ 0 then s.enterReplay id .localReplay
    else
      let (v, s) := s.fresh
      if v.getLsbD 0 then s.enterReplay id .localReplay else s.escalate id [imgGroupIndex s.act]

/-- A spare's run ends the takeover that waits for it (Table 13-8): a failure escalates. A takeover clears both replay counts (R400). -/
def State.takeover (s : State) (p : Phys) (pass : Bool) : State :=
  s.scheds.foldl (fun s y =>
    match s.sched y.id with
    | none => s
    | some x =>
      match x.coll.takes.find? fun t => spareOf (s.quireOf t.1).val = p with
      | none => s
      | some t =>
        if !pass then s.escalate x.id [imgGroupIndex s.act]
        else
          let s := s.setSched { x with coll := { x.coll with takes := x.coll.takes.filter fun u => u ≠ t, locals := 0, groups := 0 } }
          let s := s.moveFolio t.1 p t.2
          let s := if s.ledger.held then s.snapCounters t.1 else s
          s.endArbitration x.id) s

/-- A run on a folio whose kernels an arbitration, or a group replay after an arithmetic error, waits for (R404 R409). -/
def State.katForReplay (s : State) (l : Nat) (pass : Bool) : State :=
  s.scheds.foldl (fun s y =>
    match s.sched y.id with
    | none => s
    | some x =>
      if !x.coll.arbTodo.getLsbD l then s
      else
        let m : BitVec 12 := BitVec.ofNat 12 (2 ^ l)
        let s := s.setSched { x with coll := { x.coll with
          arbTodo := x.coll.arbTodo &&& ~~~m, arbFailed := if pass then x.coll.arbFailed else x.coll.arbFailed ||| m } }
        let s := if pass then s else s.wantTake x.id l (if x.coll.state = .arbitration then 2 else 1)
        s.endArbitration x.id) s

/-- The positions of the known-answer rotation of a step, as logical folios (R407). -/
def State.rotation (s : State) (n : Nat) : List Nat :=
  let fs := s.activeFolios
  let a := fs.length
  if a = 0 then [] else (List.range (ceilDiv a 8)).map fun i => fs.getD ((n * ceilDiv a 8 + i) % a) 0

/-- The rotation of the current step runs a folio now: a declared window of KIND 1 that occupies the folio is open (R407, 01_step R34). -/
def State.katDue (s : State) (l : Nat) : Bool :=
  match s.collated with
  | none => false
  | some x =>
    x.active && x.replay.isNone && (s.rotation x.step).contains l &&
      x.launchedBg.any fun i => match x.image.bgs[i]? with
        | some b => b.kind = 1 && b.mask.getLsbD l && x.bgOpen b s.now
        | none => false

/-- A run of the rotation of the current step: a failure sets KAT (R407 R408). -/
def State.katForStep (s : State) (l : Nat) (pass : Bool) : State :=
  match s.collated with
  | none => s
  | some _ =>
    if s.katDue l && !pass then s.colFlag 0x20#16 else s

/-- A COL_KAT that waits for a folio; it completes with its last run (R418). -/
def State.katForCommand (s : State) (l : Nat) (pass : Bool) : State :=
  (List.range 64).foldl (fun s i =>
    match s.slots[ctxId i].held with
    | .kat todo failed =>
      if !todo.getLsbD l then s
      else
        let m : BitVec 12 := BitVec.ofNat 12 (2 ^ l)
        let todo := todo &&& ~~~m
        let failed := if pass then failed else failed ||| m
        if todo ≠ 0 then s.hold (ctxId i) (.kat todo failed)
        else
          let asked := fld s.slots[ctxId i].req 0 2 % 4096
          let ran := (s.activeFolios.filter fun k => bit asked k).foldl (fun a k => a + 2 ^ k) 0
          let st := if failed = 0 then stOk else stHardware
          s.complete (ctxId i) st ((bitList failed.toNat 12).headD 0) (le 2 (ran - failed.toNat) ++ le 2 failed.toNat ++ le 4 0)
    | _ => s) s

/-- Whether a COL_KAT waits for a folio. -/
def State.katAsked (s : State) (l : Nat) : Bool :=
  (List.range 64).any fun i => match s.slots[ctxId i].held with
    | .kat todo _ => todo.getLsbD l
    | _ => false

/-- TAG of the first COL_KAT that waits for a folio, else 0. -/
def State.katTag (s : State) (l : Option Nat) : W32 :=
  match l with
  | none => 0
  | some l =>
    match (List.range 64).find? fun i => match s.slots[ctxId i].held with | .kat todo _ => todo.getLsbD l | _ => false with
    | some i => s.slots[ctxId i].hdr.tag
    | none => 0

/-- Record 0x0406 of a failed run. Its STEP is the first step collated since the folio's last passing run (13_collation R408). -/
def State.katRecord (s : State) (p : Phys) (failed set_ : Nat) (inj : Bool) : State :=
  let l := s.logOf p
  let known := match s.collated, l with
    | some x, some l => AMap.get zeroN x.katPassed l
    | _, _ => 0
  let step := if known = 0 then s.recStep else BitVec.ofNat 64 (known - 1)
  s.addRecAt step 3 3 0x0406 0xFF inj 0xFF (nativeBody (s.katTag l) p.val 0 (failed + 65536 * set_))

/-- The stage that an injection makes the next run of a logical folio fail (15_faults Table 15-12 TYPE 0x0A). -/
def State.katInjected (s : State) (p : Phys) : Nat × State :=
  match s.logOf p with
  | none => (0, s)
  | some l => match s.meet 0x0A l with
    | some (f, s) => (if f.param < 7 then 2 ^ f.param else 0, s)
    | none => (0, s)

/-- A passing run on an active folio: the steps collated since begin with the current one (R408). -/
def State.katPass (s : State) (p : Phys) : State :=
  match s.collated, s.logOf p with
  | some x, some l => s.setSched { x with katPassed := AMap.set zeroN x.katPassed l ((if x.between then x.launchStep else x.step) + 1) }
  | _, _ => s

/-- A run on a physical folio completes with the mask of its failed stages: the count of runs, the answer set and the record (R470). -/
def State.katRun (s : State) (p : Phys) (failed : Nat) : Bool × State :=
  let (inj, s) := s.katInjected p
  let r := AMap.get zeroN s.katRuns p.val
  let all := failed.lor inj
  let s := { s with katRuns := AMap.set zeroN s.katRuns p.val (r + 1), katLast := AMap.set noMark s.katLast p.val (all ≠ 0) }
  (all = 0, if all = 0 then s.katPass p else s.katRecord p all (r % 16) (inj ≠ 0 && failed = 0))

/-- Kernels are due on a physical folio: a spare that a takeover waits for, at a time when no phase of any schedule is launched (01_step
R35); a folio that COL_KAT, a replay or an arbitration waits for, or the rotation's, whose engines no launched phase holds. A power-gated folio
runs none (R36). -/
def State.katWanted (s : State) (p : Phys) : Bool :=
  !s.frw.gated.getLsbD p.val &&
  match s.logOf p with
  | none => (s.scheds.any fun x => x.coll.takes.any fun t => spareOf (s.quireOf t.1).val = p) && !s.scheds.any Sched.inProgress
  | some l => !s.folioBusy l && (s.katAsked l || (s.scheds.any fun x => x.coll.arbTodo.getLsbD l) || s.katDue l)

/-- The logical folios of the run that a folio's kernels belong to, in order: those that a COL_KAT names, every active one in an arbitration,
the folio alone after an arithmetic error, or the step's rotation (R404 R407 R409 R418). -/
def State.katSet (s : State) (l : Nat) : List Nat :=
  match (List.finRange 64).find? fun n => match s.slots[n].held with | .kat todo _ => todo.getLsbD l | _ => false with
  | some n => s.activeFolios.filter fun k => bit (fld s.slots[n].req 0 2) k
  | none =>
    match s.scheds.find? fun x => x.coll.arbTodo.getLsbD l with
    | some x => if x.coll.state = .arbitration then s.activeFolios else [l]
    | none => (s.collated.map fun x => s.rotation x.step).getD []

/-- The run on a folio has the OPE and RTE stages: it is the first of its quire in the run, as a spare that is tried alone is (R407 R469). -/
def State.katQuire (s : State) (p : Phys) : Bool :=
  match s.logOf p with
  | none => true
  | some l => decide ((s.katSet l).find? (fun k => s.quireOf k = s.quireOf l) = some l)

/-- KNOWN_ANSWER_RUN (R469-R471): where kernels are due on the folio. Stages 5 and 6 run only on the first folio of the quire in the run. -/
def execKnownAnswerRun (p : Phys) (failed : BitVec 5) (quireFailed : BitVec 2) (s : State) : Res :=
  let l := s.logOf p
  if !s.katWanted p || !s.enginesLive then ok s
  else
    let (pass, s) := s.raiseSupply.katRun p (failed.toNat + if s.katQuire p then 32 * quireFailed.toNat else 0)
    match l with
    | none => ok (s.takeover p pass)
    | some l =>
      if s.katAsked l then ok (s.katForCommand l pass)
      else ok ((s.katForReplay l pass).katForStep l pass)

/-- COL_KAT (R418): the named active folios run as their engines are free. -/
def execColKat (n : SlotId) (s : State) : Res :=
  s.serloth n 0x0803 fun x =>
    let m := (s.activeFolios.filter fun l => bit (fld x.req 0 2) l).foldl (fun a l => a + 2 ^ l) 0
    if m = 0 then s.complete n stEmpty 0 [] else s.raiseSupply.hold n (.kat (BitVec.ofNat 12 m) 0)

/-! ## Restoring a step (R397) -/

/-- Writes the counter snapshot, the scale-table copy and the monitor-state copy back. -/
def State.restore (s : State) (x : Sched) : State :=
  let s := x.image.counters.foldl (fun s c => s.setCtr c.ctr (BitVec.ofNat 32 (s.memNat (s.snapBase + 4 * c.ctr) 4))) s
  match x.image.num with
  | none => s
  | some n =>
    let s := if n.nTensors = 0 then s else s.memWrite n.tableAddr (s.memRead s.scaleCopy (32 * n.nTensors))
    if n.mons = [] then s else s.memWrite n.monAddr (s.memRead s.monCopy (8 * n.mons.length))

/-- The runs of a replay begin afresh: learning runs of the step are forgotten. -/
def Sched.replayPass (x : Sched) (r : Replay) : Sched :=
  let y := { x.freshPass with replay := some r, runs := x.runs.filter fun (p : PhaseRun) => p.gen || p.step ≠ x.step }
  match r.kind with
  | .diagnostic => { y with coll := { y.coll with wrote := x.coll.wrote, flags := x.coll.flags } }
  | _ => ({ y with coll := { y.coll with wrote := [] } }).mergeLater

/-- REPLAY_START (R397 R399): at the first granule at or after R, once kernels, takeovers and repairs are done, the step is restored and
its learning phases may launch. A group replay starts a fresh receive log and a fresh vote record. -/
def execReplayStart (sched : Nat) (s : State) : Res :=
  match s.sched sched with
  | none => ok s
  | some x =>
    match x.replay with
    | none => ok s
    | some r =>
      if r.started || decide (s.now < r.start) || s.now % 8 ≠ 0 || x.coll.arbTodo ≠ 0 || x.coll.takes ≠ [] || s.spoiltRanges x ≠ [] ||
          x.cancel = some false then ok s
      else
        let s := s.restore x
        let s := if r.kind = .group then
            { s with ledger := { s.ledger with logPos := 0, logIdx := 0, overflow := false, incomplete := false, votes := [] } } else s
        ok ((s.setSched (x.replayPass { r with started := true, start := granule s.now })).clearIssue x)

/-- LOG_ITEM_INJECT (R397 step 6): the next item of the log, once every stream has begun as many remote operations as it had when the
item arrived. -/
def execLogItemInject (sched : Nat) (s : State) : Res :=
  match s.sched sched with
  | none => ok s
  | some x =>
    match x.replay with
    | none => ok s
    | some r =>
      let a := s.logBase + r.logPos
      let ready := (List.finRange 44).all fun e => decide (s.memNat (a + 0x40 + 4 * e.val) 4 ≤ s.engines[e].issue)
      if !r.started || r.kind = .group || decide (s.ledger.logIdx ≤ r.logIdx) || !ready then ok s
      else
        let len := s.memNat (a + 4) 4
        let target := s.memNat (a + 0x18) 8
        let flags := s.memNat (a + 0x28) 4
        let data := s.memRead (a + 256) len
        let s := if s.memNat a 4 = 2 then s.addCtr (512 * bits target 9 4 + bits target 0 9) (target / 4294967296) x.ctx 0xFF 0
                 else s.memWriteP target data fun _ => bit flags 0
        match s.sched sched with
        | some y => ok (s.setSched { y with replay := some { r with logPos := r.logPos + 256 + ceilDiv len 64 * 64, logIdx := r.logIdx + 1 } })
        | none => ok s

/-! ## Collation (R395) -/

/-- The collation record of a descriptor after a collated step: the half that the step wrote becomes the last collated one. -/
def State.collateDesc (s : State) (x : Sched) (d : Nat) : State :=
  match x.image.updates[d]? with
  | none => s
  | some u =>
    let old := s.lastHalf u
    let r : CollRec := { masterA := u.masterA, halfB := if x.coll.wrote.contains d then !old else old, step := x.step,
                         digest := AMap.get noDig x.coll.digests d }
    let l := s.ledger.recs.filter (fun (y : CollRec) => y.masterA ≠ u.masterA) ++ [r]
    { s with ledger.recs := l.drop (l.length - 128) }

/-- A collated schedule that has run its last step is DONE (Table 11-9). -/
def Sched.afterStep (x : Sched) : SchState :=
  if x.image.nSteps ≠ 0 && x.image.nSteps = x.step + 1 then .done else .running

/-- Outcome COLLATED (R395): collation records, the numerics rewrites and alarms, the TRANSIENT record, and the end of the ledger, which a
requested diagnostic replay keeps (R402). -/
def State.collateStep (s : State) (id : Nat) (obs : List Obs) : State :=
  match s.sched id with
  | none => s
  | some x =>
    let s := (List.range x.image.updates.length).foldl (fun s d => s.collateDesc x d) s
    let s := s.numCollate x obs
    let s := if x.coll.replayers = 0 then s else s.nativeE 0 0x0501 x.ctx 0xFF 0 x.coll.flags0.toNat 0 x.coll.replayers.toNat
    let diag := match x.diag with | some d => decide (d.1 = x.step) | none => false
    let s := if x.collated then { s with ledger.held := diag } else s
    let s := (s.feed (.digests x.step x.coll.recto x.coll.verso))
    let y := { x with
      state := x.afterStep, lastCollated := some x.step, replay := none, pendingStep := none, collAt := s.now
      heldUntil := if x.state = .held then s.now else x.heldUntil
      cancel := if x.cancel = some true then some false else x.cancel
      probe := { x.probe with unsettled := [], probed := [], skipped := false }
      coll := { x.coll with state := .collated, obs := obs, arbTodo := 0, arbFailed := 0, takes := [] }
      bar := { round := 0, roundStart := s.now, ups := [], upSent := false, downDone := false, failed := false } }
    ((s.setSched y).cutCheck.finishCancel id).runPendings

/-! ## The barrier (11_time R330-R332) -/

/-- The flags of this device's entry (Table 13-4). -/
def State.entryFlags (s : State) (x : Sched) (rd vd : Dig) : BitVec 16 :=
  x.coll.flags ||| (if rd.poison then 0x40#16 else 0#16) ||| (if vd.poison then 0x80#16 else 0#16) |||
    (if x.collated && (s.ledger.overflow || s.ledger.incomplete) then 0x100#16 else 0#16)

/-- This device's entry: computed afresh after a first run or a replay, else as it was last sent (R393). A held device that has not
computed the step sends HALT (log entry 63). -/
def State.ownEntry (s : State) (x : Sched) : RoundEntry :=
  let me := imgGroupIndex s.act
  if x.coll.state = .waiting then
    let f := if x.learned x.step then x.coll.flags else x.coll.flags ||| 1#16
    { index := me, recto := x.coll.recto, verso := x.coll.verso, flags := f }
  else
    let r := x.deviceDigest false
    let v := x.deviceDigest true
    { index := me, recto := r, verso := v, flags := s.entryFlags x r v }

/-- The message that folds the device's content with its children's (R330 R292). -/
def State.upMessage (s : State) (x : Sched) : BarrierMsg :=
  let obs := (x.bar.ups.flatMap fun u => u.2.obs).foldl observeIn x.obs
  let es := if x.probe.pass then [] else s.ownEntry x :: x.bar.ups.flatMap fun u => u.2.entries
  { setId := x.image.setId, step := x.step, round := x.bar.round, entries := es, obs := obs, failed := false, missing := 0 }

/-- The device's part of the current round is done, and every child's message is here. A step that SCH_CANCEL ends at once is not collated
(R335). -/
def Sched.upReady (x : Sched) : Bool :=
  !x.bar.upSent && x.cancel ≠ some false && (barPorts x.image.bar.children).all (fun p => x.bar.ups.any fun u => u.1 = p) &&
    (x.state = .running || x.state = .held) &&
    (match x.coll.state with
     | .running => x.learned x.step
     | .localReplay | .groupReplay => x.inReplay && x.learned x.step
     | .waiting => true
     | _ => false)

/-- Loads PER_STEP counters (06_programs R186). -/
def State.reloadCounters (s : State) (x : Sched) : State :=
  (x.image.counters.filter CtrE.perStep).foldl (fun s c => s.setCtr c.ctr c.init) s

/-- A new round of the same step (R393). -/
def BarState.next (b : BarState) (now : Nat) : BarState :=
  { round := b.round + 1, roundStart := now, ups := [], upSent := false, downDone := false, failed := false }

/-- Completes a COL_REPLAY that waits for a schedule's replay (R402). -/
def State.finishReplayCmd (s : State) (id outcome : Nat) : State :=
  (List.range 64).foldl (fun s i => match s.slots[ctxId i].held with
    | .replay k t => if k = id then s.complete (ctxId i) stOk 0 (le 1 outcome ++ le 3 0 ++ le 4 t) else s
    | _ => s) s

/-- OUTCOME of COL_REPLAY after the round that closed a replay. -/
def replayOutcome (x : Sched) (collated failed : Bool) : Nat :=
  if failed then 4 else if collated then 0 else if x.coll.flags.getLsbD 0 then 2 else if x.coll.recto.poison || x.coll.verso.poison then 3 else 1

/-- The end of a probe pass (10_numerics Table 10-4 orders 3 and 4): the unsettled entries settle, the ledger keeps the table that
results, and the real pass re-executes the step from the ledger. -/
def State.probeEnd (s : State) (id : Nat) (m : BarrierMsg) : State :=
  match s.sched id with
  | none => s
  | some x =>
    let s := s.scaleSettle x m.obs
    let s := s.copyScales x
    let r := Replay.at .probe s.now x.step
    let s := s.setSched { x with
      probe := { x.probe with pass := false }
      replay := some r
      coll := { x.coll with state := .localReplay }
      bar := { x.bar.next s.now with round := 0 } }
    s

/-- What a round's outcome does at this device (R394-R396). -/
def State.roundEnd (s : State) (id : Nat) (m : BarrierMsg) : State :=
  match s.sched id with
  | none => s
  | some x =>
    let me := imgGroupIndex s.act
    let flags := m.entries.foldl (fun f e => f ||| e.flags) 0#16
    let bad := failingPairs m.entries x.facing
    let was := x.inReplay && !x.realPass
    let x := { x with replay := none, bar := x.bar.next s.now, coll := { x.coll with
      lastRound := m.round, roundFlags := flags, entries := m.entries, obs := m.obs, firstBad := (minOf bad).getD 0xFF
      flags0 := if m.round = 0 then flags else x.coll.flags0 } }
    let note := fun (s : State) (done : Bool) => if was then s.finishReplayCmd id (replayOutcome x done false) else s
    match roundOutcome m.entries x.facing x.coll.locals x.coll.groups (imgLocalLimit s.act) (imgGroupLimit s.act) with
    | .collated => note ((s.setSched x).collateStep id m.obs) true
    | .localReplay devs =>
      let mask := devs.foldl (fun a d => a ||| BitVec.ofNat 16 (2 ^ d)) x.coll.replayers
      let s := s.setSched ({ x with coll := { x.coll with locals := x.coll.locals + 1, replayers := mask, state := .waiting } }).mergeLater
      note (if devs.contains me then s.enterReplay id .localReplay else s) false
    | .group =>
      let mask := m.entries.foldl (fun a e => a ||| BitVec.ofNat 16 (2 ^ e.index)) x.coll.replayers
      let s := s.setSched { x with coll := { x.coll with groups := x.coll.groups + 1, replayers := mask } }
      let s := s.enterReplay id .group
      let failed := s.activeFolios.filter fun l => x.coll.flags.getLsbD 5 && (match s.physOf l with | some p => AMap.get noMark s.katLast p.val | none => false)
      let s := (dedup (failed ++ bitList x.coll.arbFailed.toNat 12)).foldl (fun s l => s.wantTake id l (if failed.contains l then 1 else 3)) s
      note s false
    | .arbitrate bad =>
      let mine := bad.contains me || bad.any fun g => x.facing g = me
      let todo := s.activeFolios.foldl (fun a l => a ||| BitVec.ofNat 12 (2 ^ l)) (0 : BitVec 12)
      let s := s.setSched { x with coll := { x.coll with
        state := if mine then .arbitration else .waiting, arbTodo := if mine then todo else 0, arbFailed := 0 } }
      note s false
    | .escalate bad => note ((s.setSched x).escalate id bad) false

/-- A step whose barrier ends before its first launch becomes the current step, with its ledger (R327 R331). -/
def State.beginStep (s : State) (id : Nat) : State :=
  match s.sched id with
  | none => s
  | some x => if x.between && x.state ≠ .held then s.firstLaunch id x.launchStep else s

/-- A failed barrier (R331): HELD at once; the step waits for a new round. Record 0x0508 is not written again by a device that is
HELD already. -/
def State.barFailed (s : State) (id : Nat) (missing : BitVec 12) : State :=
  let s := s.beginStep id
  match s.sched id with
  | none => s
  | some x =>
    let s := if x.state = .held then s else (s.nativeE 3 0x0508 x.ctx 0xFF 0 missing.toNat 0 0).emit (.report 0x0508 missing.toNat)
    let s := if x.inReplay then s.finishReplayCmd id (replayOutcome x false true) else s
    (s.setSched { x with state := .held, replay := none, coll := { x.coll with state := if x.between then x.coll.state else .waiting }, bar := { x.bar.next s.now with failed := true } }).cutCheck

/-- The barrier is complete at this device (R330): PER_STEP counters, pending presses, then the outcome. A step that SCH_CANCEL ends at once
takes no outcome (R335). -/
def State.barrierDone (s : State) (id : Nat) (m : BarrierMsg) : State :=
  match s.sched id with
  | none => s
  | some x =>
    let s := (barPorts x.image.bar.children).foldl (fun s p => s.emit (.barrierDown p m)) s
    if x.cancel = some false then s
    else if m.failed then s.barFailed id m.missing
    else
      let s := s.reloadCounters x
      let s := s.setSched { x with downAt := if x.bar.round = 0 then s.now else x.downAt }
      let s := s.barrierPendings x
      if x.probe.pass then s.probeEnd id m else s.roundEnd id m

/-- Sends the up message; the root completes the barrier. -/
def State.sendUp (s : State) (id : Nat) : State :=
  match s.sched id with
  | none => s
  | some x =>
    if !x.upReady then s
    else
      let m := s.upMessage x
      let own := s.ownEntry x
      let x := { x with bar := { x.bar with upSent := true }, coll := if x.probe.pass then { x.coll with state := .round } else { x.coll with
        recto := own.recto, verso := own.verso, flags := own.flags, state := if x.coll.state = .waiting then .waiting else .round } }
      let s := s.setSched x
      match portId x.image.bar.parent with
      | some p => s.emit (.barrierUp p m)
      | none => s.barrierDone id m

/-- A step that selects no phase begins at its nominal start, on the conditions of a launch, so that it closes with its barrier (R327
R330). -/
def State.beginEmpty (s : State) (id : Nat) : State :=
  match s.sched id with
  | none => s
  | some x =>
    let n := x.launchStep
    let none_ := x.image.phases.all fun p => !p.inStep n
    if none_ && x.between && x.replay.isNone && !x.diagDue && x.cancel = none && decide (granule (x.stepStart n) ≤ s.now) &&
        (x.state = .running || (x.state = .armed && x.probe.exchange.isSome && x.probe.armOk)) &&
        (x.image.nSteps = 0 || decide (n < x.image.nSteps)) && s.guard.power.pstate = .run && s.guard.devState = .ready then
      s.firstLaunch id n
    else s

/-- BARRIER_UP_SEND (R330). -/
def execBarrierUpSend (sched : Nat) (s : State) : Res := ok (((s.settle sched).beginEmpty sched).sendUp sched)

/-- The schedule whose barrier awaits a message that verifies: its SET_ID, step and round (R332, 12_links R363). -/
def State.awaits (s : State) (m : BarrierMsg) : Option Sched :=
  if !m.authOk then none else s.scheds.find? fun x => x.active && x.image.setId = m.setId && x.launchStep = m.step && x.bar.round = m.round

/-- BARRIER_UP_RECEIVE (R330 R332): the root that has everything completes the barrier. -/
def execBarrierUpReceive (p : Port) (m : BarrierMsg) (s : State) : Res :=
  if !s.ports[p].admitted then ok s
  else match s.awaits m with
    | none => ok (s.malformed p)
    | some x =>
      if !x.image.bar.children.getLsbD p.val || x.bar.ups.any fun u => u.1 = p then ok (s.malformed p)
      else
        let s := s.setSched { x with bar := { x.bar with ups := x.bar.ups ++ [(p, m)] } }
        if (portId x.image.bar.parent).isNone then ok ((s.settle x.id).sendUp x.id) else ok s

/-- BARRIER_DOWN_RECEIVE (R330-R332). -/
def execBarrierDownReceive (p : Port) (m : BarrierMsg) (s : State) : Res :=
  if !s.ports[p].admitted then ok s
  else match s.awaits m with
    | none => ok (s.malformed p)
    | some x => if portId x.image.bar.parent = some p && (m.failed || x.bar.upSent) then ok (s.barrierDone x.id m) else ok (s.malformed p)

/-- The children whose up messages are missing. -/
def Sched.missingUps (x : Sched) : BitVec 12 :=
  ((barPorts x.image.bar.children).filter fun p => !(x.bar.ups.any fun u => u.1 = p)).foldl (fun a p => a ||| BitVec.ofNat 12 (2 ^ p.val)) 0

/-- The time by which the current round's barrier is complete: S_n + B + BARRIER_LIMIT, or BARRIER_LIMIT from a later round's start (R331
R393). -/
def Sched.barrierDue (x : Sched) : Nat :=
  (if x.between then x.stepStart x.launchStep + x.image.barrierAt
   else if x.bar.round = 0 then x.bar.roundStart + x.image.barrierAt else x.bar.roundStart) + x.image.barrierLimit * 1000

/-- BARRIER_LIMIT_EXPIRY (R331), of a step whose first launch is still deferred too. A root that misses messages sends the failed down
message. -/
def execBarrierLimitExpiry (sched : Nat) (s : State) : Res :=
  match s.sched sched with
  | none => ok s
  | some x =>
    let n := x.launchStep
    if !(x.state = .armed || x.state = .running || x.state = .held) || (x.between && x.image.nSteps ≠ 0 && decide (x.image.nSteps ≤ n)) || x.coll.state = .escalated || x.bar.failed || decide (s.now < x.barrierDue) ||
        s.guard.supply.stall then ok s
    else
      let missing := x.missingUps
      let s := s.beginStep sched
      let s := s.slip sched { tag := 0, kind := 3, cause := 9, phase := 0xFF, unit := 0xFF, step := n,
                              nominal := x.stepStart n + x.image.barrierAt, actual := s.now }
      let s := if x.state = .held then s else (s.nativeE 3 0x0508 x.ctx 0xFF 0 missing.toNat 0 0).emit (.report 0x0508 missing.toNat)
      let s := s.holdSched sched
      if (portId x.image.bar.parent).isNone && missing ≠ 0 then
        ok (s.barrierDone sched { setId := x.image.setId, step := n, round := x.bar.round, entries := [], obs := [], failed := true, missing := missing })
      else match s.sched sched with
        | some y => ok (s.setSched { y with bar := { y.bar with failed := true } })
        | none => ok s

/-! ## COL_REPLAY and diagnostic replays (R402 R403) -/

/-- Opens the trace buffer of a replay: every engine, no tag filter. Its size and mode are not given (log entry 64). -/
def State.openReplayTrace (s : State) (ctx : Nat) : Nat × State :=
  (s.nextTrace, { s with nextTrace := s.nextTrace + 1
                         traces := s.traces ++ [{ id := s.nextTrace, ctx := ctx, mask := 0xFFFFFFFFFFF#64, tagValue := 0, tagMask := 0, size := Config.replayTrace,
                                                  overwrite := Config.replayOverwrite, region := none, capturing := true, first := 0, recs := [], dropped := 0 }] })

/-- COL_REPLAY (R402): a pending or escalated step is rejoined with REJOIN in a new round; a running or next step gets a diagnostic
replay. -/
def execColReplay (n : SlotId) (s : State) : Res :=
  s.serloth n 0x0802 fun y =>
    let step := fld y.req 0 8
    let wantTrace := bit (fld y.req 8 1) 0
    match s.collated with
    | none => s.refuse n stState 0
    | some x =>
      let busy := (List.range 64).any fun i => match s.slots[ctxId i].held with | .replay k _ => k = x.id | _ => false
      let rejoin := (x.pendingStep = some step && x.state = .admitted) || (x.coll.state = .escalated && x.step = step)
      let diag := !rejoin && x.active && (step = x.launchStep || (step = x.step + 1) || (step = x.step && !x.between))
      if busy || !(rejoin || diag) then s.refuse n stState 0
      else if wantTrace && decide (8 ≤ s.traces.length) then s.refuse n stResource 0
      else
        let (t, s) := if wantTrace then s.openReplayTrace x.ctx else (0, s)
        if rejoin then
          let s := s.setSched { x with
            state := .held, replay := none
            coll := { x.coll with state := .waiting, flags := x.coll.flags ||| 0x200#16 }
            bar := if x.bar.upSent && !x.bar.failed then x.bar.next s.now else { x.bar with failed := false, roundStart := s.now } }
          s.hold n (.replay x.id t)
        else (s.setSched { x with diag := some (step, t) }).hold n (.replay x.id t)

/-- The state that a diagnostic replay puts back when it ends. -/
def State.saveFor (s : State) (x : Sched) (r : Replay) : Replay :=
  { r with
    savedCtrs := s.counters
    saved := match x.image.num with
      | some n => [(n.tableAddr, s.memRead n.tableAddr (32 * n.nTensors)), (n.monAddr, s.memRead n.monAddr (8 * n.mons.length))]
      | none => [] }

/-- DIAGNOSTIC_REPLAY (R402 R403): after the step's collation it starts as a local replay in which the OPEs write no half; when its learning
phases are over, its digests are compared with the collated ones. -/
def execDiagnosticReplay (sched : Nat) (s : State) : Res :=
  let s := s.settle sched
  match s.sched sched with
  | none => ok s
  | some x =>
    match x.diag, x.replay with
    | some (step, _), none =>
      if x.coll.state = .collated && x.step = step && x.active && s.now % 8 = 0 then
        let r := s.saveFor x { Replay.at .diagnostic s.now step with started := true }
        ok (((s.restore x).setSched (x.replayPass r)).clearIssue x)
      else ok s
    | some _, some r =>
      if r.kind ≠ .diagnostic || !x.learned x.step then ok s
      else
        let stopped := x.runs.any fun p => p.step = x.step && !p.gen && p.stopped
        let a := x.deviceDigest false
        let b := x.deviceDigest true
        let out := if stopped then 2 else if a.poison || b.poison then 3 else if a.val = x.coll.recto.val && b.val = x.coll.verso.val then 0 else 1
        let s := { s with counters := r.savedCtrs, ledger.held := false }
        let s := r.saved.foldl (fun s w => if w.2 = [] then s else s.memWrite w.1 w.2) s
        let s := (s.setSched { x with replay := none, diag := none, state := if out = 0 then x.state else .held }).cutCheck
        let s := if out = 0 then s else s.nativeE 3 0x0506 x.ctx 0xFF 0 (x.step % 4294967296) 0 0
        ok (s.finishReplayCmd sched out)
    | none, _ => ok s

/-! ## COL_STATUS (R417) -/

/-- STATE of Table 13-5. -/
def collCode : CollState → Nat
  | .none => 0 | .running => 1 | .round => 2 | .collated => 3 | .localReplay => 4 | .groupReplay => 5 | .waiting => 6 | .arbitration => 7
  | .escalated => 8

/-- The COL_STATUS response (Table 13-11) for a step; RECTO and VERSO are this device's last digests, but 0 for a step earlier than the last
collated one. -/
def State.colStatus (s : State) (x : Option Sched) (step : Nat) : Bytes :=
  let sh := le 1 s.shadow.status
  let tail := le 4 s.shadow.agreed ++ le 4 0
  match x with
  | none => le 1 0 ++ le 5 0 ++ le 1 0xFF ++ sh ++ le 8 step ++ le 32 0 ++ tail
  | some x =>
    if step = x.step then
      le 1 (collCode x.coll.state) ++ le 1 x.coll.lastRound ++ le 2 x.coll.roundFlags.toNat ++ le 1 x.coll.locals ++ le 1 x.coll.groups ++
        le 1 x.coll.firstBad ++ sh ++ le 8 step ++ digBytes x.coll.recto ++ digBytes x.coll.verso ++ tail
    else
      let past := match x.lastCollated with | some k => decide (step < k) | none => false
      le 1 (if past || x.lastCollated = some step then 3 else 0) ++ le 5 0 ++ le 1 0xFF ++ sh ++ le 8 step ++
        (if past then le 32 0 else digBytes x.coll.recto ++ digBytes x.coll.verso) ++ tail

/-- COL_STATUS (R417). -/
def execColStatus (n : SlotId) (s : State) : Res :=
  s.serloth n 0x0801 fun y =>
    let step := fld y.req 0 8
    let cur := match s.collated with | some x => x.step | none => step
    s.complete n stOk 0 (s.colStatus s.collated (if step = 0xFFFFFFFFFFFFFFFF then cur else step))

end Sys2Proof.Machine
end

