-- ==== Sys2Proof/Machine/Image.lean ====
section
/-! DEFINITION. Schedule images: the layout of the header and of the twelve sections, the expansion of a program in token order, and the
memory that a schedule's packets reach (11_time R323-R326, 06_programs R169-R181 R192, 09_memory R251, 12_links R371). -/

namespace Sys2Proof.Machine

/-! ## Sections (Tables 11-4 and 11-5) -/

/-- Sections by their order in Table 11-5, counted from 0, with the bytes of an entry. -/
def secSize (k : Nat) : Nat := ([64, 16, 32, 64, 8, 16, 32, 16, 128, 0, 32, 16] : List Nat).getD k 0

/-- The offset of a section. -/
def secOff (b : Bytes) (k : Nat) : Nat := fld b (0x40 + 8 * k) 8

/-- The entry count of a section: 0 for an empty one. -/
def secCount (b : Bytes) (k : Nat) : Nat := if secOff b k = 0 then 0 else fld b (secOff b k) 8

/-- The entries of a section. -/
def secEntries (b : Bytes) (k : Nat) : List Bytes :=
  (List.range (secCount b k)).map fun i => sub b (secOff b k + 8 + i * secSize k) (secSize k)

/-- Every section lies in the image. -/
def secsFit (b : Bytes) : Bool :=
  ((List.range 12).all fun k => k = 9 || secOff b k = 0 || decide (secOff b k + 8 + secCount b k * secSize k ≤ b.length)) &&
  (secOff b 9 = 0 || decide (secOff b 9 + 0x20 + 2 * secCount b 3 + 32 * fld b (secOff b 9 + 0xA) 2 ≤ b.length))

/-! ## Entries -/

def parsePhase (e : Bytes) : PhaseE :=
  { launch := fld e 0 8, deadline := fld e 8 8, gen := fld e 0x10 1 = 1, every := fld e 0x11 1, stepPhase := fld e 0x12 2,
    firstStream := fld e 0x14 4, nStreams := fld e 0x18 2, nPin := fld e 0x1A 2, firstPin := fld e 0x1C 4 }

def parseStream (e : Bytes) : StreamE := { prog := fld e 0 4, entryA := fld e 4 4, entryB := fld e 8 4 }

/-- A program entry; an ENGINE or UNIT out of range fails check 6, whatever instance stands here. -/
def parseProg (e : Bytes) : ProgE :=
  { eng := (engOf (fld e 0 1) (fld e 1 1)).getD 0, ringLog2 := fld e 2 1, addr := fld e 8 8, packets := fld e 0x10 4, ringAddr := fld e 0x18 8 }

def parseLayout (e : Bytes) : Layout :=
  { addr := fld e 0 8, scaleAddr := fld e 8 8, cols := fld e 0x10 4 % 2 ^ 25, rows := fld e 0x14 4, rowStride := fld e 0x18 4,
    scaleRowStride := fld e 0x1C 4, kind := fld e 0x20 1, loopStride := (List.range 4).map fun l => sgn 48 (fld e (0x28 + 6 * l) 6) }

/-- A counter in the encoding of WAIT.CTR. -/
def ctrNo (v : Nat) : Nat := 512 * bits v 9 4 + bits v 0 9

def parseCtr (e : Bytes) : CtrE := { ctr := ctrNo (fld e 0 2), perStep := bit (fld e 2 1) 0, init := BitVec.ofNat 32 (fld e 4 4) }

def parsePeer (e : Bytes) : PeerE :=
  { devId := BitVec.ofNat 64 (fld e 0 8), isSet := fld e 8 1 = 1, rctx := if fld e 8 1 = 1 then fld e 9 1 else fld e 9 1 % 64, resv := fld e 0xA 2,
    openFirst := fld e 0xC 2, openCount := fld e 0xE 2 }

def parseRes (e : Bytes) : ResE := { resId := BitVec.ofNat 64 (fld e 0 8), wrap := bit (fld e 8 1) 0 }

def parsePromise (e : Bytes) : PromiseE :=
  { phase := fld e 0 2, recv := fld e 2 1 = 1, peer := fld e 3 1, ctr := ctrNo (fld e 4 2), time := fld e 8 8 }

/-- An update descriptor (05_vector_optimizer Table 05-3) at its address. -/
def parseUpdate (a : Nat) (e : Bytes) : UpdateE :=
  { addr := a, kind := fld e 0 1, gfmt := fld e 1 1, wfmt := fld e 2 1, clipOn := bit (fld e 3 1) 0, verso := bit (fld e 3 1) 1,
    hcycle := bit (fld e 3 1) 2, gscale := sgn 8 (fld e 4 1), count := fld e 8 8, shardOff := fld e 0x10 8, grad := fld e 0x18 8,
    masterA := fld e 0x20 8, masterB := fld e 0x28 8, mom1A := fld e 0x30 8, mom1B := fld e 0x38 8, mom2A := fld e 0x40 8,
    mom2B := fld e 0x48 8, workA := fld e 0x50 8, workB := fld e 0x58 8, hyper := fld e 0x60 8, clip := BitVec.ofNat 32 (fld e 0x68 4),
    hyperCount := fld e 0x6C 4 }

/-- A monitor entry (10_numerics Table 10-6); its descriptor by index, beyond the list where UPD_ADDR names none. -/
def parseMon (ups : List UpdateE) (e : Bytes) : MonE :=
  { desc := (ups.takeWhile fun u => u.addr ≠ fld e 0 8).length, first := fld e 8 8, count := fld e 0x10 8, monId := fld e 0x18 2,
    floorExp := sgn 8 (fld e 0x1A 1) }

/-- The numerics section (10_numerics Table 10-1). -/
def parseNum (b : Bytes) (nlay : Nat) (ups : List UpdateE) : Option NumE :=
  let o := secOff b 9
  if o = 0 then none
  else some
    { tableAddr := fld b o 8, nTensors := fld b (o + 8) 2, monAddr := fld b (o + 0x10) 8
      map := (List.range nlay).map fun i => fld b (o + 0x20 + 2 * i) 2
      mons := (List.range (fld b (o + 0xA) 2)).map fun i => parseMon ups (sub b (o + 0x20 + 2 * nlay + 32 * i) 32) }

def parseBg (e : Bytes) : BgE :=
  { kind := fld e 0 1, mask := BitVec.ofNat 12 (fld e 8 2), start := fld e 0x10 8, stop := fld e 0x18 8 }

def parseBar (e : Bytes) : BarE :=
  { parent := fld e 0 1, height := fld e 1 1, children := BitVec.ofNat 12 (fld e 2 2), nDev := fld e 4 2, nObs := fld e 6 2 }

/-- The image at an address. -/
def parseImage (a : Nat) (b : Bytes) : Image :=
  let ups := (secEntries b 8).mapIdx fun i e => parseUpdate (a + secOff b 8 + 8 + 128 * i) e
  { machineScope := bit (fld b 4 1) 0, setId := BitVec.ofNat 64 (fld b 8 8), ctx := fld b 0x10 1 % 64, nearShare := fld b 0x11 1,
    farShare := fld b 0x12 1, stgShare := (List.range 4).map fun q => fld b (0x14 + q) 1, syncBound := fld b 0x1A 2,
    barrierLimit := fld b 0x1C 4, nSteps := fld b 0x20 8, period := fld b 0x28 8, sendBy := fld b 0x30 8, barrierAt := fld b 0x38 8,
    phases := (secEntries b 0).map parsePhase, streams := (secEntries b 1).map parseStream, progs := (secEntries b 2).map parseProg,
    layouts := (secEntries b 3).map parseLayout, counters := (secEntries b 4).map parseCtr, peers := (secEntries b 5).map parsePeer,
    resvs := (secEntries b 6).map parseRes, promises := (secEntries b 7).map parsePromise, updates := ups,
    num := parseNum b (secCount b 3) ups, bgs := (secEntries b 10).map parseBg, bar := parseBar ((secEntries b 11).headD []) }

/-! ## Programs -/

/-- The packets of a program. -/
def State.packetsOf (s : State) (p : ProgE) : List Bytes := (List.range p.packets).map fun i => s.memRead (p.addr + 32 * i) 32

/-- Loops in progress while a program is followed at MAX iterations: first packet of the body, index and MAX. -/
abbrev Frames := List (Nat × Nat × Nat)

/-- The packet after the ENDLOOP that matches the LOOP before a packet. -/
def skipBody (ps : List Bytes) : Nat → Nat → Nat → Nat
  | 0, pc, _ => pc
  | f + 1, pc, d =>
    let op := pkOp (ps.getD pc [])
    if op = 5 then (if d = 0 then pc + 1 else skipBody ps f (pc + 1) (d - 1))
    else skipBody ps f (pc + 1) (if op = 4 then d + 1 else d)

/-- The commands that a stream runs from a packet on, with every loop at MAX iterations, up to END: packet indices and loop indices
(R193 R339). -/
def follow (ps : List Bytes) : Nat → Nat → Frames → List (Nat × List Nat)
  | 0, _, _ => []
  | f + 1, pc, fs =>
    match ps[pc]? with
    | none => []
    | some b =>
      let here := (pc, fs.map fun y => y.2.1)
      let op := pkOp b
      if op = 1 then [here]
      else if op = 4 then
        let mx := fld b 0xC 4
        if mx = 0 then here :: follow ps f (skipBody ps ps.length (pc + 1) 0) fs
        else here :: follow ps f (pc + 1) (fs ++ [(pc + 1, 0, mx)])
      else if op = 5 then
        match fs.getLast? with
        | none => here :: follow ps f (pc + 1) fs
        | some (top, i, mx) =>
          if i + 1 < mx then here :: follow ps f top (fs.dropLast ++ [(top, i + 1, mx)])
          else here :: follow ps f (pc + 1) fs.dropLast
      else here :: follow ps f (pc + 1) fs

/-- A bound on the commands that a program runs: its packets times the iterations of four nested loops. -/
def followFuel (ps : List Bytes) : Nat :=
  let mx := (ps.map fun b => if pkOp b = 4 then fld b 0xC 4 else 0).foldl Nat.max 0
  (ps.length + 1) * (mx + 1) ^ 4

/-- The commands of a stream from an entry point, loops at MAX. -/
def runsFrom (ps : List Bytes) (entry : Nat) : List (Nat × List Nat) := follow ps (followFuel ps) entry []

/-- MAX of the loops around each packet, outermost first; the argument holds those open so far. -/
def enclosing : List Bytes → List Nat → List (List Nat)
  | [], _ => []
  | b :: bs, st =>
    let st' := if pkOp b = 5 then st.dropLast else st
    st' :: enclosing bs (if pkOp b = 4 then st ++ [fld b 0xC 4] else st')

/-- Every vector of loop indices below their MAX. -/
def allIdx : List Nat → List (List Nat)
  | [] => [[]]
  | m :: ms => (List.range m).flatMap fun i => (allIdx ms).map fun r => i :: r

/-! ## What a packet reaches -/

/-- A layout operand of a packet: the place of its descriptor, the rows and elements that the command touches, and whether it writes
them. `list` is the KIND that a list operand must have, 0 for a tensor; `far_` says that the destination is a peer's. -/
structure Use where
  lay : Nat
  fmt : Nat
  rows : Nat
  cols : Nat
  write : Bool
  list : Nat
  far_ : Bool
  /-- Rows that a list names: they are reached in no fixed order. -/
  gathered : Bool
  deriving DecidableEq, Repr

/-- The layout of an index, with no bytes where the table has no such entry. -/
def Image.lay (i : Image) (k : Nat) : Layout :=
  i.layouts.getD k { addr := 0, scaleAddr := 0, cols := 0, rows := 0, rowStride := 0, scaleRowStride := 0, kind := 0, loopStride := [] }

/-- A use of a descriptor's whole layout. -/
def Image.use (i : Image) (d : Nat × Nat) (write gathered : Bool) : Use :=
  { lay := d.1, fmt := d.2, rows := (i.lay d.1).rows, cols := (i.lay d.1).cols, write := write, list := 0, far_ := false, gathered := gathered }

/-- The rows of a STREAM_ROWS at most: its ROWS field, or those of SRC (R177 R225). -/
def Image.streamRows (i : Image) (b : Bytes) : Nat :=
  if srRows b = 0xFFFFFFFF then ((descAt b 4).map fun d => (i.lay d.1).rows).getD 0 else srRows b

/-- SRC of a STREAM_ROWS names a row list (08_conditional R237). -/
def Image.gathers (i : Image) (b : Bytes) : Bool := match descAt b 4 with | some d => decide ((i.lay d.1).kind = 2) | none => false

/-- The stored format in which rows are gathered is that of the leaf; the widest is taken where a check needs a width. -/
def gatherFmt (leaf : Option Bytes) : Nat := ((leaf.bind fun l => descAt l 4).map (·.2)).getD fFP32

/-- The layout operands of a packet (Tables 06-7 to 06-11, R181). `leaf` is the LEAF_LOAD whose leaf the packet's rows meet. -/
def Image.usesOf (i : Image) (b : Bytes) (leaf : Option Bytes) : List Use :=
  let d := fun off => (descAt b off).toList
  let op := pkOp b
  let remote := pkPeer b ≠ 0xFF
  if op = 0x20 then
    (d 4).map (fun x => i.use x false false) ++ (d 7).map fun x => { i.use x false false with list := 1, cols := 0 }
  else if op = 0x21 then
    let n := i.streamRows b
    let src := (d 4).flatMap fun x =>
      if i.gathers b then [{ i.use x false false with list := 2, cols := 0 }, { i.use (x.1 + 1, gatherFmt leaf) false true with list := 0 }]
      else [if srTrans b || pkChIn b then i.use x false false else { i.use x false false with rows := n }]
    src ++ (d 7).map (fun x => { i.use x false false with rows := n }) ++ (d 0xA).map fun x =>
      { i.use x true false with rows := if pkChOut b then (i.lay x.1).rows else n }
  else if op = 0x40 then
    let v := vxOp b
    let a := (d 6).headD (0xFFFF, 0)
    let sh := vxShape v (i.lay a.1).rows (i.lay a.1).cols
    let one := fun (k off : Nat) => (d off).map fun x => ({ i.use x (k = 3 || k = 4) false with rows := (sh k).1, cols := (sh k).2 } : Use)
    one 0 6 ++ one 1 9 ++ one 2 0xC ++ one 3 0xF ++ one 4 0x12 ++ one 5 0x15 ++
      (if v = 0x40 then (List.range (vxU b - 1)).map fun u => i.use (a.1 + u + 1, a.2) false false else [])
  else if op = 0x60 then
    (d 4).map (fun x => i.use x false false) ++ (d 7).map fun x => { i.use x true false with far_ := remote }
  else if op = 0x61 then
    (d 4).map (fun x => i.use x false true) ++ (d 7).map (fun x => { i.use x true true with far_ := remote }) ++
      (d 0xA).map fun x => { i.use x false false with list := (i.lay x.1).kind, cols := 0 }
  else if op = 0xA0 then
    (d 4).map (fun x => i.use x false false) ++ (d 7).map (fun x => { i.use x true false with list := 2, cols := 0 }) ++
      (d 0xA).map fun x => { i.use x true false with rows := 3, cols := rtExperts b }
  else []

/-- The byte ranges that the layout of a use can address at loop indices, whatever rows the packet touches, in the order of its rows: a
list's header and its entries at capacity (R251). -/
def Image.rangesOf (i : Image) (u : Use) (idx : List Nat) : List (Nat × Nat) :=
  let l := i.lay u.lay
  if u.list ≠ 0 then [(addrAt l idx, 16 + l.rows * listEntryBytes l.kind)]
  else
    let o : Opnd := { idx := u.lay, lay := l, fmt := u.fmt, addr := addrAt l idx, saddr := saddrAt l u.fmt idx, exp := 0, sat := false }
    (List.range l.rows).flatMap fun r => o.ranges r 0 l.cols

/-- The list region of a ROUTE: it takes the place of its LISTS operand (08_conditional R228). -/
def Image.routeRegion (i : Image) (b : Bytes) (idx : List Nat) : List (Nat × Nat) :=
  match descAt b 4, descAt b 7 with
  | some s, some l => [(addrAt (i.lay l.1) idx, listRegion (rtExperts b) (i.lay l.1).rows (i.lay s.1).rows (rtTopk b))]
  | _, _ => []

/-- A range that a packet reaches in this device's memory, and whether it writes it. -/
structure Reach where
  addr : Nat
  len : Nat
  write : Bool
  deriving DecidableEq, Repr

/-- The ranges that a packet names by address: TIP's bytes, a LOOP's count word (R192 R213). -/
def directReach (b : Bytes) : List Reach :=
  if pkOp b = 0x62 then
    { addr := tipSrc b, len := tipLen b, write := false } ::
      (if pkPeer b = 0xFF then [{ addr := tipDst b, len := tipLen b, write := true }] else [])
  else if pkOp b = 4 && fld b 4 1 = 2 then [{ addr := fld b 0x10 8, len := 4, write := false }]
  else []

/-- The local ranges of a packet at loop indices. -/
def Image.reachAt (i : Image) (b : Bytes) (leaf : Option Bytes) (idx : List Nat) : List Reach :=
  let us := (i.usesOf b leaf).filter fun u => !u.far_
  let tensors := us.flatMap fun u => if u.list = 2 && u.write then [] else (i.rangesOf u idx).map fun r => { addr := r.1, len := r.2, write := u.write }
  directReach b ++ tensors ++ (if pkOp b = 0xA0 then (i.routeRegion b idx).map fun r => { addr := r.1, len := r.2, write := true } else [])

/-- The local ranges of a packet over every loop index. -/
def Image.reach (i : Image) (b : Bytes) (leaf : Option Bytes) (mx : List Nat) : List Reach :=
  (allIdx mx).flatMap fun idx => i.reachAt b leaf idx

/-! ## The leaf that a stream's rows meet (04_array R110-R113) -/

/-- The leaves along a run of commands: front and back as LEAF_LOADs and turns leave them. -/
def leafStep (st : Option Bytes × Option Bytes) (b : Bytes) : Option Bytes × Option Bytes :=
  if pkOp b = 0x20 then (st.1, some b)
  else if pkOp b = 0x21 && srTurn b then (st.2, none)
  else st

/-- The leaf that each command of a run meets, from those before it. -/
def leavesFrom (ps : List Bytes) : List (Nat × List Nat) → Option Bytes × Option Bytes → List (Nat × Option Bytes)
  | [], _ => []
  | c :: cs, st =>
    let st' := leafStep st (ps.getD c.1 [])
    (c.1, st'.1) :: leavesFrom ps cs st'

/-- The leaves as a run of commands leaves them. -/
def leafEnd (ps : List Bytes) (run : List (Nat × List Nat)) (st : Option Bytes × Option Bytes) : Option Bytes × Option Bytes :=
  run.foldl (fun st c => leafStep st (ps.getD c.1 [])) st

/-- The leaves that a phase can find: none that is known, or those that earlier phases of the context leave (04_array R134). Three runs
give every pair: the back leaf that is turned, its turn, and the back leaf loaded then. -/
def leafStarts (ps : List Bytes) (runs : List (List (Nat × List Nat))) : List (Option Bytes × Option Bytes) :=
  let more := fun (l : List (Option Bytes × Option Bytes)) => (l ++ runs.flatMap fun r => l.map (leafEnd ps r)).eraseDups
  more (more (more [(none, none)]))

/-- Entry points of a program: those of its streams, with whether a generation phase names them. -/
def Image.entries (i : Image) (p : Nat) : List (Nat × Bool) :=
  i.phases.flatMap fun f => ((i.streams.drop f.firstStream).take f.nStreams).flatMap fun y =>
    if y.prog ≠ p then [] else if f.gen then [(y.entryA, true), (y.entryB, true)] else [(y.entryA, false)]

/-- A packet of a program with what surrounds it. -/
structure Pk where
  prog : Nat
  eng : EngId
  pc : Nat
  b : Bytes
  mx : List Nat
  leaves : List (Option Bytes)
  deriving DecidableEq, Repr

/-- The packets of a program with the leaves that they can meet from its entry points. -/
def State.pksOf (s : State) (i : Image) (k : Nat) (p : ProgE) : List Pk :=
  let ps := s.packetsOf p
  let runs := (i.entries k).map fun e => runsFrom ps e.1
  let met := if engClass p.eng = 0 then (leafStarts ps runs).flatMap fun st => runs.flatMap fun r => leavesFrom ps r st else []
  (List.zipWith (fun (b : Bytes) (mx : List Nat) => (b, mx)) ps (enclosing ps [])).mapIdx fun pc x =>
    { prog := k, eng := p.eng, pc := pc, b := x.1, mx := x.2, leaves := ((met.filter fun (m : Nat × Option Bytes) => m.1 = pc).map (·.2)).eraseDups }

/-- Every packet of an image. -/
def State.pks (s : State) (i : Image) : List Pk := (i.progs.mapIdx fun k p => s.pksOf i k p).flatten

/-- The leaf by which a packet's gathered rows are measured. -/
def Pk.leaf (p : Pk) : Option Bytes := p.leaves.findSome? id

/-- The local ranges of a packet, over every loop index. -/
def Image.pkReach (i : Image) (p : Pk) : List Reach := i.reach p.b p.leaf p.mx

/-! ## What a loaded schedule references (09_memory R251) -/

/-- The regions of an update descriptor: both halves, its gradient and its hyperparameter table. -/
def UpdateE.reach (u : UpdateE) : List Reach :=
  ((u.regions false ++ u.regions true).map fun r => { addr := r.1, len := r.2, write := true }) ++
    [{ addr := u.grad, len := elemBits u.gfmt / 8 * u.count, write := false }, { addr := u.hyper, len := 64 * u.hyperCount, write := false }]

/-- The scale table and the monitor state. -/
def NumE.reach (n : NumE) : List Reach :=
  [{ addr := n.tableAddr, len := 32 * n.nTensors, write := true }, { addr := n.monAddr, len := 8 * n.mons.length, write := true }]

/-- Program regions and completion rings. -/
def ProgE.reach (p : ProgE) : List Reach :=
  [{ addr := p.addr, len := 32 * p.packets, write := false }, { addr := p.ringAddr, len := 32 * 2 ^ p.ringLog2, write := true }]

/-- The ranges of an image other than those of its packets. -/
def Image.staticReach (i : Image) : List Reach :=
  i.progs.flatMap ProgE.reach ++ i.updates.flatMap UpdateE.reach ++ (match i.num with | some n => n.reach | none => [])

/-- The layouts that an image opens to its peers (12_links R371), with elements of some bits. -/
def State.openReach (s : State) (i : Image) (bits : Nat) : List Reach :=
  (i.peers.filter fun p => !p.isSet).flatMap fun p => ((i.layouts.drop p.openFirst).take p.openCount).flatMap fun l =>
    (openExtent bits l (s.loopBounds i)).map fun r => { addr := r.1, len := r.2, write := true }

/-- Every range that the packets, tables and opened layouts of an image reach. -/
def State.reachOf (s : State) (i : Image) : List Reach := i.staticReach ++ s.openReach i 4 ++ (s.pks i).flatMap i.pkReach

/-- The sample status words of the generation phases (08_conditional R243; log entry 146). -/
def Image.sampleWords (i : Image) : List (Nat × Nat) :=
  (i.phases.mapIdx fun k p => if p.gen then [(Config.sampleAddr i.setId k, 8)] else []).flatten

/-- The ranges that a loaded schedule references: its image and its sample status words besides. -/
def State.refsOf (s : State) (i : Image) (addr len : Nat) : List (Nat × Nat) :=
  (addr, len) :: i.sampleWords ++ (s.openReach i 32 ++ s.reachOf i).map fun r => (r.addr, r.len)

/-- Quires whose MXE, VXE or RTE reach a tier operand (R263). -/
def State.cachedOf (s : State) (i : Image) : List Nat :=
  dedup ((s.pks i).flatMap fun p =>
    if (engClass p.eng = 0 || engClass p.eng = 1 || engClass p.eng = 4) && (i.pkReach p).any fun r => decide (r.addr < scratchBase 0) && decide (0 < r.len)
    then [(s.engQuire p.eng).val] else [])

end Sys2Proof.Machine
end

