-- ==== Sys2Proof/Machine/Load.lean ====
section
/-! DEFINITION. The load-time checks of a schedule image and SCH_LOAD (06_programs R169-R181 R192 R195, Table 06-6; 11_time R311
R323-R326 R333; 09_memory R251 R252; 10_numerics R286 R288 R301; 12_links R371; 13_collation R383-R388 R407; 08_conditional R227 R237
R242; 05_vector_optimizer R535). -/

namespace Sys2Proof.Machine

/-- The checks that fail: the number of each condition that does not hold. -/
def failing (k : Nat) (good : Bool) : List Nat := if good then [] else [k]

/-! ## Header and entries: checks 3, 5, 6 and 7 -/

/-- Reserved fields of the header and of the entries (check 3). -/
def resvImage (b : Bytes) : Bool :=
  fld b 3 1 = 0 && fld b 4 4 / 2 = 0 && fld b 0x10 1 / 64 = 0 && fld b 0x13 1 = 0 && allZero b 0xA0 96 &&
  (secEntries b 0).all (fun e => allZero e 0x20 32) &&
  (secEntries b 1).all (fun e => allZero e 0xC 4) &&
  (secEntries b 2).all (fun e => allZero e 3 5 && allZero e 0x14 4) &&
  (secEntries b 3).all (fun e => fld e 0x10 4 / 2 ^ 25 = 0 && allZero e 0x21 7) &&
  (secEntries b 4).all (fun e => bits (fld e 0 2) 13 3 = 0 && bits (fld e 2 2) 1 15 = 0) &&
  (secEntries b 5).all (fun e => if fld e 8 1 = 0 then fld e 9 1 / 64 = 0 else fld e 8 1 ≠ 1 || (fld e 0 8 = 0 && fld e 0xC 4 = 0)) &&
  (secEntries b 6).all (fun e => fld e 8 1 / 2 = 0 && allZero e 9 23) &&
  (secEntries b 7).all (fun e => bits (fld e 4 2) 13 3 = 0 && fld e 6 2 = 0) &&
  (secEntries b 8).all (fun e => fld e 3 1 / 8 = 0 && allZero e 5 3 && allZero e 0x70 16) &&
  (secEntries b 10).all (fun e => allZero e 1 7 && fld e 8 2 / 4096 = 0 && allZero e 0xA 6) &&
  (secEntries b 11).all (fun e => fld e 2 2 / 4096 = 0 && allZero e 8 8) &&
  (secOff b 9 = 0 || (allZero b (secOff b 9 + 0xC) 4 && allZero b (secOff b 9 + 0x18) 8 &&
    (List.range (fld b (secOff b 9 + 0xA) 2)).all fun i => allZero b (secOff b 9 + 0x20 + 2 * secCount b 3 + 32 * i + 0x1B) 5))

/-- The ranges of Table 11-4; its times are multiples of the launch granule (R311). -/
def headerOk (c : Nat) (b : Bytes) (i : Image) : Bool :=
  i.ctx = c && decide (1 ≤ i.nearShare) && decide (i.nearShare ≤ 64) && decide (1 ≤ i.farShare) && decide (i.farShare ≤ 64) &&
  i.stgShare.all (fun v => decide (v ≤ 64)) && decide (1 ≤ fld b 0x18 2) && decide (fld b 0x18 2 ≤ 240) && fld b 0x18 2 = i.phases.length &&
  decide (1 ≤ i.syncBound) && decide (i.syncBound ≤ 1000) && decide (1000 ≤ i.barrierLimit) && decide (i.barrierLimit ≤ 60000000) &&
  decide (8 ≤ i.period) && decide (i.period ≤ 2 ^ 40) && i.period % 8 = 0 && decide (i.sendBy < i.barrierAt) && decide (i.barrierAt ≤ i.period)

/-- Phase entries (R325, Table 11-6, 08_conditional R241 R242). -/
def phaseOk (i : Image) (kind : Nat) (p : PhaseE) : Bool :=
  decide (kind ≤ 1) && decide (p.launch < i.period) && p.launch % 8 = 0 && decide (p.launch < p.deadline) && decide (p.deadline < 2 ^ 40) &&
  decide (p.every ≤ 10) && decide (1 ≤ p.nStreams) && decide (p.firstStream + p.nStreams ≤ i.streams.length) &&
  (if p.gen then decide (1 ≤ p.nPin) && decide (p.firstPin + p.nPin ≤ i.updates.length) else decide (p.deadline ≤ i.sendBy) && p.nPin = 0) &&
  ((i.streams.drop p.firstStream).take p.nStreams).all fun y => if p.gen then
    decide (y.entryB < (i.progs[y.prog]?.map ProgE.packets).getD 0) else y.entryB = 0xFFFFFFFF

def streamOk (i : Image) (y : StreamE) : Bool := decide (y.entryA < (i.progs[y.prog]?.map ProgE.packets).getD 0)

/-- Program entries: one for each engine instance, in the near tier (R164 R182, Table 11-7). -/
def progsOk (b : Bytes) (i : Image) : Bool :=
  (secEntries b 2).all (fun e => (engOf (fld e 0 1) (fld e 1 1)).isSome) && (i.progs.map ProgE.eng).Nodup &&
  i.progs.all fun p => decide (6 ≤ p.ringLog2) && decide (p.ringLog2 ≤ 20) && decide (1 ≤ p.packets) && decide (p.packets ≤ 1048576) &&
    decide (p.addr + 32 * p.packets ≤ nearSize) && decide (p.ringAddr + 32 * 2 ^ p.ringLog2 ≤ nearSize)

/-- Layout entries: a list has COLS and ROW_STRIDE 0 (Table 06-5, 07_movement Lists). -/
def layoutOk (l : Layout) : Bool := decide (l.cols ≤ 2 ^ 24) && decide (l.kind ≤ 2) && (l.kind = 0 || (l.cols = 0 && l.rowStride = 0))

/-- Counters are declared once each, on one of twelve folios (R326). -/
def countersOk (i : Image) : Bool := i.counters.all (fun c => decide (c.ctr < 6144)) && (i.counters.map CtrE.ctr).Nodup

/-- Peer entries (12_links R371). -/
def peerOk (i : Image) (kind : Nat) (p : PeerE) : Bool :=
  decide (kind ≤ 1) &&
  (if p.isSet then decide (1 ≤ p.rctx) && decide (p.rctx ≤ 16) && decide (p.resv + p.rctx ≤ i.peers.length) &&
      ((i.peers.drop p.resv).take p.rctx).all fun q => !q.isSet
    else decide (p.resv < i.resvs.length) && decide (p.openFirst + p.openCount ≤ i.layouts.length))

def promiseOk (i : Image) (dir : Nat) (p : PromiseE) : Bool :=
  decide (dir ≤ 1) && decide (p.phase < i.phases.length) && decide (p.peer < i.peers.length) && decide (p.ctr < 6144)

/-- The FP32 bits of a number above 0: CLIP (Table 05-3). -/
def positive32 (v : Nat) : Bool := decide (0 < v) && decide (v ≤ 0x7F800000)

/-- Formats of an update descriptor (check 5, Table 05-3). -/
def updateFmts (u : UpdateE) : Bool := decide (u.gfmt ≤ 1) && ((decide (1 ≤ u.wfmt) && decide (u.wfmt ≤ 4)) || isMX u.wfmt)

/-- Ranges of an update descriptor (Table 05-3, R535): its moments are those of its kind. -/
def updateOk (u : UpdateE) : Bool :=
  decide (1 ≤ u.kind) && decide (u.kind ≤ 3) && (!u.clipOn || positive32 u.clip.toNat) && decide (1 ≤ u.hyperCount) &&
  (u.kind = 2 || (u.mom2A = 0 && u.mom2B = 0))

/-- Ranges of monitors of one descriptor do not overlap (10_numerics R301). -/
def monsApart : List MonE → Bool
  | [] => true
  | m :: ms => ms.all (fun n => n.desc ≠ m.desc || !overlaps m.first m.count n.first n.count) && monsApart ms

def monOk (i : Image) (m : MonE) : Bool :=
  match i.updates[m.desc]? with
  | some u => decide (1 ≤ m.count) && decide (m.first + m.count ≤ u.count)
  | none => false

/-- A layout opened to a peer: a format that only the peer's packets give it is not known here. -/
def Image.opensLay (i : Image) (k : Nat) : Bool :=
  i.peers.any fun p => !p.isSet && decide (p.openFirst ≤ k) && decide (k < p.openFirst + p.openCount)

/-- The numerics section (10_numerics R286 R301, Table 10-1): an index exactly for the layouts that a packet uses in a scaled format, one
index for layouts that view one tensor, and one table for the schedules of a context. Two layouts view one tensor where their entries are
equal and packets use them in one format: addresses alone do not tell tensors apart that share memory in turn (log entry 164). -/
def State.numOk (s : State) (c : Nat) (i : Image) (uses : List Use) : Bool :=
  match i.num with
  | none => !uses.any fun u => isScaled u.fmt && u.list = 0
  | some n =>
    n.tableAddr % 1024 = 0 && decide (n.nTensors ≤ 16384) && decide (n.mons.length ≤ 1024) &&
    decide (n.tableAddr + 32 * n.nTensors ≤ nearSize) && decide (n.monAddr + 8 * n.mons.length ≤ nearSize) &&
    n.map.all (fun t => t = 0xFFFF || decide (t < n.nTensors)) &&
    uses.all (fun u => u.list ≠ 0 || (isScaled u.fmt = decide (n.map.getD u.lay 0xFFFF ≠ 0xFFFF))) &&
    ((List.range i.layouts.length).all fun k => n.map.getD k 0xFFFF = 0xFFFF || i.opensLay k || uses.any fun u => u.lay = k && u.list = 0 && isScaled u.fmt) &&
    uses.all (fun u => uses.all fun v => u.list ≠ 0 || v.list ≠ 0 || u.fmt ≠ v.fmt || i.lay u.lay ≠ i.lay v.lay ||
      n.map.getD u.lay 0xFFFF = n.map.getD v.lay 0xFFFF) &&
    n.mons.all (monOk i) && monsApart n.mons &&
    s.scheds.all fun x => x.ctx ≠ c || (match x.image.num with
      | some m => m.tableAddr = n.tableAddr && m.nTensors = n.nTensors && m.monAddr = n.monAddr
      | none => true)

/-- Background entries (R326); a collated schedule has a KIND 1 entry for every active folio of at least 40 us (13_collation R407). -/
def State.bgsOk (s : State) (i : Image) : Bool :=
  i.bgs.all (fun g => decide (1 ≤ g.kind) && decide (g.kind ≤ 3) && decide (g.start < g.stop)) &&
  (!isLearning i || i.bgs.any fun g => g.kind = 1 && decide (g.start + 40000 ≤ g.stop) && s.activeFolios.all fun l => g.mask.getLsbD l)

def barOk (b : Bytes) (i : Image) : Bool :=
  secCount b 11 = 1 && (decide (i.bar.parent < 12) || i.bar.parent = 0xFF) && decide (i.bar.height ≤ 15) && decide (1 ≤ i.bar.nDev) && decide (i.bar.nDev ≤ 4096)

/-! ## Packets -/

/-- Reserved bytes of the operand area of an opcode: offset and length. -/
def pkResvBytes (op : Nat) : List (Nat × Nat) :=
  match op with
  | 0x00 | 0x01 | 0x05 => [(4, 24)]
  | 0x02 | 0x03 => [(7, 1), (0xC, 16)]
  | 0x04 => [(6, 2), (0x18, 4)]
  | 0x06 => [(5, 3), (0xC, 16)]
  | 0x20 => [(0x11, 11)]
  | 0x21 => [(0x14, 8)]
  | 0x60 => [(0xB, 9), (0x17, 5)]
  | 0x61 => [(0xE, 6), (0x17, 5)]
  | 0x62 => [(0x17, 1), (0x1A, 2)]
  | 0xA0 => [(0x14, 8)]
  | _ => []

/-- Reserved bits of fields: offset, width in bytes, and the lowest reserved bit. -/
def pkResvBits (b : Bytes) : List (Nat × Nat × Nat) :=
  match pkOp b with
  | 0x02 => [(4, 2, 13), (6, 1, 1)]
  | 0x03 => [(4, 2, 13)]
  | 0x04 => [(5, 1, 4)]
  | 0x06 => [(4, 1, 4)]
  | 0x20 => [(0xA, 2, 10), (0xC, 2, 10), (0xE, 2, 12), (0x10, 1, 5)]
  | 0x21 => [(0xE, 1, 6), (0xF, 1, 5)]
  | 0x40 => (5, 1, 4) :: (if decide (0x3A ≤ vxOp b) && decide (vxOp b ≤ 0x3D) then []
      else [(0x18, 4, if vxOp b = 0x0A then 8 else if vxOp b = 0x09 || vxOp b = 0x40 then 5 else 0)])
  | 0x60 => [(0xA, 1, 2)]
  | 0x61 => [(0xD, 1, 2)]
  | _ => []

/-- The descriptor slots of an opcode. -/
def descSlots (op : Nat) : List Nat :=
  match op with
  | 0x20 | 0x60 => [4, 7]
  | 0x21 | 0x61 | 0xA0 => [4, 7, 0xA]
  | 0x40 => [6, 9, 0xC, 0xF, 0x12, 0x15]
  | _ => []

/-- Whether a slot must hold an operand (some true), must hold none (some false), or may hold either. -/
def slotNeed (b : Bytes) (off : Nat) : Option Bool :=
  let op := pkOp b
  if (op = 0x20 || op = 0x21) && off = 7 then none
  else if op = 0x40 then
    if off = 0x15 then (if vxSums (vxOp b) = 0 then some false else none) else some (vxUses (vxOp b) ((off - 6) / 3))
  else some true

def opDefined (op : Nat) : Bool := ([0, 1, 2, 3, 4, 5, 6, 0x20, 0x21, 0x40, 0x60, 0x61, 0x62, 0x80, 0xA0] : List Nat).contains op

/-- Codes of the OP field of VXE_OP (Tables 05-1 and 05-2, 06_programs R178). -/
def vxDefined (op : Nat) : Bool :=
  (decide (1 ≤ op) && decide (op ≤ 0xC)) || (decide (0x10 ≤ op) && decide (op ≤ 0x18)) || op = 0x20 || op = 0x21 ||
  (decide (0x30 ≤ op) && decide (op ≤ 0x35)) || (decide (0x38 ≤ op) && decide (op ≤ 0x3E)) || op = 0x40

/-- Checks 1 to 4 of a packet. -/
def checkForm (c : Nat) (i : Image) (p : Pk) : List Nat :=
  let b := p.b
  let op := pkOp b
  failing 1 (opDefined op && (op / 32 = 0 || op / 32 = engClass p.eng + 1)) ++
  failing 2 (fld b 1 1 % 64 = c) ++
  failing 3 (fld b 1 1 / 64 = 0 && bits (pkFlags b) 5 2 = 0 && (pkResvBytes op).all (fun r => allZero b r.1 r.2) &&
    (pkResvBits b).all (fun r => fld b r.1 r.2.1 / 2 ^ r.2.2 = 0) && (descSlots op).all fun o => fld b o 3 / 2 ^ 20 = 0) ++
  failing 4 ((descSlots op).all (fun o =>
      match descAt b o with
      | none => slotNeed b o ≠ some true && fld b o 3 % 2 ^ 20 = 0xFFFF
      | some d => slotNeed b o ≠ some false && decide (d.1 < i.layouts.length)) &&
    (i.usesOf b p.leaf).all fun u => decide (u.lay < i.layouts.length))

/-- Format codes that the array takes as an operand, an FP32 one through split passes (Table 03-1). -/
def arrayOperand (f split : Nat) : Bool := if f = 0 then split ≠ 0 else decide (f ≤ 10)

/-- Check 5 of a packet: formats in their roles (03_formats R75 R76). A leaf that no earlier command of the context's programs is known to
have loaded pairs with any format here. -/
def checkFmt (i : Image) (p : Pk) : List Nat :=
  let b := p.b
  let op := pkOp b
  let f := fun off => (descAt b off).map (·.2)
  let is := fun off (q : Nat → Bool) => match f off with | some v => q v | none => true
  let leafFmt := p.leaves.filterMap fun l => l.map fun q => gatherFmt (some q)
  failing 5 ((descSlots op).all (fun o => is o fmtOk) &&
    (if op = 0x20 then is 4 (fun v => arrayOperand v (llSplit b)) && is 7 (· = 0)
     else if op = 0x21 then
       let ops := if i.gathers b then leafFmt else (f 4).toList
       (if i.gathers b then is 4 (· = 0) else is 4 (fun v => arrayOperand v (srSplit b))) &&
       is 7 (fun v => if ops = [] then v = 11 || v = 0 else if ops.all (· = 5) then v = 11 else v = 0) && is 0xA (fun v => !isInt v || ops.all (· = 5)) &&
       (i.gathers b || leafFmt.all fun v => is 4 fun w => decide (v = 5) = decide (w = 5))
     else if op = 0x40 then
       is 0x12 (· = 0) && is 0x15 (· = 0) && (vxOp b ≠ 0x0B || is 0xC (· = 5)) && (vxOp b ≠ 0x0C || is 0xF (· = 5)) && (vxOp b ≠ 0x40 || is 0xF (· = 0))
     else if op = 0x61 then is 0xA (· = 0)
     else if op = 0xA0 then is 7 (· = 0)
     else true))

/-! Check 6 by opcode. -/

/-- The stored shape of a stationary tile (03_formats R82 R83; log entry 39): an MX tile has rows along its other axis. -/
def tileShape (b : Bytes) (f : Nat) : Nat × Nat :=
  let kept := fun (n : Nat) => if llSparse b = 1 then 2 * ceilDiv n 4 else ceilDiv n 4
  if llSparse b = 0 then (if isMX f = llTrans b then (llLogk b, llNext b) else (llNext b, llLogk b))
  else if llTrans b then (if isMX f then (llLogk b, kept (llNext b)) else (kept (llNext b), llLogk b))
  else if isMX f then (llNext b, kept (llLogk b)) else (kept (llLogk b), llNext b)

/-- KEXT for LOGK (R177); a transposed sparse tile runs in dense mode (04_array R122). -/
def kextOf (b : Bytes) : Nat :=
  if llSparse b = 0 || llTrans b then llLogk b else if llSparse b = 1 then 2 * ceilDiv (llLogk b) 4 else ceilDiv (llLogk b) 4

def splitOk (v f : Nat) : Bool := v = 0 || ((v = 2 || v = 3) && f = 0)
def Image.isTensor (i : Image) (b : Bytes) (off : Nat) : Bool := match descAt b off with | some d => (i.lay d.1).kind = 0 | none => true
def Image.isList (i : Image) (b : Bytes) (off k : Nat) : Bool := match descAt b off with | some d => (i.lay d.1).kind = k | none => true
def Image.descLay (i : Image) (b : Bytes) (off : Nat) : Layout := i.lay ((descAt b off).map (·.1) |>.getD 0xFFFF)

def leafLoadOk (i : Image) (b : Bytes) : Bool :=
  let f := ((descAt b 4).map (·.2)).getD 0
  let l := i.descLay b 4
  decide (1 ≤ llKext b) && decide (llKext b ≤ 512) && decide (1 ≤ llNext b) && decide (llNext b ≤ 512) && decide (1 ≤ llLogk b) &&
  decide (llLogk b ≤ 2048) && decide (llSparse b ≤ 2) && splitOk (llSplit b) f && llKext b = kextOf b &&
  i.isTensor b 4 && i.isList b 7 1 && ((l.rows, l.cols) = tileShape b f)

def streamRowsOk (i : Image) (p : Pk) : Bool :=
  let b := p.b
  let f := ((descAt b 4).map (·.2)).getD 0
  let src := i.descLay b 4
  let n := i.streamRows b
  splitOk (srSplit b) f && i.isTensor b 7 && i.isTensor b 0xA &&
  (if i.gathers b then srRows b = 0xFFFFFFFF && srSplit b = 0 && !srTrans b && ((descAt b 4).all fun d => (i.lay (d.1 + 1)).kind = 0)
   else i.isTensor b 4 && (pkChIn b || decide (n ≤ (asRead (srTrans b) src).1))) &&
  (pkChOut b || decide (n ≤ (i.descLay b 0xA).rows)) &&
  ((descAt b 7).isNone || (decide (n ≤ (i.descLay b 7).rows) && (i.descLay b 7).cols = (i.descLay b 0xA).cols)) &&
  p.leaves.all fun l => match l with
    | some q => (i.descLay b 0xA).cols = llNext q
    | none => true

/-- The shapes of VXE_OP; an operation with column sums has a column accumulator for each column (05_vector_optimizer R147). -/
def vxeOk (i : Image) (b : Bytes) : Bool :=
  let op := vxOp b
  let a := i.descLay b 6
  let shape := fun (k off : Nat) => match descAt b off with
    | some d => decide ((i.lay d.1).kind = 0) && ((i.lay d.1).rows, (i.lay d.1).cols) = vxShape op a.rows a.cols k
    | none => true
  vxDefined op && (op ≠ 0x0C || vxPred b ≠ 3) && (vxSums op = 0 || decide (a.cols ≤ 65536)) && ([(0, 6), (1, 9), (2, 0xC), (4, 0x12), (5, 0x15)].all fun x => shape x.1 x.2) && shape 3 0xF &&
  (op ≠ 0x40 || (decide (1 ≤ vxU b) && decide (vxU b ≤ 16) && (List.range (vxU b)).all fun u => match descAt b 6 with
    | some d => decide ((i.lay (d.1 + u)).kind = 0) && ((i.lay (d.1 + u)).rows, (i.lay (d.1 + u)).cols) = (a.rows, a.cols)
    | none => true))

/-- PEER, RESV and MCAST of a CPE packet (R179 R371). -/
def remoteOk (i : Image) (b : Bytes) : Bool :=
  let pr := pkPeer b
  if pr = 0xFF then !pkMcast b
  else cpResv b ≠ 0xFFFF && decide (cpResv b < i.resvs.length) && (match i.peers[pr]? with
    | some p => p.isSet = pkMcast b && (!pkMcast b || ((i.peers[p.resv]?).map PeerE.resv) = some (cpResv b))
    | none => true)

/-- A copy between equal scaled formats keeps the tensor (10_numerics R288). -/
def scalesAgree (i : Image) (b : Bytes) : Bool :=
  match descAt b 4, descAt b 7 with
  | some c, some d => c.2 ≠ d.2 || !isScaled c.2 || tensorOf i c.1 c.2 = tensorOf i d.1 d.2
  | _, _ => true

def copyOk (i : Image) (b : Bytes) : Bool :=
  let c := i.descLay b 4
  let d := i.descLay b 7
  i.isTensor b 4 && i.isTensor b 7 && c.cols = d.cols && c.rows = d.rows && remoteOk i b && scalesAgree i b

def copyListOk (i : Image) (b : Bytes) : Bool :=
  i.isTensor b 4 && i.isTensor b 7 && ((i.descLay b 0xA).kind = 1 || ((i.descLay b 0xA).kind = 2 && (i.descLay b 4).cols = (i.descLay b 7).cols)) &&
  remoteOk i b && scalesAgree i b

def tipOk (i : Image) (b : Bytes) : Bool :=
  let n := tipLen b
  decide (n ≤ 512) && decide (tipSrc b % 1024 + n ≤ 1024) && decide (tipDst b % 1024 + n ≤ 1024) && remoteOk i b

def updatePkOk (i : Image) (b : Bytes) : Bool :=
  match i.updates.find? fun u => u.addr = fld b 4 8 with
  | some u => decide (upFirst b + upCount b ≤ u.count)
  | none => false

def routeOk (i : Image) (b : Bytes) : Bool :=
  let sc := i.descLay b 4
  let li := i.descLay b 7
  let co := i.descLay b 0xA
  let f : Nat := ((descAt b 4).map (·.2)).getD 0
  let cap := rtCapacity b
  decide (sc.kind = 0) && decide (sc.rows ≤ 2 ^ 24) && sc.cols = rtExperts b && decide (f ≤ 2) && decide (1 ≤ rtTopk b) && decide (rtTopk b ≤ 8) &&
  decide (rtTopk b ≤ rtExperts b) && decide (1 ≤ rtExperts b) && decide (rtExperts b ≤ 4096) && li.kind = 2 &&
  decide ((if cap = 0 then sc.rows else cap) ≤ li.rows) && li.addr % 1024 = 0 && li.loopStride.all (fun v => v % 1024 = 0) &&
  decide (co.kind = 0) && ((descAt b 0xA).map (·.2)) = some 11 && co.rows = 3 && co.cols = rtExperts b

/-- WAIT names a counter of the engine's quire (R187). -/
def State.waitOk (s : State) (p : Pk) : Bool := decide (pkCtr p.b < 6144) && decide (s.quireOf (pkCtr p.b / 512) = s.engQuire p.eng)

def loopOk (b : Bytes) : Bool :=
  decide (fld b 4 1 ≤ 2) && (fld b 4 1 ≠ 0 || decide (fld b 8 4 ≤ fld b 0xC 4)) && (fld b 4 1 ≠ 2 || fld b 0x10 8 % 4 = 0)

def State.opcodeOk (s : State) (i : Image) (p : Pk) : Bool :=
  let b := p.b
  match pkOp b with
  | 0x02 => s.waitOk p
  | 0x03 => decide (pkCtr b < 6144) && (match i.peers[fld b 6 1]? with | some q => !q.isSet | none => true)
  | 0x04 => loopOk b
  | 0x20 => leafLoadOk i b
  | 0x21 => streamRowsOk i p
  | 0x40 => vxeOk i b
  | 0x60 => copyOk i b
  | 0x61 => copyListOk i b
  | 0x62 => tipOk i b
  | 0x80 => updatePkOk i b
  | 0xA0 => routeOk i b
  | _ => true

/-! Memory: check 6. -/

/-- Whether a range lies in regions mapped to a context, the ledger and the verso region counting for a collated schedule (R251,
13_collation R383). -/
def State.mayReach (s : State) (c : Nat) (coll : Bool) (a n : Nat) : Bool :=
  (sheetRange a n).all fun sh => (s.mem.regions.any fun r => r.ctx = c && within (sh * 1024) 1024 r.base r.size) ||
    (coll && (within (sh * 1024) 1024 s.ledgerBase (imgLedgerSize s.act) || within (sh * 1024) 1024 s.versoBase (imgVersoSize s.act)))

/-- An operand of an MXE, VXE, OPE or RTE in another quire's scratchpad (R252). -/
def State.strange (s : State) (e : EngId) (r : Reach) : Bool :=
  engClass e ≠ 2 && decide (0 < r.len) && decide (scratchBase 0 ≤ r.addr) && decide ((r.addr - scratchBase 0) / 0x8000000 ≠ (s.engQuire e).val)

/-- A hand-over layout lies in the quire's scratchpad (R196). -/
def State.handOverHome (s : State) (i : Image) (p : Pk) : Bool :=
  let home := fun (o : Option Nat) => match o with
    | some k => decide (s.storeOf (i.lay k).addr = some ((s.engQuire p.eng).val + 2))
    | none => true
  (!takesIn p.b || home (chainIn p.b)) && (!givesOut p.b || home (chainOut p.b))

/-- The update descriptor that a packet names. -/
def Image.updAt (i : Image) (b : Bytes) : Option UpdateE := if pkOp b = 0x80 then i.updates.find? fun u => u.addr = fld b 4 8 else none

/-- A range meets a program region of an image or of a loaded schedule: engines read these and never write them (R164; log entry 163). -/
def State.inProgram (s : State) (i : Image) (a n : Nat) : Bool :=
  (i :: s.scheds.map Sched.image).any fun j => j.progs.any fun p => overlaps a n p.addr (32 * p.packets)

/-- What the memory rules ask of a packet: mapped ranges, its own quire's scratchpad, no write into a sealed image or a program region, no
write into the ledger but a capture copy's into the input area (Table 13-1; log entry 86), no TIP that names the input area, and no access of
a generation phase to the ledger (R164 R251 R252, 11_time R333, 13_collation R388). -/
def State.memOk (s : State) (c : Nat) (i : Image) (own : Nat × Nat) (gen : Bool) (p : Pk) : Bool :=
  let coll := isLearning i
  let capture := coll && !gen && (pkOp p.b = 0x60 || pkOp p.b = 0x61)
  s.handOverHome i p && ((i.updAt p.b).all fun u => u.reach.all fun r => !s.strange p.eng r) &&
  (i.pkReach p).all fun r => r.len = 0 || (s.mayReach c coll r.addr r.len && !s.strange p.eng r &&
    (!r.write || (!s.sealed r.addr r.len && !overlaps r.addr r.len own.1 own.2 && !s.inProgram i r.addr r.len &&
      (!overlaps r.addr r.len s.ledgerBase (imgLedgerSize s.act) || (capture && within r.addr r.len s.inputBase (imgColInput s.act))))) &&
    (pkOp p.b ≠ 0x62 || !s.inInput r.addr r.len) &&
    (!gen || !overlaps r.addr r.len s.ledgerBase (imgLedgerSize s.act)))

/-! Checks 7 to 11. -/

/-- Check 7: strides of MX layouts are whole blocks, and other formats have no scale array. -/
def mxOk (i : Image) (p : Pk) : Bool :=
  (i.usesOf p.b p.leaf).all fun u =>
    let l := i.lay u.lay
    if u.list = 0 && isMX u.fmt then l.loopStride.all fun v => v % (blockBytes u.fmt : Int) = 0 else l.scaleAddr = 0

/-- The first packet at which LOOP and ENDLOOP of a program do not match, nest too deep or enclose an END. The arguments hold the packets
left, the index of the first of them and the LOOPs that are open, innermost first. -/
def loopFault : List Bytes → Nat → List Nat → Option Nat
  | [], _, fs => fs.head?
  | b :: bs, pc, fs =>
    if pkOp b = 4 then (if fs.length < 4 then loopFault bs (pc + 1) (pc :: fs) else some pc)
    else if pkOp b = 5 then (if fs = [] then some pc else loopFault bs (pc + 1) fs.tail)
    else if pkOp b = 1 && fs ≠ [] then some pc
    else loopFault bs (pc + 1) fs

/-- Check 8 of a program: the packet that fails it. -/
def State.progShape (s : State) (i : Image) (k : Nat) (p : ProgE) : Option Nat :=
  let ps := s.packetsOf p
  let depth := enclosing ps []
  loopFault ps 0 [] <|> (if ((ps.getLast?).map pkOp) = some 1 then none else some (ps.length - 1)) <|>
  (((i.entries k).find? fun e => depth.getD e.1 [] ≠ [] || pkOp (ps.getD e.1 []) = 5).map (·.1))

/-- Check 9 of a packet: its counters are declared by the schedule. -/
def State.ctrsOk (s : State) (i : Image) (p : Pk) : Bool :=
  let has := fun c => i.counters.any fun e => e.ctr = c
  (!(pkOp p.b = 2 || (pkOp p.b = 3 && fld p.b 6 1 = 0xFF)) || has (pkCtr p.b)) && (!pkSigEn p.b || has (s.sigCtr p.eng p.b))

/-- Check 9: a counter that this WAIT consumes is consumed by no other stream. -/
def consumesAlone (all : List Pk) (p : Pk) : Bool :=
  !(pkOp p.b = 2 && bit (fld p.b 6 1) 0) || all.all fun q => !(pkOp q.b = 2 && bit (fld q.b 6 1) 0 && pkCtr q.b = pkCtr p.b) || q.prog = p.prog

/-- Check 10. -/
def chainOk (i : Image) (p : Pk) : Bool :=
  let op := pkOp p.b
  let ring := fun (o : Option Nat) => match o with
    | some k => decide (2 ≤ (i.lay k).rows) && decide ((i.lay k).rows ≤ 4096) && (i.lay k).loopStride.all (· = 0)
    | none => true
  (!(pkChIn p.b || pkChOut p.b) || op = 0x60 || op = 0x61 || op = 0x21 || op = 0x40) &&
  (!takesIn p.b || ring (chainIn p.b)) && (!givesOut p.b || ring (chainOut p.b))

/-- Check 11. -/
def peerIdxOk (i : Image) (b : Bytes) : Bool :=
  let pr := if pkOp b = 3 then fld b 6 1 else if pkOp b = 0x60 || pkOp b = 0x61 || pkOp b = 0x62 then pkPeer b else 0xFF
  pr = 0xFF || decide (pr < i.peers.length)

/-- Packets that a generation phase can reach. -/
def State.genReach (s : State) (i : Image) (k : Nat) (p : ProgE) : List Nat :=
  ((i.entries k).filter (·.2)).flatMap fun e => (runsFrom (s.packetsOf p) e.1).map (·.1)

/-! ## All checks (Table 06-6) -/

/-- A failed check, with the packet where one is concerned. -/
structure Failed where
  check : Nat
  pk : Option Pk
  deriving DecidableEq, Repr

/-- The checks of the header and the entries that fail. -/
def State.imageFails (s : State) (c : Nat) (b : Bytes) (i : Image) (pks : List Pk) : List Nat :=
  let coll := isLearning i
  let uses := pks.flatMap fun p => i.usesOf p.b p.leaf
  failing 3 (resvImage b) ++
  failing 5 (i.updates.all updateFmts) ++
  failing 6 (headerOk c b i && (List.zipWith (fun e p => phaseOk i (fld e 0x10 1) p) (secEntries b 0) i.phases).all id &&
    i.streams.all (streamOk i) && progsOk b i && i.layouts.all layoutOk && decide (i.layouts.length ≤ 65535) && countersOk i &&
    (List.zipWith (fun e p => peerOk i (fld e 8 1) p) (secEntries b 5) i.peers).all id &&
    (List.zipWith (fun e p => promiseOk i (fld e 2 1) p) (secEntries b 7) i.promises).all id &&
    i.updates.all updateOk && (!coll || decide (i.updates.length ≤ 128)) && s.numOk c i uses && s.bgsOk i && barOk b i &&
    (i.staticReach ++ s.openReach i 4).all (fun r => r.len = 0 || s.mayReach c coll r.addr r.len) &&
    i.updates.all (fun u => !u.verso || (u.regions false ++ u.regions true).all fun r => r.2 = 0 || within r.1 r.2 s.versoBase (imgVersoSize s.act)))

/-- The shares of a descriptor that UPDATE packets name together cover the shard and do not overlap (R180): the first packet of each
descriptor that fails. -/
def shareFaults (i : Image) (pks : List Pk) : List Pk :=
  i.updates.flatMap fun u =>
    let mine := pks.filter fun p => pkOp p.b = 0x80 && fld p.b 4 8 = u.addr
    let sh := mine.map fun p => (p.eng, upFirst p.b, upCount p.b)
    if sh.all (fun x => sh.all fun y => x.1 = y.1 || !overlaps x.2.1 x.2.2 y.2.1 y.2.2) && covers u.count sh then [] else mine.take 1
where
  /-- The ranges reach every element below n: each gap's first element lies in a range. -/
  covers (n : Nat) (sh : List (EngId × Nat × Nat)) : Bool :=
    n = 0 || (((0 :: sh.map fun x => x.2.1 + x.2.2).filter fun v => decide (v < n)).all fun v => sh.any fun x => decide (x.2.1 ≤ v) && decide (v < x.2.1 + x.2.2))

/-- The checks of a packet that fail. -/
def State.pkFails (s : State) (c : Nat) (i : Image) (own : Nat × Nat) (all : List Pk) (gen : List (List Nat)) (p : Pk) : List Nat :=
  let g := (gen.getD p.prog []).contains p.pc
  checkForm c i p ++ checkFmt i p ++ failing 6 (s.opcodeOk i p && s.memOk c i own g p && !(g && pkOp p.b = 0x80)) ++ failing 7 (mxOk i p) ++
  failing 9 (s.ctrsOk i p && consumesAlone all p) ++ failing 10 (chainOk i p) ++ failing 11 (peerIdxOk i p.b)

/-- The failed checks of an image: those of its header and entries, or, where there is none, those of its programs (log entry 89). -/
def State.loadFails (s : State) (c : Nat) (own : Nat × Nat) (b : Bytes) (i : Image) : List Failed :=
  let all := s.pks i
  let gen := i.progs.mapIdx fun k p => s.genReach i k p
  let head := s.imageFails c b i all
  if head ≠ [] then head.map fun k => { check := k, pk := none }
  else
    let foreign := fun (a n : Nat) => s.scheds.any fun x => (s.reachOf x.image).any fun r => r.write && overlaps r.addr r.len a n
    (failing 6 (!foreign own.1 own.2 && i.progs.all fun p => !foreign p.addr (32 * p.packets))).map (fun k => { check := k, pk := none }) ++
    (shareFaults i all).map (fun p => { check := 6, pk := some p }) ++
    (i.progs.mapIdx fun k p => match s.progShape i k p with
      | some pc => [{ check := 8, pk := all.find? fun q => q.prog = k && q.pc = pc }]
      | none => []).flatten ++
    all.flatMap fun p => (s.pkFails c i own all gen p).map fun k => { check := k, pk := some p }

/-- The failure that is reported: the lowest check number, in the order of the image. -/
def firstFail (l : List Failed) : Option Failed :=
  match minOf (l.map Failed.check) with
  | none => none
  | some k => l.find? fun f => f.check = k

/-- Refuses a malformed image, with record 0x0405. The packet index and the engine of a failure that concerns no packet are free: the
spec gives them for a packet only. -/
def State.refuseImage (s : State) (n : SlotId) (c : Nat) (f : Failed) : State :=
  let s := match f.pk with
    | some p => s.nativeE 0 0x0405 c (s.unitByte p.eng) (pkTag p.b) f.check p.pc p.eng.val
    | none =>
      let (v, s) := s.fresh
      let (w, s) := s.fresh
      s.nativeE 0 0x0405 c 0xFF 0 f.check v.toNat w.toNat
  s.refuse n stMalformed f.check

/-! ## SCH_LOAD (R333) -/

/-- A schedule as SCH_LOAD leaves it. -/
def Sched.loaded (id c addr len : Nat) (i : Image) (refs : List (Nat × Nat)) (cached : List Nat) : Sched :=
  { id := id, ctx := c, addr := addr, len := len, image := i, state := .loaded, armTime := 0, step := 0, lastCollated := none, native := false,
    cached := cached, refs := refs, ceilings := [], runs := [], launchedBg := [], slips := [], slipTotal := 0, cancel := none, pendingStep := none,
    downAt := 0, collAt := 0, heldUntil := 0, bar := { round := 0, roundStart := 0, ups := [], upSent := false, downDone := false, failed := false },
    vote := { own := [], got := [], sentUp := [], decided := [], scans := [], castAt := 0 },
    later := { flags := 0, arbTodo := 0, arbFailed := 0 }, demands := [],
    probe := { exchange := none, armOk := false, unsettled := [], probed := [], skipped := false, pass := false },
    obs := [], monCounts := [], stateAlarms := [], shareTags := [], coll := { Coll.start with state := .none }, replay := none, diag := none, katPassed := [], ringCounts := [] }

/-- The resources that a collated schedule, and the counters of any, ask for: the DETAIL of the refusal (R333, 13_collation R383). -/
def State.loadResource (s : State) (i : Image) : Option Nat :=
  if isLearning i && s.collated.isSome then some 3
  else if isLearning i && (decide (imgColVerso s.act = 0) || decide (imgLedgerSize s.act < 0x100000 + imgColInput s.act + 0x100000)) then some 4
  else if s.scheds.any fun x => x.image.counters.any fun a => i.counters.any fun b => b.ctr = a.ctr then some 5
  else none

/-- SCH_LOAD of an ID, an address and a length. The order in which its refusals are tested is a reading (log entry 65). -/
def State.schLoad (s : State) (n : SlotId) (c id addr len : Nat) : State :=
  if id = 0 then s.refuse n stMalformed 0
  else if !(decide (0 < len) && decide (addr + len ≤ nearSize) && s.mappedTo c addr len) then s.refuse n stState 1
  else if 16 ≤ s.scheds.length then s.refuse n stResource 1
  else if (s.sched id).isSome then s.refuse n stResource 2
  else if s.rangePoisoned addr len then s.complete n stPoisoned 0 []
  else
    let b := s.memRead addr len
    if fld b 0 2 ≠ 0x0512 || fld b 2 1 ≠ 1 then s.refuse n stVersion 0
    else if decide (len < 256) || secOff b 0 = 0 || secOff b 2 = 0 || secOff b 11 = 0 || !secsFit b then s.refuseImage n c { check := 6, pk := none }
    else
      let i := parseImage addr b
      match s.loadResource i with
      | some d => s.refuse n stResource d
      | none =>
        if i.progs.any fun p => s.rangePoisoned p.addr (32 * p.packets) then s.complete n stPoisoned 0 []
        else match firstFail (s.loadFails c (addr, len) b i) with
          | some f => s.refuseImage n c f
          | none =>
            ({ s with scheds := s.scheds ++ [Sched.loaded id c addr len i (s.refsOf i addr len) (s.cachedOf i)] }).complete n stOk 0 []

def execSchLoad (n : SlotId) (s : State) : Res :=
  s.serlothMem n 0x0401 fun x => s.schLoad n x.ctxNo (fld x.req 0 2) (fld x.req 8 8) (fld x.req 0x10 8)

end Sys2Proof.Machine
end

