-- ==== Sys2Proof/Machine/Traffic.lean ====
section
/-! DEFINITION. What admission charges a command: its traffic on the tiers, on staging memory and on reservations, the service figures of
each, and the bound of each packet at the floor rate (04_array R137, 05_vector_optimizer R146 R162, 06_programs R201, 07_movement R204
R215, 08_conditional R234, 09_memory R255 R261 R264 R268, 12_links R372). Log entry 66 names the readings taken. -/

namespace Sys2Proof.Machine

/-- A beat at the floor rate of 1.20 GHz, in ns (01_step R22). -/
def floorBeat : Rat := 5 / 6

/-! ## Traffic -/

/-- An access sequence on a store (0 near, 1 far, 2 to 5 the scratchpads): its sheets in the order of issue, a number of sheets that a list
drives, which are spread evenly, or a number of sheets in sequence that are spread evenly. -/
structure Traf where
  store : Nat
  sheets : List Nat
  spread : Nat
  even : Nat
  write : Bool
  deriving DecidableEq, Repr

def Traf.count (t : Traf) : Nat := t.sheets.length + t.spread + t.even

/-- A list without the repeats that follow one another: an access of one sheet that goes on in the next row counts once. -/
def squash : List Nat → List Nat
  | a :: b :: l => if a = b then squash (b :: l) else a :: squash (b :: l)
  | l => l

/-- Lengths of the maximal runs of consecutive rising sheets. -/
def runLens : List Nat → List Nat
  | [] => []
  | a :: l => match runLens l, l with
    | n :: ns, b :: _ => if b = a + 1 then (n + 1) :: ns else 1 :: n :: ns
    | _, _ => [1]

/-- A streaming pattern: every contiguous range has at least 64 sheets (R264). -/
def Traf.streaming (t : Traf) : Bool := t.spread = 0 && (runLens t.sheets).all fun n => decide (64 ≤ n)

/-- The sequence of some byte ranges. -/
def State.trafOf (s : State) (rs : List (Nat × Nat)) (write : Bool) : List Traf :=
  let shs := squash (rs.flatMap fun r => sheetRange r.1 r.2)
  match shs with
  | [] => []
  | sh :: _ => ((s.storeOf (sh * 1024)).map fun k => ({ store := k, sheets := shs, spread := 0, even := 0, write := write } : Traf)).toList

/-- The operand of a use at loop indices. -/
def Image.opndAt (i : Image) (u : Use) (idx : List Nat) : Opnd :=
  let l := i.lay u.lay
  { idx := u.lay, lay := l, fmt := u.fmt, addr := addrAt l idx, saddr := saddrAt l u.fmt idx, exp := 0, sat := false }

/-- The element sequence and the scale sequence of a tensor use. -/
def State.tensorTraf (s : State) (i : Image) (u : Use) (idx : List Nat) : List Traf :=
  let o := i.opndAt u idx
  let rows := (List.range u.rows).map fun r => o.ranges r 0 u.cols
  s.trafOf (rows.flatMap fun g => g.take 1) u.write ++ s.trafOf (rows.flatMap fun g => g.drop 1) u.write

/-- Rows that a list reaches: as many entries as its capacity, each with the sheets of its row or block (R339: lists at capacity). -/
def State.listTraf (s : State) (i : Image) (u : Use) (idx : List Nat) (entries : Nat) (block : Bool) : List Traf :=
  let o := i.opndAt u idx
  let per := if block then (Nat.min 32 u.rows) * (o.ranges 0 0 (Nat.min 32 u.cols)).length
             else ((o.ranges 0 0 u.cols).flatMap fun g => sheetRange g.1 g.2).length
  ((s.storeOf o.addr).map fun k => ({ store := k, sheets := [], spread := entries * per, even := 0, write := u.write } : Traf)).toList

/-- Entries at most of the list that a packet reads, and whether its entries are blocks. -/
def Image.listCap (i : Image) (b : Bytes) : Nat × Bool :=
  let d := if pkOp b = 0x61 then descAt b 0xA else descAt b 4
  match d with
  | some x => ((i.lay x.1).rows, decide ((i.lay x.1).kind = 1))
  | none => (0, false)

/-- The share of an update descriptor that an UPDATE packet names, on the half that is read and on the other that is written: the traffic of
R162. Master weights follow the 8-byte step count, which every share reads and the first share writes (R537). -/
def State.updateTraf (s : State) (u : UpdateE) (b : Bytes) (halfB : Bool) : List Traf :=
  let f := upFirst b
  let n := upCount b
  let r4 := fun (a : Nat) => (a + 4 * f, 4 * n)
  let g := elemBits u.gfmt / 8
  let moms := fun (h : Bool) => (if u.hasMom1 then [r4 (u.mom1 h)] else []) ++ (if u.hasMom2 then [r4 (u.mom2 h)] else [])
  let rd := [(u.grad + g * f, g * n), (u.master halfB, 8), r4 (u.master halfB + 8)] ++ moms halfB
  let wr := (if f = 0 then [(u.master (!halfB), 8)] else []) ++ [r4 (u.master (!halfB) + 8)] ++ moms (!halfB) ++ [(u.work (!halfB) + workBytes u.wfmt f, workBytes u.wfmt n)] ++
    (if isMX u.wfmt then [(u.workScale (!halfB) + f / 32, ceilDiv n 32)] else [])
  rd.flatMap (fun x => s.trafOf [x] false) ++ wr.flatMap fun x => s.trafOf [x] true

/-- Reduction stages of a row operation (Table 05-2), and whether it has an apply sweep. -/
def vxStages (op : Nat) : Nat × Bool :=
  if op = 0x38 then (2, true) else if op = 0x39 || op = 0x3B then (1, true) else if op = 0x3A || op = 0x3D then (2, true)
  else if op = 0x3C then (3, true) else if vxScalar op then (1, false) else (0, false)

/-- Operands of a packet other than gamma and beta, for the row buffer (05_vector_optimizer R145). -/
def vxBuffered (op : Nat) : List Nat := if vxRowC op then [6] else if vxRowB op then [6, 0xC] else [6, 9, 0xC]

/-- How often a row operation reads its operands: once, or for each stage and the apply sweep where a row exceeds the row buffer (R145). -/
def Image.rowReads (i : Image) (b : Bytes) : Nat :=
  let op := vxOp b
  let n : Nat := ((vxBuffered op).map fun off => match descAt b off with | some d => (i.lay d.1).cols | none => 0).sum
  let st := vxStages op
  if decide (0x30 ≤ op) && decide (op ≤ 0x3D) && decide (65536 < n) then st.1 + (if st.2 then 1 else 0) else 1

/-- The traffic of a packet at loop indices. A read of a tier through the staging cache also fills a line (R261). -/
def State.pkTraf (s : State) (i : Image) (e : EngId) (b : Bytes) (leaf : Option Bytes) (idx : List Nat) (halfB : Bool) : List Traf :=
  let base : List Traf :=
    if pkOp b = 0x62 then
      s.trafOf [(tipSrc b, tipLen b)] false ++ (if pkPeer b = 0xFF then s.trafOf [(tipDst b, tipLen b)] true else [])
    else if pkOp b = 0x80 then
      match i.updates.find? fun u => u.addr = fld b 4 8 with
      | some u => s.updateTraf u b halfB
      | none => []
    else
      let cap := i.listCap b
      (((i.usesOf b leaf).filter fun u => !u.far_).flatMap fun u =>
        if u.list = 2 && u.write then s.trafOf (i.routeRegion b idx) true
        else if u.list ≠ 0 then s.trafOf (i.rangesOf u idx) false
        else if u.gathered then s.listTraf i u idx cap.1 cap.2
        else if pkOp b = 0x40 && !u.write then (List.replicate (i.rowReads b) (s.tensorTraf i u idx)).flatten
        else s.tensorTraf i u idx)
  let cls := engClass e
  let fills := if cls = 2 || cls = 3 || imgCache s.act (s.engQuire e).val = 0 then []
    else (base.filter fun t => !t.write && decide (t.store < 2)).map fun t =>
      ({ store := 2 + (s.engQuire e).val, sheets := [], spread := t.count, even := 0, write := true } : Traf)
  base ++ fills

/-- Bytes that a packet sends on each reservation (R204 R371). -/
def Image.pkLinks (i : Image) (b : Bytes) : List (Nat × Nat) :=
  let op := pkOp b
  if (op = 0x60 || op = 0x61 || op = 0x62) && pkPeer b ≠ 0xFF then
    let n : Nat :=
      if op = 0x62 then tipLen b
      else match descAt b 7 with
        | none => 0
        | some d =>
          let l := i.lay d.1
          let row := rowBytes d.2 l.cols + (if isMX d.2 then ceilDiv l.cols 32 else 0)
          if op = 0x60 then l.rows * row
          else
            let cap := i.listCap b
            if cap.2 then cap.1 * 32 * rowBytes d.2 (Nat.min 32 l.cols) else cap.1 * row
    (peersOf i b).map fun p => (if pkMcast b then p.resv else cpResv b, n)
  else if op = 3 && fld b 6 1 ≠ 0xFF then
    match i.peers[fld b 6 1]? with
    | some p => [(p.resv, 64)]
    | none => []
  else []

/-! ## Service figures -/

/-- The constants of Table 09-4 with the peak sheets per ns and the channels of a tier. -/
structure Tier where
  u : Rat
  tau : Rat
  kappa : Rat
  ref : Rat
  peak : Rat
  chans : Nat
  deriving DecidableEq, Repr

def tierOf (far compat : Bool) : Tier :=
  let ref : Rat := if compat then 52 / 1000 else 26 / 1000
  if far then { u := 1024 / 1000, tau := 384 / 100, kappa := 1792 / 100, ref := ref, peak := 9765625 / 10000000, chans := 64 }
  else { u := 16 / 10, tau := 6, kappa := 28, ref := ref, peak := 625 / 1000, chans := 1024 }

def rhoR : Rat := 9343 / 10000
def rhoW : Rat := 9138 / 10000

/-- The least number of whole units that covers a rational. -/
def ratCeil (r : Rat) : Int := r.ceil

/-- tier_time of R264. -/
def Tier.time (t : Tier) (nr nw nrand : Rat) : Rat :=
  let turns : Rat := if 0 < nr ∧ 0 < nw then 2 * (ratCeil (nw / 48) : Rat) else 0
  ((nr / rhoR + nw / rhoW) * t.u + turns * t.tau + nrand / 62 * t.kappa) / (1 - t.ref)

/-- The channel or spine of a sheet. -/
def sheetChan (far : Bool) (sh : Nat) : Nat := if far then (farPlace (sh * 1024)).1 else (nearPlace (sh * 1024)).1

/-- Sheets of a sequence on a channel. -/
def Traf.on (t : Traf) (far : Bool) (chans c : Nat) : Rat :=
  ((t.sheets.filter fun sh => sheetChan far sh = c).length : Rat) + ((t.spread + t.even : Nat) : Rat) / (chans : Rat)

/-- A tier's load from some traffic: its elapsed time, the lowest channel that decides it, and the most sheets on one channel. -/
structure TierLoad where
  time : Rat
  chan : Nat
  most : Rat
  deriving DecidableEq, Repr

def tierLoad (far compat : Bool) (ts : List Traf) : TierLoad :=
  let t := tierOf far compat
  let mine := ts.filter fun x => x.store = (if far then 1 else 0)
  let sum := fun (l : List Traf) (c : Nat) => (l.map fun x => x.on far t.chans c).sum
  (List.range t.chans).foldl (fun a c =>
    let nr := sum (mine.filter fun x => !x.write) c
    let nw := sum (mine.filter fun x => x.write) c
    let tm := t.time nr nw (sum (mine.filter fun x => !x.streaming) c)
    { time := if a.time < tm then tm else a.time, chan := if a.time < tm then c else a.chan,
      most := if a.most < nr + nw then nr + nw else a.most }) { time := 0, chan := 0, most := 0 }

/-- The staging time of a quire (R261): 166 sheet accesses a beat, or 104 for those that a list drives and for line fills. -/
def stageTime (q : Nat) (ts : List Traf) : Rat :=
  let mine := ts.filter fun x => x.store = 2 + q
  ((((mine.map fun x => x.sheets.length + x.even).sum : Nat) : Rat) / 166 + ((mine.map Traf.spread).sum : Rat) / 104) * floorBeat

/-- Sheets of some traffic on a store. -/
def demandOn (k : Nat) (ts : List Traf) : Nat := ((ts.filter fun x => x.store = k).map Traf.count).sum

/-- RATE in bytes per ns. -/
def Hop.bytesPerNs (h : Hop) : Rat := (h.rate : Rat) / 1000

/-- The one-way bound of a message of L bytes. -/
def Hop.oneWay (h : Hop) (bytes : Nat) : Rat := (h.fixedNs : Rat) + (ratCeil ((bytes : Rat) / h.bytesPerNs) : Rat)

/-- The round-trip bound. -/
def Hop.roundTrip (h : Hop) (bytes : Nat) : Rat := h.oneWay bytes + (h.fixedNs : Rat) + 11

/-- The source hop of a RESERVATIONS entry. -/
def State.resvHop (s : State) (i : Image) (k : Nat) : Option Hop :=
  match i.resvs[k]? with
  | some r => s.hopOf r.resId 0
  | none => none

/-- The time of a unit of demand on each resource for one stream of a phase: ns per sheet on each store, ns per byte on each reservation
(R339): the stream's share of the service is its part of the demand. -/
structure Rates where
  store : List Rat
  link : List Rat
  chan : Nat × Nat
  deriving DecidableEq, Repr

/-- Rates of a stream with traffic `own` and bytes `ownL` in a phase with traffic `all` and bytes `allL`. `cap` holds the caps of the near
and the far tier in sixty-fourths (R268). -/
def State.rates (s : State) (i : Image) (all own : List Traf) (allL ownL : List (Nat × Nat)) (cap : Nat × Nat) : Rates :=
  let compat := imgCompat s.act
  let tier := fun (far : Bool) (share f : Nat) =>
    let l := tierLoad far compat all
    let t := tierOf far compat
    let shared := l.time * 64 / (share : Rat)
    let capped := l.most / (t.peak * (f : Rat) / 64)
    if shared < capped then capped else shared
  let times : List Rat := [tier false i.nearShare cap.1, tier true i.farShare cap.2] ++
    (List.range 4).map fun q => stageTime q all * 64 / ((i.stgShare.getD q 0 : Nat) : Rat)
  { store := times.mapIdx fun k t => if demandOn k own = 0 then 0 else t / (demandOn k own : Rat)
    link := (List.range i.resvs.length).map fun k =>
      let d := fun (l : List (Nat × Nat)) => ((l.filter fun x => x.1 = k).map (·.2)).sum
      match s.resvHop i k with
      | some h => if d ownL = 0 then 0 else (d allL : Rat) / ((d ownL : Rat) * h.bytesPerNs)
      | none => 0
    chan := ((tierLoad false compat all).chan, (tierLoad true compat all).chan) }

/-! ## The bound of a packet -/

/-- A time with the resource that decides it: its BINDING code and INDEX (Table 11-10, R342). -/
structure Charge where
  ns : Rat
  bind : Nat
  index : Nat
  deriving DecidableEq, Repr

/-- The larger of two charges; the first where they are equal. -/
def Charge.max (a b : Charge) : Charge := if a.ns < b.ns then b else a

/-- The charges of a packet's traffic on each store and reservation. -/
def Rates.charges (r : Rates) (ts : List Traf) (ls : List (Nat × Nat)) : List Charge :=
  ((List.range 6).map fun k =>
    { ns := (demandOn k ts : Rat) * r.store.getD k 0, bind := if k = 0 then 6 else if k = 1 then 7 else 8,
      index := if k = 0 then r.chan.1 else if k = 1 then r.chan.2 else k - 2 }) ++
  ls.map fun l => { ns := (l.2 : Rat) * r.link.getD l.1 0, bind := 9, index := l.1 }

/-- Beats per streamed row: the passes of a split product, and two in 1:4 mode (03_formats R98, 04_array R127). -/
def rowBeats (b : Bytes) (leaf : Option Bytes) : Nat :=
  let lsp := (leaf.map llSplit).getD 0
  let sp := srSplit b
  let passes := if sp ≠ 0 && lsp ≠ 0 then (if sp = 2 then 3 else 6) else Nat.max 1 (Nat.max sp lsp)
  passes * (if (leaf.map fun l => llSparse l = 2 && !llTrans l).getD false then 2 else 1)

/-- The loaded load-to-use bound of a dependent access of a store (R255), or 6 beats in scratchpad (R201). -/
def dependentNs (k : Nat) : Rat := if k = 0 then 420 else if k = 1 then 1100 else 6 * floorBeat

/-- Dependent accesses of a command that a list drives: its entries after the header, and the data after the entries. -/
def State.listDelay (s : State) (i : Image) (b : Bytes) (idx : List Nat) : Rat :=
  let at_ := fun (off : Nat) => match descAt b off with
    | some d => (s.storeOf (addrAt (i.lay d.1) idx)).map dependentNs |>.getD 0
    | none => 0
  if pkOp b = 0x61 then at_ 0xA + at_ 4
  else if pkOp b = 0x20 && (descAt b 7).isSome then at_ 7 + at_ 4
  else if pkOp b = 0x21 && i.gathers b then
    at_ 4 + (match descAt b 4 with | some d => (s.storeOf (addrAt (i.lay (d.1 + 1)) idx)).map dependentNs |>.getD 0 | none => 0)
  else 0

/-- Beats of a VXE operation (R138 R146): sweeps of ⌈N / L⌉, or of ⌈N / 512⌉ where a function is evaluated per element. L goes by the sources
and the destination; the column sums of DST2 and ACC_IN, FP32 in every operation, do not count (the worked LNORM_BWD of R146). The spec states
no cost for a whole elementwise command, RFOLD or CSUM: the model rounds up once over the tensor, once for each operand of RFOLD, and takes one
sweep for each row of CSUM (log entry 66). -/
def Image.vxBeats (i : Image) (b : Bytes) : Nat :=
  let op := vxOp b
  let ds := [6, 9, 0xC, 0xF].filterMap (descAt b)
  let lanes := if ds.any fun d => elemBits d.2 = 32 then 1024 else 2048
  let a := i.lay (((descAt b 6).map (·.1)).getD 0xFFFF)
  let sweep := ceilDiv a.cols lanes
  let fsweep := ceilDiv a.cols 512
  let st := vxStages op
  if op = 0x40 then ceilDiv (a.rows * a.cols) lanes * vxU b
  else if op = 0x3E then a.rows * sweep
  else if vxElementwise op then ceilDiv (a.rows * a.cols) (if decide (0x10 ≤ op) && decide (op ≤ 0x18) then 512 else lanes)
  else if op = 0x38 then a.rows * ((sweep + 24) + (fsweep + 24) + fsweep)
  else a.rows * (st.1 * (sweep + 24) + (if st.2 then sweep else 0))

/-- Bytes of digest string of a share of a half, with the step count. -/
def UpdateE.digestLen (u : UpdateE) (n : Nat) : Nat :=
  8 + 4 * n * (1 + (if u.hasMom1 then 1 else 0) + (if u.hasMom2 then 1 else 0)) + workBytes u.wfmt n + (if isMX u.wfmt then ceilDiv n 32 else 0)

/-- Beats of an UPDATE's element work and digest (Table 05-5). -/
def Image.updateBeats (i : Image) (b : Bytes) : Nat :=
  match i.updates.find? fun u => u.addr = fld b 4 8 with
  | some u => Nat.max (ceilDiv (upCount b) (if u.kind = 2 then 256 else 512)) (ceilDiv (u.digestLen (upCount b)) 4096)
  | none => 0

/-- Beats of a ROUTE (R234). -/
def Image.routeBeats (i : Image) (b : Bytes) : Nat :=
  let t := ((descAt b 4).map fun d => (i.lay d.1).rows).getD 0
  64 + ceilDiv (t * rtExperts b) 256 + ceilDiv (2 * t * rtTopk b) 16 + ceilDiv (2 * rtExperts b + 1) 4

/-- Sheets of a remote destination: each that a row touches in part is one whole transaction (R204). -/
def Image.remoteSheets (i : Image) (b : Bytes) (idx : List Nat) : Nat :=
  (((i.usesOf b none).filter Use.far_).map fun u =>
    let rs := (List.range u.rows).map fun r => (i.opndAt u idx).ranges r 0 u.cols
    if u.gathered then
      let cap := i.listCap b
      cap.1 * (if cap.2 then (Nat.min 32 u.rows) * ((i.opndAt u idx).ranges 0 0 (Nat.min 32 u.cols)).length
               else ((rs.headD []).flatMap fun g => sheetRange g.1 g.2).length)
    else (squash ((rs.flatMap fun g => g.take 1).flatMap fun g => sheetRange g.1 g.2)).length +
      (squash ((rs.flatMap fun g => g.drop 1).flatMap fun g => sheetRange g.1 g.2)).length).sum

/-- Beats of a CPE copy's transactions (R204): those of the side with more sheets, 96 a beat, or 24 where the formats differ. -/
def Image.copyBeats (i : Image) (b : Bytes) (idx : List Nat) (ts : List Traf) : Nat :=
  let rd := ((ts.filter fun t => !t.write).map Traf.count).sum
  let wr := ((ts.filter fun t => t.write).map Traf.count).sum + i.remoteSheets b idx * (peersOf i b).length
  let same := (descAt b 4).map (·.2) = (descAt b 7).map (·.2)
  ceilDiv (Nat.max rd wr) (if same then 96 else 24)

/-- The bound of a TIP (Table 07-3). -/
def State.tipNs (s : State) (i : Image) (b : Bytes) : Rat :=
  if pkPeer b ≠ 0xFF then 200 + ((s.resvHop i (cpResv b)).map fun h => h.roundTrip (tipLen b)).getD 0
  else if s.storeOf (tipSrc b) = some 1 || s.storeOf (tipDst b) = some 1 then 260 else 160

/-- The bound of a packet of an engine other than the timing of the array's entry, with what decides it. -/
def State.charge (s : State) (i : Image) (e : EngId) (b : Bytes) (idx : List Nat) (r : Rates) (ts : List Traf) (links : List (Nat × Nat)) : Charge :=
  let op := pkOp b
  let unit := engUnit e
  let work := fun (beats : Nat) => ({ ns := (beats : Rat) * floorBeat, bind := engClass e + 1, index := unit } : Charge)
  let most := fun (c : Charge) => (r.charges ts links).foldl Charge.max c
  if op = 0x60 || op = 0x61 then
    let c := most (work (i.copyBeats b idx ts))
    let lat : Nat := (links.map fun l => ((s.resvHop i l.1).map Hop.fixedNs).getD 0).foldl Nat.max 0
    { c with ns := c.ns + 24 * floorBeat + (lat : Rat) + s.listDelay i b idx }
  else if op = 0x62 then { ns := s.tipNs i b, bind := if links = [] then 3 else 9, index := if links = [] then unit else cpResv b }
  else if op = 0x40 then most (work (i.vxBeats b))
  else if op = 0x80 then most (work (i.updateBeats b))
  else if op = 0xA0 then most (work (i.routeBeats b))
  else if op = 0x20 || op = 0x21 then let c := most (work 0); { c with ns := c.ns + s.listDelay i b idx }
  else if op = 4 then
    let word : Rat := if fld b 4 1 = 2 then (s.storeOf (fld b 0x10 8)).map dependentNs |>.getD 0 else 0
    { ns := 2 * floorBeat + word, bind := engClass e + 1, index := unit }
  else if op = 3 && links ≠ [] then
    { ns := floorBeat + (links.map fun l => ((s.resvHop i l.1).map fun h => h.roundTrip 64).getD 0).sum, bind := 9, index := ((links.map (·.1)).headD 0) }
  else work 1

end Sys2Proof.Machine
end

