-- ==== Sys2Proof/Machine/Admit.lean ====
section
/-! DEFINITION. Admission: the completion of each phase at the floor rate, the checks of Table 11-11 in their order, the ceilings of the
native policy, and SCH_ADMIT (11_time R328 R329 R338-R343, 04_array R112 R137, 06_programs R189 R201, 09_memory R267, 12_links R373 R374,
13_collation R387, 14_checkpoint R432). Log entry 66 names the readings taken. -/

namespace Sys2Proof.Machine

/-! ## Streams as admission sees them -/

/-- What a command does in its stream's time: it runs, waits on a counter, loads the back leaf (through the fold buffer), launches rows,
or ends the stream. -/
inductive Act where
  | run
  | wait (ctr thresh : Nat) (eat : Bool)
  | load (fill : Bool)
  | rows (beats : Rat) (turn fill : Bool)
  | endPkt
  deriving DecidableEq, Repr

/-- A command of a stream: what it does, its charge, whether it begins after every earlier one, the counters it raises with their delays, a
hand-over that it takes, and on an MXE the ranges that it reads and writes. -/
structure Item where
  act : Act
  charge : Charge
  fence : Bool
  sigs : List (Nat × Nat × Rat)
  takes : Option Nat
  remote : Option (Nat × Nat)
  reach : List Reach
  deriving DecidableEq, Repr

/-- An addition to a counter at a time, with what decided that time. -/
structure Sig where
  ctr : Nat
  inc : Nat
  time : Rat
  bind : Nat
  index : Nat
  deriving DecidableEq, Repr

/-- A stream of a phase: when it starts, and what its engine has consumed of each counter in earlier phases. -/
structure Plan where
  phase : Nat
  eng : EngId
  start : Rat
  items : List Item
  eaten : List (Nat × Nat)
  deriving DecidableEq, Repr

/-- The number by which admission names a hand-over of a folio in a phase: 0 from the CPE, 1 from the MXE. -/
def chainKey (phase folio k : Nat) : Nat := 6144 + (phase * 12 + folio) * 2 + k

/-- The commands of a stream: engine, packets, loop indices and the leaf that each meets. -/
structure Run where
  eng : EngId
  cmds : List (Bytes × List Nat × Option Bytes)
  deriving DecidableEq, Repr

/-- The streams of a phase; a generation phase enters at the half's entry point. A front leaf that the stream has not turned itself is one that
the schedule's own programs leave. -/
def State.runsOf (s : State) (i : Image) (p : PhaseE) (halfB : Bool) : List Run :=
  ((i.streams.drop p.firstStream).take p.nStreams).filterMap fun y => (i.progs[y.prog]?).map fun g =>
    let ps := s.packetsOf g
    let cs := runsFrom ps (if p.gen && halfB then y.entryB else y.entryA)
    let start := ((leafStarts ps ((i.entries y.prog).map fun e => runsFrom ps e.1)).find? fun q => q.1.isSome).getD (none, none)
    let lv := leavesFrom ps cs (if engClass g.eng = 0 then start else (none, none))
    { eng := g.eng, cmds := List.zipWith (fun (c : Nat × List Nat) (l : Nat × Option Bytes) => (ps.getD c.1 [], c.2, l.2)) cs lv }

/-- A delay after which an addition by an engine is visible in a counter's folio (06_programs R189). -/
def State.sigDelay (s : State) (e : EngId) (ctr : Nat) : Rat := if s.quireOf (ctr / 512) = s.engQuire e then 12 else 40

/-- The folio whose counters SIG_CTR names: the engine's own, or the first of its quire for an OPE or RTE. -/
def State.ownCtr (s : State) (e : EngId) (b : Bytes) : Nat := s.sigCtr e b

/-- The items of a stream at its rates. The first UPDATE of a recto ordinal carries the vote (05_vector_optimizer R162). -/
def State.itemsOf (s : State) (i : Image) (phase : Nat) (mxeChained : Bool) (r : Run) (rates : Rates) (halfB : Bool) : List Item :=
  r.cmds.mapIdx fun k c =>
    let b := c.1
    let op := pkOp b
    let ts := s.pkTraf i r.eng b c.2.2 c.2.1 halfB
    let links := i.pkLinks b
    let ch := s.charge i r.eng b c.2.1 rates ts links
    let voted := op = 0x80 && ((i.updates.find? fun u => u.addr = fld b 4 8).map fun u => !u.verso).getD false &&
      !(r.cmds.take k).any fun d => pkOp d.1 = 0x80 && fld d.1 4 8 = fld b 4 8
    let folio := engUnit r.eng
    let local_ := op = 3 && fld b 6 1 = 0xFF
    { act :=
        if op = 1 then .endPkt
        else if op = 2 then .wait (pkCtr b) (fld b 8 4) (bit (fld b 6 1) 0)
        else if op = 0x20 then .load (llTrans b)
        else if op = 0x21 then .rows (((Nat.max (i.streamRows b * rowBeats b c.2.2) (if i.streamRows b = 0 then 1 else 0) : Nat) : Rat) * floorBeat) (srTurn b) (srTrans b)
        else .run
      charge := if voted then { ch with ns := ch.ns + 10000 } else ch
      fence := pkFence b || op = 3
      sigs := (if local_ then [(pkCtr b, fld b 8 4, s.sigDelay r.eng (pkCtr b))] else []) ++
        (if pkSigEn b then [(s.ownCtr r.eng b, 1, s.sigDelay r.eng (s.ownCtr r.eng b))] else []) ++
        (if givesOut b && engClass r.eng < 3 then [(chainKey phase folio (if engClass r.eng = 2 then 0 else 1), 1, 0)] else [])
      takes := if takesIn b && engClass r.eng < 3 then
          some (chainKey phase folio (if engClass r.eng = 1 && mxeChained then 1 else 0)) else none
      remote := if op = 3 && !local_ then some (pkCtr b, fld b 6 1) else none
      reach := if engClass r.eng = 0 then i.reachAt b c.2.2 c.2.1 else [] }

/-- Whether the phases that a step selects begin with this one, among those that a predicate names (R294, 13_collation R387). -/
def Image.firstOf (i : Image) (sel : Nat → Bool) (p : Nat) : Bool :=
  let e := (i.phases.map PhaseE.every).foldl Nat.max 0
  let key := fun q => ((i.phases[q]?).map PhaseE.launch).getD 0
  sel p && (List.range (2 ^ e)).any fun n =>
    ((i.phases[p]?).map fun f => f.inStep n).getD false &&
    (List.range i.phases.length).all fun q =>
      !(sel q && ((i.phases[q]?).map fun f => f.inStep n).getD false && decide (key q < key p ∨ key q = key p ∧ q < p))

/-- A phase reads or writes a scaled tensor. -/
def Image.scaledRun (i : Image) (rs : List Run) : Bool :=
  rs.any fun r => r.cmds.any fun c => (i.usesOf c.1 c.2.2).any fun u => (tensorOf i u.lay u.fmt).isSome

/-- What a stream consumes of counters. -/
def eatenBy (items : List Item) : List (Nat × Nat) :=
  items.filterMap fun t => match t.act with | .wait c n true => some (c, n) | _ => none

/-- Ns for which the windows [a, b) and [c, d), the second repeated in every step, run together. -/
def Image.together (i : Image) (a b c d : Nat) : Nat :=
  ((List.range ((b + d) / Nat.max 1 i.period + 2)).map fun k => Nat.min (b + i.period) (d + k * i.period) - Nat.max (a + i.period) (c + k * i.period)).sum

/-- Sheets in sequence on a store. -/
def evenTraf (store : Nat) (bytes : Rat) (write : Bool) : Traf :=
  { store := store, sheets := [], spread := 0, even := (ratCeil (bytes / 1024)).toNat, write := write }

/-- The tiers that hold what a checkpoint copies: the regions of the update descriptors. -/
def State.copiedTiers (s : State) (i : Image) : List Nat :=
  (dedup ((i.updates.flatMap fun u => (u.regions false).filterMap fun r => s.storeOf r.1).filter fun k => decide (k < 2)))

/-- The tier traffic of a background activity over some ns (14_checkpoint R432): reads of each source tier and as many far-tier writes for the
fast copy, far-tier reads and writes for the drain; known-answer runs make no access (15_faults R469). -/
def State.bgTraf (s : State) (i : Image) (kind : Nat) (ns : Nat) : List Traf :=
  let drain : Rat := (((List.range 16).map fun g => ((s.hopOf (imgCkpRes s.act g) 0).map Hop.rate).getD 0).sum : Rat) / 1000
  if kind = 2 then
    let n : Rat := (imgFastRate s.act : Rat) * (ns : Rat)
    evenTraf 1 n true :: (s.copiedTiers i).map fun k => evenTraf k n false
  else if kind = 3 then [evenTraf 1 (drain * (ns : Rat)) false, evenTraf 1 (drain * (ns : Rat)) true]
  else []

/-- The destination hops of a schedule's set, from one peer or from all. -/
def State.inHops (s : State) (i : Image) (peer : Option DevId) : List Hop :=
  s.hops.filter fun h => h.role = 2 && h.setId = i.setId && (match peer with | some d => h.peerId = d | none => true)

/-- The traffic that a phase meets besides its own commands': the log writes of a learning phase (13_collation R391), the background
activities of its window (R326), and on each scratchpad the link-receive writes, at the rates of the peers that a layout there is open to, and
MEM_HOST_COPY's, for which the spec gives no figure (09_memory R261; log entry 66). -/
def State.besides (s : State) (i : Image) (phase : Nat) (p : PhaseE) : List Traf :=
  let ns : Rat := ((p.deadline - p.launch : Nat) : Rat)
  let rate := fun (peer : Option DevId) => (((s.inHops i peer).map Hop.rate).sum : Rat) / 1000
  let log := if isLearning i && !p.gen then [evenTraf 1 (rate none * ns) true] else []
  let bg := i.bgs.flatMap fun b => s.bgTraf i b.kind (i.together p.launch p.deadline b.start b.stop)
  let received := fun (q : Nat) => (i.peers.filter fun r => !r.isSet && ((i.layouts.drop r.openFirst).take r.openCount).any fun l =>
    s.storeOf l.addr = some (2 + q)).map fun r => rate (some r.devId)
  log ++ bg ++ (List.range 4).flatMap fun q => [evenTraf (2 + q) ((received q).sum * ns) true, { evenTraf (2 + q) 0 true with even := Config.hostStage i.setId phase q }]

/-- Every stream of every phase. `caps` gives the caps of the near and the far tier of each phase. -/
def State.plans (s : State) (i : Image) (halfB : Bool) (caps : Nat → Nat × Nat) : List Plan :=
  let runs := i.phases.map fun p => s.runsOf i p halfB
  let scaled := fun q => ((runs[q]?).map i.scaledRun).getD false
  let raw := (i.phases.mapIdx fun k p =>
    let rs := runs.getD k []
    let traf := rs.map fun r => r.cmds.flatMap fun c => s.pkTraf i r.eng c.1 c.2.2 c.2.1 halfB
    let links := rs.map fun r => r.cmds.flatMap fun c => i.pkLinks c.1
    let start : Nat := p.launch + 24 + (if isLearning i && i.firstOf (fun _ => true) k then 12000 else 0) +
      (if i.firstOf scaled k then 4000 else 0)
    let chained := fun (folio : Nat) => rs.any fun r => engClass r.eng = 0 && engUnit r.eng = folio && r.cmds.any fun c => pkChIn c.1 || pkChOut c.1
    rs.mapIdx fun n r =>
      ({ phase := k, eng := r.eng, start := (start : Rat),
         items := s.itemsOf i k (chained (engUnit r.eng)) r (s.rates i (traf.flatten ++ s.besides i k p) (traf.getD n []) links.flatten (links.getD n []) (caps k)) halfB,
         eaten := [] } : Plan)).flatten
  let before := fun (a b : Plan) => a.eng = b.eng && a.phase ≠ b.phase && decide (a.start < b.start ∨ a.start = b.start ∧ a.phase < b.phase)
  raw.map fun b => { b with eaten := (raw.filter fun a => before a b).flatMap fun a => eatenBy a.items }

/-! ## The timeline of a stream -/

/-- Where a stream stands: when its decode is free, the array's entry, the last turn and the back leaf, the latest completion, what it has
consumed, how many WAITs and remote SIGNALs it has met on each counter, its charges, additions and remote completions. -/
structure Track where
  dec : Rat
  entry : Rat
  turned : Rat
  ready : Rat
  fin : Rat
  rowsOut : List (Rat × Rat × List Reach)
  eaten : List (Nat × Nat)
  met : List Nat
  sent : List (Nat × Nat × Rat)
  charges : List Charge
  sigs : List Sig
  stuck : Bool
  deriving DecidableEq, Repr

def Plan.track (p : Plan) : Track :=
  { dec := p.start, entry := p.start, turned := p.start - 1024 * floorBeat, ready := p.start, fin := p.start, rowsOut := [], eaten := p.eaten,
    met := [], sent := [], charges := [], sigs := [], stuck := false }

def rmax (a b : Rat) : Rat := if a < b then b else a

/-- The addition with which a counter first reaches a value, from its additions in order of time; none where it never does. A value that
the initial one reaches is there from the start. -/
def reaches (init : Nat) (sigs : List Sig) (need : Nat) : Option (Option Sig) :=
  if need ≤ init then some none
  else
    let sorted := sigs.mergeSort fun a b => decide (a.time ≤ b.time)
    let r := sorted.foldl (fun (a : Nat × Option Sig) x =>
      if a.2.isSome then a else if need ≤ a.1 + x.inc then (a.1 + x.inc, some x) else (a.1 + x.inc, none)) (init, none)
    r.2.map some

/-- The bytes that an item's rows write, and those that they read. -/
def writesOf (l : List Reach) : List Reach := l.filter fun r => r.write
/-- Two lists of ranges meet in a sheet. -/
def meetsAny (a b : List Reach) : Bool :=
  a.any fun x => b.any fun y => (sheetRange x.addr x.len).any fun sh => overlaps (sh * 1024) 1024 y.addr y.len

/-- When an item's accesses may begin after those of earlier rows of its stream that write the same sheets (06_programs R167): row by row
behind rows that write the same ranges, and behind the whole command otherwise. -/
def heldUntil (rowsOut : List (Rat × Rat × List Reach)) (r : List Reach) : Rat :=
  rowsOut.foldl (fun (a : Rat) x =>
    if meetsAny r x.2.2 then
      rmax a (if r.any fun y => (x.2.2.map fun z => (z.addr, z.len)).contains (y.addr, y.len) then x.1 + 1023 * floorBeat else x.2.1)
    else a) 0

/-- Completes an item that began at `at_` and ends at `done`: its charge, its additions and the decode's next time. -/
def Track.finish (l : Track) (t : Item) (ch : Charge) (dec done : Rat) : Track :=
  let fin := rmax l.fin done
  { l with
    dec := dec, fin := fin, charges := l.charges ++ [ch]
    sent := l.sent ++ (t.remote.map fun r => (r.1, r.2, done)).toList
    sigs := l.sigs ++ t.sigs.map fun g => ({ ctr := g.1, inc := g.2.1, time := fin + g.2.2, bind := ch.bind, index := ch.index } : Sig) }

/-- The launch beats of a pass, from its turn to the next, are those of its rows and at least 1,024 (04_array R137).
The next item of a stream, with the additions known so far, the counters' initial values, and the receive promises of the phase. -/
def Track.next (sigs : List Sig) (init : Nat → Nat) (promise : Nat → Nat → Option Rat) (unit : Charge) (l : Track) (t : Item) : Track :=
  if l.stuck then l
  else
    let beat := floorBeat
    let dec := if t.fence then rmax l.dec l.fin else l.dec
    match t.act with
    | .endPkt => l.finish t { unit with ns := beat } (rmax dec l.fin + beat) (rmax dec l.fin + beat)
    | .wait c n eat =>
      let had := ((l.eaten.filter fun x => x.1 = c).map (·.2)).sum
      let k := (l.met.filter fun x => x = c).length
      let l := { l with met := l.met ++ [c], eaten := if eat then l.eaten ++ [(c, n)] else l.eaten }
      match promise c k with
      | some tm => l.finish t { ns := rmax 0 (tm - dec) + beat, bind := 11, index := 0 } (rmax dec tm + beat) (rmax dec tm + beat)
      | none =>
        match (if n = 0 then some none else reaches (init c) (sigs.filter fun x => x.ctr = c) (had + n)) with
        | none => { l with stuck := true }
        | some none => l.finish t { unit with ns := beat } (dec + beat) (dec + beat)
        | some (some x) =>
          l.finish t { ns := rmax 0 (x.time - dec) + beat, bind := if dec < x.time then x.bind else unit.bind,
                       index := if dec < x.time then x.index else unit.index } (rmax dec x.time + beat) (rmax dec x.time + beat)
    | .load fill =>
      let start := rmax (rmax (rmax (if fill then dec + 512 * beat else dec) (l.turned + 512 * beat)) l.ready) (heldUntil l.rowsOut t.reach)
      let done := start + rmax (512 * beat) t.charge.ns
      { (l.finish t (Charge.max { unit with ns := 512 * beat } t.charge) dec done) with ready := done }
    | .rows beats turn fill =>
      let at_ := rmax (rmax (rmax (if fill then dec + 512 * beat else dec) l.entry) (if turn then rmax l.ready (l.turned + 1024 * beat) else 0))
        (heldUntil l.rowsOut t.reach)
      let turned := if turn then at_ else l.turned
      let took := rmax beats t.charge.ns
      let done := rmax (at_ + took) (turned + 1024 * beat) + 1023 * beat
      let fed := (t.takes.map fun key => reaches 0 (sigs.filter fun x => x.ctr = key) (((l.eaten.filter fun x => x.1 = key).map (·.2)).sum + 1)).getD (some none)
      match fed with
      | none => { l with stuck := true }
      | some g =>
        let done := rmax done ((g.map Sig.time).getD 0)
        let l := { l with
          entry := at_ + took, turned := turned, rowsOut := l.rowsOut ++ [(at_, done, writesOf t.reach)]
          eaten := l.eaten ++ (t.takes.map fun key => (key, 1)).toList }
        l.finish t (Charge.max { unit with ns := beats } t.charge) dec done
    | .run =>
      let fed := (t.takes.map fun key => reaches 0 (sigs.filter fun x => x.ctr = key) (((l.eaten.filter fun x => x.1 = key).map (·.2)).sum + 1)).getD (some none)
      match fed with
      | none => { l with stuck := true }
      | some g =>
        let done := rmax (rmax dec (heldUntil l.rowsOut t.reach) + t.charge.ns) ((g.map Sig.time).getD 0)
        let l := { l with eaten := l.eaten ++ (t.takes.map fun key => (key, 1)).toList }
        l.finish t t.charge done done

/-! ## Promises (R329) -/

/-- The largest one-way bound of a token message from a peer over this device's destination hops; none without a route. -/
def State.promiseRoute (s : State) (i : Image) (p : PromiseE) : Option Rat :=
  let dev := ((i.peers[p.peer]?).map PeerE.devId).getD 0
  let bs := (s.hops.filter fun h => h.role = 2 && h.setId = i.setId && h.peerId = dev).map fun h => h.oneWay 64
  match bs with
  | [] => none
  | b :: bs => some (bs.foldl rmax b)

/-- The k-th receive promise of a counter in a phase, or the last one: when its WAIT counts as satisfied. -/
def State.received (s : State) (i : Image) (phase ctr k : Nat) : Option Rat :=
  let ps := i.promises.filter fun p => p.recv && p.phase = phase && p.ctr = ctr
  match ps[Nat.min k (ps.length - 1)]? with
  | some p => (s.promiseRoute i p).map fun b => (p.time : Rat) + b + 2 * (i.syncBound : Rat)
  | none => none

/-! ## The phases together -/

/-- The lines of all streams with the additions known so far. -/
def State.lines (s : State) (i : Image) (plans : List Plan) (sigs : List Sig) : List Track :=
  let init := fun c => ((i.counters.find? fun x => x.ctr = c).map fun x => x.init.toNat).getD 0
  plans.map fun p => p.items.foldl
    (Track.next sigs init (s.received i p.phase) { ns := 0, bind := engClass p.eng + 1, index := engUnit p.eng }) p.track

/-- Repeats until the additions no longer change; every round settles at least the next addition in time. -/
def State.settleLines (s : State) (i : Image) (plans : List Plan) : Nat → List Sig → List Track
  | 0, sigs => s.lines i plans sigs
  | f + 1, sigs =>
    let ls := s.lines i plans sigs
    let sigs' := ls.flatMap Track.sigs
    if sigs' = sigs then ls else s.settleLines i plans f sigs'

/-- The outcome of a phase: its completion (none where a WAIT is never satisfied), and what decides it: the largest of the total costs of
its last stream. -/
structure PhaseTime where
  done : Option Nat
  bind : Nat
  index : Nat
  deriving DecidableEq, Repr

/-- The largest total of the charges of one resource. -/
def binding (cs : List Charge) : Charge :=
  let total := fun (c : Charge) => ((cs.filter fun d => d.bind = c.bind && d.index = c.index).map Charge.ns).sum
  cs.foldl (fun a c => if a.ns < total c then { c with ns := total c } else a) { ns := 0, bind := 0, index := 0 }

def phaseTime (xs : List (Plan × Track)) : PhaseTime :=
  let last := xs.foldl (fun (a : Option Track) x => match a with
    | none => some x.2
    | some l => if l.fin < x.2.fin then some x.2 else some l) none
  let c := binding ((last.map Track.charges).getD [])
  { done := if xs.any fun x => x.2.stuck then none else last.map fun l => (ratCeil l.fin).toNat, bind := c.bind, index := c.index }

/-- The streams of an image with their lines, entering at half A or half B. -/
def State.simulate (s : State) (i : Image) (halfB : Bool) (caps : Nat → Nat × Nat) : List (Plan × Track) :=
  let plans := s.plans i halfB caps
  List.zipWith (fun p l => (p, l)) plans (s.settleLines i plans ((plans.map fun p => p.items.length).sum + 1) [])

/-- The later of two completions of a phase. -/
def PhaseTime.max (a b : PhaseTime) : PhaseTime :=
  match a.done, b.done with
  | none, _ => a
  | _, none => b
  | some x, some y => if x < y then b else a

/-- The completion of a phase: the later of those that enter at each half. -/
def timeOf (sims : List (List (Plan × Track))) (p : Nat) : PhaseTime :=
  match sims.map fun sim => phaseTime (sim.filter fun x => x.1.phase = p) with
  | [] => { done := none, bind := 0, index := 0 }
  | a :: l => l.foldl PhaseTime.max a

def noCap : Nat → Nat × Nat := fun _ => (64, 64)
def State.sims (s : State) (i : Image) (caps : Nat → Nat × Nat) : List (List (Plan × Track)) := [s.simulate i false caps, s.simulate i true caps]

/-- Whether a command of a phase accesses a tier. -/
def State.phaseUses (s : State) (i : Image) (p : Nat) (far : Bool) : Bool :=
  match i.phases[p]? with
  | none => false
  | some f => ([false, true] : List Bool).any fun h => (s.runsOf i f h).any fun r => r.cmds.any fun c =>
      decide (0 < demandOn (if far then 1 else 0) (s.pkTraf i r.eng c.1 c.2.2 c.2.1 h))

/-- The ceiling of a tier for a phase (09_memory R267): the smallest cap under which it meets its deadline; the cap 0 serves only a phase
without accesses to the tier (log entry 66). -/
def State.ceiling (s : State) (i : Image) (p : Nat) (far : Bool) : Option Nat :=
  let dl := ((i.phases[p]?).map PhaseE.deadline).getD 0
  ((List.range 65).drop (if s.phaseUses i p far then 1 else 0)).find? fun f =>
    match (timeOf (s.sims i fun q => if q = p then (if far then (64, f) else (f, 64)) else (64, 64)) p).done with
    | some d => decide (d ≤ dl)
    | none => false

/-! ## Engine windows (R328) -/

/-- Something that occupies engines in steps: its window and the phase, if it is one. -/
structure Window where
  engs : List EngId
  start : Nat
  stop : Nat
  every : Nat
  sel : Nat
  phase : Option Nat
  deriving DecidableEq, Repr

/-- The windows of the phases and of the background entries (R326). -/
def Image.windows (i : Image) : List Window :=
  (i.phases.mapIdx fun k p =>
    { engs := ((i.streams.drop p.firstStream).take p.nStreams).filterMap fun y => (i.progs[y.prog]?).map ProgE.eng
      start := p.launch, stop := p.deadline, every := p.every, sel := p.stepPhase, phase := some k }) ++
  i.bgs.map fun b =>
    { engs := (bitList b.mask.toNat 12).flatMap fun l => ([0, 1, 2].filterMap fun c => engOf c l)
      start := b.start, stop := b.stop, every := 0, sel := 0, phase := none }

/-- Two windows, repeated every `m`, meet; a window meets itself only where it is longer than its repetition. -/
def meetCyclic (m : Nat) (same : Bool) (a b : Nat × Nat) : Bool :=
  let lo : Int := (a.1 : Int) - (b.2 : Int)
  let k := lo / (m : Int) + 1
  let hit := fun (k : Int) => decide (lo < k * m) && decide ((b.1 : Int) + k * m < a.2)
  if same then decide (m < a.2 - a.1) else hit k

/-- Two entries overlap on an engine, over 2^E steps. -/
def Image.overlap (i : Image) (e : Nat) (same : Bool) (a b : Window) : Bool :=
  let m := 2 ^ e * i.period
  (a.engs.any fun x => b.engs.contains x) &&
  (List.range (2 ^ e)).any fun n => n % 2 ^ a.every = a.sel && (List.range (2 ^ e)).any fun k => k % 2 ^ b.every = b.sel &&
    meetCyclic m (same && n = k) (n * i.period + a.start, n * i.period + a.stop) (k * i.period + b.start, k * i.period + b.stop)

/-- The first phase, if any, whose window overlaps, with an engine that it shares; none in the phase where only background entries meet. -/
def Image.firstOverlap (i : Image) : Option (Option Nat × EngId) :=
  let ws := i.windows
  let e := (i.phases.map PhaseE.every).foldl Nat.max 0
  (ws.mapIdx fun x a => (ws.mapIdx fun y b =>
    if i.overlap e (x = y) a b then ((a.engs.find? fun g => b.engs.contains g).map fun g => (a.phase, g)) else none)).flatten.findSome? id

/-! ## The checks (Table 11-11) -/

/-- Why admission refuses (R342 R343). -/
structure AdmFail where
  reason : Nat
  phase : Nat
  bind : Nat
  index : Nat
  short : Nat
  deriving DecidableEq, Repr

def AdmFail.status (f : AdmFail) : Nat := if f.reason / 256 = 2 then stState else if f.reason / 256 = 1 then stTransit else stDeadline

/-- A refusal that concerns no phase. -/
def plainFail (reason bind index : Nat) : AdmFail := { reason := reason, phase := 0xFFFF, bind := bind, index := index, short := 0 }

/-- The data-channel rate of a port's generation in MB/s (12_links R368). -/
def State.portRate (s : State) (p : Nat) : Nat := if lnkGen s.act p = 0 then 200000 else if lnkGen s.act p = 1 then 100000 else 0

/-- The first phase with a remote operation on a reservation. -/
def Image.firstOn (i : Image) (runs : List (List Run)) (k : Nat) : Nat :=
  (((List.range i.phases.length).find? fun p => (runs.getD p []).any fun r => r.cmds.any fun c => (i.pkLinks c.1).any fun l => l.1 = k)).getD 0xFFFF

/-- The transit reasons (12_links R374), each over the reservations in order. -/
def State.transitFail (s : State) (i : Image) (runs : List (List Run)) : Option AdmFail :=
  let ks := List.range i.resvs.length
  let hop := fun k => (s.resvHop i k).filter fun h => h.setId = i.setId && decide (0 < h.rate)
  let fail := fun (reason : Nat) (bad : Nat → Bool) => (ks.find? bad).map fun k =>
    ({ reason := reason, phase := i.firstOn runs k, bind := 9, index := k, short := 0 } : AdmFail)
  let axis := fun (p : Nat) => if lnkRole s.act p = 1 || lnkRole s.act p = 2 then some (lnkAxis s.act p) else none
  let excess := fun (k : Nat) => match hop k with
    | some h => decide (s.portRate h.outPort < ((s.hops.filter fun g => g.outPort = h.outPort).map Hop.rate).sum)
    | none => false
  let wrapped := fun (k : Nat) => ((i.resvs[k]?).map ResE.wrap).getD false && (match hop k with
    | some h => s.hops.any fun g => g.role = 1 && g.rate = 0 && g.setId ≠ i.setId && (axis h.outPort).isSome &&
        (axis g.inPort = axis h.outPort || axis g.outPort = axis h.outPort)
    | none => false)
  let down := fun (k : Nat) => match hop k with
    | some h => match portId h.outPort with
      | some p => decide (s.ports[p].st ≠ .up)
      | none => true
    | none => false
  (fail 0x0101 fun k => (hop k).isNone) <|> fail 0x0102 excess <|> fail 0x0103 wrapped <|> fail 0x0104 down

/-- The stores that a phase's traffic reaches, entering at a half. -/
def State.storesOf (s : State) (i : Image) (rs : List Run) (halfB : Bool) : List Nat :=
  dedup (rs.flatMap fun r => r.cmds.flatMap fun c => (s.pkTraf i r.eng c.1 c.2.2 c.2.1 halfB).map Traf.store)

/-- Shares over 64 in all admitted schedules, or a share of 0 that a phase uses (R340). -/
def State.shareFail (s : State) (x : Sched) : Option AdmFail :=
  let i := x.image
  let others := s.scheds.filter fun y => y.admitted && y.id ≠ x.id
  let sum := fun (f : Image → Nat) => f i + (others.map fun y => f y.image).sum
  let stg := fun (q : Nat) (j : Image) => j.stgShare.getD q 0
  if 64 < sum Image.nearShare then some (plainFail 0x0005 6 0)
  else if 64 < sum Image.farShare then some (plainFail 0x0005 7 0)
  else match (List.range 4).find? fun q => decide (64 < sum (stg q)) with
  | some q => some (plainFail 0x0005 8 q)
  | none =>
    (i.phases.mapIdx fun p f => ((([false, true] : List Bool).flatMap fun h => s.storesOf i (s.runsOf i f h) h).find? fun k =>
        decide (2 ≤ k) && stg (k - 2) i = 0).map fun k =>
      ({ reason := 0x0005, phase := p, bind := 8, index := k - 2, short := 0 } : AdmFail)).findSome? id

/-- A background entry whose activity does not fit its window (14_checkpoint R432, 13_collation R407): its excess in ns. -/
def State.bgShort (s : State) (i : Image) (b : BgE) : Nat :=
  let w := b.stop - b.start
  if b.kind = 1 then 40000 - w
  else
    let ts := s.bgTraf i b.kind w
    let t := fun (far : Bool) (share : Nat) => (tierLoad far (imgCompat s.act) ts).time * 64 / (share : Rat)
    (ratCeil (rmax 0 (rmax (t true i.farShare) (t false i.nearShare) - (w : Rat)))).toNat

/-- The learning phases with an UPDATE of a descriptor. -/
def Image.updates_ (i : Image) (runs : List (List Run)) (d : Nat) : List Nat :=
  let a := ((i.updates[d]?).map UpdateE.addr).getD 0
  (List.range i.phases.length).filter fun p => ((i.phases[p]?).map fun f => !f.gen).getD false &&
    (runs.getD p []).any fun r => r.cmds.any fun c => pkOp c.1 = 0x80 && fld c.1 4 8 = a

/-- When an update of the half that a generation phase pins is due, for every step in which the phase launches, as an offset from that step's
start. The update of the next step that selects one writes the other half, and that of the step after it the pinned one (01_step R32). -/
def Image.pinDue (i : Image) (runs : List (List Run)) (p : PhaseE) (d : Nat) : List Nat :=
  let n := 2 ^ ((i.phases.map PhaseE.every).foldl Nat.max 0)
  let ups := (i.updates_ runs d).filterMap fun q => i.phases[q]?
  ((List.range n).filter p.inStep).filterMap fun k =>
    let steps := (List.range (2 * n + 1)).filter fun m => ups.any fun f => f.inStep (k + m)
    (steps[1]?).bind fun m => minOf (((ups.filter fun f => f.inStep (k + m)).map fun f => m * i.period + f.launch))

/-- A pin that is still held when an update of the pinned half is due (01_step R32): the generation phase. -/
def Image.pinFail (i : Image) (runs : List (List Run)) (times : List PhaseTime) : Option Nat :=
  (List.range i.phases.length).find? fun p => match i.phases[p]?, (times[p]?).bind PhaseTime.done with
    | some f, some d => f.gen && ((List.range f.nPin).map (· + f.firstPin)).any fun u => (i.pinDue runs f u).any fun t => decide (t < d)
    | _, _ => false

/-- The promises (R329): the first phase with a WAIT that nothing satisfies, a missing promise or a late one, with its excess. -/
def State.promiseFail (s : State) (i : Image) (sims : List (List (Plan × Track))) : Option AdmFail :=
  let per := fun (p : Nat) => sims.findSome? fun sim => (sim.filter fun x => x.1.phase = p).findSome? fun x =>
    let fail := fun (bind index short : Nat) => ({ reason := 0x0007, phase := p, bind := bind, index := index, short := short } : AdmFail)
    if x.2.stuck then some (fail 11 0 0)
    else (x.2.sent.mapIdx fun k r =>
      let ps := i.promises.filter fun q => !q.recv && q.phase = p && q.ctr = r.1 && q.peer = r.2.1
      let n := ((x.2.sent.take k).filter fun y => y.1 = r.1 && y.2.1 = r.2.1).length
      match ps[Nat.min n (ps.length - 1)]? with
      | none => some (fail 9 (((i.peers[r.2.1]?).map PeerE.resv).getD 0) 0)
      | some q => if (q.time : Rat) < r.2.2 then
          some (fail 9 (((i.peers[r.2.1]?).map PeerE.resv).getD 0) (ratCeil (r.2.2 - (q.time : Rat))).toNat) else none).findSome? id
  let routeless := (i.promises.find? fun q => q.recv && (s.promiseRoute i q).isNone).map fun q =>
    ({ reason := 0x0007, phase := q.phase, bind := 11, index := 0, short := 0 } : AdmFail)
  let first := (List.range i.phases.length).findSome? per
  match first, routeless with
  | some a, some b => if b.phase < a.phase then some b else some a
  | some a, none => some a
  | none, b => b

/-- The bound of one hop of a barrier or vote message of L bytes on a port (12_links R373). -/
def State.hopBound (s : State) (p : Nat) (bytes : Nat) : Rat :=
  (if lnkGen s.act p = 1 then 520 else 400) + (if lnkCrypt s.act p then 40 else 0) +
    (bytes : Rat) / (if lnkGen s.act p = 1 then 234375 / 100000 else 46875 / 10000)

/-- The largest bound over the barrier's ports, with the port. -/
def State.barrierHop (s : State) (i : Image) (bytes : Nat) : Rat × Nat :=
  let ps := (if i.bar.parent = 0xFF then [] else [i.bar.parent]) ++ bitList i.bar.children.toNat 12
  ps.foldl (fun a p => if a.1 < s.hopBound p bytes then (s.hopBound p bytes, p) else a) (0, 0)

/-- Reason 0x0002; its rules for the barrier and the vote hold for every schedule (Table 11-11). -/
def State.barrierFail (s : State) (i : Image) (times : List PhaseTime) : Option AdmFail :=
  let late := ((List.range i.phases.length).filter fun p => ((i.phases[p]?).map fun f => !f.gen).getD false).findSome? fun p =>
    match (times[p]?).map fun t => (t.done, t) with
    | some (some d, t) => if i.sendBy < d then
        some ({ reason := 0x0002, phase := p, bind := t.bind, index := t.index, short := d - i.sendBy } : AdmFail) else none
    | _ => none
  let fail := fun (port : Nat) (x : Rat) => if 0 < x then
    some ({ reason := 0x0002, phase := 0xFFFF, bind := 10, index := port, short := (ratCeil x).toNat } : AdmFail) else none
  let bh := s.barrierHop i (64 + 34 * i.bar.nDev + 4 * i.bar.nObs)
  let vh := s.barrierHop i (64 + 8 * (descsOf i false).length * i.bar.nDev)
  let h2 : Rat := 2 * (i.bar.height : Rat)
  let tail : Nat := i.barrierAt + 4000 + (if ((i.num.map NumE.nTensors).getD 0) = 0 then 0 else 20000)
  late <|> fail bh.2 (h2 * bh.1 + 2 * (i.syncBound : Rat) - ((i.barrierAt - i.sendBy : Nat) : Rat)) <|>
    fail vh.2 (h2 * vh.1 - 10000) <|> fail bh.2 ((tail : Rat) - (i.period : Rat))

/-- The first check that fails, with the completions of the phases where the checks reached them. -/
def State.admFail (s : State) (x : Sched) (times : List PhaseTime) (sims : List (List (Plan × Track))) : Option AdmFail :=
  let i := x.image
  let runs := i.phases.map fun p => s.runsOf i p false
  let inactive := i.progs.find? fun g => decide (engClass g.eng < 3) && (s.physOf (engUnit g.eng)).isNone
  let taken := i.progs.find? fun g => s.scheds.any fun y => y.admitted && y.id ≠ x.id && y.image.progs.any fun h => h.eng = g.eng
  (inactive.map fun g => plainFail 0x0202 (engClass g.eng + 1) (engUnit g.eng)) <|>
  (taken.map fun g => plainFail 0x0004 (engClass g.eng + 1) (engUnit g.eng)) <|>
  s.shareFail x <|> s.transitFail i runs <|>
  (i.firstOverlap.map fun o => { reason := 0x0003, phase := o.1.getD 0xFFFF, bind := engClass o.2 + 1, index := engUnit o.2, short := 0 }) <|>
  ((List.range i.phases.length).findSome? fun p => match i.phases[p]?, times[p]? with
    | some f, some t => match t.done with
      | some d => if f.deadline < d then some { reason := 0x0001, phase := p, bind := t.bind, index := t.index, short := d - f.deadline } else none
      | none => none
    | _, _ => none) <|>
  ((i.bgs.find? fun b => decide (0 < s.bgShort i b)).map fun b =>
    { reason := 0x0008, phase := 0xFFFF, bind := if b.kind = 1 then 0 else 7, index := 0, short := s.bgShort i b }) <|>
  ((i.pinFail runs times).map fun p =>
    { reason := 0x0006, phase := p, bind := ((times[p]?).map PhaseTime.bind).getD 0, index := ((times[p]?).map PhaseTime.index).getD 0, short := 0 }) <|>
  s.promiseFail i sims <|> s.barrierFail i times

/-- A phase's entry of the response; what the spec does not state of a phase that fails is a free value, a function of the image (R338; log
entry 66). -/
def State.admEntry (s : State) (i : Image) (times : List PhaseTime) (p : Nat) : Bytes :=
  let t := times.getD p { done := none, bind := 0, index := 0 }
  let free := Config.admFigure i.setId p
  let ceil := fun (far : Bool) (k : Nat) => if imgCompat s.act then 0 else (s.ceiling i p far).getD (free k)
  le 8 (t.done.getD (free 0)) ++ le 1 t.bind ++ le 1 (ceil false 1) ++ le 1 (ceil true 2) ++ le 5 0

/-- The demands of a phase's streams on the tiers, the scratchpads and, from 6 on, the reservations, with the phase's (R340): for a generation
phase those of half A (log entry 66). -/
def State.demandsOf (s : State) (i : Image) (p : Nat) (f : PhaseE) : List (Nat × EngId × Nat × Nat × Nat) :=
  let of_ := (s.runsOf i f false).map fun r =>
    let ts := r.cmds.flatMap fun c => s.pkTraf i r.eng c.1 c.2.2 c.2.1 false
    let ls := r.cmds.flatMap fun c => i.pkLinks c.1
    (r.eng, ((List.range 6).map fun k => demandOn k ts) ++ (List.range i.resvs.length).map fun k => ((ls.filter fun l => l.1 = k).map (·.2)).sum)
  of_.flatMap fun x => (x.2.mapIdx fun k d => if d = 0 then [] else [(p, x.1, k, d, (of_.map fun y => y.2.getD k 0).sum)]).flatten

/-- Entries of the response of a refusal (R342): none where it precedes the phases, else up to the failing phase, or all of them where it
names none. -/
def admEntries (f : AdmFail) (np : Nat) : Nat :=
  if f.phase ≠ 0xFFFF then f.phase + 1
  else if ([0x0001, 0x0008, 0x0006, 0x0007, 0x0002] : List Nat).contains f.reason then np else 0

/-- SCH_ADMIT of a loaded schedule (R338-R343). -/
def State.schAdmit (s : State) (n : SlotId) (x : Sched) : State :=
  let i := x.image
  let sims := s.sims i noCap
  let np := i.phases.length
  let times := (List.range np).map (timeOf sims)
  let resp := fun (reason phase bind index short entries : Nat) =>
    le 2 reason ++ le 2 phase ++ le 1 bind ++ [0] ++ le 2 index ++ le 8 short ++ (List.range entries).flatMap (s.admEntry i times)
  match s.admFail x times sims with
  | some f => s.complete n f.status f.reason (resp f.reason f.phase f.bind f.index f.short (admEntries f np))
  | none =>
    let last := times.getD (np - 1) { done := none, bind := 0, index := 0 }
    let native := !imgCompat s.act
    let ceil := (List.range np).map fun p => if native then ((s.ceiling i p false).getD 0, (s.ceiling i p true).getD 0) else (0, 0)
    let demands := (i.phases.mapIdx fun p f => s.demandsOf i p f).flatten
    (s.setSched { x with state := .admitted, native := native, ceilings := ceil, demands := demands }).complete n stOk 0 (resp 0 0xFFFF last.bind last.index 0 np)

/-- SCH_ADMIT. -/
def execSchAdmit (n : SlotId) (s : State) : Res :=
  s.serloth n 0x0402 fun b =>
    let refused := s.complete n stState 0x0201 (le 2 0x0201 ++ le 2 0xFFFF ++ le 12 0)
    match s.sched (fld b.req 0 2) with
    | none => refused
    | some x => if x.ctx ≠ b.ctxNo || x.state ≠ .loaded then refused else s.schAdmit n x

end Sys2Proof.Machine
end

