-- ==== Sys2Proof/Machine/Sched.lean ====
section
/-! DEFINITION. Arming, the arm exchange, cancellation, status and slips of schedules (11_time R333-R337 R344-R346, 10_numerics R295,
13_collation R382 R392). -/

namespace Sys2Proof.Machine

/-- A schedule of a context by its ID. -/
def State.ownSched (s : State) (c id : Nat) : Option Sched :=
  match s.sched id with
  | some x => if x.ctx = c then some x else none
  | none => none

/-- SCH_STATUS.STATE (Table 11-9). -/
def schCode : SchState → Nat
  | .loaded => 1 | .admitted => 2 | .armed => 3 | .running => 4 | .held => 5 | .done => 6

/-! ## SCH_ARM (R334) -/

/-- EXP and VALID of every entry of a schedule's scale table. -/
def State.scaleStates (s : State) (x : Sched) : List (Byte × Bool) :=
  (List.range x.numTensors).map fun t =>
    let b := s.memRead (x.numTable + 32 * t) 2
    (b.getD 0 0, bit (fld b 1 1) 0)

/-- This device's entry of the arm exchange (10_numerics R295, 13_collation R382). -/
def State.armEntry (s : State) (x : Sched) : ArmEntry :=
  { index := imgGroupIndex s.act, facing := imgFacing s.act, scales := s.scaleStates x }

/-- The bound that the device reports of the scope of a schedule exceeds SYNC_BOUND: PATH and GROUP_PATH are in 1/16 ns (R318 R334). -/
def State.beyondSync (s : State) (i : Image) : Bool :=
  decide (16 * i.syncBound < (if i.machineScope then s.repPath else s.repGroupPath))

/-- The stitch time at which a slot was taken. -/
def State.takenStitch (s : State) (n : SlotId) : Nat := s.now - (s.clock - s.slots[n].takenAt)

/-- An armed schedule: its initial counter values are written, its steps count from 0, and the ledger of a step that was pending is
discarded (R186 R334, 13_collation R392). -/
def State.armed (s : State) (x : Sched) (a : Nat) : State :=
  let s := x.image.counters.foldl (fun s c => s.setCtr c.ctr c.init) s
  let s := if x.collated then { s with ledger.held := false } else s
  let s := s.setSched { x with
    state := .armed, armTime := a, step := 0, lastCollated := none, runs := [], launchedBg := [], cancel := none, pendingStep := none
    replay := none, diag := none, coll := { Coll.start with state := .none }
    bar := { round := 0, roundStart := 0, ups := [], upSent := false, downDone := false, failed := false }
    probe := { exchange := none, armOk := false, unsettled := [], probed := [], skipped := false, pass := false } }
  s.emit (.arm (s.armEntry x))

def execSchArm (n : SlotId) (s : State) : Res :=
  s.serloth n 0x0403 fun b =>
    let a := fld b.req 8 8
    match s.ownSched b.ctxNo (fld b.req 0 2) with
    | none => s.refuse n stState 1
    | some x =>
      if x.state ≠ .admitted then s.refuse n stState 1
      else if !s.lockedFor x.image.machineScope then s.refuse n stState 2
      else if s.beyondSync x.image then s.refuse n stState 3
      else if a % 8 ≠ 0 || decide (a < s.takenStitch n + 100000) then s.refuse n stState 4
      else (s.raiseSupply.armed x a).complete n stOk 0 []

/-! ## The arm exchange (10_numerics R295, 13_collation R382) -/

/-- How many devices of the group name a device. -/
def namers (es : List ArmEntry) (g : Nat) : Nat := (es.filter fun a => a.facing = g && a.index ≠ g).length

/-- The first group index that is not named by exactly one other device. -/
def firstUnmatched (es : List ArmEntry) (size : Nat) : Option Nat := (List.range size).find? fun g => namers es g ≠ 1

/-- The tensors that some device holds invalid, or whose EXP values differ. -/
def unsettledOf (es : List ArmEntry) (n : Nat) : List Nat :=
  (List.range n).filter fun t =>
    let vs := es.map fun a => a.scales.getD t (0, false)
    vs.any (fun v => !v.2) || vs.any fun v => vs.any fun w => v.1 ≠ w.1

/-- ARM_EXCHANGE_RECEIVE: the entries of the other devices of the group have arrived. A facing map of a collated schedule that is no
permutation returns it to ADMITTED, with record 0x0504. -/
def execArmExchangeReceive (sched : Nat) (entries : List ArmEntry) (s : State) : Res :=
  match s.sched sched with
  | none => ok s
  | some x =>
    if x.state ≠ .armed || x.probe.exchange.isSome then ok s
    else
      let me := imgGroupIndex s.act
      let es := s.armEntry x :: entries.filter fun a => a.index ≠ me
      let all := (List.range (imgGroupSize s.act)).all fun g => es.any fun a => a.index = g
      if !all then ok s
      else
        match (if x.collated then firstUnmatched es (imgGroupSize s.act) else none) with
        | some g => ok ((s.nativeE 3 0x0504 x.ctx 0xFF 0 g 0 0).setSched { x with state := .admitted }).runPendings
        | none => ok (s.setSched { x with probe := { x.probe with exchange := some es, armOk := true, unsettled := unsettledOf es x.numTensors } })

/-! ## SCH_CANCEL (R335) -/

/-- Marks a schedule as cancelled and holds the slot until its launched phases have ended. -/
def State.schCancel (s : State) (n : SlotId) (x : Sched) (atBarrier : Bool) : State :=
  ((s.setSched { x with cancel := some atBarrier }).hold n (.cancel x.id)).finishCancel x.id

/-- SCH_CANCEL with FLAGS[0] = 0: no phase launches after the take. -/
def execSchCancel (n : SlotId) (s : State) : Res :=
  if bit (fld s.slots[n].req 2 1) 0 then ok s
  else s.serloth n 0x0404 fun b =>
    match s.ownSched b.ctxNo (fld b.req 0 2) with
    | none => s.refuse n stState 0
    | some x => s.schCancel n x false

/-- SCH_CANCEL with FLAGS[0] = 1: the current step runs through its barrier and collation. Where no step is under way, or the schedule is
HELD, it is cancelled at once. -/
def execSchCancelAtBarrier (n : SlotId) (s : State) : Res :=
  if !bit (fld s.slots[n].req 2 1) 0 then ok s
  else s.serloth n 0x0404 fun b =>
    match s.ownSched b.ctxNo (fld b.req 0 2) with
    | none => s.refuse n stState 0
    | some x => s.schCancel n x (decide (x.state = .running) && !x.between && x.cancel ≠ some false)

/-! ## SCH_STATUS and SCH_SLIPS (R337 R344 R346) -/

def execSchStatus (n : SlotId) (s : State) : Res :=
  s.serloth n 0x0405 fun b =>
    match s.ownSched b.ctxNo (fld b.req 0 2) with
    | none => s.refuse n stState 0
    | some x => s.complete n stOk 0 (le 1 (schCode x.state) ++ le 1 (timeCode s.time.tstate) ++ le 6 0 ++ le 8 x.step ++ x.lastBytes ++ le 8 x.slipTotal)

/-- A slip record (R344). -/
def Slip.bytes (r : Slip) : Bytes :=
  le 4 r.tag.toNat ++ le 1 r.kind ++ le 1 r.cause ++ le 1 r.phase ++ [r.unit] ++ le 8 r.step ++ le 8 r.nominal ++ le 8 r.actual

def execSchSlips (n : SlotId) (s : State) : Res :=
  s.serloth n 0x0406 fun b =>
    let first := fld b.req 8 8
    let count := fld b.req 0x10 2
    match s.ownSched b.ctxNo (fld b.req 0 2) with
    | none => s.refuse n stState 0
    | some x =>
      let oldest := x.slipTotal - x.slips.length
      let from_ := Nat.max first oldest
      let rs := (x.slips.drop (from_ - oldest)).take count
      if 125 < count then s.refuse n stMalformed 0
      else if count = 0 || decide (x.slipTotal ≤ first) then s.complete n stEmpty 0 (le 8 from_ ++ le 4 0 ++ le 4 0)
      else s.complete n stOk 0 (le 8 from_ ++ le 4 rs.length ++ le 4 0 ++ rs.flatMap Slip.bytes)

end Sys2Proof.Machine
end

