-- ==== Sys2Proof/Machine/Resets.lean ====
section
/-! DEFINITION. Context, Binder and compute-partition resets, their count and the removal from service (15_faults R453-R467, 02_binder
R53-R55 R60 R67, 06_programs R200, 11_time R336). -/

namespace Sys2Proof.Machine

/-! ## Commands in slots (02_binder R53 R55) -/

/-- The pending image that a slot's press holds is dropped (02_binder R67; log entry 69). -/
def State.dropImage (s : State) (n : SlotId) : State :=
  { s with cfg.pendings := s.cfg.pendings.filter fun p => p.slot ≠ some n }

/-- Completes the posts and the taken commands that a predicate names. A post in state 1 was not taken, so it uses up no SEQ (log entry
69). -/
def State.endCommands (s : State) (p : Slot → Bool) (status : Nat) : State :=
  (List.finRange 64).foldl (fun s n =>
    let x := s.slots[n]
    if (x.hdr.state = 1 || x.hdr.state = 2) && p x then s.refuse n status 0 else s) s

/-- The slots that hold a command of a context, except CTX_RESET (Table 15-5 order 1). -/
def Slot.ofContext (c : Nat) (x : Slot) : Bool := x.ctxNo = c && x.hdr.cmd ≠ 0x0203

/-- Poisons half A of a descriptor. -/
def State.poisonHalf (s : State) (u : UpdateE) : State := (u.regions false).foldl (fun s r => s.poisonRange r.1 r.2) s

/-- A CKP_LOAD that its holders have not answered is stopped: the descriptors are uncompleted, and are poisoned (14_checkpoint R444). -/
def State.stopLoad (s : State) (n : SlotId) : State :=
  match s.collated with
  | some x =>
    if s.slots[n].hdr.cmd = 0x0903 && x.ctx = s.slots[n].ctxNo && (x.state = .loaded || x.state = .admitted) && !s.ckptLive then
      { x.image.updates.foldl State.poisonHalf s with cover := [] }
    else s
  | none => s

/-- The Binder stops a command that it holds (R53; log entry 69): a press drops its image, a cancellation is withdrawn, a context's reset
ends where it stands, shadow mode is left. Kernels and soaks run no further for it; a replay continues (13_collation R402), and ports train by
themselves (12_links Table 12-2). -/
def State.stopHeld (s : State) (n : SlotId) : State :=
  match s.slots[n].held with
  | .cancel id => (match s.sched id with
    | some x => s.setSched { x with cancel := none }
    | none => s)
  | .ctxReset =>
    let c := ctxId s.slots[n].ctxNo
    s.setCtx c { s.ctxs[c] with resetting := false, records := 0 }
  | .shadow => { s with shadow := Shadow.reset }
  | _ => (s.stopLoad n).dropImage n

/-- LONG_COMMAND_TIMEOUT (R53): an L command that has held its slot for 60 s is stopped and completes with TIMEOUT. -/
def execLongCommandTimeout (n : SlotId) (s : State) : Res :=
  let x := s.slots[n]
  let long := ((cmdRow x.hdr.cmd.toNat).map CmdRow.long).getD false
  if x.hdr.state = 2 && long && decide (x.takenAt + 60000000000 ≤ s.clock) && s.binder.run ≠ .off then
    ok ((s.stopHeld n).refuse n stTimeout 0)
  else ok s

/-! ## Context reset (R456) -/

/-- A step of the collated schedule that has launched and is not collated. -/
def Sched.underWay (x : Sched) : Bool := x.collated && x.coll.state ≠ .none && x.coll.state ≠ .collated

/-- An active schedule returns to ADMITTED (Table 15-5 order 2): its launched phases stop, a step under way stays pending with its
ledger, and a round or replay ends with HALT (11_time R336, 13_collation R392 R401). -/
def State.returnSched (s : State) (id : Nat) : State :=
  match s.sched id with
  | none => s
  | some x =>
    let s := (x.runs.filter PhaseRun.inProgress).foldl (fun s r => match s.sched id with
      | some y => s.stopRun y r
      | none => s) s
    match s.sched id with
    | none => s
    | some y =>
      (s.setSched { y with
        state := .admitted, launchedBg := [], cancel := none, replay := none, diag := none
        pendingStep := if y.underWay then some y.step else none
        coll := { y.coll with flags := if y.underWay then y.coll.flags ||| 1#16 else y.coll.flags, arbTodo := 0, takes := [] } }).cutCheck

/-- An engine that stops for a reset (R135 R161 R200): every command in progress completes with CONTEXT_RESET and its watermark, and the
engine is cleared. Answers how many records that wrote. -/
def State.resetEngine (s : State) (e : EngId) : Nat × State :=
  let cut := s.engines[e].entries.filter fun t => !t.ready
  let s := cut.foldl (fun s t => ((s.traceCmd e t 7 stContextReset 0).dropLoad e t).closeEntry e t.pos stContextReset) s
  let s := s.flush e
  let g := s.engines[e]
  (cut.length, s.setEng e { Engine.reset with issue := g.issue, nextPos := g.nextPos, freeAt := s.now, hung := g.hung })

/-- An engine that will not answer a stop. -/
def Engine.deaf (g : Engine) : Bool := g.noAck || g.wedged

/-- The engines that a context's streams hold. -/
def State.engsOf (s : State) (c : Nat) : List EngId :=
  (List.finRange 44).filter fun e => (s.engines[e].grant.map Grant.ctx) = some c

/-- Orders 1 to 4 of Table 15-5. With `force` the Binder writes the records of engines that do not answer (R467). -/
def State.stopContext (s : State) (c : Nat) (force : Bool) : State :=
  let k := ctxId c
  let s := s.setCtx k { s.ctxs[k] with resetting := true }
  let s := (List.finRange 64).foldl (fun s n =>
    if s.slots[n].ofContext c && s.slots[n].hdr.state = 2 then s.dropImage n else s) s
  let s := s.endCommands (Slot.ofContext c) stContextReset
  let s := (s.scheds.filter fun x => x.ctx = c && x.active).foldl (fun s x => s.returnSched x.id) s
  let s := (s.engsOf c).foldl (fun s e =>
    if s.engines[e].deaf && !force then
      let g := s.engines[e]
      s.setEng e { g with stopAt := some (g.stopAt.getD s.clock) }
    else
      let (n, s) := s.resetEngine e
      s.setCtx k { s.ctxs[k] with records := s.ctxs[k].records + n }) s
  let s := (s.scheds.filter fun x => x.ctx = c).foldl (fun s x => x.image.counters.foldl (fun s d => s.setCtr d.ctr 0) s) s
  { s with traces := s.traces.map fun t => if t.ctx = c then { t with capturing := false } else t }

/-- The keep flag of the CTX_RESET that runs for a context: the first that was taken (R60). -/
def State.keepFlag (s : State) (c : Nat) : Bool :=
  match s.binder.taken.find? fun n => s.slots[n].ctxNo = c && s.slots[n].hdr.cmd = 0x0203 with
  | some n => bit (fld s.slots[n].req 0 1) 0
  | none => true

/-- The reset ends the generation phases of a schedule: their sample status words are written and their pins released (08_conditional R243,
01_step R33). -/
def State.endRuns (s : State) (id : Nat) : State :=
  match s.sched id with
  | none => s
  | some x =>
    let s := (x.runs.filter fun r => !r.complete).foldl (fun s r => s.writeSample x r) s
    s.setSched { x with runs := x.runs.filter PhaseRun.complete }

/-- Orders 5 and 6 of Table 15-5: the record 0x0804, and every CTX_RESET that the Binder has taken for the context completes: one taken
while the first executed performs no second reset (02_binder R60). -/
def State.endContext (s : State) (c : Nat) (keep : Bool) : State :=
  let k := ctxId c
  let n := s.ctxs[k].records
  let s := (s.scheds.filter fun x => x.ctx = c).foldl (fun s x => s.endRuns x.id) s
  let s := if keep then s else
    ((s.scheds.filter fun x => x.ctx = c).foldl (fun s x => s.removeSched x.id) s).unmapAll c
  let s := s.setCtx k { s.ctxs[k] with resetting := false, records := 0 }
  let s := s.nativeE 0 0x0804 c 0xFF 0 n 0 (bnat keep)
  let s := (List.finRange 64).foldl (fun s i =>
    if s.slots[i].hdr.state = 2 && s.slots[i].hdr.cmd = 0x0203 && s.slots[i].ctxNo = c then s.complete i stOk 0 (le 4 n ++ le 4 0) else s) s
  s.runPendings

/-- Some engine of a context does not answer, so its reset waits. -/
def State.contextWaits (s : State) (c : Nat) : Bool := (s.engsOf c).any fun e => s.engines[e].stopAt.isSome

/-- CTX_RESET (R456 R60). -/
def execCtxReset (n : SlotId) (s : State) : Res :=
  s.serloth n 0x0203 fun x =>
    let c := x.ctxNo
    if c = 0 then s.refuse n stContext 0
    else if s.ctxs[ctxId c].resetting then s.hold n .ctxReset
    else
      let keep := bit (fld x.req 0 1) 0
      let s := (s.hold n .ctxReset).stopContext c false
      if s.contextWaits c then s else s.endContext c keep

/-! ## The count of resets (R462) -/

/-- A counted reset is requested: it joins the count, which may reach RESET_LIMIT. -/
def State.countReset (s : State) : Bool × State :=
  let s := { s with guard.limits.resetTimes :=
    (s.guard.limits.resetTimes.filter fun t => s.clock < t + s.guard.limits.resetWindow * 1000000000) ++ [s.clock] }
  (decide (s.guard.limits.resetLimit ≤ s.resetCount), s)

/-! ## The crash dump (R464) -/

/-- Sheets of a dump slot that map to a fenced channel. -/
def State.lostSheets (s : State) (slot : Nat) : List Nat :=
  if !(s.mem.chans.any fun kv => kv.2.fenced) then []
  else
    let a := farBase + imgDumpBase s.act + 0x20000000 * slot
    (List.range 0x80000).filterMap fun i => if s.fenced (a / 1024 + i) then some (a + 1024 * i) else none

/-- Captures a dump into the slot that holds the older one. Where the header's own sheets are lost, the slot stays incomplete. -/
def State.captureDump (s : State) (cause : Option Nat) : State :=
  let old := match s.guard.dumps with
    | (none, _) => 0
    | (some _, none) => 1
    | (some a, some b) => if a.number ≤ b.number then 0 else 1
  let lost := s.lostSheets old
  let base := farBase + imgDumpBase s.act + 0x20000000 * old
  let d : Dump := { cause := BitVec.ofNat 64 (cause.getD 0xFFFFFFFFFFFFFFFF), stamp := s.time.stitch,
                    complete := lost.all fun a => decide (base + 4096 ≤ a), number := s.guard.dumpCount + 1, lost := lost }
  { s with guard.dumps := if old = 0 then (some d, s.guard.dumps.2) else (s.guard.dumps.1, some d), guard.dumpCount := s.guard.dumpCount + 1 }

/-! ## Injections that a reset cancels (R475) -/

/-- The types whose targets lie in the compute partition: memory channels and addresses, folios, descriptors and engines. -/
def inPartition (type : Nat) : Bool := (([1, 2, 3, 4, 8, 9, 10, 11, 12] : List Nat)).contains type

def State.cancelInjections (s : State) (p : Nat → Bool) : State :=
  { s with guard.injections := s.guard.injections.filter fun i => !p i.type, latents := s.latents.filter fun l => !p l.type }

/-! ## Removal from service (R463) -/

/-- The device is removed from service: the dump, record 0x0803, and the compute partition and the Binder unpowered. What they held is
lost; the Guard's state, the tiers and the ports stay. -/
def State.removeFromService (s : State) (cause : Option Nat) : State :=
  let s := s.captureDump cause
  let s := s.refuseWaiting
  let s := s.native 6 0x0803 0 (cause.getD 0xFFFFFFFFFFFFFFFF) 0
  let s := s.setDev .removed
  { s with
    binder := { s.binder with run := .off, taken := [] }
    engines := Vector.replicate 44 Engine.reset, counters := [], scheds := [], sent := []
    mem := { s.mem with selfRefresh := true, caches := Vector.replicate 4 [] }
    ports := s.ports.map fun (x : PortS) => if x.st = .up || x.st = .retraining then { x with hold := true } else x
    guard := { s.guard with
      resetReq := none, injections := [], mposts := []
      supply := { s.guard.supply with vcomp := 0, vtarget := 0 } }
    latents := [] }

/-! ## Compute-partition reset (R458) -/

/-- What a change of mode does beyond the image: the folio map of the mode, the admissions it ends, and the Guard's limits (00_scope R2
R5, 11_time R340, 16_guard R483). -/
def State.enterMode (s : State) (full : Bool) : State :=
  let watts := if full then 2050 else 1600
  { s with
    frw := { gen := s.frw.gen + 1, fullLeaf := full, activeCount := if full then 12 else 8,
             map := if full then Frw.fullMap else Frw.standardMap, spare := if full then 0 else 0xF, gated := 0 }
    scheds := s.scheds.map fun x => if x.state = .admitted then { x with state := .loaded } else x
    guard := { s.guard with limits := { s.guard.limits with plim := watts, bndPlim := watts } } }

/-- A pending MODE press takes effect (Table 15-6 order 6). -/
def State.pressMode (s : State) : State :=
  let s := (s.cfg.pendings.filter fun p => bit p.mask.toNat 0).foldl State.applyPending s
  if imgFull s.act = s.frw.fullLeaf then s else s.enterMode (imgFull s.act)

/-- The failed stages of a physical folio in a run of every folio: the OPE and RTE stages run with the first folio of each quire (R469). -/
def stagesOf (l : List (Nat × BitVec 7)) (p : Phys) : Nat :=
  let m := ((l.find? fun x => x.1 = p.val).map fun x => x.2.toNat).getD 0
  if p.val % 3 = 0 then m else m % 32

/-- Known-answer runs on every physical folio: those that fail (R469 R470). -/
def State.katAll (s : State) (l : List (Nat × BitVec 7)) : List Nat × State :=
  (List.finRange 12).foldl (fun (a : List Nat × State) p =>
    let (pass, s) := a.2.katRun p (stagesOf l p)
    (if pass then a.1 else a.1 ++ [p.val], s)) ([], s)

/-- Quires whose OPE or RTE fails. -/
def failedQuires (l : List (Nat × BitVec 7)) : BitVec 4 :=
  (List.finRange 12).foldl (fun m p => if stagesOf l p / 32 = 0 then m else m ||| BitVec.ofNat 4 (2 ^ (p.val / 3))) 0

/-- A failing active folio: its quire's spare takes it over where one passes, else its logical identity is inactive (R458). -/
def State.replaceFolio (s : State) (bad : List Nat) (l : Nat) : State :=
  match s.physOf l with
  | none => s
  | some p =>
    if !bad.contains p.val then s
    else
      let q := p.val / 3
      if s.spareFree q && !bad.contains (spareOf q).val then s.moveFolio l (spareOf q) 1
      else
        let m := if h : l < 12 then s.frw.map.set l none else s.frw.map
        { s with frw := { s.frw with gen := s.frw.gen + 1, map := m, activeCount := s.frw.activeCount - 1 } }

/-- Spares that are unused and passed (FRW_SPARE). -/
def State.settleSpares (s : State) (bad : List Nat) : State :=
  let ok_ := (List.range 4).foldl (fun (m : BitVec 4) q =>
    if s.spareFree q && !bad.contains (spareOf q).val then m ||| BitVec.ofNat 4 (2 ^ q) else m) 0
  if ok_ = s.frw.spare then s else { s with frw := { s.frw with spare := ok_, gen := s.frw.gen + 1 } }

/-- The known-answer runs of every folio and what they change in the folio map. -/
def State.settleFolios (s : State) (l : List (Nat × BitVec 7)) : State :=
  let (bad, s) := s.katAll l
  let s := (List.range 12).foldl (fun s k => s.replaceFolio bad k) s
  (s.settleSpares bad).measure9

/-- Orders 4 to 7 of Table 15-6: the compute supply is removed and restored, staging reads +0, a MODE press takes effect, and the kernels
run (09_memory Table 09-11). -/
def State.rebuild (s : State) (k : PartitionKat) : State :=
  let s := { s with engines := s.engines.map fun (g : Engine) => { Engine.reset with issue := g.issue, nextPos := g.nextPos, freeAt := s.now }
                    counters := [] }
  let s := (List.range 4).foldl (fun s q => s.zeroRange (scratchBase q) 0x8000000) s
  let s := { s with mem := { s.mem with caches := Vector.replicate 4 [], selfRefresh := false } }
  (s.pressMode).settleFolios k.stages

/-- The open contexts. -/
def State.openContexts (s : State) : List Nat := (List.range 64).filter fun c => c ≠ 0 && s.ctxs[ctxId c].isOpen

/-- Every context is reset as with the keep flag (Table 15-6 order 3); a CTX_RESET that a context waits for keeps its own flag. -/
def State.resetContexts (s : State) : State :=
  s.openContexts.foldl (fun s c =>
    let keep := s.keepFlag c
    (s.stopContext c true).endContext c keep) s

/-- The compute partition is rebuilt and the Binder restarts, as a wake from HOLD does (16_guard R503). -/
def State.wakeCompute (s : State) (k : PartitionKat) : State :=
  let s := (s.rebuild k).endCommands (fun x => x.hdr.state = 2) stBinderReset
  { s with binder := { s.binder with run := .running, taken := [], lastAlive := s.clock }
           time := { s.time with running := true } }

/-- The time state restarts in ACQUIRING, which a machine root leaves for ROOT_FREE (11_time R321). -/
def State.wakeTime (s : State) : State :=
  let s := s.setTime .acquiring
  if imgRoot s.act then { (s.setTime .rootFree) with time.ppsGood := 0 } else s

/-- Ports that were off train; the others leave their hold. -/
def State.wakePorts (s : State) : State :=
  (List.finRange 12).foldl (fun s p =>
    if s.ports[p].st = .off && lnkRole s.act p.val ≠ 0 then s.startTraining p
    else s.setPort p { s.ports[p] with hold := false }) s

/-- A wake from NAP or HOLD (16_guard R502 R503): tiers leave self-refresh; from HOLD the compute partition is rebuilt and the time state
restarts; then the ports train. -/
def State.wake (s : State) (k : PartitionKat) : State :=
  if s.guard.power.pstate ≠ .nap && s.guard.power.pstate ≠ .hold then s
  else
    let hold := s.guard.power.pstate = .hold
    let s := { s with mem := { s.mem with selfRefresh := false } }
    let s := (if hold then (s.wakeCompute k).wakeTime else s).wakePorts
    let v := if s.floorHeld then 700 else 600
    { s with guard := { s.guard with
        power := { s.guard.power with pstate := .run, wakeAt := none, runAt := s.now }
        supply := { s.guard.supply with vcomp := v, vtarget := v } } }

/-- The staging sheets that stopping the engines that do not answer leaves poisoned (R467). -/
def State.wedgedSheets (s : State) : List Nat :=
  let t := ((List.finRange 44).filter fun e => s.engines[e].deaf).foldl (fun t e => (t.resetEngine e).2) s
  (t.mem.poison.map (·.1)).filter fun sh => decide (scratchBase 0 / 1024 ≤ sh) && !AMap.get noMark s.mem.poison sh

/-- A compute-partition reset that the Guard performs. The parts that a wedged engine left incomplete are marked after the staging memory is
cleared (R467). -/
def State.partitionReset (s : State) (cause : Option Nat) (k : PartitionKat) : State :=
  let s := s.wake k
  let before := s.guard.devState
  let readyAt := s.guard.bring.readyAt
  let s := s.setDev .resetting
  let s := if cause.isSome then s.captureDump cause else s
  let wedged := s.wedgedSheets
  let s := s.resetContexts
  let s := (s.rebuild k).cancelInjections inPartition
  let s := wedged.foldl (fun s sh => s.mark sh true) s
  let s := s.native 0 0x0801 3 (cause.getD 0xFFFFFFFFFFFFFFFF) (min s.resetCount 255)
  let s := s.setDev before
  ({ s with guard := { s.guard with bring := { s.guard.bring with readyAt := readyAt } } }).releaseHeld

/-- COMPUTE_PARTITION_RESET (R458 R461 R462): the request that stands, or one of the Guard's own. A request before READY is absorbed by
bring-up (17_physical R515); without the link reference it waits for the reset of R525 (log entry 70). -/
def execComputePartitionReset (k : PartitionKat) (s : State) : Res :=
  let g := s.guard
  if !g.powered || g.devState = .removed || g.cutoff || g.overvolt || g.refLost.isSome then ok s
  else if g.devState = .booting || g.devState = .resetting then ok { s with guard.resetReq := none }
  else
    let (cause, free) := match g.resetReq with
      | some (.partition c f) => (c, f)
      | none => (none, false)
    let s := { s with guard.resetReq := none }
    if free then ok (s.partitionReset cause k)
    else
      let (hit, s) := s.countReset
      if hit then ok (s.removeFromService cause) else ok (s.partitionReset cause k)

/-! ## Binder reset (R455 R460) -/

/-- The Binder restarts: commands it held complete with BINDER_RESET, pending images stay without a slot (02_binder R55 R67), and
record 0x0801 is written. -/
def State.binderReset (s : State) (cause : Option Nat) (planned : Bool) : State :=
  let s := s.endCommands (fun _ => true) stBinderReset
  let ps : List Pending := s.cfg.pendings.map fun (p : Pending) => { p with slot := none }
  let s := { s with
    cfg := { s.cfg with pendings := ps }
    binder := { run := .running, scanPos := s.binder.scanPos, taken := [], lastAlive := s.clock } }
  let s := s.cancelInjections fun t => t = 0x0D
  s.native 0 0x0801 2 (cause.getD 0xFFFFFFFFFFFFFFFF) (min s.resetCount 255 + (if planned then 256 else 0))

/-- BINDER_ALIVE (R455). -/
def execBinderAlive (s : State) : Res :=
  if s.binder.run = .running then ok { s with binder := { s.binder with lastAlive := s.clock } } else ok s

/-- BINDER_WATCHDOG (R455): no report for 100 ms; record 0x0802 and a counted Binder reset. A stall does not count (16_guard R499). -/
def execBinderWatchdog (s : State) : Res :=
  if s.binder.run = .off || !s.guard.powered || s.guard.supply.stall || decide (s.clock < s.binder.lastAlive + 100000000) then ok s
  else
    let l := s.latents.find? fun l => l.type = 0x0D
    let seq := s.guard.logNext
    let s := s.nativeI l.isSome 3 0x0802 0 0 0
    if (l.map Latent.noesc).getD false then ok (s.binderReset (some seq) false)
    else
      let (hit, s) := s.countReset
      if hit then ok (s.removeFromService (some seq)) else ok (s.binderReset (some seq) false)

end Sys2Proof.Machine
end

