-- ==== Sys2Proof/Machine/Time.lean ====
section
/-! DEFINITION. The time base: timing exchanges and their filter, the followed port, holdover, faulty sources and root conflicts, the
external reference, and TIM_STATUS (11_time R309-R322). Offsets and delays are held doubled, in 1/16 ns, so that their halves are exact. -/

namespace Sys2Proof.Machine

/-! ## Values -/

/-- The counter in 1/16 ns (R315). -/
def State.now16 (s : State) : Nat := 16 * s.now + s.time.acc * 16 / 1024000000000

def clampI (v lo hi : Int) : Int := max lo (min v hi)

/-- The members of a list of integers in ascending order. -/
def sortI (l : List Int) : List Int :=
  l.foldl (fun a v => a.takeWhile (· ≤ v) ++ [v] ++ a.dropWhile (· ≤ v)) []

/-- Twice the median of a list. -/
def median2 (l : List Int) : Int :=
  let s := sortI l
  let n := s.length
  s.getD ((n - 1) / 2) 0 + s.getD (n / 2) 0

/-- Four times the median offset of a port's window, in 1/16 ns. -/
def TPort.median4 (t : TPort) : Int := median2 (t.window.map (·.2))

/-- Twice the least delay of a window. -/
def TPort.minDelay (t : TPort) : Int :=
  match t.window with
  | [] => 0
  | w :: ws => ws.foldl (fun a x => min a x.1) w.1

/-- The hop budget of a port in 1/16 ns (R318). -/
def State.hopBudget (s : State) (p : Port) : Nat := if lnkGen s.act p.val = 0 then 16 else 32

/-- A budget with a hop added; 0xFFFF where there is none. -/
def addPath (v : BitVec 16) (b : Nat) : BitVec 16 := if 0xFFFF ≤ v.toNat + b then 0xFFFF else BitVec.ofNat 16 (v.toNat + b)

/-! ## Messages (Table 11-2) -/

/-- FLAGS of this device's messages. A group master never marks itself unusable (log entry 71). -/
def State.timFlags (s : State) : Byte :=
  let t := s.time.tstate
  let bad := (t = .acquiring || t = .unlocked || t = .rootFree) && !imgMaster s.act
  BitVec.ofNat 8 (bnat bad + 2 * bnat (decide (t = .rootExt)) + 4 * bnat (imgMaster s.act))

/-- The machine root that this device follows; 0 if none. -/
def State.rootId (s : State) : DevId :=
  if imgRoot s.act then Config.devId
  else match s.time.followed with
    | some p => s.ports[p].timing.rootId
    | none => 0

/-- Bytes 0x00 to 0x2F of a timing message. -/
def timingBytes (m : TimingMsg) (type : Nat) : Bytes :=
  le 1 type ++ [m.flags] ++ le 2 (bnat m.reserved) ++ le 4 m.seq.toNat ++ le 8 m.rootId.toNat ++ le 2 m.path.toNat ++ le 2 m.groupPath.toNat ++
  le 4 0 ++ le 8 m.tA.toNat ++ le 8 m.tB.toNat ++ le 8 m.tC.toNat

/-- The MAC of a message under a session key (R316). -/
def timingMac (m : TimingMsg) (type : Nat) (k : BitVec 256) : BitVec 128 := Config.gmac k (timingBytes m type)

/-- Sends a timing message on a port, with the next SEQ. -/
def State.sendTiming (s : State) (p : Port) (type tA tB tC : Nat) : State :=
  let x := s.ports[p]
  let q := x.timing.seqOut + 1
  let m : TimingMsg :=
    { flags := s.timFlags, reserved := false, seq := q, rootId := s.rootId, path := BitVec.ofNat 16 s.repPath, groupPath := BitVec.ofNat 16 s.repGroupPath,
      tA := BitVec.ofNat 64 tA, tB := BitVec.ofNat 64 tB, tC := BitVec.ofNat 64 tC, mac := 0 }
  let m := { m with mac := timingMac m type (x.session.getD 0) }
  (s.setPort p { x with timing := { x.timing with seqOut := q } }).emit (.timing p m)

/-- A port takes part in timing exchanges (R315). -/
def State.times (s : State) (p : Port) : Bool := s.ports[p].admitted && decide (lnkGen s.act p.val < 2)

/-- SYNC_EXCHANGE_START (R315). -/
def execSyncExchangeStart (p : Port) (s : State) : Res :=
  let x := s.ports[p]
  if s.times p && decide (x.timing.lastSync + 1000 ≤ s.clock) then
    let t1 := s.now16
    let s := s.setPort p { x with timing := { x.timing with lastSync := s.clock, syncAt := x.timing.syncAt ++ [t1] } }
    ok (s.sendTiming p 1 t1 0 0)
  else ok s

/-- Discarded messages of a port: the 65th within 1 ms is malformed traffic (R316, 12_links Table 12-6). -/
def State.discarded (s : State) (p : Port) : State :=
  let x := s.ports[p]
  let ts := (x.timing.discTimes.filter fun t => s.clock < t + 1000000) ++ [s.clock]
  let s := s.setPort p { x with timing := { x.timing with discTimes := ts.drop (ts.length - 65) } }
  if 64 < ts.length then s.malformedNow p 9 else s

/-- The reason for which a message is discarded: 1 AUTH, 2 STALE, 3 FORM (R316). -/
def State.timingBad (s : State) (p : Port) (type : Nat) (m : TimingMsg) : Option Nat :=
  let x := s.ports[p]
  let auth := s.times p && (match x.session with | some k => decide (m.mac = timingMac m type k) | none => false)
  let stale := match x.timing.seqIn with | some q => decide (m.seq.toNat ≤ q.toNat) | none => false
  let form := m.reserved || decide (8 ≤ m.flags.toNat) ||
    (type = 2 && (!x.timing.syncAt.contains m.tA.toNat || decide (m.tC.toNat < m.tB.toNat)))
  if !auth then some 1 else if stale then some 2 else if form then some 3 else none

/-- Discards a message and counts it under its reason. -/
def State.discard (s : State) (p : Port) (why : Nat) : State :=
  let t := s.time
  let s := { s with time :=
    if why = 1 then { t with discAuth := satAdd32 t.discAuth 1 } else if why = 2 then { t with discStale := satAdd32 t.discStale 1 }
    else { t with discForm := satAdd32 t.discForm 1 } }
  s.discarded p

/-- What an accepted message says of its sender (Table 11-2). A followed port that is marked unusable is left (R314). -/
def State.peerTiming (s : State) (p : Port) (m : TimingMsg) : State :=
  let x := s.ports[p]
  let s := s.setPort p { x with timing := { x.timing with
    seqIn := some m.seq, usable := !m.flags.getLsbD 0, rootId := m.rootId, path := m.path, groupPath := m.groupPath, peerMaster := m.flags.getLsbD 2 } }
  if s.usable p then s else s.unfollow p

/-- SYNC_RECEIVE (R315 R316): answered with REPLY. -/
def execSyncReceive (p : Port) (m : TimingMsg) (s : State) : Res :=
  match s.timingBad p 1 m with
  | some w => ok (s.discard p w)
  | none =>
    let s := s.peerTiming p m
    ok (s.sendTiming p 2 m.tA.toNat s.now16 s.now16)

/-! ## Samples (R314 R317 R319) -/

/-- Moves the counter by an offset in 1/16 ns where the exception of R310 allows it: forward at once; back by standing still, or at once
before the device has reported ready. The windows move with it (log entry 72). -/
def State.jump (s : State) (m4 : Int) : State :=
  let ns := m4 / 64
  let shift := fun (x : PortS) => { x with timing := { x.timing with window := x.timing.window.map fun w => (w.1, w.2 - 32 * ns) } }
  let s := { s with ports := s.ports.map shift }
  if 0 ≤ ns then { s with time := { s.time with stitch := s.time.stitch + BitVec.ofNat 64 ns.toNat } }
  else if !s.time.everReady then
    { s with time := { s.time with stitch := BitVec.ofNat 64 (s.now - (-ns).toNat) } }
  else { s with time := { s.time with still := (-ns).toNat } }

/-- The offset may be corrected by a jump (R310). -/
def State.mayJump (s : State) (m4 : Int) : Bool :=
  (decide (64000 < m4) || decide (m4 < -64000)) && !s.floorHeld && decide (s.time.still = 0)

/-- The followed port's full window steers the counter (R317): e is the median offset. -/
def State.steer (s : State) (p : Port) : State :=
  let m4 := s.ports[p].timing.median4
  if s.mayJump m4 then s.jump m4
  else { s with time := { s.time with
    freq := clampI (s.time.freq + m4) (-102400000) 102400000
    slew := clampI (m4 * 16) (-50000) 50000 } }

/-- The device locks to its followed port (Table 11-3), and keeps the budgets that it then advertises (R318). -/
def State.lockTo (s : State) (p : Port) : State :=
  let t := s.ports[p].timing
  let b := s.hopBudget p
  let path := addPath t.path b
  let gpath := addPath t.groupPath b
  let bound := if imgMaster s.act then path else gpath
  let e4 := t.median4
  let inside := bound ≠ 0xFFFF && decide (e4 ≤ 4 * (bound.toNat : Int)) && decide (-(4 * (bound.toNat : Int)) ≤ e4)
  let s := { s with time := { s.time with path := path, groupPath := gpath } }
  if t.window.length = 16 && inside && (s.time.tstate = .acquiring || s.time.tstate = .holdover || s.time.tstate = .unlocked) then s.setTime .locked
  else s

/-- Whether the device may change to a port: a usable entry with another ROOT_ID is not followed while the followed port is usable
(R319). -/
def State.mayFollow (s : State) (p : Port) : Bool :=
  s.nextEntry = some p && (match s.time.followed with
    | some q => !s.usable q || decide (s.ports[q].timing.rootId = s.ports[p].timing.rootId)
    | none => true)

/-- Bars a port for time for 1 s. -/
def State.barPort (s : State) (p : Port) : State :=
  let x := s.ports[p]
  (s.setPort p { x with timing := { x.timing with barUntil := some (s.clock + 1000000000), disagree := 0, rejects := 0 } }).unfollow p

/-- The followed port is a faulty time source: barred, recorded, and at the third report within 60 s quarantined (R319, 12_links Table
12-6). -/
def State.faultySource (s : State) (p : Port) (inj : Bool) : State :=
  let x := s.ports[p]
  let ts := (x.timing.faults.filter fun t => s.clock < t + 60000000000) ++ [s.clock]
  let s := (s.barPort p).nativeI inj 2 0x0302 p.val x.timing.rootId.toNat 0
  let y := s.ports[p]
  let s := s.setPort p { y with timing := { y.timing with faults := ts } }
  if 3 ≤ ts.length then s.malformedNow p 10 else s

/-- The comparison with the other usable entries of the same root after a sample of the followed port (R319). -/
def State.crossCheck (s : State) (p : Port) (inj : Bool) : State :=
  let x := s.ports[p]
  let others := s.upEntries.filter fun q => q ≠ p && s.usable q && s.ports[q].timing.rootId = x.timing.rootId && s.ports[q].timing.window ≠ []
  let d8 := 2 * x.timing.median4 - median2 (others.map fun q => s.ports[q].timing.median4)
  let off := others ≠ [] && (decide (1536 < d8) || decide (d8 < -1536))
  let n := if off then x.timing.disagree + 1 else 0
  let s := s.setPort p { x with timing := { x.timing with disagree := n } }
  if 16 ≤ n then s.faultySource p inj else s

/-- An accepted sample of an entry of TIM_UP_PORTS that may be followed: the followed port's sample steers the counter. -/
def State.followSample (s : State) (p : Port) (inj : Bool) : State :=
  let s := { s with time := { s.time with lastSample := s.clock, followed := if s.mayFollow p then some p else s.time.followed } }
  if decide (s.time.followed = some p) then
    ((if s.ports[p].timing.window.length = 16 then s.steer p else s).lockTo p).crossCheck p inj
  else s

/-- An accepted sample. -/
def State.acceptSample (s : State) (p : Port) (d2 o2 : Int) (inj : Bool) : State :=
  let x := s.ports[p]
  let w := x.timing.window ++ [(d2, o2)]
  let s := s.setPort p { x with timing := { x.timing with window := w.drop (w.length - 16), rejects := 0 } }
  if imgRoot s.act || !s.upEntries.contains p || !s.usable p then s else s.followSample p inj

/-- A rejected sample; the 64th in a row from the followed port clears its window and bars it (R317). -/
def State.rejectSample (s : State) (p : Port) (delay : Bool) : State :=
  let t := s.time
  let s := { s with time := if delay then { t with rejDelay := satAdd32 t.rejDelay 1 } else { t with rejOutlier := satAdd32 t.rejOutlier 1 } }
  let x := s.ports[p]
  let s := s.setPort p { x with timing := { x.timing with rejects := x.timing.rejects + 1 } }
  if 64 ≤ x.timing.rejects + 1 && s.time.followed = some p then
    let y := s.ports[p]
    (s.setPort p { y with timing := { y.timing with window := [] } }).barPort p
  else s

/-- REPLY_RECEIVE (R315-R317 R319). -/
def execReplyReceive (p : Port) (m : TimingMsg) (s : State) : Res :=
  match s.timingBad p 2 m with
  | some w => ok (s.discard p w)
  | none =>
    let t4 : Int := s.now16
    let s := s.peerTiming p m
    let x := s.ports[p]
    let s := s.setPort p { x with timing := { x.timing with syncAt := x.timing.syncAt.erase m.tA.toNat } }
    let (inj, off, s) := match s.meet 0x07 p.val with
      | some (l, s) => (true, 32 * sgn 64 l.param, s)
      | none => (false, 0, s)
    let t1 : Int := m.tA.toNat
    let t2 : Int := m.tB.toNat
    let t3 : Int := m.tC.toNat
    let d2 := (t4 - t1) - (t3 - t2)
    let o2 := (t2 - t1) - (t4 - t3) + off
    let t := s.ports[p].timing
    let far := 2 * o2 - t.median4
    if t.window ≠ [] && decide (t.minDelay + 128 < d2) then ok (s.rejectSample p true)
    else if t.window.length = 16 && (decide (512 < far) || decide (far < -512)) then ok (s.rejectSample p false)
    else ok (s.acceptSample p d2 o2 inj)

/-! ## States (R321) and conflicts (R319) -/

/-- HOLDOVER_ENTRY (R321): no sample for 20 us. -/
def execHoldoverEntry (s : State) : Res :=
  if s.time.tstate = .locked && decide (s.time.lastSample + 20000 ≤ s.clock) then ok (s.setTime .holdover) else ok s

/-- UNLOCKED_ENTRY (R321): 2 ms of HOLDOVER. -/
def execUnlockedEntry (s : State) : Res :=
  if s.time.tstate = .holdover && decide (s.time.holdSince + 2000000 ≤ s.clock) then ok (s.setTime .unlocked) else ok s

/-- PORT_BAR_EXPIRY (R317 R319). -/
def execPortBarExpiry (p : Port) (s : State) : Res :=
  let x := s.ports[p]
  match x.timing.barUntil with
  | some t => if t ≤ s.clock then ok (s.setPort p { x with timing := { x.timing with barUntil := none } }) else ok s
  | none => ok s

/-- A usable entry that advertises another root than the followed port. -/
def State.rootConflict (s : State) : Option Port :=
  match s.time.followed with
  | some q => if s.usable q then s.upEntries.find? fun p => s.usable p && decide (s.ports[p].timing.rootId ≠ s.ports[q].timing.rootId) else none
  | none => none

/-- ROOT_CONFLICT_REPORT (R319): once per second while the conflict persists. -/
def execRootConflictReport (s : State) : Res :=
  match s.rootConflict with
  | none => ok { s with time := { s.time with conflict := false } }
  | some p =>
    if s.time.conflict && decide (s.clock < s.time.conflictAt + 1000000000) then ok s
    else
      let s := { s with time := { s.time with conflict := true, conflictAt := s.clock } }
      ok ((s.native 2 0x0302 p.val s.ports[p].timing.rootId.toNat 0).emit (.report 0x0302 p.val))

/-! ## The external reference (R320) -/

/-- The counter's distance from the PPS alignment, in ns: negative where it is behind. -/
def State.ppsError (s : State) : Int :=
  let e := ((s.now : Int) - imgPpsOffset s.act) % 1000000000
  if 500000000 < e then e - 1000000000 else e

/-- The first value at or above the counter and TIM_START that meets the alignment. -/
def State.ppsStart (s : State) : Nat :=
  let lo := Nat.max s.now (imgStart s.act)
  let r := ((imgPpsOffset s.act - (lo : Int)) % 1000000000).toNat
  lo + r

/-- The root loses its reference. -/
def State.rootLost (s : State) : State :=
  if s.time.tstate = .rootExt then ((s.setTime .rootFree).native 2 0x0303 0 0 0).emit (.report 0x0303 0) else s

/-- The root disciplines its counter from external edges. -/
def State.onPps (s : State) : Bool := imgRoot s.act && imgExtRef s.act && s.guard.powered && s.time.running

/-- The counter is more than 100 ns from the PPS alignment. -/
def State.ppsAway (s : State) : Bool := decide (100 < s.ppsError) || decide (s.ppsError < -100)

/-- Before the first READY the counter steps to the alignment, where it is away from it or below TIM_START. -/
def State.ppsAlign (s : State) : State :=
  if s.time.everReady || !(s.ppsAway || decide (s.now < imgStart s.act)) then s
  else { s with time := { s.time with stitch := BitVec.ofNat 64 s.ppsStart } }

/-- A rejected edge is counted; at the fourth in a row the reference is lost. -/
def State.ppsReject (s : State) : State :=
  let s := { s with time := { s.time with ppsRejected := satAdd32 s.time.ppsRejected 1, ppsMiss := s.time.ppsMiss + 1, ppsGood := 0 } }
  if 4 ≤ s.time.ppsMiss then s.rootLost else s

/-- An accepted edge is corrected by slew, at the gain of R317 (log entry 73), and the frequency is that of the 10 MHz input, within the
bounds of R317; the eighth in a row gives ROOT_EXT. -/
def State.ppsAccept (s : State) (ref10m : Int) : State :=
  let s := { s with time := { s.time with
    ppsGood := s.time.ppsGood + 1, ppsMiss := 0
    freq := clampI ref10m (-102400000) 102400000
    slew := clampI (-(s.ppsError * 1024)) (-50000) 50000 } }
  if 8 ≤ s.time.ppsGood && s.time.tstate = .rootFree then s.setTime .rootExt else s

/-- PPS_EDGE (R320), with the frequency correction that the 10 MHz input shows: before the first READY the counter steps to the alignment;
later an edge more than 100 ns away is rejected. -/
def execPpsEdge (s : State) (ref10m : Int := 0) : Res :=
  if !s.onPps then ok s
  else
    let s := s.ppsAlign
    let s := { s with time := { s.time with ppsLast := some s.clock } }
    ok (if s.ppsAway then s.ppsReject else s.ppsAccept ref10m)

/-- PPS_LOSS (R320): 2 s without an edge. -/
def execPpsLoss (s : State) : Res :=
  match s.time.ppsLast with
  | some t => if s.onPps && decide (t + 2000000000 ≤ s.clock) then ok ({ s with time := { s.time with ppsGood := 0 } }).rootLost else ok s
  | none => ok s

/-! ## TIM_STATUS (R322) -/

/-- The response of TIM_STATUS. -/
def State.timStatus (s : State) : Bytes :=
  let t := s.time
  let med := match t.followed with | some p => s.ports[p].timing.median4 / 4 | none => 0
  le 1 (timeCode t.tstate) ++ le 1 ((t.followed.map (·.val)).getD 0xFF) ++ le 2 s.repPath ++ le 2 s.repGroupPath ++ le 2 0 ++ le 8 s.rootId.toNat ++
  le 8 s.now ++ le 4 (unsgn 32 med) ++ le 4 (unsgn 32 (t.freq / 1024 + t.slew)) ++ le 4 t.discAuth.toNat ++ le 4 t.discStale.toNat ++
  le 4 t.discForm.toNat ++ le 4 t.rejDelay.toNat ++ le 4 t.rejOutlier.toNat ++ le 4 t.ppsRejected.toNat

def execTimStatus (n : SlotId) (s : State) : Res := s.serloth n 0x0701 fun _ => s.complete n stOk 0 s.timStatus

end Sys2Proof.Machine
end

