-- ==== Sys2Proof/Machine/Faults.lean ====
section
/-! DEFINITION. Records, their summary and their way to the collector, trace buffers, and fault injection (15_faults R447-R452 R472-R475,
16_guard R493). -/

namespace Sys2Proof.Machine

/-! ## Reading the log (15_faults R452) -/

/-- The response of a log read over the records that the reader may see (`kept`, by SEQ) and a filter: the SEQ of the first record returned,
RETURNED, LOST and the records (log entry 74). -/
def State.logResp (s : State) (kept : List Rec) (first count : Nat) (p : Rec → Bool) : Nat × Bytes :=
  let old := kept.filter fun r => first ≤ r.seq
  if count = 0 || decide (s.guard.logNext ≤ first) then (stEmpty, le 8 first ++ le 4 0 ++ le 4 0)
  else match old with
    | [] => (stOk, le 8 s.guard.logNext ++ le 4 0 ++ le 4 (s.guard.logNext - first))
    | r :: _ =>
      let out := (old.filter p).take count
      (stOk, le 8 ((out.head?.map Rec.seq).getD r.seq) ++ le 4 out.length ++ le 4 (r.seq - first) ++ out.flatMap Rec.bytes)

/-- FLT_RECORDS (R452): a HOST slot reads the ring, and there the records of its bound context only. -/
def execFltRecords (n : SlotId) (s : State) : Res :=
  s.serloth n 0x0C02 fun x =>
    let first := fld x.req 0 8
    let count := fld x.req 8 2
    let host := imgClass s.act n.val = 1
    if 62 < count then s.refuse n stMalformed 0
    else
      let (st, resp) := s.logResp (if host then s.guard.log else s.guard.records) first count fun r => !host || r.ctx.toNat = x.ctxNo
      s.complete n st 0 resp

/-! ## Traces (R472 R473) -/

/-- TRC_START (R472): the buffer takes near-tier space of the context's quota. Its bytes are the trace path's own (log entry 75). -/
def execTrcStart (n : SlotId) (s : State) : Res :=
  s.serloth n 0x0B01 fun x =>
    let b := x.req
    let size := fld b 0x10 8
    let mode := fld b 0x18 1
    let c := x.ctxNo
    if size = 0 || size % 0x100000 ≠ 0 || 0x100000000 < size || 1 < mode then s.refuse n stMalformed 0
    else if 8 ≤ s.traces.length then s.refuse n stResource 1
    else if s.overQuota c 0 size then s.refuse n stResource 2
    else match s.grantBase 0 size 1024 with
      | (none, s) => s.refuse n stResource 2
      | (some base, s) =>
        let id := s.nextTrace
        let r := s.mem.nextRegion
        let t : Trace := { id := id, ctx := c, mask := BitVec.ofNat 64 (fld b 0 8), tagValue := BitVec.ofNat 32 (fld b 8 4),
                           tagMask := BitVec.ofNat 32 (fld b 0xC 4), size := size, overwrite := decide (mode = 1), region := some r,
                           capturing := true, first := 0, recs := [], dropped := 0 }
        let s := (s.mapRegion c 0 base size).undefine base size
        ({ s with traces := s.traces ++ [t], nextTrace := id + 1 }).complete n stOk 0 (le 4 id ++ le 4 0)

/-- The bytes of a trace record (Table 15-10). -/
def TraceRec.bytes (r : TraceRec) : Bytes :=
  le 4 r.tag.toNat ++ le 1 r.kind ++ [r.unit] ++ le 1 r.engine ++ le 1 0 ++ le 4 r.pc.toNat ++ le 2 r.status.toNat ++ le 2 0 ++
  le 8 r.data.toNat ++ le 8 r.stamp.toNat

/-- TRC_READ (R473). A buffer that is not the context's, or not open, is refused (log entry 76). -/
def execTrcRead (n : SlotId) (s : State) : Res :=
  s.serloth n 0x0B02 fun x =>
    let b := x.req
    let first := fld b 8 8
    let count := fld b 0x10 2
    if 125 < count then s.refuse n stMalformed 0
    else match s.traces.find? fun t => t.id = fld b 0 4 && (x.ctxNo = 0 || t.ctx = x.ctxNo) with
      | none => s.refuse n stState 0
      | some t =>
        let next := t.first + t.recs.length
        let from_ := Nat.max first t.first
        if count = 0 || decide (next ≤ first + 1) then s.complete n stEmpty 0 (le 8 first ++ le 2 0 ++ le 2 0 ++ le 4 t.dropped)
        else
          let out := (t.recs.drop (from_ - t.first)).take count
          s.complete n stOk 0 (le 8 from_ ++ le 2 out.length ++ le 2 0 ++ le 4 t.dropped ++ out.flatMap TraceRec.bytes)

/-! ## The collector (R451, 16_guard R493) -/

/-- A secured session is open: without one the management link counts as down. -/
def State.mgmtUp (s : State) : Bool := s.guard.powered && s.guard.sessions.any Sess.established

/-- SEQs in messages of up to 20 records. The first argument bounds the number of messages. -/
def batches : Nat → List Nat → List (List Nat)
  | 0, _ => []
  | _, [] => []
  | f + 1, l => l.take 20 :: batches f (l.drop 20)

/-- The records of a list of SEQs that the log still holds. -/
def State.stillKept (s : State) (l : List Nat) : List Nat :=
  let old := s.guard.oldest
  l.filter fun q => decide (old ≤ q) && decide (q < s.guard.logNext) || s.guard.pinned.any fun r => r.seq = q

/-- RECORD_SEND (R451): the next message of up to 20 unsent records, in SEQ order. Overwritten records are not sent. -/
def execRecordSend (s : State) : Res :=
  if !s.mgmtUp then ok s
  else
    let l := s.stillKept s.guard.unsent
    if l = [] then ok { s with guard := { s.guard with unsent := [] } }
    else
      let now := l.take 20
      let s := { s with guard := { s.guard with
        unsent := l.drop 20, unacked := s.guard.unacked ++ now, repeatAt := if s.guard.unacked = [] then s.clock else s.guard.repeatAt } }
      ok (s.emit (.records now))

/-- RECORD_REPEAT (16_guard R493): every 100 ms the records that are not acknowledged. -/
def execRecordRepeat (s : State) : Res :=
  if !s.mgmtUp || s.guard.unacked = [] || decide (s.clock < s.guard.repeatAt + 100000000) then ok s
  else
    let l := s.stillKept s.guard.unacked
    let s := { s with guard := { s.guard with unacked := l, repeatAt := s.clock } }
    ok ((batches l.length l).foldl (fun s b => s.emit (.records b)) s)

/-- COLLECTOR_ACK (16_guard R493): the record of that SEQ is acknowledged (log entry 77). -/
def execCollectorAck (seq : Nat) (s : State) : Res :=
  if s.mgmtUp then ok { s with guard := { s.guard with unacked := s.guard.unacked.filter fun q => q ≠ seq } } else ok s

/-- The last session has ended: what is not acknowledged counts as unsent (16_guard R493). -/
def State.unsend (s : State) : State :=
  if s.guard.sessions.any Sess.established then s
  else { s with guard := { s.guard with unsent := s.guard.unacked ++ s.guard.unsent, unacked := [] } }

/-! ## Summaries (R447) -/

/-- A channel's summary record, if its counts changed: what it counted since the last one (log entry 78). -/
def State.sumChan (s : State) (c : Nat) : State :=
  let x := s.chan c
  if x.corrected = 0 && x.reissued = 0 then s
  else
    let s := s.setChan c { x with corrected := 0, reissued := 0 }
    s.native 1 0x0101 c 0 (x.corrected % 4294967296 + 4294967296 * (if 0x2000 ≤ c then 0 else x.reissued % 4294967296))

/-- A port's summary record, if its counts changed. -/
def State.sumPort (s : State) (p : Port) : State :=
  let x := s.ports[p]
  let dc := x.corrected.toNat - x.sumCorrected
  let dr := x.replays.toNat - x.sumReplays
  if dc = 0 && dr = 0 && x.malformed.toNat = x.sumMalformed then s
  else
    let s := s.setPort p { x with sumCorrected := x.corrected.toNat, sumReplays := x.replays.toNat, sumMalformed := x.malformed.toNat }
    s.native 1 0x0203 p.val 0 (dc % 4294967296 + 4294967296 * (dr % 4294967296))

/-- SUMMARY_RECORD (R447). -/
def execSummaryRecord (s : State) : Res :=
  if !s.guard.powered || decide (s.clock < s.guard.summaryAt + 10000000000) then ok s
  else
    let s := { s with guard := { s.guard with summaryAt := s.clock } }
    let s := (s.mem.chans.map (·.1)).foldl State.sumChan s
    ok ((List.finRange 12).foldl State.sumPort s)

/-! ## Fault injection (R474 R475) -/

/-- PARAM of a TYPE lies in its range (Table 15-12). -/
def paramOk (type param : Nat) : Bool :=
  match type with
  | 1 => decide (param ≤ 255)
  | 3 => decide (1 ≤ param) && decide (param ≤ 8)
  | 5 => decide (1 ≤ param) && decide (param ≤ 31)
  | 8 => decide (param ≤ 63)
  | 0x0A => decide (param ≤ 6)
  | _ => true

/-- The injections that a ticket has authorised; a ticket that the Guard does not count yet has authorised none. -/
def Guard.ticketUse (g : Guard) (issued : W64) (scope : W32) : Nat :=
  ((g.tickets.find? fun t => t.issued = issued && t.scope = scope).map Ticket.used).getD 0

/-- One more injection of a ticket; expired tickets are forgotten (16_guard R496). -/
def State.useTicket (s : State) (issued : W64) (scope : W32) : State :=
  let u := s.guard.ticketUse issued scope
  let rest := s.guard.tickets.filter fun t => !(t.issued = issued && t.scope = scope) && decide (s.now ≤ t.issued.toNat + 600000000000)
  { s with guard := { s.guard with tickets := rest ++ [{ issued := issued, scope := scope, used := u + 1 }] } }

/-- The status and DETAIL that refuse an injection, in the order of the table of R474. -/
def State.injectBad (s : State) (b : Bytes) : Option (Nat × Nat) :=
  let type := fld b 0 2
  let count := fld b 4 4
  let issued := fld b 0x28 8
  let scope := fld b 0x30 4
  if fld b 0x20 8 ≠ Config.devId.toNat || decide (issued + 600000000000 < s.now) || decide (s.now < issued) ||
      !Config.identityVerify (sha512v (sub b 0x20 24)) (sub b 0x38 132) then some (stAuth, 1)
  else if 16 ≤ s.guard.ticketUse (BitVec.ofNat 64 issued) (BitVec.ofNat 32 scope) || decide (16 ≤ s.guard.injections.length) then some (stAuth, 2)
  else if !bit scope type || decide (31 ≤ type) || (bit (fld b 2 2) 0 && !bit scope 31) then some (stAuth, 3)
  else if type = 0 || 0x0E < type || count = 0 || 1024 < count || !paramOk type (fld b 0x18 8) then some (stMalformed, 0)
  else none

/-- FLT_INJECT (R474). -/
def execFltInject (n : SlotId) (s : State) : Res :=
  s.serloth n 0x0C01 fun x =>
    let b := x.req
    match s.injectBad b with
    | some (st, d) => s.refuse n st d
    | none =>
      let i : Inj := { id := s.guard.nextInj, type := fld b 0 2, noesc := bit (fld b 2 2) 0, left := fld b 4 4, trigger := BitVec.ofNat 64 (fld b 8 8),
                       target := BitVec.ofNat 64 (fld b 0x10 8), param := BitVec.ofNat 64 (fld b 0x18 8) }
      let s := s.useTicket (BitVec.ofNat 64 (fld b 0x28 8)) (BitVec.ofNat 32 (fld b 0x30 4))
      let s := { s with guard := { s.guard with injections := s.guard.injections ++ [i], nextInj := i.id + 1 } }
      s.complete n stOk 0 (le 4 i.id ++ le 4 0)

/-- The records written from a SEQ on carry INJECTED (R475). -/
def State.injectedFrom (s : State) (seq : Nat) : State :=
  let f := fun (r : Rec) => if seq ≤ r.seq then { r with injected := true } else r
  { s with guard := { s.guard with log := s.guard.log.map f, pinned := s.guard.pinned.map f } }

/-- A channel of either tier, by its number. -/
def isTierChannel (c : Nat) : Bool := decide (c < 1024) || (decide (0x1000 ≤ c) && decide (c < 0x1200))

/-- Symbol errors in a codeword of a port (12_links R349 R357 R358): up to 15 are corrected; more make the codeword uncorrectable, which is
replayed and warns. -/
def State.symbolErrors (s : State) (p : Port) (k : Nat) : State :=
  let x := s.ports[p]
  if k ≤ 15 then s.setPort p { x with corrected := satAdd64 x.corrected k }
  else
    let s := s.setPort p { x with uncorr := satAdd64 x.uncorr 1, replays := satAdd64 x.replays 1, lowSince := none, warned := true }
    if x.st = .up && !x.warned then ((s.native 2 0x0202 p.val 0 0).emit (.report 0x0202 p.val)).warnBegin (bit (imgCkpPolicy s.act) 1) else s

/-- A fault that the next use of its target meets. -/
def State.arm (s : State) (i : Inj) : State :=
  let l : Latent := { id := i.id, noesc := i.noesc, type := i.type, target := i.target.toNat, param := i.param.toNat, left := 1,
                      ends := s.clock + (if i.type = 0x0E then i.left * 1000000 else 0) }
  { s with latents := s.latents ++ [l] }

/-- The effect of one firing (Table 15-12). -/
def State.fire (s : State) (i : Inj) : State :=
  let t := i.target.toNat
  let v := i.param.toNat
  match i.type with
  | 0x01 => if s.inMap t 1 && !s.fenced (t / 1024) then s.countWarn (chanOf t) 1 true true else s
  | 0x02 => if s.inMap t 1 && !s.fenced (t / 1024) then s.uncorrectable t 0 0xFF true else s
  | 0x03 =>
    if isTierChannel t && !(s.chan t).fenced then
      let s := s.countWarn t (Nat.min v 7) false true
      if 8 ≤ v then s.fenceChan t true else s
    else s
  | 0x04 => if isTierChannel t then s.fenceChan t true else s
  | 0x05 => match portId t with | some p => s.symbolErrors p v | none => s
  | 0x06 => match portId t with
    | some p => if s.ports[p].st = .off || s.ports[p].st = .down then s else s.portDown p 1
    | none => s
  | 0x0B | 0x0C =>
    if h : t < 44 then
      let e : EngId := ⟨t, h⟩
      let g := s.engines[e]
      let s := s.setEng e { g with hung := true, noAck := g.noAck || decide (i.type = 0x0C) }
      if i.type = 0x0C then s.arm i else s
    else s
  | 0x0D => if s.binder.run = .running then ({ s with binder := { s.binder with run := .silent } }).arm i else s
  | _ => s.arm i

/-- INJECTION_FIRE (R475): at or after its trigger, with its record 0x0901; the last firing ends it. COUNT of TYPE 0x0E is a duration. -/
def execInjectionFire (id : Nat) (s : State) : Res :=
  match s.guard.injections.find? fun i => i.id = id with
  | none => ok s
  | some i =>
    if decide (s.now < i.trigger.toNat) || !s.guard.powered then ok s
    else
      let seq := s.guard.logNext
      let last := decide (i.left ≤ 1) || i.type = 0x0E
      let js : List Inj := s.guard.injections.flatMap fun (j : Inj) =>
        if j.id = id then (if last then [] else [({ j with left := j.left - 1 } : Inj)]) else [j]
      let s := { s with guard := { s.guard with injections := js } }
      let s := s.fire i
      let s := s.native 0 0x0901 i.id i.target.toNat i.type
      ok (s.injectedFrom seq)

end Sys2Proof.Machine
end

