-- ==== Sys2Proof/Machine/Links.lean ====
section
/-! DEFINITION. Ports: training, peer admission, qualification, frames and routes, warnings, quarantine, the host ports, and the LNK
commands (12_links R348-R381, 17_physical R520). -/

namespace Sys2Proof.Machine

/-- A port in a Rosken Link role. -/
def State.isLink (s : State) (p : Port) : Bool := decide (lnkRole s.act p.val ≠ 0) && decide (lnkRole s.act p.val ≠ 5)

/-- A port in HOST role. -/
def State.isHost (s : State) (p : Port) : Bool := decide (lnkRole s.act p.val = 5)

/-! ## Routes (R368-R370 R376) -/

/-- A hop names a port. -/
def Hop.names (h : Hop) (p : Nat) : Bool := h.inPort = p && h.role ≠ 0 || h.outPort = p && h.role ≠ 2

/-- A schedule names a reservation. -/
def Sched.namesRes (x : Sched) (res : W64) : Bool := x.image.resvs.any fun r => r.resId = res

/-- Releases an installed hop: its route closes, upstream devices are told, and an ADMITTED schedule that names the reservation loses its
admission (R369 R370, 11_time R340). -/
def State.releaseHop (s : State) (h : Hop) : State :=
  let s := s.closeRoute h.resId (if h.outPort < 12 then h.outPort else h.inPort)
  let s := match portId h.inPort with
    | some q => if h.role = 1 then s.emit (.routeClosed q h.resId) else s
    | none => s
  { s with
    hops := s.hops.filter fun g => g.resId ≠ h.resId
    scheds := s.scheds.map fun x => if x.state = .admitted && x.namesRes h.resId then { x with state := .loaded } else x }

/-- The hops that a port's new partner releases; an active schedule that names one is held (R376). -/
def State.rewire (s : State) (p : Port) : State :=
  (s.hops.filter fun h => h.names p.val).foldl (fun s h =>
    let s := (s.scheds.filter fun x => x.active && x.namesRes h.resId).foldl (fun s x => s.holdSched x.id) s
    s.releaseHop h) s

/-! ## Training (R354 R355) -/

/-- Ports that settle complete a LNK_PRESS, and may make the device ready (R352, 17_physical R514). -/
def State.portsSettle (s : State) : State := s.settleTraining.reReady

/-- A port goes UP: timing exchanges begin, and the routes that it closed here are open again (log entry 79). -/
def State.goUp (s : State) (p : Port) : State :=
  let s := s.portTo p .up 0
  let x := s.ports[p]
  let s := s.setPort p { x with soakDue := false, timing := TPort.reset, frames := 0, keyAt := s.clock, warned := false, lowSince := none }
  let hs : List Hop := s.hops.map fun (h : Hop) => if h.names p.val then { h with closed := false } else h
  ({ s with hops := hs }).portsSettle

/-- The port starts an admission attempt by sending its chain (R360 order 1). -/
def State.beginAdmission (s : State) (p : Port) : State :=
  let s := s.portTo p .admitting 0
  let x := s.ports[p]
  let s := s.setPort p { x with adm := Adm.reset, attempt := x.attempt + 1 }
  s.emit (.admission p (.hello Config.certChain 1 0x0512 p.val))

/-- TRAINING_RETRY (Table 12-2): a DOWN port trains again after 1 s. -/
def execTrainingRetry (p : Port) (s : State) : Res :=
  let x := s.ports[p]
  if x.st = .down && decide (x.at_ + 1000000000 ≤ s.clock) && lnkRole s.act p.val ≠ 0 && s.guard.refLost.isNone then ok (s.startTraining p) else ok s

/-- SIGNAL_DETECT (Table 12-3 order 1). -/
def execSignalDetect (p : Port) (s : State) : Res :=
  let x := s.ports[p]
  if x.st = .training && s.isLink p then ok (s.setPort p { x with signal := true }) else ok s

/-- NO_SIGNAL (Table 12-3 order 1): 1 s without signal on some lane. -/
def execNoSignal (p : Port) (lane : Nat) (s : State) : Res :=
  let x := s.ports[p]
  if x.st = .training && s.isLink p && !x.signal && decide (x.at_ + 1000000000 ≤ s.clock) then
    let s := s.portDown p 1
    let s := s.setPort p { s.ports[p] with lane := lane % 8 }
    ok ((s.emit (.report 0x0201 (p.val + 256 * (lane % 8)))).portsSettle)
  else ok s

/-- FRAME_LOCK (Table 12-3 orders 2 and 3). A quarantined port whose lanes train again runs the soak at its release (R379). -/
def execFrameLock (p : Port) (r : LockResult) (s : State) : Res :=
  let x := s.ports[p]
  if x.st = .quarantined && s.isLink p && !x.signal then
    ok (if r = .locked then s.setPort p { x with signal := true, soakDue := true } else s)
  else if x.st = .training && s.isLink p && x.signal then
    match r with
    | .locked => ok (s.beginAdmission p)
    | .noConvergence => ok (s.portDown p 2).portsSettle
    | .generationMismatch => ok (s.portDown p 3).portsSettle
    | .noLock => ok (s.portDown p 4).portsSettle
  else ok s

/-! ## Peer admission (R360-R364) -/

/-- What one end sends in orders 1 and 2. -/
def sentBytes (chain : Bytes) (major : Nat) (part : BitVec 16) (port : Nat) (eph chal : Bytes) : Bytes :=
  chain ++ le 1 major ++ le 2 part.toNat ++ le 1 port ++ eph ++ chal

/-- The hash of the transcript as one end forms it: its own messages first (log entry 80). -/
def State.transcript (s : State) (p : Port) (mine : Bool) : BitVec 512 :=
  let x := s.ports[p]
  let own := sentBytes Config.certChain 1 0x0512 p.val (Config.ephemeralKey p.val x.attempt) (Config.ownChallenge p.val x.attempt)
  let k := x.adm.keys.getD ([], [])
  let peer := sentBytes (x.adm.chain.getD []) x.adm.major x.adm.part x.adm.port k.1 k.2
  sha512v (if mine then own ++ peer else peer ++ own)

/-- A failed admission: the port goes DOWN, or at the 8th failure within 60 s it is quarantined (R361 R364). -/
def State.admissionFails (s : State) (p : Port) (reason : Nat) : State :=
  let x := s.ports[p]
  let ts := (x.admFails.filter fun t => s.clock < t + 60000000000) ++ [s.clock]
  let s := s.setPort p { x with admFails := ts.drop (ts.length - 8) }
  if 8 ≤ ts.length then
    let s := s.malformedNow p 14
    (s.setPort p { s.ports[p] with adm := Adm.reset, session := none, traffic := none }).portsSettle
  else (s.portDown p reason).portsSettle

/-- The reason for which a peer is not admitted after its signature (R361). -/
def State.peerBad (s : State) (p : Port) (sig : Bytes) : Option Nat :=
  let a := s.ports[p].adm
  let chain := a.chain.getD []
  match Config.chainIdentity chain with
  | none => some 5
  | some id =>
    if !Config.chainVerify chain (s.transcript p false) sig then some 5
    else if !(a.major = 1 || (a.major = 0 && lnkGen s.act p.val = 1)) then some 16
    else if lnkExpect s.act p.val ≠ 0 && lnkExpect s.act p.val ≠ id.toNat then some 6
    else none

/-- The keys of R362. -/
def State.deriveKeys (s : State) (p : Port) : State :=
  let x := s.ports[p]
  let k := Config.sessionKey p.val x.attempt (x.adm.keys.getD ([], [])).1 (s.transcript p true)
  let t := if lnkCrypt s.act p.val then some (Config.trafficKey k ((s.guard.keys.toList.getD (lnkKeySlot s.act p.val) none).getD 0)) else none
  s.setPort p { x with session := some k, traffic := t, adm := { x.adm with sigOk := true, peerId := Config.chainIdentity (x.adm.chain.getD []) } }

/-- The key under which the confirmation runs. -/
def PortS.confirmKey (x : PortS) : BitVec 256 := (x.traffic.orElse fun _ => x.session).getD 0

/-- The peer is admitted: another identifier than the last one releases the hops of the port (R376); then the soak, or UP. -/
def State.admitPeer (s : State) (p : Port) : State :=
  let x := s.ports[p]
  let other := match x.lastPeer with | some q => decide (some q ≠ x.adm.peerId) | none => false
  let s := s.setPort p { x with peerId := x.adm.peerId, lastPeer := x.adm.peerId, peerPart := x.adm.part, peerPort := x.adm.port, adm := Adm.reset }
  let s := if other then s.rewire p else s
  if x.soakDue then s.portTo p .qualifying 0 else s.goUp p

/-- PEER_ADMISSION_MESSAGE (R360 R361). A message out of order is ignored. Without an identity key nothing is signed (16_guard R484). -/
def execPeerAdmissionMessage (p : Port) (m : AdmMsg) (s : State) : Res :=
  let x := s.ports[p]
  if x.st ≠ .admitting then ok s
  else match m with
    | .hello chain major part port =>
      if x.adm.chain.isSome then ok s
      else
        let s := s.setPort p { x with adm := { x.adm with chain := some chain, major := major, part := part, port := port } }
        ok (s.emit (.admission p (.keys (Config.ephemeralKey p.val x.attempt) (Config.ownChallenge p.val x.attempt))))
    | .keys eph chal =>
      if x.adm.chain.isNone || x.adm.keys.isSome then ok s
      else
        let s := s.setPort p { x with adm := { x.adm with keys := some (eph, chal) } }
        if s.guard.bring.finalFail = some (2, 0) then ok s
        else ok (s.emit (.admission p (.signature (Config.identitySign (s.transcript p true)))))
    | .signature sig =>
      if x.adm.keys.isNone || x.adm.sigOk then ok s
      else match s.peerBad p sig with
        | some r => ok (s.admissionFails p r)
        | none =>
          let s := s.deriveKeys p
          ok (s.emit (.admission p (.confirm (Config.confirmMac s.ports[p].confirmKey true))))
    | .confirm mac =>
      if !x.adm.sigOk then ok s
      else if mac = Config.confirmMac x.confirmKey false then ok (s.admitPeer p)
      else ok (s.admissionFails p 7)

/-- KEY_RENEWAL (R363). -/
def execKeyRenewal (p : Port) (s : State) : Res :=
  let x := s.ports[p]
  if x.admitted && (decide (2 ^ 40 ≤ x.frames) || decide (x.keyAt + 3600000000000 ≤ s.clock)) then
    let k := Config.renewKey (x.session.getD 0)
    let t := x.traffic.map fun _ => Config.trafficKey k ((s.guard.keys.toList.getD (lnkKeySlot s.act p.val) none).getD 0)
    ok ((s.setPort p { x with session := some k, traffic := t, frames := 0, keyAt := s.clock }).emit (.keyRenewed p))
  else ok s

/-! ## Soaks and warnings (R355-R357) -/

/-- The four conditions of R355, the corrected BER as FP32 bits: 1e-5. -/
def soakPass (k : Soak) : Bool :=
  decide (k.uncorr = 0) && decide (k.maxSym ≤ 6) && decide (k.cber.toNat ≤ 0x3727C5AC) && soakEstimateOk k

/-- QUALIFICATION_SOAK_END (R355 R379). -/
def execQualificationSoakEnd (k : Soak) (s : State) : Res :=
  let x := s.ports[k.port]
  if x.st ≠ .qualifying || decide (s.clock < x.at_ + 2000000000) then ok s
  else
    let s := s.setPort k.port { x with soak := some k, lane := k.lane, corrected := satAdd64 x.corrected k.corrected, uncorr := satAdd64 x.uncorr k.uncorr }
    if soakPass k then ok (s.goUp k.port) else ok (s.portDown k.port 8).portsSettle

/-- Raises a link warning, unless it stands (R357); it may begin a checkpoint (14_checkpoint R424). -/
def State.warnLink (s : State) (p : Port) (cber : W32) : State :=
  let x := s.ports[p]
  let s := s.setPort p { x with warned := true, lowSince := none }
  if x.warned then s else ((s.native 2 0x0202 p.val 0 cber.toNat).emit (.report 0x0202 p.val)).warnBegin (bit (imgCkpPolicy s.act) 1)

/-- LINK_WARNING (R357): what 1 s of an UP port's traffic shows. The BER stays low below 5e-6. -/
def execLinkWarning (k : Soak) (s : State) : Res :=
  let x := s.ports[k.port]
  if x.st ≠ .up then ok s
  else
    let s := s.setPort k.port { x with
      corrected := satAdd64 x.corrected k.corrected, uncorr := satAdd64 x.uncorr k.uncorr
      lowSince := if k.cber.toNat < 0x36A7C5AC then some (x.lowSince.getD s.clock) else none }
    if decide (0x3727C5AC < k.cber.toNat) || k.uncorr ≠ 0 then ok (s.warnLink k.port k.cber) else ok s

/-- LINK_WARNING_CLEAR (R357). -/
def execLinkWarningClear (p : Port) (s : State) : Res :=
  let x := s.ports[p]
  match x.lowSince with
  | some t => if x.warned && decide (t + 60000000000 ≤ s.clock) then ok (s.setPort p { x with warned := false }) else ok s
  | none => ok s

/-! ## Loss and retraining (R358 R359) -/

/-- FAST_RETRAIN (R358). -/
def execFastRetrain (p : Port) (s : State) : Res :=
  if s.ports[p].st = .up then
    let s := s.portTo p .retraining 0
    ok (s.setPort p { s.ports[p] with retrains := satAdd32 s.ports[p].retrains 1 })
  else ok s

/-- RETRAIN_COMPLETE (R358): within 2 ms, or the port goes DOWN with REASON 13. -/
def execRetrainComplete (p : Port) (good : Bool) (s : State) : Res :=
  let x := s.ports[p]
  if x.st ≠ .retraining then ok s
  else if good && decide (s.clock ≤ x.at_ + 2000000) then ok (s.portTo p .up 0).portsSettle
  else ok (s.portDown p 13).portsSettle

/-- LOSS_OF_SIGNAL (R359). A quarantined port keeps its state (R376 R378). -/
def execLossOfSignal (p : Port) (s : State) : Res :=
  let x := s.ports[p]
  match x.st with
  | .off | .down => ok s
  | .quarantined => ok (s.setPort p { x with signal := false })
  | .training => if x.signal then ok (s.portDown p 1).portsSettle else ok s
  | _ => ok (s.portDown p 1).portsSettle

/-- ROUTE_CLOSED (R359): it comes back along the reservation's reverse hops, so from OUT_PORT. -/
def execRouteClosed (p : Port) (resId : W64) (s : State) : Res :=
  if !s.ports[p].admitted then ok s
  else match s.hops.find? fun h => h.resId = resId && h.role ≠ 2 && h.outPort = p.val with
    | none => ok s
    | some h =>
      let s := s.closeRoute resId p.val
      match portId h.inPort with
      | some q => ok (if h.role = 1 then s.emit (.routeClosed q resId) else s)
      | none => ok s

/-! ## Frames (R358 R370 R377) -/

/-- FRAME_REPLAY (R358). -/
def execFrameReplay (p : Port) (seq : Nat) (s : State) : Res :=
  let x := s.ports[p]
  if x.carries then ok ((s.setPort p { x with replays := satAdd64 x.replays 1 }).emit (.replayFrame p seq)) else ok s

/-- The reservation that a frame's content carries. -/
def bodyRes : FrameBody → Option W64
  | .part m => some m.resId
  | .token m => some m.resId
  | .declare m => some m.resId
  | .abandon r _ => some r
  | .undefinedType => none

/-- A frame at its destination hop (R370, 07_movement R207). -/
def State.deliver (s : State) (p : Port) (b : FrameBody) : State :=
  match b with
  | .part m => s.deliverPart p m
  | .token m => s.deliverToken p m
  | .declare m => s.deliverDeclare p m
  | .abandon r c => s.deliverAbandon p r c
  | .undefinedType => s.malformed p

/-- DATA_FRAME_RECEIVE (R370 R377): forwarded by a transit hop, delivered at a destination hop, or malformed. A port without an admitted
peer, or quarantined, discards every frame. -/
def execDataFrameReceive (p : Port) (f : Frame) (s : State) : Res :=
  let x := s.ports[p]
  if !x.admitted then ok s
  else
    let s := s.setPort p { x with frames := x.frames + 1 }
    if (lnkCrypt s.act p.val && !f.authOk) || f.overrun || bodyRes f.body ≠ some f.resId then ok (s.malformed p)
    else match s.hops.find? fun h => h.resId = f.resId && h.role ≠ 0 && h.inPort = p.val && h.vc = f.vc with
      | none => ok (s.malformed p)
      | some h =>
        if h.role = 2 then ok (s.deliver p f.body)
        else match portId h.outPort with
          | some q => ok (if s.ports[q].admitted then s.emit (.forward q f) else s)
          | none => ok s

/-- VC_CREDIT_STALL (Table 12-6). -/
def execVcCreditStall (p : Port) (vc : Nat) (s : State) : Res :=
  if s.ports[p].carries && decide (vc < 8) && lnkVcEn s.act p.val vc then ok ((s.malformedNow p 11).portsSettle) else ok s

/-! ## Host ports (R365 R366, 17_physical R520) -/

/-- HOST_PERST_RISE: the host port begins to train. -/
def execHostPerstRise (second : Bool) (s : State) : Res :=
  let p : Port := if second then 1 else 0
  let x := s.ports[p]
  ok (s.setPort p { x with perstHigh := true, signal := x.signal || (x.st = .training && s.isHost p), at_ := if x.st = .training && s.isHost p then s.clock else x.at_ })

/-- HOST_PERST_FALL: the port returns to training; nothing else is reset. -/
def execHostPerstFall (second : Bool) (s : State) : Res :=
  let p : Port := if second then 1 else 0
  let s := s.setPort p { s.ports[p] with perstHigh := false }
  let x := s.ports[p]
  if !s.isHost p || x.st = .off then ok s
  else if x.st = .training then ok (s.setPort p { x with signal := false })
  else ok (s.startTraining p)

/-- HOST_LINK_UP (R366): port 0 is the active one where both are in HOST role. -/
def execHostLinkUp (p : Port) (s : State) : Res :=
  let x := s.ports[p]
  if !s.isHost p || x.st ≠ .training || !x.signal then ok s
  else if p.val = 0 then
    let s := s.portTo p .hostUp 0
    let s := if s.ports[(1 : Port)].st = .hostUp then s.portTo 1 .hostStandby 0 else s
    ok s.portsSettle
  else ok (s.portTo p (if s.isHost 0 then .hostStandby else .hostUp) 0).portsSettle

/-- HOST_PORT_FAILOVER (R366). -/
def execHostPortFailover (s : State) : Res :=
  if s.isHost 0 && s.ports[(0 : Port)].st ≠ .hostUp && s.ports[(1 : Port)].st = .hostStandby then ok (s.portTo 1 .hostUp 0) else ok s

/-! ## LNK_PRESS (R352) -/

/-- The ports of a mask. -/
def portsOf (mask : Nat) : List Port := (bitList mask 12).filterMap portId

/-- The first of rows 8 to 12 that fails, or 0. -/
def State.linkRow (s : State) (m : AMap W64) : Nat := ((failingRows s.guard.keys m).filter fun r => 8 ≤ r).headD 0

/-- A reservation installed on a port is named by an active schedule. -/
def State.portNamed (s : State) (p : Nat) : Bool := s.hops.any fun h => h.names p && s.scheds.any fun x => x.active && x.namesRes h.resId

/-- Whether any register of a port's block differs between two images. -/
def blockChanges (a b : AMap W64) (p : Nat) : Bool := lnkCfg a p ≠ lnkCfg b p || lnkExpect a p ≠ lnkExpect b p

/-- LNK_PRESS of a mask. A failing row is answered in the layout of CFG_PRESS (log entry 160). -/
def State.lnkPress (s : State) (n : SlotId) (mask : Nat) : State :=
  let full := BitVec.ofNat 64 (mask * 65536)
  let snap := imgMerge full s.cfg.shadow []
  let m := s.merged full snap
  let row := s.linkRow m
  if s.cfg.pendings.any fun p => p.mask &&& full ≠ 0 then s.refuse n stBusy 0
  else if row ≠ 0 then s.complete n stAgreement row (s.pressResp 0 row (rowOffset s.guard.keys m row))
  else
    let skip := (bitList mask 12).filter fun p => portChanges s.act m p && s.portNamed p
    let skipMask := skip.foldl (fun a p => a + 2 ^ p) 0
    let rest := (bitList mask 12).filter fun p => !skip.contains p
    let restMask := BitVec.ofNat 64 (rest.foldl (fun a p => a + 2 ^ (p + 16)) 0)
    let changed := BitVec.ofNat 64 ((rest.filter fun p => blockChanges s.act m p).foldl (fun a p => a + 2 ^ (p + 16)) 0)
    if rest = [] then s.complete n stPartial 0 ((portsOf mask).flatMap fun q => s.trainRecord q (some 15) false)
    else
      let p : Pending := { mask := restMask, image := imgMerge restMask snap [], slot := some n }
      let s := ({ s with cfg.pendings := s.cfg.pendings ++ [p] }).hold n (.press (BitVec.ofNat 12 skipMask))
      if s.maskInUse changed then s else s.applyPending p

def execLnkPress (n : SlotId) (s : State) : Res :=
  s.serloth n 0x0601 fun x =>
    let mask := fld x.req 0 2
    if mask = 0 then s.refuse n stEmpty 0 else s.lnkPress n mask

/-! ## LNK_STATUS (R381) -/

/-- VCs of a port that are bound to a job (R368). -/
def State.vcBound (s : State) (p : Nat) : Nat :=
  (List.range 8).foldl (fun a v => if s.hops.any fun h => h.names p && h.vc = v then a + 2 ^ v else a) 0

/-- The rated hops of an OUT_PORT, in MB/s. -/
def State.ratedOut (s : State) (p : Nat) : Nat := ((s.hops.filter fun h => h.outPort = p && h.role ≠ 2).map Hop.rate).sum

/-- The record of a port (Table 12-8). -/
def State.portRecord (s : State) (p : Port) : Bytes :=
  let x := s.ports[p]
  le 1 (portCode x.st) ++ le 1 x.reason ++ le 1 (bnat x.traffic.isSome + 2 * bnat (decide (s.time.followed = some p)) + 4 * bnat x.warned) ++
  le 1 x.peerPort ++ le 2 x.peerPart.toNat ++ le 1 (s.vcBound p.val) ++ le 1 0 ++ le 8 ((x.peerId.map (·.toNat)).getD 0) ++
  le 8 x.corrected.toNat ++ le 8 x.uncorr.toNat ++ le 8 x.replays.toNat ++ le 4 x.malformed.toNat ++ le 4 x.retrains.toNat ++
  le 4 (s.ratedOut p.val) ++ le 2 (s.hops.filter fun h => h.role = 1 && h.rate = 0 && h.names p.val).length ++ le 2 0 ++ le 8 x.since

def execLnkStatus (n : SlotId) (s : State) : Res :=
  s.serloth n 0x0602 fun x =>
    let mask := fld x.req 0 2
    if mask = 0 then s.refuse n stEmpty 0 else s.complete n stOk 0 ((portsOf mask).flatMap s.portRecord)

/-! ## LNK_RESERVE (R369) -/

/-- The hop record at an index of the payload (Table 12-4). -/
def hopAt (b : Bytes) (i : Nat) : Hop :=
  let o := 8 + 32 * i
  let r := fld b (o + 0x1C) 1
  let v := fld b (o + 0x1F) 1
  { resId := BitVec.ofNat 64 (fld b o 8), setId := BitVec.ofNat 64 (fld b (o + 8) 8), role := r % 4, inPort := fld b (o + 0x1D) 1,
    outPort := fld b (o + 0x1E) 1, vc := v % 8, hops := v / 16, rate := fld b (o + 0x18) 4, anyRl1 := bit r 2, anyCrypt := bit r 3,
    peerId := BitVec.ofNat 64 (fld b (o + 0x10) 8), closed := false }

/-- A hop record within its fields' ranges (Table 12-4). -/
def Hop.formed (h : Hop) : Bool :=
  h.resId ≠ 0 && decide (h.role < 3) && decide (1 ≤ h.hops) && (h.role ≠ 0 || h.inPort = 0xFF) && (h.role ≠ 2 || h.outPort = 0xFF)

/-- The ports that a hop names. -/
def Hop.ports (h : Hop) : List Nat := (if h.role = 0 then [] else [h.inPort]) ++ (if h.role = 2 then [] else [h.outPort])

/-- A port in RL1 or RL2 generation whose ROLE is neither OFF nor HOST. -/
def State.linkPort (s : State) (p : Nat) : Bool :=
  decide (p < 12) && decide (lnkGen s.act p < 2) && decide (lnkRole s.act p ≠ 0) && decide (lnkRole s.act p ≠ 5)

/-- The axis of a TORUS or MESH port. -/
def State.axisOf (s : State) (p : Nat) : Option Nat := if lnkRole s.act p = 1 || lnkRole s.act p = 2 then some (lnkAxis s.act p) else none

/-- An admitted schedule of another job holds a WRAP reservation on an axis. -/
def State.wrapOn (s : State) (a : Nat) (setId : W64) : Bool :=
  s.scheds.any fun x => x.admitted && x.image.setId ≠ setId && x.image.resvs.any fun r => r.wrap &&
    (match s.hopOf r.resId 0 with | some h => s.axisOf h.outPort = some a | none => false)

/-- The first condition of R369 that refuses an installation: 3, 4, 2, 1, 6. -/
def State.hopBad (s : State) (h : Hop) : Option Nat :=
  if s.hops.any fun g => g.resId = h.resId then some 3
  else if !h.ports.all s.linkPort then some 4
  else if (h.ports.any fun p => !lnkVcEn s.act p h.vc || s.hops.any fun g => g.names p && g.vc = h.vc && g.setId ≠ h.setId) ||
      (h.vc = 7 && h.rate ≠ 0) || (h.vc ≠ 7 && h.rate = 0) || (h.role ≠ 1 && h.rate = 0) then some 2
  else if h.role ≠ 2 && h.rate ≠ 0 && decide (s.portRate h.outPort < s.ratedOut h.outPort + h.rate) then some 1
  else if h.role = 1 && h.rate = 0 && h.ports.any (fun p => match s.axisOf p with | some a => s.wrapOn a h.setId | none => false) then some 6
  else none

/-- Installs records one after another, or answers the first that fails and its condition. -/
def State.installHops (s : State) (b : Bytes) (count : Nat) : (Nat × Nat) ⊕ State :=
  (List.range count).foldl (fun (a : (Nat × Nat) ⊕ State) i => match a with
    | .inl e => .inl e
    | .inr s =>
      let h := hopAt b i
      match s.hopBad h with
      | some r => .inl (i, r)
      | none => .inr { s with hops := s.hops ++ [h] }) (.inr s)

/-- LNK_RESERVE with OP 0 (R369); an OP above 1 is malformed. -/
def execLnkReserveInstall (n : SlotId) (s : State) : Res :=
  s.serloth n 0x0603 fun x =>
    let b := x.req
    let count := fld b 2 2
    if fld b 0 1 = 1 then s
    else if 1 < fld b 0 1 || count = 0 || 120 < count || decide (b.length < 8 + 32 * count) || !((List.range count).all fun i => (hopAt b i).formed) then
      s.refuse n stMalformed 0
    else match s.installHops b count with
      | .inl (i, r) => s.complete n stTransit r (le 2 i)
      | .inr t => t.complete n stOk 0 (le 2 count)

/-- The first condition that refuses a release: 7, 5. -/
def State.releaseBad (s : State) (done : List W64) (res : W64) : Option Nat :=
  if !(s.hops.any fun h => h.resId = res) || done.contains res then some 7
  else if s.scheds.any fun x => x.active && x.namesRes res then some 5
  else none

/-- The first record of a release list that fails, with its condition. -/
def State.releaseFail (s : State) : List W64 → Nat → List W64 → Option (Nat × Nat)
  | [], _, _ => none
  | r :: rs, i, done => match s.releaseBad done r with
    | some c => some (i, c)
    | none => State.releaseFail s rs (i + 1) (r :: done)

/-- LNK_RESERVE with OP 1 (R369). -/
def execLnkReserveRelease (n : SlotId) (s : State) : Res :=
  s.serloth n 0x0603 fun x =>
    let b := x.req
    let count := fld b 2 2
    let ids := (List.range count).map fun i => (hopAt b i).resId
    if fld b 0 1 ≠ 1 then s
    else if count = 0 || 120 < count || decide (b.length < 8 + 32 * count) || ids.contains 0 then s.refuse n stMalformed 0
    else match s.releaseFail ids 0 [] with
      | some (i, c) => s.complete n stTransit c (le 2 i)
      | none =>
        let s := (s.hops.filter fun h => ids.contains h.resId).foldl State.releaseHop s
        s.complete n stOk 0 (le 2 count)

/-! ## LNK_QUALIFY (R356) -/

/-- The records of a live soak: a port that is not UP is not measured. -/
def State.soakRecord (s : State) (soaks : List Soak) (p : Port) : Bytes :=
  let x := s.ports[p]
  match soaks.find? fun k => k.port = p with
  | some k =>
    if x.st = .up then
      le 1 (portCode x.st) ++ le 1 (bnat (!soakPass k)) ++ le 1 k.lane ++ le 1 x.reason ++ le 4 k.cber.toNat ++ le 4 (soakPber k) ++ le 2 k.maxSym ++
      le 2 (min k.uncorr 0xFFFF)
    else s.trainRecord p none false
  | none => s.trainRecord p none false

/-- Completes a LNK_QUALIFY with what its soak measured; a failed soak warns. -/
def State.endQualify (s : State) (n : SlotId) (mask : Nat) (soaks : List Soak) : State :=
  let ps := portsOf mask
  let resp := ps.flatMap (s.soakRecord soaks)
  let all := ps.all fun p => s.ports[p].st = .up && soaks.any fun k => k.port = p
  let s := soaks.foldl (fun s k => if ps.contains k.port && s.ports[k.port].st = .up && !soakPass k then s.warnLink k.port k.cber else s) s
  s.complete n (if all then stOk else stPartial) 0 resp

def execLnkQualify (n : SlotId) (s : State) : Res :=
  s.serloth n 0x0604 fun x =>
    let mask := fld x.req 0 2
    let soak := fld x.req 4 4
    if soak < 1000 || 3600000 < soak then s.refuse n stMalformed 0
    else if mask = 0 then s.refuse n stEmpty 0
    else if (portsOf mask).all fun p => s.ports[p].st ≠ .up then s.endQualify n mask []
    else s.hold n (.qualify (BitVec.ofNat 12 mask) (s.clock + soak * 1000000))

/-- LIVE_SOAK_END (R356). -/
def execLiveSoakEnd (n : SlotId) (soaks : List Soak) (s : State) : Res :=
  let x := s.slots[n]
  match x.held with
  | .qualify mask t => if x.hdr.state = 2 && decide (t ≤ s.clock) then ok (s.endQualify n mask.toNat soaks) else ok s
  | _ => ok s

/-! ## LNK_QUARANTINE (R379) -/

/-- A port that has not locked keeps no training in quarantine. -/
def State.quarantineCmd (s : State) (p : Port) : State :=
  let x := s.ports[p]
  let lost := x.st = .training || x.st = .down || x.st = .off
  let s := s.quarantine p 12
  let y := s.ports[p]
  s.setPort p { y with adm := Adm.reset, signal := y.signal && !lost }

/-- LNK_QUARANTINE without the release flag. -/
def execLnkQuarantine (n : SlotId) (s : State) : Res :=
  s.serloth n 0x0605 fun x =>
    let mask := fld x.req 0 2
    if bit (fld x.req 2 1) 0 then s
    else if mask / 4096 ≠ 0 then s.refuse n stMalformed 0
    else if mask = 0 then s.refuse n stEmpty 0
    else if (portsOf mask).any s.isHost then s.refuse n stBusy 0
    else (((portsOf mask).foldl State.quarantineCmd s).portsSettle).complete n stOk 0 []

/-- A released port runs admission again, from training where its lanes have lost it. -/
def State.releasePort (s : State) (p : Port) : State :=
  let x := s.ports[p]
  if !x.signal then s.startTraining p
  else
    let s := s.setPort p { x with lastPeer := if x.peerId.isSome then x.peerId else x.lastPeer, peerId := none, peerPart := 0, peerPort := 0xFF,
                                  session := none, traffic := none, timing := TPort.reset }
    s.beginAdmission p

/-- LNK_QUARANTINE with the release flag. -/
def execLnkQuarantineRelease (n : SlotId) (s : State) : Res :=
  s.serloth n 0x0605 fun x =>
    let mask := fld x.req 0 2
    if !bit (fld x.req 2 1) 0 then s
    else if mask / 4096 ≠ 0 then s.refuse n stMalformed 0
    else if mask = 0 then s.refuse n stEmpty 0
    else if (portsOf mask).any fun p => s.isHost p || s.ports[p].st ≠ .quarantined then s.refuse n stBusy 0
    else ((portsOf mask).foldl State.releasePort s).complete n stOk 0 []

end Sys2Proof.Machine
end

