-- ==== Sys2Proof/Machine/Replace.lean ====
section
/-! DEFINITION. Replacement devices: loads from the mirrors, what a mirror answers, and shadow mode with its feed (13_collation
R411-R416). -/

namespace Sys2Proof.Machine

/-! ## Descriptor state as one string (R384 R412) -/

/-- Writes a string over the regions of a half, in the order of the digest string. -/
def State.fillRegions (s : State) : List (Nat × Nat) → Bytes → State
  | [], _ => s
  | (a, n) :: rs, d => (s.memWrite a (d.take n)).fillRegions rs (d.drop n)

/-- Bytes of a half's regions. -/
def UpdateE.stateBytes (u : UpdateE) : Nat := ((u.regions false).map (·.2)).sum

/-- The descriptor of an ordinal. -/
def Sched.mirrorOf (x : Sched) (verso : Bool) (k : Nat) : Option UpdateE := (descsOf x.image verso)[k]?.bind fun d => x.image.updates[d]?

/-- What one part of a descriptor's state holds: the step count with the first element, then the slices of each region. -/
def State.stateSlice (s : State) (u : UpdateE) (b : Bool) (first n : Nat) : Bytes × Bool :=
  let e := elemBits u.wfmt
  let rs := (if first = 0 then [(u.master b, 8)] else []) ++ [(u.master b + 8 + 4 * first, 4 * n)] ++
    (if u.hasMom1 then [(u.mom1 b + 4 * first, 4 * n)] else []) ++ (if u.hasMom2 then [(u.mom2 b + 4 * first, 4 * n)] else []) ++
    [(u.work b + first * e / 8, ceilDiv ((first + n) * e) 8 - first * e / 8)] ++
    (if isMX u.wfmt then [(u.workScale b + first / 32, ceilDiv (first + n) 32 - first / 32)] else [])
  (rs.flatMap fun r => s.memRead r.1 r.2, rs.any fun r => s.rangePoisoned r.1 r.2)

/-! ## COL_ADMIT_DEVICE (R411 R413) -/

/-- A reservation to this device arrives on a port whose admitted peer its hop names. -/
def State.arrivesFrom (s : State) (res : W64) : Bool :=
  match s.hopOf res 2 with
  | some h => match portId h.inPort with
    | some q => s.ports[q].admitted && decide (s.ports[q].peerId = some h.peerId)
    | none => false
  | none => false

/-- The status and DETAIL that refuse a COL_ADMIT_DEVICE (R411). -/
def State.admitRefusal (s : State) (b : Bytes) (answers : List LoadAnswer) : Option (Nat × Nat) :=
  let idle := match s.sched (fld b 4 2) with
    | some x => decide (x.state = .admitted) && x.pendingStep.isNone
    | none => false
  if !idle || s.ledger.held || answers.any fun a => a.folios ≠ s.frw.activeCount then some (stState, 1)
  else if !s.arrivesFrom (BitVec.ofNat 64 (fld b 8 8)) || (fld b 0 1 = 1 && !s.arrivesFrom (BitVec.ofNat 64 (fld b 16 8))) then some (stAuth, 0)
  else none

/-- The descriptors of a schedule with the answer that each takes its state from: recto ordinals by one KIND, verso by the other. -/
def loadPairs (x : Sched) (rectoKind versoKind : Nat) (answers : List LoadAnswer) : List (UpdateE × Option LoadAnswer) :=
  let get := fun (k i : Nat) => answers.find? fun a => a.kind = k && a.index = i
  ((x.image.updates.filter fun u => !u.verso).mapIdx fun i u => (u, get rectoKind i)) ++
  ((x.image.updates.filter fun u => u.verso).mapIdx fun i u => (u, get versoKind i))

/-- Writes the state that an answer gives into the half with the sender's letter. -/
def State.loadHalf (s : State) (u : UpdateE) (a : LoadAnswer) : State := s.fillRegions (u.regions a.half) a.data

/-- Every part has come, by the third reissue at the latest (R413). -/
def loadWhole (a : LoadAnswer) : Bool := (a.missing.take 4).contains 0

/-- A loaded half is whole and its digest is the one that the mirror returned. -/
def State.halfAgrees (s : State) (u : UpdateE) (a : LoadAnswer) : Bool :=
  let d := s.digestOf u a.half
  loadWhole a && a.data.length = u.stateBytes && !d.poison && d.val = a.digest

/-- Writes the collation record of a loaded descriptor. -/
def State.adopt (s : State) (u : UpdateE) (a : LoadAnswer) : State :=
  let r : CollRec := { masterA := u.masterA, halfB := a.half, step := a.step, digest := { val := a.digest, poison := false } }
  let l := s.ledger.recs.filter (fun (y : CollRec) => y.masterA ≠ u.masterA) ++ [r]
  { s with ledger.recs := l.drop (l.length - 128) }

/-- Posts COL_PEER_LOAD, and again for each part that misses, up to three times (R413). -/
def State.askLoad (s : State) (answers : List LoadAnswer) (g kind i n : Nat) : State :=
  let missing := ((answers.find? fun a => a.kind = kind && a.index = i).map LoadAnswer.missing).getD []
  let missing := (missing.take 3).takeWhile fun m => m ≠ 0
  missing.foldl (fun s m => (Machine.runsOf n).foldl (fun s p => if bit m.toNat p.1 then s.emit (.peerLoad g kind i p.2.1 p.2.2) else s) s)
    (s.emit (.peerLoad g kind i 0 n))

/-- Posts COL_PEER_LOAD for every descriptor, the scale table and the monitor state. -/
def State.askLoads (s : State) (x : Sched) (answers : List LoadAnswer) (rectoFrom rectoKind versoFrom versoKind : Nat) : State :=
  let ask := fun (s : State) => s.askLoad answers
  let s := ((x.image.updates.filter fun u => !u.verso).mapIdx fun i u => (i, u)).foldl (fun s y => ask s rectoFrom rectoKind y.1 y.2.count) s
  let s := ((x.image.updates.filter fun u => u.verso).mapIdx fun i u => (i, u)).foldl (fun s y => ask s versoFrom versoKind y.1 y.2.count) s
  match x.image.num with
  | none => s
  | some m => ask (ask s rectoFrom 3 0 m.nTensors) rectoFrom 4 0 m.mons.length

/-- Writes the scale table and the monitor state that answers give; whether both are whole. -/
def State.loadNumerics (s : State) (x : Sched) (answers : List LoadAnswer) : Bool × State :=
  match x.image.num with
  | none => (true, s)
  | some m =>
    let get := fun (k n a : Nat) (s : State) =>
      if n = 0 then (true, s)
      else match answers.find? fun y => y.kind = k with
        | some y => (loadWhole y && y.data.length = n, s.memWrite a (y.data.take n))
        | none => (false, s)
    let r := get 3 (32 * m.nTensors) m.tableAddr s
    let t := get 4 (8 * m.mons.length) m.monAddr r.2
    (r.1 && t.1, t.2)

/-- Loads a schedule's state from the answers. On agreement of every digest and of the steps the collation records are written; else the
loaded halves count as absent. -/
def State.loadState (s : State) (x : Sched) (rectoKind versoKind : Nat) (answers : List LoadAnswer) : Option (Nat × Bool) × State :=
  let ps := loadPairs x rectoKind versoKind answers
  let s := ps.foldl (fun s p => match p.2 with | some a => s.loadHalf p.1 a | none => s) s
  let (num, s) := s.loadNumerics x answers
  let steps := dedup (ps.filterMap fun p => p.2.map LoadAnswer.step)
  let good := num && decide (steps.length ≤ 1) && ps.all fun p => match p.2 with | some a => s.halfAgrees p.1 a | none => false
  if good then
    (some (steps.headD 0, ((ps.head?.bind (·.2)).map LoadAnswer.half).getD false),
     ps.foldl (fun s p => match p.2 with | some a => s.adopt p.1 a | none => s) s)
  else
    (none, { s with ledger.recs := s.ledger.recs.filter fun r => !(ps.any fun p => p.1.masterA = r.masterA) })

/-- STEP, HALF and the reserved bytes of the response. -/
def admitResp (step : Nat) (half : Bool) : Bytes := le 8 step ++ le 1 (bnat half) ++ le 7 0

/-- COL_ADMIT_DEVICE in load mode (R413). A MODE other than 1 and 2 is malformed. -/
def execColAdmitDeviceLoad (n : SlotId) (answers : List LoadAnswer) (s : State) : Res :=
  s.serlothMem n 0x0804 fun y =>
    let b := y.req
    if fld b 0 1 = 2 then s
    else if fld b 0 1 ≠ 1 then s.refuse n stMalformed 0
    else match s.admitRefusal b answers, s.sched (fld b 4 2) with
      | some r, _ => s.refuse n r.1 r.2
      | none, none => s.refuse n stState 1
      | none, some x =>
        match (s.askLoads x answers (fld b 1 1) 1 (fld b 2 1) 2).loadState x 1 2 answers with
        | (some r, s) => s.complete n stOk 0 (admitResp r.1 r.2)
        | (none, s) => s.refuse n stState 2

/-- COL_ADMIT_DEVICE in shadow mode (R415): the state of the working device is loaded and its feed is asked for; the command waits for
the feed to start. DESIGN CHOICE (log entry 85): R415 names no status for a load that fails, and R413's refusal is load mode's; here no feed is
asked for, and the command waits for one until R53 stops it with TIMEOUT. -/
def execColAdmitDeviceShadow (n : SlotId) (answers : List LoadAnswer) (s : State) : Res :=
  s.serlothMem n 0x0804 fun y =>
    let b := y.req
    if fld b 0 1 ≠ 2 then s
    else match s.admitRefusal b answers, s.sched (fld b 4 2) with
      | some r, _ => s.refuse n r.1 r.2
      | none, none => s.refuse n stState 1
      | none, some x =>
        let w := fld b 1 1
        match (s.askLoads x answers w 2 w 1).loadState x 2 1 answers with
        | (some _, s) =>
          ({ s.emit (.peerLoad w 5 0 0 0) with
              shadow := { Shadow.reset with status := 1, sched := x.id, partner := w, resIn := BitVec.ofNat 64 (fld b 8 8) } }).hold n .shadow
        | (none, s) => s.hold n .shadow

/-! ## COL_PEER_LOAD (R412) -/

/-- The parts of a COL_PEER_LOAD are sent on a route that is open: none where it is not. -/
def State.routeOpen (s : State) (res : W64) : Bool :=
  match s.hopOf res 0 with
  | some h => !h.closed && (match portId h.outPort with | some q => s.ports[q].admitted | none => false)
  | none => false

/-- Pushes the data in parts and completes with the bitmap of those acknowledged. -/
def State.pushParts (s : State) (n : SlotId) (res : W64) (kind index first count step : Nat) (half : Bool) (failed : W64)
    (data : Nat → Nat → Bytes × Bool) : State :=
  let parts := Machine.runsOf count
  let up := s.routeOpen res
  let s := if up then parts.foldl (fun s p => s.emit (.peerData res kind index (first + p.2.1) (data (first + p.2.1) p.2.2).1 (data (first + p.2.1) p.2.2).2)) s else s
  let good := parts.filter fun p => up && !bit failed.toNat p.1
  let poison := parts.any fun p => (data (first + p.2.1) p.2.2).2
  s.complete n (Machine.copyStatus good.length parts.length poison) 0
    (le 8 (good.foldl (fun m p => m + 2 ^ p.1) 0) ++ le 8 step ++ le 1 (bnat half))

/-- A table of equal entries. -/
def State.tableSlice (s : State) (a w first n : Nat) : Bytes × Bool := (s.memRead (a + w * first) (w * n), s.rangePoisoned (a + w * first) (w * n))

/-- COL_PEER_LOAD with KIND 1 to 4 (R412). The operand is the mask of parts that are not acknowledged. -/
def execColPeerLoad (n : SlotId) (failed : W64) (s : State) : Res :=
  s.serlothMem n 0x0805 fun y =>
    let b := y.req
    let kind := fld b 0 1
    let res := BitVec.ofNat 64 (fld b 8 8)
    let first := fld b 16 8
    let count := fld b 24 8
    if kind = 5 || kind = 6 then s
    else if kind = 0 || decide (6 < kind) then s.refuse n stMalformed 0
    else match s.collated with
      | none => s.refuse n stState 0
      | some x =>
        if count = 0 then s.complete n stEmpty 0 (le 8 0 ++ le 8 ((s.lastStep x).getD 0) ++ le 1 0)
        else if kind ≤ 2 then
          match x.mirrorOf (kind = 1) (fld b 2 2) with
          | none => s.refuse n stState 0
          | some u =>
            let rec_ := s.ledger.recs.find? fun r => r.masterA = u.masterA
            if u.count < first + count then s.refuse n stState 0
            else s.pushParts n res kind (fld b 2 2) first count ((rec_.map CollRec.step).getD 0) (s.lastHalf u) failed
              fun f k => s.stateSlice u (s.lastHalf u) f k
        else
          let entries := if kind = 3 then x.numTensors else (x.image.num.map fun m => m.mons.length).getD 0
          let a := if kind = 3 then x.numTable else (x.image.num.map NumE.monAddr).getD 0
          if entries < first + count then s.refuse n stState 0
          else s.pushParts n res kind 0 first count ((s.lastStep x).getD 0) false failed fun f k => s.tableSlice a (if kind = 3 then 32 else 8) f k

/-! ## The working device's side of the feed (R415 R416) -/

/-- The response of a COL_PEER_LOAD that moves nothing. -/
def State.feedResp (s : State) : Bytes := le 8 0 ++ le 8 ((s.collated.bind s.lastStep).getD 0) ++ le 1 0

/-- COL_PEER_LOAD with KIND 5 (R415): the feed begins with the next step. -/
def execStartShadowFeed (n : SlotId) (s : State) : Res :=
  s.serlothMem n 0x0805 fun y =>
    let b := y.req
    let res := BitVec.ofNat 64 (fld b 8 8)
    if fld b 0 1 ≠ 5 then s
    else match s.collated, s.hopOf res 0 with
      | some x, some h =>
        ({ s with shadow := { s.shadow with
            feedTo := some res, feedFrom := if x.between then x.launchStep else x.step + 1, feedPort := portId h.outPort } }).complete n stOk 0 s.feedResp
      | _, _ => s.refuse n stState 0

/-- The working device ends its feed. -/
def State.endFeed (s : State) : State :=
  match s.shadow.feedTo with
  | some r => { s.emit (.feedEnd r) with shadow := { s.shadow with feedTo := none, feedPort := none } }
  | none => s

/-- The shadow's side ends: its state records the cause, and a replay of it stops. -/
def State.endShadow (s : State) (status : Nat) : State :=
  if s.shadow.status = 1 || s.shadow.status = 2 then
    let t : State := match s.sched s.shadow.sched with
      | some x => if x.state = SchState.admitted then s.setSched { x with replay := none } else s
      | none => s
    { t with shadow := { s.shadow with status := status, feedStep := none, feedDone := none, atBase := none } }
  else s

/-- COL_PEER_LOAD with KIND 6 (R416). -/
def execEndShadowFeed (n : SlotId) (s : State) : Res :=
  s.serlothMem n 0x0805 fun y =>
    if fld y.req 0 1 ≠ 6 then s else ((s.endFeed).endShadow 5).complete n stOk 0 s.feedResp

/-- SHADOW_FEED_STALL (R416): the feed's virtual channel has had no credit for 1 ms. A device that receives the feed on the port has lost it. -/
def execShadowFeedStall (p : Port) (s : State) : Res :=
  let s := if s.shadow.feedPort = some p then s.endFeed else s
  match s.hopOf s.shadow.resIn 2 with
  | some h => if h.inPort = p.val then ok (s.endShadow 3) else ok s
  | none => ok s

/-! ## The shadow's side (R415 R416) -/

/-- The upper half of the shadow's ledger region, which receives a feed; the lower one holds the feed that is replayed. -/
def State.feedBase (s : State) : Nat := s.ledgerBase + ceilDiv (imgLedgerSize s.act / 2) 1024 * 1024

/-- Bytes of an area are moved with their poison marks. -/
def State.moveArea (s : State) (src dst n : Nat) : State :=
  s.memWriteP dst (s.memRead src n) fun sh => s.poisoned (sh - dst / 1024 + src / 1024)

/-- A complete feed moves to the lower half where no replay holds it: the ledger's fields become those of its step. -/
def State.promote (s : State) : State :=
  match s.shadow.feedDone, s.shadow.atBase with
  | some d, none =>
    let n := 0x100000 + imgColInput s.act + s.shadow.feedPos
    let s := s.moveArea s.feedBase s.ledgerBase n
    { s with
      ledger := { s.ledger with
        schedId := s.shadow.sched, step := d.1, logPos := s.shadow.feedPos, logIdx := s.shadow.feedIdx, overflow := false, incomplete := false,
        votes := s.shadow.feedVotes }
      shadow := { s.shadow with atBase := some d, feedDone := none, feedStep := none, feedPos := 0, feedIdx := 0, feedVotes := [] } }
  | _, _ => s

/-- Writes bytes of a feed at an offset of the upper half; what does not fit is lost, and the digests will not agree. -/
def State.feedWrite (s : State) (off : Nat) (d : Bytes) : State :=
  if off + d.length ≤ imgLedgerSize s.act / 2 then s.memWrite (s.feedBase + off) d else s

/-- An item of the feed lands. -/
def State.feedItem (s : State) (x : FeedItem) : State :=
  match x with
  | .control _ off d => s.feedWrite off d
  | .input _ off d => s.feedWrite (0x100000 + off) d
  | .log _ off d =>
    { s.feedWrite (0x100000 + imgColInput s.act + off) d with
      shadow := { s.shadow with feedPos := off + d.length, feedIdx := fld d 0x20 8 + 1 } }
  | .vote _ es =>
    { s with shadow := { s.shadow with
        feedVotes := s.shadow.feedVotes.filter (fun (v : VoteEntry) => !(es.any fun e => e.ordinal = v.ordinal)) ++ es } }
  | .digests n r v => ({ s with shadow := { s.shadow with feedDone := some (n, r, v) } }).promote

/-- The command that waits for the feed to start completes. -/
def State.feedStarted (s : State) : State :=
  (List.finRange 64).foldl (fun s n =>
    if s.slots[n].held = .shadow then
      let step := ((s.sched s.shadow.sched).bind s.lastStep).getD 0
      let half := (((s.sched s.shadow.sched).bind fun x => x.image.updates.head?).map s.lastHalf).getD false
      s.complete n stOk 0 (admitResp step half)
    else s) s

/-- SHADOW_FEED_RECEIVE (R415 R416): items of a step go to the upper half. A feed that begins while the step two before it is not finished
ends with state 4. -/
def execShadowFeedReceive (p : Port) (resId : W64) (item : FeedItem) (s : State) : Res :=
  match s.destHop p resId with
  | none => ok (s.malformed p)
  | some _ =>
    if !(s.shadow.status = 1 || s.shadow.status = 2) || s.shadow.resIn ≠ resId then ok s
    else
      let s := s.feedStarted
      if s.shadow.feedStep = some (feedStepOf item) then ok (s.feedItem item)
      else if s.shadow.feedDone.isSome then ok ((s.emit (.peerLoad s.shadow.partner 6 0 0 0)).endShadow 4)
      else
        ok (({ s with shadow := { s.shadow with
          feedStep := some (feedStepOf item), feedPos := 0, feedIdx := 0, feedVotes := [] } }).feedItem item)

/-- The shadow's replay of a step ends: its digests are compared with those of the working device. -/
def State.shadowCompare (s : State) (x : Sched) (d : Nat × Dig × Dig) : State :=
  let agree := digAgrees (x.deviceDigest false) d.2.1 && digAgrees (x.deviceDigest true) d.2.2
  let s := (List.range x.image.updates.length).foldl (fun s k => s.collateDesc x k) s
  let s := if agree then s else s.nativeE 0 0x0507 x.ctx 0xFF 0 (x.step % 4294967296) 0 0
  let k := if agree then s.shadow.agreed + 1 else 0
  let s := s.setSched { x with replay := none, lastCollated := some x.step, coll := { x.coll with
    state := .collated, recto := x.deviceDigest false, verso := x.deviceDigest true } }
  ({ s with shadow := { s.shadow with
      agreed := k, status := if imgShadowSteps s.act ≤ k then 2 else if agree then s.shadow.status else 1, atBase := none, doneStep := some d.1 } }).promote

/-- SHADOW_STEP (R415): the replay of the fed step begins, or ends with its comparison. -/
def execShadowStep (step : Nat) (s : State) : Res :=
  let s := s.settle s.shadow.sched
  match s.sched s.shadow.sched, s.shadow.atBase with
  | some x, some d =>
    if d.1 ≠ step || !s.shadowRuns x then ok s
    else if x.inReplay then (if x.learned x.step then ok (s.shadowCompare x d) else ok s)
    else if s.now % 8 ≠ 0 then ok s
    else
      let y := { x with step := step, coll := { Coll.start with state := .localReplay } }
      let r := { Replay.at .localReplay s.now step with started := true }
      ok ((((s.restore y).setSched (y.replayPass r))).clearIssue y)
  | _, _ => ok s

end Sys2Proof.Machine
end

