-- ==== Sys2Proof/Machine/Ckpt.lean ====
section
/-! DEFINITION. Checkpoints: the begin and the abort, the fast copy, the drain, the commit, what members answer, and loads
(14_checkpoint R424-R445 R534). -/

namespace Sys2Proof.Machine

/-! ## The live checkpoint -/

def State.liveCkpt (s : State) : Option Ckpt := s.ckpts.find? Ckpt.live

/-- Replaces the live checkpoint. -/
def State.setLive (s : State) (k : Ckpt) : State := { s with ckpts := s.ckpts.map fun y => if y.live then k else y }

/-- The live checkpoint of an identifier. -/
def State.liveOf (s : State) (id : Nat) : Option Ckpt := s.ckpts.find? fun k => k.live && k.id = id

/-- The live checkpoint ends: its pages are released, and before its hash list is sent every member is told (R438). -/
def State.ckEnd (s : State) (k : Ckpt) (st : CkSt) (reason : Nat) : State :=
  let s := { s.setLive { k with st := st, reason := reason, prot := [], saved := [] } with held := [] }
  if k.st = .committing then s else s.ckTell (abortBytes k.id)

/-- FAILED with a reason, and record 0x0603. -/
def State.ckFail (s : State) (k : Ckpt) (reason : Nat) : State :=
  (s.ckEnd k .failed reason).nativeE 3 0x0603 k.ctx 0xFF 0 (k.id % 4294967296) 0 reason

/-! ## CKP_BEGIN, CKP_ABORT, CKP_STATUS, CKP_LIMIT_EXPIRY (R427 R439 R445) -/

/-- The carry list of a CKP_BEGIN payload. -/
def parseCarry (b : Bytes) (n : Nat) : List Carry :=
  (List.range n).map fun i => { addr := fld b (8 + 16 * i) 8, len := fld b (16 + 16 * i) 8 }

/-- CKP_BEGIN (R427). The operands are the members' replies within 1 ms. -/
def execCkpBegin (n : SlotId) (replies : List MemberReply) (s : State) : Res :=
  s.serloth n 0x0901 fun y =>
    let b := y.req
    let flags := fld b 0 1
    let nc := fld b 1 1
    if flags = 3 || decide (16 < nc) || decide (b.length < 8 + 16 * nc) then s.refuse n stMalformed 0
    else
      let carry := parseCarry b nc
      match s.tryBegin y.ctxNo flags carry replies with
      | (0, t) =>
        match t.ckpts.head? with
        | none => s.refuse n stBusy 1
        | some k =>
          let c := ctxId y.ctxNo
          (t.setCtx c { t.ctxs[c] with carry := carry }).complete n stOk 0 (le 8 k.id ++ le 1 k.slot ++ le 7 0 ++ le 8 k.cut)
      | (d, t) => t.refuse n stBusy d

/-- CKP_ABORT (R439). -/
def execCkpAbort (n : SlotId) (s : State) : Res :=
  s.serloth n 0x0904 fun y =>
    match s.liveOf (fld y.req 0 8) with
    | some k => if k.st = .committing then s.refuse n stState 0 else (s.ckEnd k .aborted 1).complete n stOk 0 []
    | none => s.refuse n stState 0

/-- STATE of Table 14-6. -/
def ckCode : CkSt → Nat
  | .begun => 1 | .copying => 2 | .draining => 3 | .committing => 4 | .committed => 5 | .failed => 6 | .aborted => 7

/-- The CKP_STATUS response (Table 14-9). -/
def State.ckStatus (s : State) (k : Ckpt) : Bytes :=
  let remote := (k.acked.filter fun j => j ≠ 0).length
  le 1 (ckCode k.st) ++ le 1 k.reason ++ le 1 k.slot ++ le 1 k.narrow ++ le 4 0 ++ le 8 k.id ++ le 8 k.cut ++ le 8 (Nat.min k.frontier k.imageLen) ++
    le 8 k.imageLen ++ le 2 k.acked.length ++ le 2 k.hashes.length ++ le 4 k.heldPages ++ le 8 k.heldNs ++ le 8 (remote * s.pieceSize k.imageLen)

/-- CKP_STATUS (R445): 0 names the newest checkpoint; an unknown one reports state 0. -/
def execCkpStatus (n : SlotId) (s : State) : Res :=
  s.serloth n 0x0902 fun y =>
    let id := fld y.req 0 8
    match if id = 0 then s.ckpts.head? else s.ckpts.find? fun k => k.id = id with
    | some k => s.complete n stOk 0 (s.ckStatus k)
    | none => s.complete n stOk 0 (le 8 0 ++ le 8 id ++ le 48 0)

/-- CKP_LIMIT_EXPIRY (R439). -/
def execCkpLimitExpiry (id : Nat) (s : State) : Res :=
  match s.liveOf id with
  | some k => if k.st ≠ .begun && decide (k.cutAt + imgCkpLimit s.act * 1000000000 ≤ s.clock) then ok (s.ckFail k 3) else ok s
  | none => ok s

/-! ## The fast copy (R428 R429 R433) -/

/-- A source byte as it stood at the cut. -/
def State.cutByte (s : State) (k : Ckpt) (a : Nat) : Byte :=
  match k.saved.find? fun p => p.page = a / 65536 with
  | some p => p.data.getD (a % 65536) 0
  | none => s.memByte a

/-- A source sheet's mark as it stood at the cut. -/
def State.cutPoison (s : State) (k : Ckpt) (sheet : Nat) : Bool :=
  match k.saved.find? fun p => p.page = sheet / 64 with
  | some p => p.poison.contains sheet
  | none => s.poisoned sheet

def State.cutRead (s : State) (k : Ckpt) (a n : Nat) : Bytes := (List.range n).map fun i => s.cutByte k (a + i)

/-- The FP32 values of a source from an element on. -/
def State.cutValues (s : State) (k : Ckpt) (a first n : Nat) : List FVal :=
  (List.range n).map fun i => decodeElem fFP32 (unle (s.cutRead k (a + 4 * (first + i)) 4))

/-- The source range that a sheet of an item reads, at an offset within the item. -/
def CkItem.source (i : CkItem) (o : Nat) : Nat × Nat :=
  let w := if i.fmt = 0 then 1 else if i.fmt = 1 then 2 else if i.fmt = 6 then 4 else 128
  (i.src + w * o, Nat.min (w * 1024) (i.srcLen - w * o))

/-- The image bytes of a sheet of an item (R420): moments narrowed with FSAT = 1. -/
def State.itemSheet (s : State) (k : Ckpt) (i : CkItem) (o : Nat) : Bytes :=
  let r := i.source o
  let vs := s.cutValues k r.1 0 (r.2 / 4)
  match i.fmt with
  | 0 => s.cutRead k r.1 r.2
  | 1 => vs.flatMap fun v => le 2 (encodeElem fBF16 (narrow fBF16 true v).1)
  | 6 => (blocks32 vs).flatMap fun b => (mxEncode 6 b).2.1.flatMap (le 1)
  | _ => (blocks32 vs).flatMap fun b => le 1 (mxEncode 6 b).1

/-- Copies the next sheet of the image; poison of the source goes with it. -/
def State.copySheet (s : State) (k : Ckpt) : Ckpt × State :=
  let o := k.frontier
  let item := k.plan.find? fun i => decide (i.off ≤ o) && decide (o < i.off + i.len)
  let data := if o < 0x2000 then sub k.head o 1024 else match item with
    | some i => sub (s.itemSheet k i (o - i.off)) 0 1024
    | none => List.replicate 1024 0
  let bad := match item with
    | some i => (sheetRange (i.source (o - i.off)).1 (i.source (o - i.off)).2).find? (s.cutPoison k)
    | none => none
  let k := { k with frontier := o + 1024, poisonSrc := if k.poisonSrc.isSome then k.poisonSrc else bad.map (· * 1024) }
  (k, s.memWriteP (s.copyArea + o) data fun _ => bad.isSome)

/-- The source bytes that an item's copy has read up to an image offset; the scales of an MXFP8 item are made as its elements are read. -/
def CkItem.readTo (i : CkItem) (o : Nat) : Nat :=
  if i.fmt = 7 || decide (o ≤ i.off) then 0 else Nat.min i.srcLen ((i.source (o - i.off)).1 - i.src)

/-- The next sheet's source bytes lie within CKP_FAST_RATE, in GB/s, over the time since the cut (R428). -/
def State.mayCopy (s : State) (k : Ckpt) : Bool :=
  decide ((k.plan.map fun i => i.readTo (k.frontier + 1024)).sum ≤ imgFastRate s.act * (s.clock - k.cutAt))

/-- Copies sheets as long as the rate allows the next one. -/
def copySheets : Nat → Ckpt → State → Ckpt × State
  | 0, k, s => (k, s)
  | n + 1, k, s => if decide (k.imageLen ≤ k.frontier) || !s.mayCopy k then (k, s) else copySheets n (s.copySheet k).1 (s.copySheet k).2

/-- Multiplication by 2 in GF(2^8) with the polynomial 0x11D (R434). -/
def gfTwice (b : Byte) : Byte := if b.getLsbD 7 then (b <<< 1) ^^^ 0x1D#8 else b <<< 1

def gf8Mul : Nat → Byte → Byte → Byte
  | 0, _, _ => 0
  | i + 1, a, b => (if b.getLsbD 0 then a else 0) ^^^ gf8Mul i (gfTwice a) (b >>> 1)

def gfMul8 (a b : Byte) : Byte := gf8Mul 8 a b
/-- 2 to a power. -/
def gfPow : Nat → Byte
  | 0 => 1
  | n + 1 => gfTwice (gfPow n)
/-- The inverse of a value other than 0: the one whose product with it is 1. -/
def gfInv (a : Byte) : Byte := (((List.range 256).map fun i => BitVec.ofNat 8 i).find? fun b => gfMul8 a b = 1).getD 0

def xorBytes (a b : Bytes) : Bytes := List.zipWith (· ^^^ ·) a b

/-- Data piece j of an image read from an area. -/
def State.dataPiece (s : State) (k : Ckpt) (j : Nat) : Bytes :=
  let z := s.pieceSize k.imageLen
  sub (s.memRead (s.copyArea + j * z) (Nat.min z (k.imageLen - j * z))) 0 z

/-- P of the data pieces. -/
def parityP (z : Nat) (ds : List Bytes) : Bytes := ds.foldl xorBytes (List.replicate z 0)
/-- Q of the data pieces, the first weighted by 1. -/
def parityQ (z : Nat) (ds : List Bytes) : Bytes := ds.foldr (fun d q => xorBytes d (q.map gfTwice)) (List.replicate z 0)

/-- Piece j of this device's image (R434). -/
def State.ownPiece (s : State) (k : Ckpt) (j : Nat) : Bytes :=
  let d := imgCkpData s.act
  let z := s.pieceSize k.imageLen
  let all := (List.range d).map (s.dataPiece k)
  if j < d then s.dataPiece k j else if j = d then parityP z all else parityQ z all

/-- The copy is complete: a poisoned source fails the checkpoint, else the drain begins with piece 0, which is written here (R433 R435). -/
def State.copyDone (s : State) (k : Ckpt) : State :=
  match k.poisonSrc with
  | some a => (s.nativeE 3 0x0601 k.ctx 0xFF 0 (k.id % 4294967296) a 0).ckFail k 2
  | none =>
    (s.setLive { k with st := .draining, acked := [0] }).memWrite (s.pieceAt k.slot (imgGroupIndex s.act)) (s.ownPiece k 0)

/-- The collated schedule is RUNNING. -/
def State.running (s : State) : Bool := (s.collated.map fun x => decide (x.state = .running)).getD false

/-- FAST_COPY (R428): the next sheets of the image, at CKP_FAST_RATE at most; while the schedule is RUNNING only within a KIND 2 window. -/
def execFastCopy (sheets : Nat) (s : State) : Res :=
  match s.liveCkpt with
  | none => ok s
  | some k =>
    if k.st ≠ .copying || (s.running && !s.bgWindow 2) then ok s
    else
      let r := copySheets sheets k s
      let s := r.2.setLive r.1
      if r.1.imageLen ≤ r.1.frontier then ok (s.copyDone r.1) else ok s

/-- HELD_WRITE (R429): the oldest held page is copied, and its write is released. The page's bytes were kept when the hold began (log entry
23). -/
def execHeldWrite (s : State) : Res :=
  match s.held with
  | [] => ok s
  | (_, t) :: rest =>
    let s' := { s with held := rest }
    match s.liveCkpt with
    | some k => ok (s'.setLive { k with heldPages := k.heldPages + 1, heldNs := k.heldNs + (s.clock - t) })
    | none => ok s'

/-! ## The drain and the commit (R435 R436) -/

/-- The hashes of this device's pieces. -/
def State.ownHashes (s : State) (k : Ckpt) : List Bytes := (List.range (imgGroupSize s.act)).map fun j => sha512t256 (s.ownPiece k j)

/-- The commit record (Table 14-4), from slot offset 0x0400. -/
def State.commitRecord (s : State) (k : Ckpt) : Bytes :=
  let n := imgGroupSize s.act
  let of := fun (f : Nat → Bytes) (w : Nat) => sub ((List.range n).flatMap f) 0 w
  le 8 k.setId.toNat ++ le 8 k.id ++ le 8 k.cut ++ le 1 n ++ le 1 (imgCkpData s.act) ++ le 1 (imgCkpParity s.act) ++ le 1 k.narrow ++
    le 8 s.share ++ le 28 0 ++ of (fun g => le 8 (s.member k g).1.toNat) 128 ++ of (fun g => le 8 (s.member k g).2) 128 ++
    of (fun g => le 8 (s.pieceSize (s.member k g).2)) 128 ++ le 64 0 ++
    (List.range n).flatMap fun g => ((k.hashes.find? fun h => h.1 = g).map fun h => h.2.flatten).getD []

/-- The seal of a record: one sheet. -/
def sealBytes (id : Nat) (r : Bytes) : Bytes :=
  sub (le 4 ckFormat ++ le 4 0 ++ le 8 id ++ le 8 r.length ++ sha512t256 r) 0 1024

/-- A device in COMMITTING that holds every hash list writes the record, then the seal (R436). -/
def State.tryCommit (s : State) : State :=
  match s.liveCkpt with
  | none => s
  | some k =>
    if k.st ≠ .committing || !(List.range (imgGroupSize s.act)).all fun g => k.hashes.any fun h => h.1 = g then s
    else
      let r := s.commitRecord k
      let s := (s.memWrite (s.slotBase k.slot + 0x400) r).memWrite (s.slotBase k.slot) (sealBytes k.id r)
      s.setLive { k with st := .committed, prot := [], saved := [] }

/-- A piece of this device's image is acknowledged; with the last one the hash list goes to every member. -/
def State.pieceAcked (s : State) (k : Ckpt) (j : Nat) : State :=
  let k := { k with acked := k.acked ++ [j] }
  if (List.range (imgGroupSize s.act)).all fun i => k.acked.contains i then
    let me := imgGroupIndex s.act
    let hs := s.ownHashes k
    ((s.setLive { k with st := .committing, hashes := k.hashes ++ [(me, hs)] }).ckTell (listBytes me k.id hs)).tryCommit
  else s.setLive k

/-- The KIND 3 window of another member is open in the current step, as far as this device knows it (R435). -/
def State.peerWindow (s : State) (k : Ckpt) (g : Nat) : Bool :=
  match s.collated, k.wins.find? fun w => w.1 = g with
  | some x, some w => decide (x.stepStart x.step + w.2.1 ≤ s.now) && decide (s.now < x.stepStart x.step + w.2.2)
  | _, _ => true

/-- Sends a piece in the parts of a COPY of its sheets (07_movement Table 07-4). -/
def State.sendPiece (s : State) (res : W64) (piece : Nat) (d : Bytes) : State :=
  (Machine.runsOf (d.length / 1024)).foldl (fun s p => s.emit (.drain res piece p.1 (sub d (1024 * p.2.1) (1024 * p.2.2)))) s

/-- DRAIN (R435): a piece goes to its holder within the KIND 3 windows while the schedule is RUNNING; a piece whose hash differs or that is
poisoned is sent again, up to 3 times. -/
def execDrain (piece : Nat) (ack : PieceAck) (s : State) : Res :=
  match s.liveCkpt with
  | none => ok s
  | some k =>
    let g := (imgGroupIndex s.act + piece) % imgGroupSize s.act
    let res := imgCkpRes s.act g
    if k.st ≠ .draining || piece = 0 || decide (imgGroupSize s.act ≤ piece) || k.acked.contains piece || (s.running && !(s.bgWindow 3 && s.peerWindow k g)) ||
        !s.routeOpen res then ok s
    else
      let d := s.ownPiece k piece
      let s := (s.sendPiece res piece d).emit (.ckpPeer g (pieceBytes (imgGroupIndex s.act) piece k.id (sha512t256 d)))
      match ack with
      | .interrupted => ok s
      | .matching => ok (s.pieceAcked k piece)
      | _ =>
        let r := AMap.get zeroN k.resends piece
        if 3 ≤ r then ok (s.ckFail k 5) else ok (s.setLive { k with resends := AMap.set zeroN k.resends piece (r + 1) })

/-! ## CKP_PEER (R425 R435-R438 R534) -/

/-- CKP_PEER with an OP; another OP is another row's. -/
def State.ckpOp (s : State) (n : SlotId) (op : Nat) (f : Bytes → State) : Res :=
  s.serlothMem n 0x0905 fun y => if fld y.req 0 1 = op then f y.req else s

/-- A commit record, as read from a slot or received (Table 14-4). -/
structure OldRec where
  bytes : Bytes
  setId : Nat
  id : Nat
  cut : Nat
  n : Nat
  d : Nat
  p : Nat
  share : Nat
  deriving DecidableEq, Repr

def OldRec.parse (b : Bytes) : OldRec :=
  { bytes := b, setId := fld b 0 8, id := fld b 8 8, cut := fld b 16 8, n := fld b 24 1, d := fld b 25 1, p := fld b 26 1, share := fld b 28 8 }

def OldRec.dev (r : OldRec) (g : Nat) : Nat := fld r.bytes (0x40 + 8 * g) 8
def OldRec.len (r : OldRec) (g : Nat) : Nat := fld r.bytes (0xC0 + 8 * g) 8
def OldRec.piece (r : OldRec) (g : Nat) : Nat := fld r.bytes (0x140 + 8 * g) 8
def OldRec.hash (r : OldRec) (g j : Nat) : Bytes := sub r.bytes (0x200 + 32 * (r.n * g + j)) 32

/-- This device's pieces of a slot are those of a record, and none is poisoned (R437). -/
def State.piecesMatch (s : State) (slot : Nat) (r : OldRec) : Bool :=
  r.n = imgGroupSize s.act && r.share = s.share && (List.range r.n).all fun d =>
    let j := (imgGroupIndex s.act + r.n - d) % r.n
    let a := s.pieceAt slot d
    !s.rangePoisoned a (r.piece d) && sha512t256 (s.memRead a (r.piece d)) = r.hash d j

/-- A member whose slot for the newest committed CKPT_ID is not valid asks the initiator for the record, and writes it with its seal where
its pieces match (R437). The candidate of the begin is one above that CKPT_ID. -/
def State.adoptRecord (s : State) (init id : Nat) (record : Option Bytes) : State :=
  let k := id % 2
  if id = 0 || (s.slotValid k && s.slotId k = id) then s
  else
    let s := s.emit (.ckpAsk init id)
    match record with
    | none => s
    | some b =>
      if (OldRec.parse b).id = id && decide (b.length ≤ 0xFC00) && s.piecesMatch k (OldRec.parse b) then
        (s.memWrite (s.slotBase k + 0x400) b).memWrite (s.slotBase k) (sealBytes id b)
      else s

/-- A member accepts a begin: its own begun checkpoint gives way to one whose initiator has the lower index (R425). -/
def State.joinBegin (s : State) (x : Sched) (b : Bytes) : State :=
  let init := fld b 1 1
  let id := fld b 8 8
  let k := Ckpt.new id (id % 2) (fld b 2 1) (fld b 16 8) init x.ctx x.image.setId false s.ctxs[ctxId x.ctx].carry [] [(init, fld b 24 8, fld b 32 8)]
  ({ s with ckpts := k :: s.ckpts.filter (fun y => !y.live), lastCkpt := some s.clock }).cutCheck

/-- CKP_PEER OP 1 (R425). An OP outside 1 to 6 is malformed (R534). The payload names no SET_ID to compare (log entry 82).
The operand is the commit record that the initiator pushes in answer to OP 4 (R437). -/
def execCkpPeerBegin (n : SlotId) (s : State) (record : Option Bytes := none) : Res :=
  s.serlothMem n 0x0905 fun y =>
    let b := y.req
    let op := fld b 0 1
    if op = 0 || decide (6 < op) then s.refuse n stMalformed 0
    else if op ≠ 1 then s
    else if decide (2 < fld b 2 1) then s.refuse n stMalformed 0
    else
      let held := match s.liveCkpt with
        | some k => !(k.st = .begun && k.id = fld b 8 8 && decide (fld b 1 1 ≤ k.init))
        | none => false
      match s.collated with
      | none => s.refuse n stState 0
      | some x =>
        if held || (s.lastStep x).isNone then s.refuse n stState 0
        else
          let hi := s.highestId
          let t := (s.joinBegin x b).adoptRecord (fld b 1 1) (fld b 8 8 - 1) record
          t.complete n stOk 0 (le 8 Config.devId.toNat ++ le 8 hi ++ le 8 (s.imageLen x (fld b 2 1) s.ctxs[ctxId x.ctx].carry) ++
            le 8 x.drainWindow.1 ++ le 8 x.drainWindow.2 ++ le 1 1)

/-- A checkpoint known on this device that has not failed. -/
def State.knownCkpt (s : State) (id : Nat) : Option Ckpt := s.ckpts.find? fun k => k.id = id && (k.live || k.st = .committed)

/-- CKP_PEER OP 2 (R435): the piece is hashed as it stands in the slot. -/
def execCkpPeerPieceDone (n : SlotId) (s : State) : Res :=
  s.ckpOp n 2 fun b =>
    match s.knownCkpt (fld b 8 8) with
    | none => s.refuse n stState 0
    | some k =>
      let d := fld b 1 1
      if imgGroupSize s.act ≤ d then s.refuse n stState 0
      else
        let a := s.pieceAt k.slot d
        let z := s.pieceSize (s.member k d).2
        s.complete n stOk 0 (sha512t256 (s.memRead a z) ++ le 1 (bnat (s.rangePoisoned a z)))

/-- CKP_PEER OP 3 (R436): LEN is 16 + 32 x N. -/
def execCkpPeerHashList (n : SlotId) (s : State) : Res :=
  s.ckpOp n 3 fun b =>
    let m := fld b 2 1
    if b.length ≠ 16 + 32 * m || m ≠ imgGroupSize s.act then s.refuse n stMalformed 0
    else match s.liveOf (fld b 8 8) with
      | none => s.refuse n stState 0
      | some k =>
        if k.hashes.any fun h => h.1 = fld b 1 1 then s.refuse n stState 0
        else
          let hs := (List.range m).map fun j => sub b (16 + 32 * j) 32
          let k := { k with hashes := k.hashes ++ [(fld b 1 1, hs)] }
          ((s.setLive k).complete n stOk 0 (le 2 k.hashes.length)).tryCommit

/-- CKP_PEER OP 4 (R437): the commit record of a valid slot is pushed to the asking device. -/
def execCkpPeerRecord (n : SlotId) (s : State) : Res :=
  s.ckpOp n 4 fun b =>
    let sel := fld b 1 1
    let slot := if sel = 1 then fld b 2 1 else ((List.range 2).find? fun k => s.slotValid k && s.slotId k = fld b 8 8).getD 2
    if 1 < sel then s.refuse n stMalformed 0
    else if 1 < slot || !s.slotValid slot then s.refuse n stState 0
    else
      let len := s.memNat (s.slotBase slot + 0x10) 8
      let res := BitVec.ofNat 64 (fld b 16 8)
      if !s.routeOpen res then s.refuse n stHardware 0
      else (s.emit (.push res (fld b 24 8) (s.memRead (s.slotBase slot + 0x400) len))).complete n stOk 0 (le 8 len)

/-- CKP_PEER OP 5 (R437 R442): bytes of a stored piece whose hash is the expected one. The operand is the mask of parts that are not
acknowledged. -/
def execCkpPeerFetch (n : SlotId) (failed : W64) (s : State) : Res :=
  s.ckpOp n 5 fun b =>
    let d := fld b 1 1
    let off := fld b 16 8
    let len := fld b 24 8
    let res := BitVec.ofNat 64 (fld b 64 8)
    match (List.range 2).find? fun k => s.slotValid k && s.slotId k = fld b 8 8 with
    | none => s.refuse n stState 0
    | some k =>
      let z := s.memNat (s.slotBase k + 0x540 + 8 * d) 8
      let a := s.pieceAt k d
      if decide (15 < d) || s.rangePoisoned a z || decide (z < off + len) || sha512t256 (s.memRead a z) ≠ sub b 32 32 then s.refuse n stState 0
      else if len = 0 then s.complete n stEmpty 0 (le 8 0)
      else
        let up := s.routeOpen res
        let parts := hostParts len
        let s := if up then parts.foldl (fun s p => s.emit (.push res (fld b 72 8 + p.2.1) (s.memRead (a + off + p.2.1) p.2.2))) s else s
        let good := parts.filter fun p => up && !bit failed.toNat p.1
        s.complete n (Machine.copyStatus good.length parts.length false) 0 (le 8 (good.foldl (fun m p => m + 2 ^ p.1) 0))

/-- CKP_PEER OP 6 (R438): never refused. -/
def execCkpPeerAbort (n : SlotId) (s : State) : Res :=
  s.ckpOp n 6 fun b =>
    let s := match s.liveOf (fld b 8 8) with
      | some k => s.ckFail k 4
      | none => s
    s.complete n stOk 0 []

/-! ## Loading (R441-R444) -/

/-- DEV_ID of the holders in a CKP_LOAD payload; 0 for an absent one. -/
def holderDev (b : Bytes) (g : Nat) : Nat := fld b (0x10 + 16 * g) 8

/-- The slot of this device that a CKP_LOAD names, where it is a holder with a valid slot. -/
def State.loadSlot (s : State) (b : Bytes) : Option Nat :=
  let holder := (List.range (fld b 3 1)).any fun g => holderDev b g = Config.devId.toNat
  let k := if fld b 0 1 = 0xFF then s.newestSlot else some (fld b 0 1)
  match k with
  | some k => if holder && s.slotValid k then some k else none
  | none => none

/-- A piece of an old image: this device's own stored one, or what its holder pushes; none where it is erased. -/
def State.oldPiece (s : State) (b : Bytes) (r : OldRec) (slot : Option Nat) (pieces : List PieceAnswer) (d j : Nat) : Option Bytes :=
  let h := (d + j) % r.n
  if holderDev b h = 0 then none
  else if holderDev b h = Config.devId.toNat then
    match slot with
    | some k =>
      let a := s.slotBase k + 65536 + d * r.share
      let v := s.memRead a (r.piece d)
      if s.rangePoisoned a (r.piece d) || sha512t256 v ≠ r.hash d j then none else some v
    | none => none
  else match pieces.find? fun p => p.src = d && p.piece = j with
    | some p => p.data.filter fun v => v.length = r.piece d
    | none => none

/-- The sum of the present data pieces under P, and under Q. -/
def partialPQ (z : Nat) (ds : List (Option Bytes)) : Bytes × Bytes :=
  let fill := ds.map fun d => d.getD (List.replicate z 0)
  (parityP z fill, parityQ z fill)

/-- The data pieces rebuilt from the rest where at most P pieces of a source are erased (R434 R442). -/
def rebuild (z : Nat) (ds : List (Option Bytes)) (p q : Option Bytes) : Option (List Bytes) :=
  let lost := (List.range ds.length).filter fun i => (ds.getD i none).isNone
  let fill := ds.map fun d => d.getD (List.replicate z 0)
  let sum := partialPQ z ds
  match lost, p, q with
  | [], _, _ => some fill
  | [a], some p, _ => some (fill.set a (xorBytes p sum.1))
  | [a], none, some q => some (fill.set a ((xorBytes q sum.2).map (gfMul8 (gfInv (gfPow a)))))
  | [a, c], some p, some q =>
    let x := xorBytes p sum.1
    let y := xorBytes q sum.2
    let k := gfInv (gfPow a ^^^ gfPow c)
    let da := List.zipWith (fun u v => gfMul8 k (gfMul8 (gfPow c) u ^^^ v)) x y
    some ((fill.set a da).set c (xorBytes x da))
  | _, _, _ => none

/-- An old image: its header and directory, and the whole of it where no more than P pieces are erased; and how many pieces are. -/
structure OldImage where
  head : Option Bytes
  body : Option Bytes
  erased : Nat
  deriving DecidableEq, Repr

def State.oldImage (s : State) (b : Bytes) (r : OldRec) (slot : Option Nat) (pieces : List PieceAnswer) (d : Nat) : OldImage :=
  let get := s.oldPiece b r slot pieces d
  let ds := (List.range r.d).map get
  let pq := (List.range r.p).map fun i => get (r.d + i)
  let body := (Machine.rebuild (r.piece d) ds (pq.getD 0 none) (pq.getD 1 none)).map fun l => l.flatten.take (r.len d)
  { head := if body.isSome then body else ds.headD none, body := body, erased := ((ds ++ pq).filter Option.isNone).length }

/-- A segment of an old image's directory (Table 14-2). -/
structure OldSeg where
  ordinal : Nat
  kind : Nat
  mfmt : Nat
  shardOff : Nat
  count : Nat
  master : Nat
  mom1 : Nat
  mom2 : Nat
  body : Option Bytes
  deriving DecidableEq, Repr

def OldImage.segs (i : OldImage) : List OldSeg :=
  match i.head with
  | none => []
  | some h =>
    (List.range (Nat.min (fld h 0x26 1) 128)).map fun k =>
      let e := sub h (0x400 + 48 * k) 48
      { ordinal := fld e 0 1, kind := fld e 1 1, mfmt := fld e 3 1, shardOff := fld e 8 8, count := fld e 16 8, master := fld e 24 8,
        mom1 := fld e 32 8, mom2 := fld e 40 8, body := i.body }

/-- A stored moment widened exactly (R420). -/
def OldSeg.moment (g : OldSeg) (off i : Nat) : FVal :=
  let b := g.body.getD []
  match g.mfmt with
  | 0 => decodeElem fFP32 (fld b (off + 4 * i) 4)
  | 1 => decodeElem fBF16 (fld b (off + 2 * i) 2)
  | _ => match scaleExp (fld b (off + sheetUp g.count + i / 32) 1) with
    | none => .nan
    | some x => FV.scale (decodeElem 6 (fld b (off + i) 1)) x

/-- What is loaded of a descriptor: first element and count within it, and the segment. -/
structure LoadRun where
  first : Nat
  count : Nat
  seg : OldSeg
  deriving DecidableEq, Repr

/-- The runs of a descriptor's elements over the segments of its ordinal, the lowest old group index first. -/
def loadRuns (u : UpdateE) : List OldSeg → List (Nat × Nat) → List LoadRun
  | [], _ => []
  | g :: gs, want =>
    (want.filterMap fun w =>
      let a := max w.1 g.shardOff
      let e := min (w.1 + w.2) (g.shardOff + g.count)
      if a < e && g.kind = u.kind then some { first := a - u.shardOff, count := e - a, seg := g } else none) ++
    loadRuns u gs (want.flatMap (cutSeg g.shardOff g.count))

/-- Writes a run into half A: the step count with the first element, the masters, the moments and the working copy (R442). A run whose
image is lost poisons its sheets. -/
def State.loadRun (s : State) (u : UpdateE) (r : LoadRun) : State :=
  let n := r.count
  let f := r.first
  let mx := isMX u.wfmt
  let lo := if mx then f / 32 * 32 else f
  let hi := if mx then min u.count (ceilDiv (f + n) 32 * 32) else f + n
  match r.seg.body with
  | none =>
    let e := elemBits u.wfmt
    let s := (s.poisonRange (u.masterA + 8 + 4 * f) (4 * n)).poisonRange (u.workA + f * e / 8) (ceilDiv ((f + n) * e) 8 - f * e / 8)
    let s := if u.hasMom1 then s.poisonRange (u.mom1A + 4 * f) (4 * n) else s
    let s := if u.hasMom2 then s.poisonRange (u.mom2A + 4 * f) (4 * n) else s
    if mx then s.poisonRange (u.workScale false + lo / 32) (ceilDiv (hi - lo) 32) else s
  | some b =>
    let i := u.shardOff + f - r.seg.shardOff
    let w := sub b (r.seg.master + 1024 + 4 * i) (4 * n)
    let s := if f = 0 then s.memWrite u.masterA (sub b r.seg.master 8 ++ w) else s.memWrite (u.masterA + 8 + 4 * f) w
    let mom := fun (s : State) (a off : Nat) => s.put32 (a + 4 * f) ((List.range n).map fun j => (r.seg.moment off (i + j), false))
    let s := if u.hasMom1 then mom s u.mom1A r.seg.mom1 else s
    let s := if u.hasMom2 then mom s u.mom2A r.seg.mom2 else s
    (s.putWork u false lo (s.elems fFP32 (u.masterA + 8) lo (hi - lo))).2

/-- The elements of a descriptor that no load has covered. -/
def State.uncovered (s : State) (d : Nat) (u : UpdateE) : List (Nat × Nat) :=
  (s.cover.filter fun c => c.1 = d).foldl (fun l c => l.flatMap (cutSeg c.2.1 c.2.2)) (if u.count = 0 then [] else [(0, u.count)])

/-- Loads a descriptor from the old images. -/
def State.loadDesc (s : State) (x : Sched) (segs : List OldSeg) (d : Nat) : State :=
  match x.image.updates[d]? with
  | none => s
  | some u =>
    let k := ordinalOf x.image d
    let runs := loadRuns u (segs.filter fun g => g.ordinal = k) [(u.shardOff, u.count)]
    let s := runs.foldl (fun s r => s.loadRun u r) s
    { s with cover := s.cover ++ runs.map fun r => (d, r.first, r.count) }

/-- FINAL: elements that no load has covered are poisoned, and the collation record names half A (R443). -/
def State.finalDesc (s : State) (x : Sched) (cut d : Nat) : State :=
  match x.image.updates[d]? with
  | none => s
  | some u =>
    let gap : OldSeg := { ordinal := 0, kind := 0, mfmt := 0, shardOff := 0, count := 0, master := 0, mom1 := 0, mom2 := 0, body := none }
    let s := (s.uncovered d u).foldl (fun s r => s.loadRun u { first := r.1, count := r.2, seg := gap }) s
    let r : CollRec := { masterA := u.masterA, halfB := false, step := cut, digest := s.digestOf u false }
    let l := s.ledger.recs.filter (fun (y : CollRec) => y.masterA ≠ u.masterA) ++ [r]
    { s with ledger.recs := l.drop (l.length - 128) }

/-- The scale table of the lowest available old image; entries beyond it have VALID = 0 (R443). -/
def State.loadScales (s : State) (x : Sched) (images : List OldImage) : State :=
  let b := (images.findSome? OldImage.body).getD []
  let old := fld b 0x28 2
  (List.range x.numTensors).foldl (fun s t =>
    if t < old then s.memWrite (x.numTable + 32 * t) (sub b (0x2000 + 32 * t) 32)
    else
      let a := x.numTable + 32 * t + 1
      s.memWrite a [s.memByte a &&& 0xFE#8]) s

/-- The monitor state and the carry extents of an old image, or a zeroed monitor state (R443). -/
def State.loadCarry (s : State) (x : Sched) (ctx : Nat) (restore : Bool) (body : Option Bytes) : State :=
  let mons := (x.image.num.map fun n => n.mons.length).getD 0
  let at_ := (x.image.num.map NumE.monAddr).getD 0
  match if restore then body else none with
  | none => if mons = 0 then s else s.memWrite at_ (List.replicate (8 * mons) 0)
  | some b =>
    let nt := fld b 0x28 2
    let nm := fld b 0x2A 2
    let s := if mons = 0 then s else s.memWrite at_ (sub (sub b (0x2000 + sheetUp (32 * nt)) (8 * nm)) 0 (8 * mons))
    let cs := (List.range (fld b 0x27 1)).map fun i => (fld b (0x100 + 16 * i) 8, fld b (0x108 + 16 * i) 8)
    let start := fld b 0x2C 8 - (cs.map fun c => sheetUp c.2).sum
    ((cs.foldl (fun (a : Nat × Nat × State) c =>
      let s := if a.2.2.mem.regions.any fun r => r.ctx = ctx && within c.1 c.2 r.base r.size then a.2.2.memWrite c.1 (sub b a.2.1 c.2)
               else a.2.2.nativeE 3 0x0602 ctx 0xFF 0 a.1 c.1 0
      (a.1 + 1, a.2.1 + sheetUp c.2, s)) (0, start, s)).2.2)

/-- The descriptors that are wholly loaded and unpoisoned. -/
def State.loadBits (s : State) (x : Sched) : List Nat :=
  (List.range x.image.updates.length).filter fun d => match x.image.updates[d]? with
    | some u => decide (s.uncovered d u = []) && !((u.regions false).any fun r => s.rangePoisoned r.1 r.2)
    | none => false

/-- Asks the holders on other devices for the pieces of every old image, piece 0 of each first (R442). -/
def State.askPieces (s : State) (b : Bytes) (r : OldRec) : State :=
  let ask := fun (s : State) (d j : Nat) =>
    let h := holderDev b ((d + j) % r.n)
    if h = 0 || h = Config.devId.toNat then s else s.emit (.ckpFetch h 5 d j)
  let s := (List.range r.n).foldl (fun s d => ask s d 0) s
  (List.range r.n).foldl (fun s d => (List.range (r.d + r.p)).foldl (fun s j => if j = 0 then s else ask s d j) s) s

/-- CKP_LOAD with its record read. -/
def State.ckpLoad (s : State) (n : SlotId) (b : Bytes) (ctx : Nat) (x : Sched) (r : OldRec) (slot : Option Nat) (pieces : List PieceAnswer) : State :=
  let images := (List.range r.n).map (s.oldImage b r slot pieces)
  let segs := images.flatMap OldImage.segs
  let s := (List.range x.image.updates.length).foldl (fun s d => s.loadDesc x segs d) s
  let final := bit (fld b 1 1) 0
  let s := if final then (List.range x.image.updates.length).foldl (fun s d => s.finalDesc x r.cut d) s else s
  let good := s.loadBits x
  let s := if final then
      { (s.loadScales x images).loadCarry x ctx (bit (fld b 1 1) 1) ((images[fld b 2 1]?).bind OldImage.body) with cover := [] }
    else s
  let st := if good.length = x.image.updates.length then stOk else if good = [] then stPoisoned else stPartial
  s.complete n st 0 (le 16 (good.foldl (fun m d => m + 2 ^ d) 0) ++ le 8 r.cut ++ le 8 r.id ++ le 2 (images.map OldImage.erased).sum ++ le 6 0)

/-- CKP_LOAD (R441-R444). The operands are the commit record that the first present holder supplies and the pieces that holders push. -/
def execCkpLoad (n : SlotId) (record : Option Bytes) (pieces : List PieceAnswer) (s : State) : Res :=
  s.serlothMem n 0x0903 fun y =>
    let b := y.req
    let m := fld b 3 1
    if m = 0 || decide (16 < m) || decide (b.length < 16 + 16 * m) || (decide (1 < fld b 0 1) && fld b 0 1 ≠ 0xFF) then s.refuse n stMalformed 0
    else match s.collated with
      | none => s.refuse n stContext 1
      | some x =>
        if x.ctx ≠ y.ctxNo || !(x.state = .loaded || x.state = .admitted) || s.ckptLive then s.refuse n stContext 1
        else
          let slot := s.loadSlot b
          let asked := (List.range m).findSome? fun g => if holderDev b g ≠ 0 && holderDev b g ≠ Config.devId.toNat then some (holderDev b g) else none
          let s := match slot, asked with
            | none, some h => s.emit (.ckpFetch h 4 0 0)
            | _, _ => s
          let rec_ := match slot with
            | some k => some (s.memRead (s.slotBase k + 0x400) (s.memNat (s.slotBase k + 0x10) 8))
            | none => record
          match rec_ with
          | none => s.refuse n stVersion 1
          | some rb =>
            let r := OldRec.parse rb
            if fld b 8 8 ≠ 0 && r.id ≠ fld b 8 8 then s.refuse n stVersion 2
            else if r.n ≠ m || (List.range m).any fun g => holderDev b g ≠ 0 && holderDev b g ≠ r.dev g then s.refuse n stVersion 3
            else (s.askPieces b r).ckpLoad n b y.ctxNo x r slot pieces

end Sys2Proof.Machine
end

