-- ==== Sys2Proof/Machine/Thermal.lean ====
section
/-! DEFINITION. The Guard's sensors and what they drive: the operating point and its voltage, the throttle cap, the thermal stall and the
coolant demand (01_step R20-R23, 09_memory R266-R269, 16_guard R497-R500). Temperatures are in 0.25 degree units. -/

namespace Sys2Proof.Machine

/-! ## Readings -/

/-- A temperature is at or below a limit; sensors that have all failed limit nothing (log entry 87). -/
def atMost (t : Option Int) (v : Int) : Bool := match t with | some x => decide (x ≤ v) | none => true
def atLeast (t : Option Int) (v : Int) : Bool := match t with | some x => decide (v ≤ x) | none => false

/-- The design power of the mode (00_scope Table 00-1). -/
def State.designPower (s : State) : Nat := if s.frw.fullLeaf then 2050 else 1600

/-! ## Operating points (Table 01-2 R497) -/

/-- The entry conditions of a point, each temperature with a margin. The emergency point needs none. -/
def State.pointHolds (s : State) (p : OpPoint) (margin : Int) : Bool :=
  let g := s.guard
  let w := g.sensors.powerW
  match p with
  | .peak => atMost s.tJ (340 - margin) && atMost s.tS (320 - margin) && decide (w < s.designPower) && g.limits.ceil = 0 &&
      decide (w < g.limits.plim) && !g.supply.supplyFault
  | .nominal => atMost s.tJ (380 - margin) && atMost s.tS (340 - margin) && decide (g.limits.ceil ≤ 1) && !g.supply.supplyFault
  | .floor => atMost s.tJ (420 - margin) && atMost s.tS (380 - margin) && !g.supply.supplyFault
  | .emergency => true

/-- The emergency point is also entered from the true readings where an injection offsets them (R475). -/
def State.trulyHot (s : State) : Bool := !atMost s.guard.tj 420 || !atMost s.guard.ts 380

/-- The supply of a point in mV (Table 01-2); in the emergency point it falls to 0.55 V (R499). -/
def pointVolts : OpPoint → Nat
  | .peak => 850 | .nominal => 750 | .floor => 700 | .emergency => 550

/-- The place of a point, lowest first. -/
def pointRank : OpPoint → Nat
  | .emergency => 0 | .floor => 1 | .nominal => 2 | .peak => 3

/-- T_j and T_s as record 0x0701 holds them. -/
def State.tempAux (s : State) : Nat := temp16 s.tJ + 65536 * temp16 s.tS

/-- Moves to a point: its supply is the new target, and entering or leaving the emergency point is recorded and reported (R22 R23). The
deadlines of phases in progress at the entry are abandoned. -/
def State.setPoint (s : State) (p : OpPoint) : State :=
  let old := s.guard.supply.opPoint
  let s := { s with guard := { s.guard with supply := { s.guard.supply with opPoint := p, vtarget := pointVolts p } } }
  if p = .emergency && old ≠ .emergency then
    (s.noteCause 5 |>.native 2 0x0701 1 0 s.tempAux).emit (.report 0x0701 1)
  else if old = .emergency && p ≠ .emergency then
    ({ s with guard := { s.guard with supply := { s.guard.supply with leftAt := s.now } } }).native 2 0x0701 0 0 s.tempAux
  else s

/-- The highest point at or below a point whose conditions hold. -/
def State.pointBelow (s : State) (p : OpPoint) : OpPoint :=
  let can := fun (q : OpPoint) => decide (pointRank q ≤ pointRank p) && s.pointHolds q 0
  if s.trulyHot then .emergency
  else if can .peak then .peak else if can .nominal then .nominal else if can .floor then .floor else .emergency

/-- Since when the conditions of a point have held with the margin of 3 degrees (R20). -/
def State.sinceOf (s : State) (p : OpPoint) (old : Option Nat) : Option Nat :=
  if s.pointHolds p 12 && !(p = .floor && s.trulyHot) then some (old.getD s.clock) else none

/-- Whether the stall limits are met at 0.55 V in the emergency point, and since when (R499). -/
def State.hotNow (s : State) : Option Nat :=
  let g := s.guard.supply
  if g.opPoint = .emergency && g.vcomp = 550 && (atLeast s.tJ 460 || atLeast s.tS 400) then some (g.hotSince.getD s.clock) else none

/-- The thermal stall ends: the time spent in it counts towards no timeout (R499). -/
def State.endStall (s : State) : State :=
  let d := s.clock - s.guard.supply.stallSince
  let slow := fun (e : Engine) => e.entries.map fun (t : Entry) => { t with limit := t.limit + d }
  let engines := s.engines.map fun (e : Engine) => { e with entries := slow e }
  let scheds : List Sched := s.scheds.map fun (x : Sched) => { x with bar := { x.bar with roundStart := x.bar.roundStart + d } }
  { s with
    engines := engines, scheds := scheds
    binder := { s.binder with lastAlive := s.binder.lastAlive + d }
    guard := { s.guard with supply := { s.guard.supply with stall := false, hotSince := none } } }

/-- What a new reading, limit or fault does at once: a point whose conditions fail is left, the times of the higher points' conditions go
on or restart, and a stall ends where the floor conditions hold. Without rails there is no point to choose. -/
def State.settlePoint (s : State) : State :=
  if !s.guard.powered || s.guard.cutoff || s.guard.overvolt || s.guard.devState = .removed then s
  else
    let p := s.pointBelow s.guard.supply.opPoint
    let s := if p = s.guard.supply.opPoint then s else s.setPoint p
    let g := s.guard.supply
    let s := { s with guard := { s.guard with supply := { g with
      peakSince := s.sinceOf .peak g.peakSince, nominalSince := s.sinceOf .nominal g.nominalSince, floorSince := s.sinceOf .floor g.floorSince
      hotSince := s.hotNow } } }
    if s.guard.supply.stall && s.guard.refLost.isNone && s.pointHolds .floor 0 && !s.trulyHot then s.endStall else s

/-- Conditions have held for 10 ms. -/
def State.ripe (s : State) (t : Option Nat) : Bool := match t with | some t => decide (t + 10000000 ≤ s.clock) | none => false

/-- OPERATING_POINT_RETURN (R20): to the highest point whose conditions have held with the margin for 10 ms; from the emergency point to the
floor point (R23). -/
def execOperatingPointReturn (s : State) : Res :=
  let s := s.settlePoint
  let g := s.guard.supply
  let r := pointRank g.opPoint
  if !s.guard.powered || s.guard.cutoff || s.guard.overvolt || s.guard.devState = .removed then ok s
  else if r = 0 then ok (if s.ripe g.floorSince then s.setPoint .floor else s)
  else if s.ripe g.peakSince && decide (r < 3) then ok (s.setPoint .peak)
  else if s.ripe g.nominalSince && decide (r < 2) then ok (s.setPoint .nominal)
  else ok s

/-- VOLTAGE_STEP (R22): one step of 25 mV towards the point's supply. -/
def execVoltageStep (s : State) : Res :=
  let g := s.guard.supply
  let v := if g.vcomp < g.vtarget then min g.vtarget (g.vcomp + 25) else if g.vtarget < g.vcomp then max g.vtarget (g.vcomp - 25) else g.vcomp
  let s := { s with guard := { s.guard with supply := { g with vcomp := v } } }
  ok { s with guard := { s.guard with supply := { s.guard.supply with hotSince := s.hotNow } } }

/-- THERMAL_STALL (R499). -/
def execThermalStall (s : State) : Res :=
  let g := s.guard.supply
  if s.guard.powered && !g.stall && s.hotNow.isSome && s.ripe g.hotSince then
    ok { s with guard := { s.guard with supply := { g with stall := true, stallSince := s.clock } } }
  else ok s

/-! ## The throttle cap (R266-R269) -/

/-- The band cap of Table 09-6, in 64ths; none above 95 degrees. -/
def bandCap (t : Option Int) : Option Nat :=
  if atMost t 340 then some 64 else if atMost t 352 then some 56 else if atMost t 368 then some 48 else if atMost t 380 then some 40 else none

/-- The lower bound of the band that a cap belongs to. -/
def capBound (cap : Nat) : Int := if cap < 40 then 380 else if cap < 48 then 368 else if cap < 56 then 352 else 340

/-- Since when T_s has stayed 2 degrees below the band's lower bound. -/
def State.capCool (s : State) (cap : Nat) (old : Option Nat) : Option Nat :=
  if cap < 64 && atMost s.tS (capBound cap - 8) then some (old.getD s.clock) else none

/-- What a report of T_s does to the cap: a hotter band lowers it at once; above 95 degrees it starts from 40/64. Under the compatibility
policy there is none (R269). -/
def State.settleCap (s : State) : State :=
  let g := s.guard.supply
  let g' : Supply :=
    if imgCompat s.act then { g with cap := 64, capSince := none, capHotSince := none }
    else match bandCap s.tS with
      | none => if g.capHotSince.isSome then g else { g with cap := 40, capSince := none, capHotSince := some s.clock }
      | some b =>
        let c := min g.cap b
        { g with cap := c, capHotSince := none, capSince := s.capCool c (if c < g.cap then none else g.capSince) }
  { s with guard := { s.guard with supply := g' } }

/-- The admission ceiling of a tier, 0 near and 1 far (R267): the largest ceiling among the active phases of admitted schedules. -/
def State.capCeiling (s : State) (far : Bool) : Nat :=
  ((s.scheds.filter Sched.active).flatMap fun x => (x.runs.filter PhaseRun.inProgress).map fun r =>
    let c := x.ceilings.getD r.phase (0, 0)
    if far then c.2 else c.1).foldl Nat.max 0

/-- The cap that the controllers apply to a tier (Table 09-6): in the emergency point the admission ceiling does not apply. -/
def State.capApplied (s : State) (far : Bool) : Nat :=
  if s.guard.supply.opPoint = .emergency then s.guard.supply.cap else Nat.max s.guard.supply.cap (s.capCeiling far)

/-- STACK_SENSOR_REPORT (R266): the DRAM-layer sensors' readings. -/
def execStackSensorReport (readings : List (Option Int)) (s : State) : Res :=
  if !s.guard.powered || readings.length ≠ 40 then ok s
  else
    let s := { s with guard := { s.guard with sensors := { s.guard.sensors with dram := readings } } }
    ok s.settleCap.settlePoint

/-- THROTTLE_BAND_RAISE (R266): T_s has stayed 2 degrees below the band for 1 ms, and the cap rises one band. -/
def execThrottleBandRaise (s : State) : Res :=
  let g := s.guard.supply
  match g.capSince with
  | some t =>
    if t + 1000000 ≤ s.clock && g.cap < 64 then
      let c := if g.cap < 40 then 40 else g.cap + 8
      ok { s with guard := { s.guard with supply := { g with cap := c, capSince := s.capCool c none } } }
    else ok s
  | none => ok s

/-- THROTTLE_STEP_DOWN (R266): T_s has stayed above 95 degrees for another 1 ms, and the cap falls by 8/64, to no less than 16/64. -/
def execThrottleStepDown (s : State) : Res :=
  let g := s.guard.supply
  match g.capHotSince with
  | some t =>
    if t + 1000000 ≤ s.clock then ok { s with guard := { s.guard with supply := { g with cap := max 16 (g.cap - 8), capHotSince := some s.clock } } }
    else ok s
  | none => ok s

/-! ## Junction reports and the coolant (R497 R500) -/

/-- At most one such record per 10 s. -/
def State.mayRecord (s : State) (last : Option Nat) : Bool := match last with | some t => decide (t + 10000000000 ≤ s.clock) | none => true

/-- Input power above PLIM at the nominal or floor point (R497). -/
def State.powerRecord (s : State) : State :=
  let g := s.guard
  if g.limits.plim < g.sensors.powerW && (g.supply.opPoint = .nominal || g.supply.opPoint = .floor) && s.mayRecord g.supply.lastPlimRec then
    ({ s with guard := { g with supply := { g.supply with lastPlimRec := some s.clock } } }).native 2 0x0703 (opCode g.supply.opPoint) 0
      (g.sensors.powerW % 65536 + 65536 * g.limits.plim)
  else s

/-- The inlet warning (R500). -/
def State.inletRecord (s : State) : State :=
  let g := s.guard
  let t := g.sensors.inlet.map (· + s.sensorOffset 56)
  let warm := atLeast t 181
  let s := { s with guard := { g with supply := { g.supply with inletWarn := warm } } }
  if warm && s.mayRecord g.supply.lastInletRec then
    ({ s with guard := { s.guard with supply := { s.guard.supply with lastInletRec := some s.clock } } }).native 2 0x0704 0 0 (temp16 t)
  else s

/-- JUNCTION_SENSOR_REPORT (R20 R482 R497 R500). An input of 40 V or more ends a supply fault (log entry 88). -/
def execJunctionSensorReport (r : JReport) (s : State) : Res :=
  if !s.guard.powered || r.junction.length ≠ 16 then ok s
  else
    let g := s.guard
    let s := { s with guard := { g with
      sensors := { g.sensors with junction := r.junction, inlet := r.inlet, outlet := r.outlet, powerW := r.powerW, vin10mV := r.vin10mV }
      supply := { g.supply with supplyFault := g.supply.supplyFault && decide (r.vin10mV < 4000) } } }
    ok s.settlePoint.powerRecord.inletRecord

/-- D of R500 for a power, before the limits on its fall: the ceilings of 25 + 75 x for each of the three shares. -/
def demandOf (p design : Nat) (tj ts : Option Int) (least : Nat) : Nat :=
  let a : Int := ((25 * design + 75 * p + design - 1) / design : Nat)
  let b := match ts with | some q => 25 + (3 * q - 720 + 3) / 4 | none => 0
  let c := match tj with | some q => 25 + (3 * q - 840 + 3) / 4 | none => 0
  min 100 (max least (max a (max b c)).toNat)

/-- COOLANT_DEMAND (R500): every 10 ms, from the mean input power of those 10 ms. The demand falls by no more than 5 points per second. -/
def execCoolantDemand (powerW : Nat) (s : State) : Res :=
  let g := s.guard
  if !g.powered then ok s
  else
    let d := if g.supply.opPoint = .emergency then 100 else demandOf powerW s.designPower s.tJ s.tS g.limits.demandMin
    let old := g.supply.demand
    let fall := min (old - d) ((s.clock - g.supply.demandAt) / 200000000)
    let su := if old ≤ d then { g.supply with demand := d, demandAt := s.clock }
              else { g.supply with demand := old - fall, demandAt := g.supply.demandAt + 200000000 * fall }
    ok { s with guard := { g with supply := su } }

/-- ALERT_N is asserted (17_physical R522). -/
def State.alert (s : State) : Bool := s.guard.devState ≠ .ready || s.guard.supply.opPoint = .emergency || s.guard.supply.stall

end Sys2Proof.Machine
end

