-- ==== Sys2Proof/Machine/Guard.lean ====
section
/-! DEFINITION. Guard requests: their sources and classes, the mailbox, the log, sensors, limits, keys, tickets, firmware, owner, the
management relay, link hold and power states (16_guard R479-R503 R539, 15_faults R460 R465 R468). -/

namespace Sys2Proof.Machine

/-! ## Sources and classes (R479 R480) -/

def Guard.sess (g : Guard) (n : Nat) : Option Sess := g.sessions.find? fun x => x.id = n

/-- A request comes from an established management session. -/
def State.fromMgmt (s : State) (src : Src) : Bool :=
  match src with
  | .mgmt n _ => ((s.guard.sess n).map Sess.established).getD false
  | _ => false

/-- A source holds class OWNER (Table 16-4). -/
def State.isOwner (s : State) (src : Src) : Bool :=
  match src with
  | .mgmt n _ => s.fromMgmt src && s.guard.owner.isSome && ((s.guard.sess n).map Sess.owner).getD false
  | _ => false

/-- A message keeps a session open (R491). -/
def State.heard (s : State) (n : Nat) : State :=
  { s with guard := { s.guard with sessions := s.guard.sessions.map fun x => if x.id = n then { x with last := s.clock } else x } }

/-- A request of a code as it reaches the Guard: taken in the mailbox, which gives its own payload, or as a message of an open session or
of the I3C target. -/
def State.reqOf (s : State) (src : Src) (code : Nat) (data : Bytes) : Option GReq :=
  if !s.guard.powered then none
  else match src with
    | .mailbox =>
      let m := s.guard.mbox
      if m.hdr.state = 2 && m.hdr.cmd = BitVec.ofNat 16 code && m.held = .none then
        some { src := src, code := code, tag := m.hdr.tag, data := m.req }
      else none
    | .mgmt _ t => if s.fromMgmt src then some { src := src, code := code, tag := t, data := data } else none
    | .i3c t => some { src := src, code := code, tag := t, data := data }

/-- What a device that is removed from service refuses (15_faults R463): everything but the operations of R468, and of those the power
states, the resets without RETURN, and link hold. -/
def refusedRemoved (r : GReq) : Bool :=
  decide (8 < r.code) || r.code = 4 || r.code = 5 || r.code = 7 || (r.code = 6 && !bit (fld r.data 0 1) 1)

/-- The checks of a request before its own: its class, what a failed identity key leaves served (R484), removal, and its payload. The
records that it causes carry its TAG. -/
def State.serve (s : State) (r : GReq) (may : Bool) (fixed : Nat) (resv : List (Nat × Nat)) (f : GReq → State → State) : State :=
  let s := match r.src with
    | .mgmt n _ => s.heard n
    | _ => s
  let t :=
    if !may then s.answer r.src stAuth 0 []
    else if s.guard.bring.finalFail = some (2, 0) && decide (3 < r.code) then s.answer r.src stState 0 []
    else if s.guard.devState = .removed && refusedRemoved r then s.answer r.src stState 0 []
    else if decide (r.data.length < fixed) || decide (4032 < r.data.length) || !(resv.all fun x => allZero r.data x.1 x.2) then
      s.answer r.src stMalformed 0 []
    else f r s
  t.tagFrom s.guard.logNext r.tag

/-- A row of a request code. Rows that share a code divide its payloads by `mine`. -/
def State.request (s : State) (src : Src) (code : Nat) (data : Bytes) (mine : Bytes → Bool) (may : GReq → Bool) (fixed : Nat)
    (resv : List (Nat × Nat)) (f : GReq → State → State) : Res :=
  match s.reqOf src code data with
  | none => ok s
  | some r => if mine r.data then ok (s.serve r (may r) fixed resv f) else ok s

def anyData : Bytes → Bool := fun _ => true
def openReq : GReq → Bool := fun _ => true
def State.ownerReq (s : State) : GReq → Bool := fun r => s.isOwner r.src

/-- The request stays in the mailbox until it is answered. -/
def State.keepReq (s : State) (src : Src) : State :=
  match src with
  | .mailbox => { s with guard := { s.guard with mbox := { s.guard.mbox with held := .guard } } }
  | _ => s

/-- GUARD_TAKE (R479 R51): the Guard takes a posted request. -/
def execGuardTake (s : State) : Res :=
  let m := s.guard.mbox
  if !s.guard.powered || m.hdr.state ≠ 1 then ok s
  else if m.hdr.seq ≠ m.expSeq then ok (s.answer .mailbox stSequence (m.expSeq.toNat % 65536) [])
  else
    let c := m.hdr.cmd.toNat
    let s := { s with guard := { s.guard with mbox := { m with expSeq := m.expSeq + 1 } } }
    if !m.hdr.wellFormed || m.hdr.ctx ≠ 0 then ok (s.answer .mailbox stMalformed 0 [])
    else if !((decide (1 ≤ c) && decide (c ≤ 8)) || (decide (0x10 ≤ c) && decide (c ≤ 0x1C))) then ok (s.answer .mailbox stUnknown 0 [])
    else ok { s with guard := { s.guard with mbox := { s.guard.mbox with hdr := { s.guard.mbox.hdr with state := 2 }, takenAt := s.clock } } }

/-! ## Reads (R482 R465 R486) -/

/-- LOG_READ (R482): as FLT_RECORDS, without a context filter. -/
def execLogRead (src : Src) (data : Bytes) (s : State) : Res :=
  s.request src 0x01 data anyData openReq 10 [] fun r s =>
    let count := fld r.data 8 2
    if 62 < count then s.answer r.src stMalformed 0 []
    else
      let (st, resp) := s.logResp s.guard.records (fld r.data 0 8) count fun _ => true
      s.answer r.src st 0 resp

/-- CRASH_DUMP_READ (R465 R482). The answer is PARTIAL where sheets of the dump are lost or the slot is not complete; a slot that no
capture has written gives free bytes. -/
def execCrashDumpRead (src : Src) (data : Bytes) (s : State) : Res :=
  s.request src 0x02 data anyData openReq 20 [(1, 7)] fun r s =>
    let slot := fld r.data 0 1
    let off := fld r.data 8 8
    let n := fld r.data 16 4
    if 1 < slot || 4032 < n || 0x20000000 < off + n then s.answer r.src stMalformed 0 []
    else if n = 0 then s.answer r.src stEmpty 0 []
    else match (if slot = 0 then s.guard.dumps.1 else s.guard.dumps.2) with
      | none =>
        let (b, s) := s.freshBytes n
        s.answer r.src stPartial 0 b
      | some d => s.answer r.src (if d.complete && d.lost = [] then stOk else stPartial) 0
          ((List.range n).map fun i => Config.dumpByte d.number (off + i))

/-- SENSOR_READ (R482). -/
def execSensorRead (src : Src) (data : Bytes) (s : State) : Res :=
  s.request src 0x03 data anyData openReq 0 [] fun r s =>
    s.answer r.src stOk 0 (le 8 s.grdTemp ++ le 8 s.grdPower ++
      (s.asRead 0 s.guard.sensors.dram ++ s.asRead 40 s.guard.sensors.junction).flatMap fun t => le 2 (temp16 t))

/-- FW_STATUS (R486): GRD_FW, the staged length and whether the staged bank verified. -/
def execFwStatus (src : Src) (data : Bytes) (s : State) : Res :=
  s.request src 0x18 data anyData openReq 8 [(0, 8)] fun r s =>
    s.answer r.src stOk 0 (le 8 s.guard.fwReg ++ le 4 s.guard.fw.stagedLen ++ le 4 (bnat s.guard.fw.stagedOk))

/-! ## Limits (R483 R497 R462) -/

/-- PLIM and CEIL lie in their ranges. -/
def State.limitOk (s : State) (plim ceil : Nat) : Bool := decide (800 ≤ plim) && decide (plim ≤ s.designPower) && decide (ceil < 3)

/-- SET_LIMIT (R483): refused beyond the owner's bound. -/
def execSetLimit (src : Src) (data : Bytes) (s : State) : Res :=
  s.request src 0x10 data anyData openReq 8 [(4, 4)] fun r s =>
    let plim := fld r.data 0 2
    let ceil := fld r.data 2 1
    let d := fld r.data 3 1
    let l := s.guard.limits
    if !s.limitOk plim ceil || d < 25 || 100 < d then s.answer r.src stMalformed 0 []
    else if l.bndPlim < plim || ceil < l.bndCeil then s.answer r.src stState 0 []
    else (({ s with guard := { s.guard with limits := { l with plim := plim, ceil := ceil, demandMin := d } } }).answer r.src stOk 0
      (le 8 l.limitReg)).settlePoint

/-- SET_BOUND (R483): a limit beyond the new bound is lowered to it. -/
def execSetBound (src : Src) (data : Bytes) (s : State) : Res :=
  s.request src 0x11 data anyData s.ownerReq 8 [(3, 5)] fun r s =>
    let plim := fld r.data 0 2
    let ceil := fld r.data 2 1
    let l := s.guard.limits
    if !s.limitOk plim ceil then s.answer r.src stMalformed 0 []
    else
      let l' := { l with bndPlim := plim, bndCeil := ceil, plim := min l.plim plim, ceil := max l.ceil ceil }
      (({ s with guard := { s.guard with limits := l' } }).answer r.src stOk 0 (le 8 l.boundReg)).settlePoint

/-- SET_RESET_POLICY (15_faults R462). -/
def execSetResetPolicy (src : Src) (data : Bytes) (s : State) : Res :=
  s.request src 0x12 data anyData s.ownerReq 8 [(1, 3)] fun r s =>
    let n := fld r.data 0 1
    let w := fld r.data 4 4
    let l := s.guard.limits
    if n < 1 || 15 < n || w < 60 || 86400 < w then s.answer r.src stMalformed 0 []
    else ({ s with guard := { s.guard with limits := { l with resetLimit := n, resetWindow := w } } }).answer r.src stOk 0
      (le 4 l.resetLimit ++ le 4 l.resetWindow)

/-- CLEAR_LOG (15_faults R450): the ring and the pinned area; the answer is the last SEQ cleared. -/
def execClearLog (src : Src) (data : Bytes) (s : State) : Res :=
  s.request src 0x13 data anyData s.ownerReq 8 [(0, 8)] fun r s =>
    let g := s.guard
    if g.log = [] && g.pinned = [] then s.answer r.src stEmpty 0 []
    else ({ s with guard := { g with log := [], pinned := [], unsent := [], unacked := [] } }).answer r.src stOk 0 (le 8 (g.logNext - 1))

/-! ## Keys, tickets and firmware (R495 R496 R488) -/

/-- A port that encrypts names the slot in the active image. -/
def State.keyInUse (s : State) (slot : Nat) : Bool := (List.range 12).any fun p => lnkCrypt s.act p && lnkKeySlot s.act p = slot

/-- Changes a key slot, unless it is in use (R495). -/
def State.setKey (s : State) (r : GReq) (key : Option (BitVec 256)) : State :=
  let slot := fld r.data 0 1
  if 15 < slot then s.answer r.src stMalformed 0 []
  else if s.keyInUse slot then s.answer r.src stBusy 0 []
  else ({ s with guard := { s.guard with keys := s.guard.keys.set (Fin.ofNat 16 slot : Fin 16) key } }).answer r.src stOk 0 []

def execKeyInstall (src : Src) (data : Bytes) (s : State) : Res :=
  s.request src 0x14 data anyData s.ownerReq 40 [(1, 7)] fun r s => s.setKey r (some (BitVec.ofNat 256 (fld r.data 8 32)))

def execKeyErase (src : Src) (data : Bytes) (s : State) : Res :=
  s.request src 0x15 data anyData s.ownerReq 8 [(1, 7)] fun r s => s.setKey r none

/-- A signature of the identity key as the spec lays it out: r and s of 66 bytes each, then 4 reserved bytes. -/
def signature (d : Bytes) : Bytes := (Config.identitySign (sha512v d) ++ List.replicate 132 0).take 132 ++ List.replicate 4 0

/-- ISSUE_TICKET (R496, 15_faults Table 15-11). -/
def execIssueTicket (src : Src) (data : Bytes) (s : State) : Res :=
  s.request src 0x16 data anyData s.ownerReq 8 [(4, 4)] fun r s =>
    let scope := fld r.data 0 4
    let b := devBytes ++ le 8 s.now ++ le 4 scope ++ le 4 0
    let t : Ticket := { issued := s.time.stitch, scope := BitVec.ofNat 32 scope, used := 0 }
    ({ s with guard := { s.guard with tickets := s.guard.tickets ++ [t] } }).answer r.src stOk 0 (b ++ signature b)

/-- FW_STAGE (R488): a request that arrives during a full device reset is held until it completes. -/
def execFwStage (src : Src) (data : Bytes) (s : State) : Res :=
  s.request src 0x17 data anyData s.ownerReq 16 [(12, 4)] fun r s =>
    if s.guard.bring.resetRec.isSome then
      ({ s with guard := { s.guard with heldFw := s.guard.heldFw ++ [r] } }).keepReq r.src
    else s.fwStage r.src r.data

/-! ## The owner and the collector (R492 R493 R539) -/

/-- The owner record for a root public key (Table 16-10). -/
def ownerRecord (key : Bytes) : Bytes :=
  let b := le 4 0x10512 ++ le 4 0 ++ devBytes ++ key ++ List.replicate 3 0
  b ++ signature b

/-- TAKE_OWNER (R492): in a session that is authenticated by the device only, where no owner record is present. Measurement 8 stays until
the next full device reset. -/
def execTakeOwner (src : Src) (data : Bytes) (s : State) : Res :=
  let may := fun (r : GReq) => s.fromMgmt r.src && s.guard.owner.isNone && (match r.src with
    | .mgmt n _ => !((s.guard.sess n).map Sess.mutualAsked).getD true
    | _ => false)
  s.request src 0x19 data anyData may 133 [] fun r s =>
    let o := ownerRecord (r.data.take 133)
    ({ s with guard := { s.guard with owner := some o } }).answer r.src stOk 0 (sha512 o)

/-- RELEASE_OWNER (R492): the sessions lose class OWNER with the record. -/
def execReleaseOwner (src : Src) (data : Bytes) (s : State) : Res :=
  s.request src 0x1A data anyData s.ownerReq 8 [(0, 8)] fun r s =>
    let ss : List Sess := s.guard.sessions.map fun (x : Sess) => { x with owner := false }
    ({ s with guard := { s.guard with owner := none, sessions := ss } }).answer r.src stOk 0 []

/-- MGMT_CONFIG (R493). -/
def execMgmtConfig (src : Src) (data : Bytes) (s : State) : Res :=
  s.request src 0x1B data anyData s.ownerReq 24 [(20, 4)] fun r s =>
    ({ s with guard := { s.guard with
        collector := r.data.take 16, collectorPort := BitVec.ofNat 16 (fld r.data 16 2), ownPort := BitVec.ofNat 16 (fld r.data 18 2) } }).answer
      r.src stOk 0 []

/-! ## Relayed commands (R481) -/

/-- MGMT_POST's sources: a management session or the I3C target, of class OWNER where an owner record is present. -/
def State.mayPost (s : State) (r : GReq) : Bool := decide (r.src ≠ .mailbox) && (s.guard.owner.isNone || s.isOwner r.src)

def postResv : List (Nat × Nat) := [(1, 1), (0xD, 1), (0x10, 8)]

/-- The fields of the payload lie in their ranges (Table 16-9). -/
def postOk (b : Bytes) : Bool :=
  let ms := fld b 4 4
  let len := fld b 0xE 2
  fld b 0 1 < 64 && 1 ≤ ms && ms ≤ 60000 && fld b 0xC 1 < 64 && len ≤ 4008 && 0x18 + len ≤ b.length

/-- MGMT_POST (R481): the command is posted in an MGMT slot, and answered when it is DONE. -/
def execMgmtPost (src : Src) (data : Bytes) (s : State) : Res :=
  s.request src 0x1C data (fun b => decide (fld b 2 2 ≠ 0)) s.mayPost 0x18 postResv fun r s =>
    let b := r.data
    let n := ctxId (fld b 0 1)
    let x := s.slots[n]
    if !postOk b then s.answer r.src stMalformed 0 []
    else if imgClass s.act n.val ≠ 3 then s.answer r.src stClass 0 []
    else if x.hdr.state ≠ 0 then s.answer r.src stBusy 1 []
    else
      let len := fld b 0xE 2
      let h := { x.hdr with
        state := 1, resv0 := 0, cmd := BitVec.ofNat 16 (fld b 2 2), resv1 := 0, seq := x.expSeq, len := BitVec.ofNat 16 len, resv2 := 0
        ctx := BitVec.ofNat 6 (fld b 0xC 1), resv3 := 0, tag := BitVec.ofNat 32 (fld b 8 4), viol := 0 }
      let s := s.setSlot n { x with hdr := h, payload := wrMap x.payload 0 ((b.drop 0x18).take len) }
      let m : MPost := { src := r.src, slot := n, deadline := s.clock + fld b 4 4 * 1000000 }
      { s with guard := { s.guard with mposts := s.guard.mposts ++ [m] } }

/-- MGMT_POST_FETCH (R481): the response that an earlier MGMT_POST left in a slot, from the byte at which it stopped. -/
def execMgmtPostFetch (src : Src) (data : Bytes) (s : State) : Res :=
  s.request src 0x1C data (fun b => decide (fld b 2 2 = 0)) s.mayPost 0x18 postResv fun r s =>
    let n := ctxId (fld r.data 0 1)
    let x := s.slots[n]
    if !postOk r.data then s.answer r.src stMalformed 0 []
    else if imgClass s.act n.val ≠ 3 then s.answer r.src stClass 0 []
    else match s.guard.mheld.find? fun h => h.1 = n with
      | none => s.answer r.src stState 0 []
      | some h =>
        if x.hdr.state ≠ 3 then s.answer r.src stState 0 []
        else
          let len := x.hdr.rlen.toNat
          let off := h.2
          let resp := le 2 x.hdr.status.toNat ++ le 2 x.hdr.detail.toNat ++ le 2 len ++ le 2 0 ++ rdMap x.payload off (min (len - off) 4024)
          let rest := s.guard.mheld.filter fun (y : SlotId × Nat) => y ≠ h
          if len - off ≤ 4024 then
            ({ (s.setSlot n { x with hdr := { x.hdr with state := 0 } }) with guard := { s.guard with mheld := rest } }).answer r.src stOk 0 resp
          else ({ s with guard := { s.guard with mheld := rest ++ [(n, 4024)] } }).answer r.src stOk 1 resp

/-- MGMT_POST_TIMEOUT (R481): a post that is still POSTED is withdrawn; what the Binder has taken runs on. -/
def execMgmtPostTimeout (src : Src) (s : State) : Res :=
  match s.guard.mposts.find? fun m => m.src = src && decide (m.deadline ≤ s.clock) with
  | none => ok s
  | some m =>
    let x := s.slots[m.slot]
    let s := { s with guard := { s.guard with mposts := s.guard.mposts.filter fun y => y ≠ m } }
    let s := if x.hdr.state = 1 then s.setSlot m.slot { x with hdr := { x.hdr with state := 0 } }
             else { s with guard := { s.guard with mheld := s.guard.mheld.filter (fun (y : SlotId × Nat) => y.1 ≠ m.slot) ++ [(m.slot, 0)] } }
    ok (s.answer m.src stTimeout 0 [])

/-! ## Link hold (12_links R380) -/

/-- Places ports that carry traffic under link hold, or releases them. -/
def State.linkHold (s : State) (mask : Nat) (on : Bool) : State :=
  (bitList mask 12).foldl (fun s p => match portId p with
    | some q => if on && !s.ports[q].carries then s else s.setPort q { s.ports[q] with hold := on }
    | none => s) s

/-- Request 0x07 of either direction. -/
def State.holdReq (s : State) (r : GReq) (on : Bool) : State :=
  let mask := fld r.data 0 2
  if 0xFFF < mask || 1 < fld r.data 2 1 then s.answer r.src stMalformed 0 []
  else (s.linkHold mask on).answer r.src (if mask = 0 then stEmpty else stOk) 0 []

def execLinkHoldSet (src : Src) (data : Bytes) (s : State) : Res :=
  s.request src 0x07 data (fun b => !bit (fld b 2 1) 0) openReq 3 [] fun r s => s.holdReq r true

def execLinkHoldRelease (src : Src) (data : Bytes) (s : State) : Res :=
  s.request src 0x07 data (fun b => bit (fld b 2 1) 0) openReq 3 [] fun r s => s.holdReq r false

/-! ## Power states (R501-R503) -/

/-- Request 0x04: refused where the rails are off or an entry is under way, held for a reset or for bring-up (R502, 17_physical R515), and
otherwise a wake or the begin of an entry. -/
def State.powerChange (s : State) (r : GReq) (k : PartitionKat) : State :=
  let t := fld r.data 0 1
  let p := s.guard.power.pstate
  let d := s.guard.devState
  if 2 < t || 1 < fld r.data 1 1 then s.answer r.src stMalformed 0 []
  else if s.guard.cutoff || s.guard.overvolt || p = .entering || p = .waking then s.answer r.src stState 0 []
  else if d = .booting || d = .resetting || s.guard.resetReq.isSome then
    ({ s with guard := { s.guard with power := { s.guard.power with heldPower := s.guard.power.heldPower ++ [r] } } }).keepReq r.src
  else if (t = 0 && p = .run) || (t = 1 && p = .nap) || (t = 2 && p = .hold) then s.answer r.src stEmpty 0 []
  else if t = 0 then (s.wake k).answer r.src stOk 0 []
  else if t = 1 && p = .hold then s.answer r.src stState 0 []
  else (s.startEntry r).keepReq r.src

def powerResv : List (Nat × Nat) := [(2, 2)]

def execPowerStateChangeNap (src : Src) (data : Bytes) (s : State) : Res :=
  s.request src 0x04 data (fun b => decide (fld b 0 1 ≠ 0) && decide (fld b 0 1 ≠ 2)) openReq 8 powerResv fun r s => s.powerChange r { stages := [] }

def execPowerStateChangeHold (src : Src) (data : Bytes) (s : State) : Res :=
  s.request src 0x04 data (fun b => decide (fld b 0 1 = 2)) openReq 8 powerResv fun r s => s.powerChange r { stages := [] }

/-- POWER_STATE_CHANGE_RUN (R503): the known-answer runs of a wake from HOLD find `k`. -/
def execPowerStateChangeRun (src : Src) (data : Bytes) (k : PartitionKat) (s : State) : Res :=
  s.request src 0x04 data (fun b => decide (fld b 0 1 = 0)) openReq 8 powerResv fun r s => s.powerChange r k

/-- A port is switched off: it is lost to its routes, and its admission ends. -/
def State.portOff (s : State) (p : Port) : State :=
  if s.ports[p].st = .off then s
  else
    let s := (s.portTo p .off 0).losePort p
    let x := s.ports[p]
    s.setPort p { x with
      lastPeer := if x.peerId.isSome then x.peerId else x.lastPeer
      adm := Adm.reset, peerId := none, peerPart := 0, peerPort := 0xFF, session := none, traffic := none, frames := 0, hold := false,
      signal := false, soakDue := true, timing := TPort.reset }

/-- NAP (R501): leaves, checksum lanes and fold buffers are cleared, and the ports are held or off. -/
def State.enterNap (s : State) : State :=
  let s := { s with engines := s.engines.map fun (g : Engine) => { g with array := Engine.reset.array, chains := [] } }
  if s.guard.power.holdLinks then s.linkHold 0xFFF true
  else (List.finRange 12).foldl State.portOff s

/-- HOLD (R501): every context is reset as with the keep flag, the compute partition and the Binder are unpowered, the ports are off and the
Stitch counter stops. -/
def State.enterHold (s : State) : State :=
  let s := s.resetContexts
  let s := { s with engines := s.engines.map fun (g : Engine) => { Engine.reset with issue := g.issue, nextPos := g.nextPos, freeAt := s.now }
                    binder := { s.binder with run := .off }, time := { s.time with running := false } }
  let s := (List.finRange 12).foldl State.portOff s
  { s with guard := { s.guard with supply := { s.guard.supply with vcomp := 0, vtarget := 0 } } }

/-- POWER_STATE_ENTRY (R501): no launched phase is in progress any longer. -/
def execPowerStateEntry (s : State) : Res :=
  let p := s.guard.power
  if p.pstate ≠ .entering || s.scheds.any Sched.inProgress then ok s
  else
    let s := if p.target = 2 then s.enterHold else s.enterNap
    let s := { s with
      mem := { s.mem with selfRefresh := true }
      guard := { s.guard with power := { s.guard.power with
        pstate := if p.target = 2 then .hold else .nap, req := none
        wakeAt := if p.wakeAfter = 0 then none else some (s.clock + p.wakeAfter * 1000000) } } }
    match p.req with
    | some r => ok (s.answer r.src stOk 0 [])
    | none => ok s

/-- POWER_STATE_ENTRY_TIMEOUT (R501): the entry has lasted longer than 1 s. -/
def execPowerStateEntryTimeout (s : State) : Res :=
  let p := s.guard.power
  if p.pstate ≠ .entering || decide (s.clock ≤ p.entryAt + 1000000000) then ok s
  else
    let s := { s with guard := { s.guard with power := { p with pstate := .run, req := none, runAt := s.now } } }
    match p.req with
    | some r => ok (s.answer r.src stTimeout 0 [])
    | none => ok s

/-- WAKE_AFTER_EXPIRY (R503). -/
def execWakeAfterExpiry (k : PartitionKat) (s : State) : Res :=
  match s.guard.power.wakeAt with
  | some t => if t ≤ s.clock && s.guard.powered then ok (s.wake k) else ok s
  | none => ok s

/-! ## Binder reset (15_faults R460) -/

/-- Request 0x05 of a device in service. Where bring-up or a larger reset runs, that reset absorbs it (15_faults R461); without rails, or
after a final failure of bring-up, there is no Binder to restart. -/
def State.binderReq (s : State) (r : GReq) (k : PartitionKat) : State :=
  let planned := bit (fld r.data 0 1) 0
  let d := s.guard.devState
  if 3 < fld r.data 0 1 then s.answer r.src stMalformed 0 []
  else if s.guard.cutoff then s.answer r.src stHardware 0xFE []
  else if s.guard.overvolt then s.answer r.src stHardware 0xFF []
  else if d = .booting || d = .resetting then s.answer r.src stOk 0 []
  else if s.binder.run = .off && s.guard.power.pstate ≠ .hold then s.answer r.src stHardware (s.readyFail.getD (0, 0)).1 []
  else
    let (hit, s) := if planned then (false, s) else s.countReset
    if hit then (s.answer r.src stState 0 []).removeFromService none
    else ((s.wake k).binderReset none planned).answer r.src stOk 0 []

/-- BINDER_RESET (15_faults R460). -/
def execBinderReset (src : Src) (data : Bytes) (k : PartitionKat) (s : State) : Res :=
  s.request src 0x05 data anyData openReq 1 [] fun r s => s.binderReq r k

end Sys2Proof.Machine
end

