-- ==== Sys2Proof/Machine/Spdm.lean ====
section
/-! DEFINITION. Attestation and management sessions: the SPDM requests of 16_guard R490 R491, as messages of the management port and of the
I3C target, and in request 0x08. The layout of the messages is DSP0274's (log entry 91): what stands here is the content that the spec gives them. -/

namespace Sys2Proof.Machine

/-! ## Connections -/

/-- All messages of one path belong to one requester. -/
def requester (src : Src) : Src :=
  match src with
  | .mailbox => .mailbox
  | .mgmt _ _ => .mgmt 0 0
  | .i3c _ => .i3c 0

def Spdm.start (src : Src) : Spdm :=
  { src := src, version := none, caps := false, algs := false, chunkIn := none, chunkOut := none }

def State.conn (s : State) (src : Src) : Spdm :=
  (s.guard.spdm.find? fun (x : Spdm) => x.src = requester src).getD (Spdm.start (requester src))

def State.setConn (s : State) (x : Spdm) : State :=
  { s with guard := { s.guard with spdm := s.guard.spdm.filter (fun (y : Spdm) => y.src ≠ x.src) ++ [x] } }

/-- SPDM is served: the Guard is powered and has its identity key (R484). -/
def State.spdmServed (s : State) : Bool := s.guard.powered && s.guard.bring.finalFail ≠ some (2, 0)

/-! ## Contents of the responses -/

/-- The capabilities of R490, in the order in which it lists them: CERT, CHAL, MEAS with signature, KEY_EX, MUT_AUTH, ENCRYPT, MAC, HBEAT,
KEY_UPD and CHUNK. -/
def spdmCaps : Nat := 0x3FF

/-- A signature over a digest by the identity key (R485). -/
def signed (b : Bytes) : Bytes := (Config.identitySign (sha512v b) ++ List.replicate 132 0).take 132

/-- A measurement block: its index and its SHA-512 value (R489). -/
def State.measBlock (s : State) (i : Nat) : Bytes := le 1 i ++ le 64 (s.guard.meas.toList.getD (i - 1) 0).toNat

/-- The measurements that an index asks for: 0 their number, 0xFF all, else one. -/
def State.measFor (s : State) (index : Nat) : Option Bytes :=
  if index = 0 then some (le 1 9)
  else if index = 0xFF then some ((List.range 9).flatMap fun i => s.measBlock (i + 1))
  else if 9 < index then none
  else some (s.measBlock index)

/-- The content of the answer to a request, none for an error, and the connection after it. Slot 0 alone holds a certificate chain, and the
algorithms must be the four of R490. -/
def State.spdmAnswer (s : State) (x : Spdm) (q : SpdmReq) : Option Bytes × Spdm :=
  match q with
  | .getVersion => (some [0x12, 0x13], Spdm.start x.src)
  | .getCapabilities v =>
    if v = 0x12 || v = 0x13 then (some (le 4 spdmCaps), { x with version := some v, caps := true }) else (none, x)
  | .negotiate a =>
    if x.caps && a.ecdsaP521 && a.sha512 && a.secp521r1 && a.aes256gcm then (some [1, 1, 1, 1], { x with algs := true }) else (none, x)
  | .getDigests => (if x.algs then some (sha512 Config.certChain) else none, x)
  | .getCertificate slot off len => (if x.algs && slot = 0 then some ((Config.certChain.drop off).take len) else none, x)
  | .challenge slot nonce =>
    let b := sha512 Config.certChain ++ nonce
    (if x.algs && slot = 0 then some (b ++ signed b) else none, x)
  | .getMeasurements index sign nonce =>
    match s.measFor index with
    | none => (none, x)
    | some m => (if x.algs then some (if sign then m ++ nonce ++ signed (m ++ nonce) else m) else none, x)

/-- Sends an answer to a requester: in one message, or as a large response that CHUNK_GET fetches. -/
def State.spdmSend (s : State) (src : Src) (b : Option Bytes) : State :=
  match b with
  | some d =>
    if Config.spdmChunk < d.length then
      let x := s.conn src
      let h := (((x.chunkOut.map (·.1)).getD 0) + 1) % 256
      (s.setConn { x with chunkOut := some (h, 0, d) }).emit (.spdmLarge src h)
    else s.emit (.spdm src (some d))
  | none => s.emit (.spdm src none)

/-- An SPDM request that arrives as a message. -/
def State.spdmMessage (s : State) (src : Src) (q : SpdmReq) : State :=
  let (b, x) := s.spdmAnswer (s.conn src) q
  (s.setConn x).spdmSend src b

/-- A row of an SPDM request: from the management port or the I3C target; the Guard mailbox carries SPDM in request 0x08 alone. -/
def State.spdmRow (s : State) (src : Src) (q : SpdmReq) : Res :=
  if !s.guard.powered || src = .mailbox then ok s
  else if !s.spdmServed then ok (s.emit (.spdm src none))
  else ok (s.spdmMessage src q)

def execGetVersion (src : Src) (s : State) : Res := s.spdmRow src .getVersion
def execGetCapabilities (src : Src) (version : Byte) (s : State) : Res := s.spdmRow src (.getCapabilities version)
def execNegotiateAlgorithms (src : Src) (algs : SpdmAlgs) (s : State) : Res := s.spdmRow src (.negotiate algs)
def execGetDigests (src : Src) (s : State) : Res := s.spdmRow src .getDigests
def execGetCertificate (src : Src) (slot off len : Nat) (s : State) : Res := s.spdmRow src (.getCertificate slot off len)
def execChallenge (src : Src) (slot : Nat) (nonce : Bytes) (s : State) : Res := s.spdmRow src (.challenge slot nonce)

/-- GET_MEASUREMENTS (R489 R490): a signed response binds the requester's nonce. -/
def execGetMeasurements (src : Src) (index : Nat) (signed : Bool) (nonce : Bytes) (s : State) : Res :=
  s.spdmRow src (.getMeasurements index signed nonce)

/-- ATTESTATION (R482): request 0x08 carries one SPDM request message, and its answer is the response message. -/
def execAttestation (src : Src) (data : Bytes) (s : State) : Res :=
  s.request src 0x08 data anyData openReq 0 [] fun r s =>
    match Config.spdmParse r.data with
    | none => s.answer r.src stOk 0 (Config.spdmEncode r.data none)
    | some q =>
      let (b, x) := s.spdmAnswer (s.conn r.src) q
      (s.setConn x).answer r.src stOk 0 ((Config.spdmEncode r.data b).take 4032)

/-! ## Large messages -/

/-- CHUNK_SEND: chunks in order, from 0; the last one completes the request. -/
def execChunkSend (src : Src) (handle seq : Nat) (last : Bool) (chunk : Bytes) (s : State) : Res :=
  if !s.guard.powered || src = .mailbox then ok s
  else if !s.spdmServed then ok (s.emit (.spdm src none))
  else
    let x := s.conn src
    let sofar : Option Bytes := if seq = 0 then some [] else match x.chunkIn with
      | some (h, n, d) => if h = handle && n = seq then some d else none
      | none => none
    match sofar with
    | none => ok ((s.setConn { x with chunkIn := none }).emit (.spdm src none))
    | some d =>
      if last then
        let s := s.setConn { x with chunkIn := none }
        match Config.spdmParse (d ++ chunk) with
        | some q => ok (s.spdmMessage src q)
        | none => ok (s.emit (.spdm src none))
      else ok ((s.setConn { x with chunkIn := some (handle, seq + 1, d ++ chunk) }).emit (.spdm src (some [])))

/-- CHUNK_GET: the next chunk of a large response. -/
def execChunkGet (src : Src) (handle seq : Nat) (s : State) : Res :=
  if !s.guard.powered || src = .mailbox then ok s
  else if !s.spdmServed then ok (s.emit (.spdm src none))
  else
    let x := s.conn src
    match x.chunkOut with
    | some (h, n, d) =>
      if h = handle && n = seq then
        let rest := d.drop (Config.spdmChunk + 1)
        let s := s.setConn { x with chunkOut := if rest = [] then none else some (h, n + 1, rest) }
        ok (s.emit (.spdm src (some (d.take (Config.spdmChunk + 1)))))
      else ok (s.emit (.spdm src none))
    | none => ok (s.emit (.spdm src none))

/-! ## Secured sessions (R491) -/

/-- A message from the management port: the I3C target carries no secured sessions (R494). -/
def overMgmt (src : Src) : Bool :=
  match src with
  | .mgmt _ _ => true
  | _ => false

/-- KEY_EXCHANGE (R491): at most 2 sessions. -/
def execKeyExchange (src : Src) (session : Nat) (exchange : Bytes) (mutAuth : Bool) (s : State) : Res :=
  if !s.guard.powered || src = .mailbox then ok s
  else if !s.spdmServed || !overMgmt src || !(s.conn src).algs || decide (2 ≤ s.guard.sessions.length) || (s.guard.sess session).isSome then
    ok (s.emit (.spdm src none))
  else
    let x : Sess := { id := session, established := false, owner := false, mutualAsked := mutAuth, last := s.clock, keyGen := 0 }
    let b := Config.spdmKeyExchange session exchange
    ok (({ s with guard := { s.guard with sessions := s.guard.sessions ++ [x] } }).spdmSend src (some (b ++ signed b)))

/-- A session ends; when no session is open, what the collector has not acknowledged counts as unsent (R493). -/
def State.endSession (s : State) (n : Nat) : State :=
  ({ s with guard := { s.guard with sessions := s.guard.sessions.filter fun (x : Sess) => x.id ≠ n } }).unsend

/-- The requester's chain verifies to the owner root key of the owner record (R491, Table 16-10). -/
def State.ownerChain (s : State) (chain : Bytes) : Bool :=
  match s.guard.owner with
  | some o => Config.chainToOwner chain ((o.drop 0x10).take 133)
  | none => false

/-- FINISH (R491): with mutual authentication the requester's signature must verify under its chain. -/
def execFinish (session : Nat) (chain sig : Bytes) (verifyOk : Bool) (s : State) : Res :=
  let src := Src.mgmt session 0
  if !s.guard.powered then ok s
  else match s.guard.sess session with
    | none => ok (s.emit (.spdm src none))
    | some x =>
      if x.established then ok (s.emit (.spdm src none))
      else if !verifyOk || (x.mutualAsked && !Config.chainVerify chain (Config.spdmTranscript session) sig) then
        ok ((s.endSession session).emit (.spdm src none))
      else
        let y := { x with established := true, owner := x.mutualAsked && s.ownerChain chain, last := s.clock }
        let ss : List Sess := s.guard.sessions.map fun (z : Sess) => if z.id = session then y else z
        ok (({ s with guard := { s.guard with sessions := ss } }).emit (.spdm src (some [])))

/-- A message of an open session. -/
def State.inSession (s : State) (session : Nat) (f : State → State) : Res :=
  if !s.guard.powered then ok s
  else if ((s.guard.sess session).map Sess.established).getD false then
    ok ((f (s.heard session)).emit (.spdm (Src.mgmt session 0) (some [])))
  else ok (s.emit (.spdm (Src.mgmt session 0) none))

/-- HEARTBEAT (R491): keeps a session open. -/
def execHeartbeat (session : Nat) (s : State) : Res := s.inSession session id

/-- KEY_UPDATE (R491): renews the session keys. -/
def execKeyUpdate (session : Nat) (s : State) : Res :=
  s.inSession session fun s =>
    { s with guard := { s.guard with sessions := s.guard.sessions.map fun (x : Sess) => if x.id = session then { x with keyGen := x.keyGen + 1 } else x } }

/-- END_SESSION (R491). -/
def execEndSession (session : Nat) (s : State) : Res := s.inSession session fun s => s.endSession session

/-- SESSION_TIMEOUT (R491): 60 s without a message. -/
def execSessionTimeout (session : Nat) (s : State) : Res :=
  match s.guard.sess session with
  | none => ok s
  | some x => if s.guard.powered && decide (x.last + 60000000000 ≤ s.clock) then ok (s.endSession session) else ok s

end Sys2Proof.Machine
end

