-- ==== Sys2Proof/Machine/Bringup.lean ====
section
/-! DEFINITION. Power-up, bring-up and readiness, the full device reset and the return to service, the rails, the link reference and JTAG
(17_physical R506-R515 R521 R525 R528 R531, 15_faults R459 R463, 16_guard R484-R489). -/

namespace Sys2Proof.Machine

/-! ## Bring-up (Table 17-1) -/

/-- A record of class 5 whose code the spec does not give (16_guard R484 R487; log entry 83). -/
def State.bundleRecord (s : State) : State :=
  let (v, s) := s.fresh
  s.native 5 (v.toNat % 65536) 0 0 0

/-- A failure that is final (R512): the device is NOT_READY as soon as it is found. The first one found stays. -/
def State.failFinal (s : State) (f : Nat × Nat) : State :=
  if s.guard.bring.finalFail.isSome then s
  else ({ s with guard := { s.guard with bring := { s.guard.bring with finalFail := some f } } }).setDev .notReady

/-- Order 1 (R486 R487): the active bank, else the other one, which becomes active with a record; neither is a final failure. -/
def State.bootBundle (s : State) (b : BringUp) : State :=
  let f := s.guard.fw
  let boot := fun (a : Bool) => { f with
    active := a, record := if f.record ≤ (if a then f.versions.2 else f.versions.1) then (if a then f.versions.2 else f.versions.1) else f.record }
  let good := fun (a okay : Bool) => okay && decide (f.record ≤ (if a then f.versions.2 else f.versions.1))
  if good f.active b.bankOk then { s with guard := { s.guard with fw := boot f.active } }
  else if good (!f.active) b.otherBankOk then ({ s with guard := { s.guard with fw := boot (!f.active) } }).bundleRecord
  else s.failFinal (1, 0)

/-- Measurement 8: the owner record, or 64 zero bytes (16_guard Table 16-5). -/
def Guard.meas8 (g : Guard) : BitVec 512 := sha512v (g.owner.getD (List.replicate 64 0))

/-! ### The repair record (R516 R517) -/

/-- NENT of a repair record, and its entries of 16 bytes. -/
def repairCount (r : Bytes) : Nat := fld r 4 4
def repairEntries (r : Bytes) : List Bytes := (List.range (repairCount r)).map fun i => sub r (64 + 16 * i) 16

/-- The bytes that an entry of a TYPE uses (Table 17-4). -/
def repairUsed : Nat → List Nat
  | 1 => [0, 2, 3, 4, 6, 7, 8]
  | 2 => [0, 2, 3, 4, 6, 7, 8]
  | 3 => [0, 2, 3, 4, 5, 6]
  | 4 => [0, 2, 4, 5, 6]
  | 5 => [0, 2, 3, 4, 6, 7, 8]
  | 6 => [0, 2, 3, 4, 5]
  | 7 => [0, 2, 4, 5]
  | _ => []

/-- The spare that an entry names, with its TYPE and the place of which it is a spare: a bank, a channel or a spine, or the rows or the
columns of a staging bank. -/
def repairSpare (e : Bytes) : Nat × Nat × Nat :=
  match fld e 0 1 with
  | 1 => (1, fld e 2 3, fld e 8 1)
  | 2 => (2, fld e 2 3, fld e 8 1)
  | 3 => (3, fld e 2 2, fld e 6 1)
  | 4 => (4, fld e 2 1, fld e 6 1)
  | _ => (5, fld e 2 3, fld e 8 1)

/-- The row or lane that an entry repairs, with its TYPE and place. -/
def repairTarget (e : Bytes) : Nat × Nat × Nat :=
  match fld e 0 1 with
  | 3 => (3, fld e 2 2, fld e 4 2)
  | 4 => (4, fld e 2 1, fld e 4 2)
  | t => (t, fld e 2 3, fld e 6 2)

/-- Spares of a TYPE in one place (Table 17-4). -/
def repairSpares : Nat → Nat
  | 1 => 8 | 2 => 8 | 3 => 16 | 4 => 8 | 5 => 4
  | _ => 0

/-- An entry substitutes a spare: TYPE 6 and 7 hold a calibration and a trim. -/
def repairSubstitutes (e : Bytes) : Bool := decide (1 ≤ fld e 0 1) && decide (fld e 0 1 ≤ 5)

/-- An entry has a TYPE of Table 17-4, reserved bytes of 0, and a spare that exists. -/
def repairEntryOk (e : Bytes) : Bool :=
  let t := fld e 0 1
  decide (1 ≤ t) && decide (t ≤ 7) && ((List.range 16).all fun i => (repairUsed t).contains i || fld e i 1 = 0) &&
    (!repairSubstitutes e || decide ((repairSpare e).2.2 < repairSpares t))

/-- The conditions of R517 but the signature, which is an input of bring-up: the identity, the reserved fields and the entries. -/
def repairOk (r : Bytes) : Bool :=
  let es := (repairEntries r).filter repairSubstitutes
  fld r 0 4 = 0x10512 && decide (repairCount r ≤ 65536) && r.length = 64 + 16 * repairCount r + 136 && sub r 8 8 = devBytes &&
    fld r 0x18 40 = 0 && fld r (64 + 16 * repairCount r + 132) 4 = 0 && (repairEntries r).all repairEntryOk &&
    decide (es.map repairSpare).Nodup && decide (es.map repairTarget).Nodup

/-- Order 2: the identity key, which is regenerated at power-up only, the repair record, and measurements 1 to 8 (R484 R489 R517). -/
def State.measure (s : State) (b : BringUp) (powerUp : Bool) : State :=
  let s := if powerUp && !b.identityOk then s.bundleRecord.failFinal (2, 0) else s
  let s := if b.repairSigned && repairOk s.guard.repair then s else s.failFinal (3, 0)
  let m := (List.range 7).foldl (fun (m : Vector (BitVec 512) 9) i => m.set (Fin.ofNat 9 i : Fin 9) (Config.measurement i)) s.guard.meas
  { s with guard := { s.guard with meas := m.set (7 : Fin 9) s.guard.meas8 } }

/-- An image is pressed whole before the compute partition is up, its mode with it (R508). -/
def State.pressAll (s : State) (m : AMap W64) : State :=
  let s := { s with cfg := { s.cfg with shadow := m, epoch := 0, pendings := [] } }
  let s := s.pressEffect 0xFFFFFFFFFFFFFFFF#64 m
  if imgFull s.act = s.frw.fullLeaf then s else s.enterMode (imgFull s.act)

/-- Order 3: the retained image, or the reset values where there is none or its check fails (R508). -/
def State.restoreImage (s : State) : State :=
  let done := fun (s : State) (n : Nat) => { s with guard := { s.guard with bring := { s.guard.bring with restored := n } } }
  match s.cfg.retained with
  | none => done (s.pressAll []) 0
  | some m =>
    let row := firstFailing s.guard.keys m
    if row = 0 then done (s.pressAll m) 1
    else done ((s.pressAll []).native 2 0x0805 row 0 (rowOffset s.guard.keys m row)) 2

/-- Order 3: the supply at 0.70 V and the Binder, whose firmware starts from the active bundle (02_binder R73). -/
def State.startBinder (s : State) (b : BringUp) : State :=
  let info := if s.guard.fw.active then s.guard.fw.infos.2 else s.guard.fw.infos.1
  let s := { s with
    frw := { s.frw with gen := if info.1 = s.guard.fw.running.1 then s.frw.gen else s.frw.gen + 1 }
    guard := { s.guard with fw := { s.guard.fw with running := info } } }
  let s := { s with
    binder := { run := .running, scanPos := s.binder.scanPos, taken := [], lastAlive := s.clock }
    guard := { s.guard with
      supply := { s.guard.supply with vcomp := 700, vtarget := 700 }
      bring := { s.guard.bring with refAbsent := !b.refPresent } } }
  s.restoreImage

/-- A number of R449 that names a near or a far channel. -/
def isChannel (c : Nat) : Bool := decide (c < 1024) || (decide (0x1000 ≤ c) && decide (c < 0x1200))

/-- Order 4a (R510): a channel that fails all three attempts is fenced. -/
def State.trainChannels (s : State) (b : BringUp) : State :=
  let bad := dedup (b.badChannels.filter isChannel)
  let s := bad.foldl (fun s c => s.fenceChan c false) s
  { s with guard := { s.guard with bring := { s.guard.bring with trained := 1536 - bad.length } } }

/-- Order 4b: every port whose ROLE is not OFF trains. -/
def State.trainPorts (s : State) : State :=
  (List.finRange 12).foldl (fun s p => if lnkRole s.act p.val = 0 then s else s.startTraining p) s

/-- The crash-dump region. -/
def State.dumpRegion (s : State) : Nat × Nat := (farBase + imgDumpBase s.act, 0x40000000)

/-- Order 5: both tiers are zeroed except the crash-dump region (09_memory Table 09-11). -/
def State.zeroTiers (s : State) : State :=
  let (a, n) := s.dumpRegion
  ((s.zeroRange 0 nearSize).zeroRange farBase (a - farBase)).zeroRange (a + n) (farBase + farSize - (a + n))

/-- Order 5: the known-answer runs. A failing OPE or RTE is final. -/
def State.runKernels (s : State) (b : BringUp) : State :=
  let s := s.settleFolios b.stages
  let q := failedQuires b.stages
  let s := { s with guard := { s.guard with bring := { s.guard.bring with quireFail := q } } }
  if q = 0 then s else s.setDev .notReady

/-- Order 6: readiness is evaluated (R511 R512). Waiting failures leave the device BOOTING. -/
def State.evaluate (s : State) : State :=
  let s := ({ s with guard := { s.guard with bring := { s.guard.bring with running := false } } }).measure9
  if s.guard.bring.finalFail.isSome || s.firstFence.isSome || s.guard.bring.quireFail ≠ 0 then (s.setDev .notReady).endBringUp
  else if s.readyFail.isNone then s.becomeReady
  else s

/-- Orders 3 to 6. A supply fault before order 5 completes is final (R515). -/
def State.buildUp (s : State) (b : BringUp) : State :=
  let s := s.startBinder b
  let s := match b.railFault with
    | some r => (s.native 5 0x0702 r 0 0).failFinal (8, r)
    | none => s
  (((s.trainChannels b).trainPorts.zeroTiers).runKernels b).evaluate.settlePoint

/-- Bring-up from B0. Without a bundle that verifies nothing is started. -/
def State.bringUp (s : State) (b : BringUp) (powerUp : Bool) : State :=
  let s := { s with guard := { s.guard with bring := { s.guard.bring with b0 := s.clock } } }
  let s := s.bootBundle b
  if s.guard.bring.finalFail = some (1, 0) then
    ({ s with guard := { s.guard with bring := { s.guard.bring with running := false } } }).endBringUp
  else (s.measure b powerUp).buildUp b

/-- POWER_UP (R506): the Guard island powers up, or bring-up runs from B0. -/
def execPowerUp (b : BringUp) (s : State) : Res :=
  if s.guard.powered && !s.guard.bring.running then ok s
  else
    ok (({ s with time := { s.time with running := true }, guard := { s.guard with powered := true } }).bringUp b true)

/-- READINESS_CHANGE (R512). -/
def execReadinessChange (s : State) : Res := if s.guard.powered then ok s.reReady else ok s

/-- BRING_UP_DEADLINE (R512): a waiting failure still holds at B0 + 10.5 s. -/
def execBringUpDeadline (s : State) : Res :=
  let g := s.guard
  if g.powered && g.devState = .booting && !g.bring.running && decide (g.bring.b0 + 10500000000 ≤ s.clock) && s.readyFail.isSome then
    ok (s.setDev .notReady).endBringUp
  else ok s

/-! ## Full device reset (15_faults R459 R461 R463, 17_physical R507) -/

/-- What a full device reset leaves of a checkpoint (14_checkpoint Table 14-7). -/
def Ckpt.afterReset (k : Ckpt) : List Ckpt :=
  if k.st = .begun || k.st = .copying || k.st = .draining || k.st = .committing then
    [{ k with st := .failed, reason := 7, prot := [], saved := [], head := [], plan := [] }]
  else []

/-- Everything outside the Guard at its reset value, and of the Guard what R507 and the flash keep. -/
def State.wiped (s : State) : State :=
  let z := State.reset
  let g := s.guard
  let (a, n) := s.dumpRegion
  let m := (s.mem.zero 0 a).zero (a + n) 0x10000000000
  let perst := fun (p : Nat) => match portId p with | some q => s.ports[q].perstHigh | none => true
  let staged := g.fw.stagedOk
  { z with
    time := { z.time with clock := s.time.clock }
    cfg := { z.cfg with retained := s.cfg.retained, active := imgSet [] 0x240 (imgDumpBase s.act) }
    mem := { z.mem with bytes := m.bytes, poison := m.poison, undef := m.undef }
    ports := z.ports.mapIdx fun p (x : PortS) => { x with perstHigh := perst p }
    ckpts := s.ckpts.flatMap Ckpt.afterReset
    free := s.free, out := s.out, pending := s.pending
    guard := { z.guard with
      devState := .resetting
      owner := g.owner, keys := g.keys, log := g.log, pinned := g.pinned, logNext := g.logNext, unsent := g.unacked ++ g.unsent
      limits := { z.guard.limits with resetLimit := g.limits.resetLimit, resetWindow := g.limits.resetWindow, resetTimes := g.limits.resetTimes }
      repair := g.repair, sensors := g.sensors, tickets := g.tickets, mbox := g.mbox, dumps := g.dumps, dumpCount := g.dumpCount, heldFw := g.heldFw
      summaryAt := s.time.clock, jtag := g.jtag
      fw := if staged then { g.fw with active := !g.fw.active, staged := [], stagedLen := 0, stagedOk := false } else g.fw
      power := { z.guard.power with heldPower := g.power.heldPower ++ g.power.req.toList }
      bring := { z.guard.bring with reqs := g.bring.reqs } } }

/-- A full device reset: DEV_STATE RESETTING, every port OFF with its record (12_links R353), then bring-up. The record 0x0801 and the answers come at its end. -/
def State.fullReset (s : State) (planned : Bool) (b : BringUp) : State :=
  let s := ((List.finRange 12).foldl State.portOff (s.setDev .resetting)).wiped
  let s := { s with guard := { s.guard with bring := { s.guard.bring with resetRec := some (none, planned) } } }
  (s.setDev .booting).bringUp b false

/-- A reading is 95 degrees or more (R531). -/
def State.stillHot (s : State) : Bool := atLeast s.guard.tj 380 || atLeast s.guard.ts 380

/-- Request 0x06 once it is accepted: it is held after a thermal cutoff (R531), joins a bring-up that runs (R515), counts unless PLANNED, and
resets. With RETURN the count is cleared (15_faults R463). -/
def State.resetReq (s : State) (r : GReq) (b : BringUp) : State :=
  let planned := bit (fld r.data 0 1) 0
  let ret := bit (fld r.data 0 1) 1
  let join := fun (s : State) =>
    ({ s with guard := { s.guard with bring := { s.guard.bring with reqs := s.guard.bring.reqs ++ [r] } } }).keepReq r.src
  let s := if ret then { s with guard := { s.guard with limits := { s.guard.limits with resetTimes := [] } } } else s
  if s.guard.cutoff && s.stillHot then
    ({ s with guard := { s.guard with power := { s.guard.power with heldReset := s.guard.power.heldReset.orElse fun _ => some r } } }).answer
      r.src stHardware 0xFE []
  else if s.guard.devState = .booting || s.guard.devState = .resetting then join s
  else
    let (hit, s) := if planned || ret then (false, s) else s.countReset
    if hit then (s.answer r.src stState 0 []).removeFromService none
    else (join s).fullReset planned b

/-- FULL_DEVICE_RESET (15_faults R459). -/
def execFullDeviceReset (src : Src) (data : Bytes) (b : BringUp) (s : State) : Res :=
  s.request src 0x06 data (fun d => !bit (fld d 0 1) 1) openReq 1 [] fun r s =>
    if 3 < fld r.data 0 1 then s.answer r.src stMalformed 0 [] else s.resetReq r b

/-- RETURN_TO_SERVICE (15_faults R463): class OWNER where an owner record is present, otherwise any management session. -/
def execReturnToService (src : Src) (data : Bytes) (b : BringUp) (s : State) : Res :=
  let may := fun (r : GReq) => if s.guard.owner.isSome then s.isOwner r.src else s.fromMgmt r.src
  s.request src 0x06 data (fun d => bit (fld d 0 1) 1) may 1 [] fun r s =>
    if 3 < fld r.data 0 1 then s.answer r.src stMalformed 0 [] else s.resetReq r b

/-! ## The input and the rails (R506 R528 R531) -/

/-- POWER_LOSS (R506): the Guard island and all contents are lost, but for the module flash. -/
def execPowerLoss (s : State) : Res :=
  let z := State.reset
  let perst := fun (p : Nat) => match portId p with | some q => s.ports[q].perstHigh | none => true
  ok { z with
    time := { z.time with clock := s.time.clock, running := false }
    ports := z.ports.mapIdx fun p (x : PortS) => { x with perstHigh := perst p }
    free := s.free, out := s.out, pending := s.pending
    guard := { z.guard with powered := false, owner := s.guard.owner, fw := s.guard.fw, repair := s.guard.repair, sensors := s.guard.sensors, jtag := s.guard.jtag } }

/-- SUPPLY_FAULT (R528 R540): record 0x0702 with the rail, and the emergency point. -/
def execSupplyFault (rail : Nat) (s : State) : Res :=
  let g := s.guard
  if !g.powered || g.cutoff || g.overvolt || g.devState = .removed || 7 < rail then ok s
  else
    let s := s.native 5 0x0702 rail 0 0
    ok ({ s with guard := { s.guard with supply := { s.guard.supply with supplyFault := true } } }).settlePoint

/-- Every rail but the Guard island's is removed: what stood in the tiers and the staging memory is lost, the ports drop, the Stitch counter
stops, and the device is NOT_READY until a full device reset. -/
def State.railsOff (s : State) (detail : Nat) : State :=
  let s := (s.native 5 0x0702 detail 0 0).refuseWaiting
  let s := if s.guard.devState = .removed then s else s.setDev .notReady
  let s := (List.finRange 12).foldl State.portOff s
  let s := { s with
    binder := { s.binder with run := .off, taken := [] }
    engines := Vector.replicate 44 Engine.reset, counters := [], scheds := [], sent := [], recvs := [], held := []
    time := { s.time with running := false }
    mem := { s.mem with caches := Vector.replicate 4 [], poison := [] }
    guard := { s.guard with
      resetReq := none
      power := { s.guard.power with pstate := .run, wakeAt := none }
      supply := { s.guard.supply with vcomp := 0, vtarget := 0, stall := false } } }
  let s := ((s.undefine 0 nearSize).undefine farBase farSize).undefine (scratchBase 0) 0x20000000
  s.endBringUp

/-- OVERVOLTAGE (R528). -/
def execOvervoltage (s : State) : Res :=
  if !s.guard.powered || s.guard.overvolt then ok s
  else
    let s := s.railsOff 0xFF
    ok { s with guard := { s.guard with overvolt := true } }

/-- THERMAL_CUTOFF (R531): the regulator acts through its own comparators. -/
def execThermalCutoff (s : State) : Res :=
  if !s.guard.powered || s.guard.cutoff then ok s
  else
    let s := s.railsOff 0xFE
    ok { s with guard := { s.guard with cutoff := true } }

/-- CUTOFF_COOLDOWN (R531): both readings are below 95 degrees, and the Guard begins the held reset, which counts once. -/
def execCutoffCooldown (b : BringUp) (s : State) : Res :=
  match s.guard.power.heldReset with
  | none => ok s
  | some r =>
    if !s.guard.powered || !s.guard.cutoff || s.stillHot then ok s
    else
      let planned := bit (fld r.data 0 1) 0
      let (hit, s) := if planned || bit (fld r.data 0 1) 1 then (false, s) else s.countReset
      if hit then ok (s.removeFromService none)
      else
        let first := s.guard.logNext
        ok ((s.fullReset planned b).tagFrom first r.tag)

/-! ## The link reference (R525) -/

/-- REFERENCE_LOSS (R525): the tiers in self-refresh, the thermal stall, and every port DOWN with REASON 1. -/
def execReferenceLoss (ppm : Option Int) (s : State) : Res :=
  let g := s.guard
  if !g.powered || g.bring.running || g.refLost.isSome || g.cutoff || g.overvolt then ok s
  else
    let seq := g.logNext
    let s := s.native 5 0x0806 (bnat ppm.isSome) 0 (unsgn 32 (ppm.getD 0))
    let s := (List.finRange 12).foldl (fun s p => if s.ports[p].st = .off then s else s.portDown p 1) s
    let su := s.guard.supply
    ok { s with
      mem := { s.mem with selfRefresh := true }
      guard := { s.guard with refLost := some seq, supply := { su with stall := true, stallSince := if su.stall then su.stallSince else s.clock } } }

/-- REFERENCE_RESTORED (R525): a reference that bring-up waited for clears its failure; one that was lost makes a counted compute-partition
reset. -/
def execReferenceRestored (k : PartitionKat) (s : State) : Res :=
  if !s.guard.powered then ok s
  else if s.guard.bring.refAbsent then
    ok ({ s with guard := { s.guard with bring := { s.guard.bring with refAbsent := false } } }).reReady
  else match s.guard.refLost with
    | none => ok s
    | some q =>
      let s := ({ s with guard := { s.guard with refLost := none } }).endStall
      if s.guard.devState = .removed || s.guard.cutoff || s.guard.overvolt then ok s
      else if s.guard.devState = .booting || s.guard.devState = .resetting then ok { s with mem := { s.mem with selfRefresh := false } }
      else
        let (hit, s) := s.countReset
        if hit then ok (s.removeFromService (some q)) else ok (s.partitionReset (some q) k)

/-! ## JTAG (R521) -/

def State.setJtag (s : State) (j : Jtag) : State := { s with guard := { s.guard with jtag := j } }

/-- The instruction that acts now: EXTEST, CLAMP and HIGHZ take effect in NOT_READY or REMOVED only, and otherwise act as BYPASS. -/
def State.jtagActs (s : State) : Jtag :=
  match s.guard.jtag with
  | .extest | .clamp | .highz => if s.guard.devState = .notReady || s.guard.devState = .removed then s.guard.jtag else .bypass
  | j => j

def execBypass (s : State) : Res := ok (s.setJtag .bypass)
/-- IDCODE reads 0x1051_2A6B. -/
def execIdcode (s : State) : Res := ok ((s.setJtag .idcode).emit (.tdo 0x10512A6B))
def execSamplePreload (s : State) : Res := ok (s.setJtag .samplePreload)
def execExtest (s : State) : Res := ok (s.setJtag .extest)
def execClamp (s : State) : Res := ok (s.setJtag .clamp)
def execHighz (s : State) : Res := ok (s.setJtag .highz)

end Sys2Proof.Machine
end

