-- ==== Sys2Proof/Machine/Dispatch.lean ====
section
/-! DEFINITION. What each command does: one arm per constructor of Instr, each a direct call of its meaning. -/

namespace Sys2Proof.Machine

/-- The effect of a command on everything but the queue. -/
def exec (i : Instr) (s : State) : Host.Outcome State Fault Refusal :=
  match i with
  | .slotPost who mb resv upper => Sys2Proof.Machine.execSlotPost who mb resv upper s
  | .slotWithdraw who mb resv upper => Sys2Proof.Machine.execSlotWithdraw who mb resv upper s
  | .slotRelease who mb resv upper => Sys2Proof.Machine.execSlotRelease who mb resv upper s
  | .slotWrite who mb off width v => Sys2Proof.Machine.execSlotWrite who mb off width v s
  | .binderTake => Sys2Proof.Machine.execBinderTake s
  | .longCommandTimeout n => Sys2Proof.Machine.execLongCommandTimeout n s
  | .registerWrite who off width v bar2 => Sys2Proof.Machine.execRegisterWrite who off width v s bar2
  | .guardRegisterWrite who off width v => Sys2Proof.Machine.execGuardRegisterWrite who off width v s
  | .absentApertureAccess index off write => Sys2Proof.Machine.execAbsentApertureAccess index off write s
  | .hostRelay p dest body => Sys2Proof.Machine.execHostRelay p dest body s
  | .sysInfo n => Sys2Proof.Machine.execSysInfo n s
  | .sysReady n => Sys2Proof.Machine.execSysReady n s
  | .sysNop n => Sys2Proof.Machine.execSysNop n s
  | .ctxOpen n => Sys2Proof.Machine.execCtxOpen n s
  | .ctxClose n => Sys2Proof.Machine.execCtxClose n s
  | .ctxReset n => Sys2Proof.Machine.execCtxReset n s
  | .ctxTimeout n => Sys2Proof.Machine.execCtxTimeout n s
  | .ctxStatus n => Sys2Proof.Machine.execCtxStatus n s
  | .cfgPress n => Sys2Proof.Machine.execCfgPress n s
  | .cfgCheck n => Sys2Proof.Machine.execCfgCheck n s
  | .cfgRevert n => Sys2Proof.Machine.execCfgRevert n s
  | .schLoad n => Sys2Proof.Machine.execSchLoad n s
  | .schAdmit n => Sys2Proof.Machine.execSchAdmit n s
  | .schArm n => Sys2Proof.Machine.execSchArm n s
  | .armExchangeReceive sched entries => Sys2Proof.Machine.execArmExchangeReceive sched entries s
  | .schCancel n => Sys2Proof.Machine.execSchCancel n s
  | .schCancelAtBarrier n => Sys2Proof.Machine.execSchCancelAtBarrier n s
  | .schStatus n => Sys2Proof.Machine.execSchStatus n s
  | .schSlips n => Sys2Proof.Machine.execSchSlips n s
  | .memMap n => Sys2Proof.Machine.execMemMap n s
  | .memUnmap n => Sys2Proof.Machine.execMemUnmap n s
  | .memHostCopy n host poisonedTlp failedParts ev => Sys2Proof.Machine.execMemHostCopy n host poisonedTlp failedParts s ev
  | .memPoisonScan n => Sys2Proof.Machine.execMemPoisonScan n s
  | .lnkPress n => Sys2Proof.Machine.execLnkPress n s
  | .lnkStatus n => Sys2Proof.Machine.execLnkStatus n s
  | .lnkReserveInstall n => Sys2Proof.Machine.execLnkReserveInstall n s
  | .lnkReserveRelease n => Sys2Proof.Machine.execLnkReserveRelease n s
  | .lnkQualify n => Sys2Proof.Machine.execLnkQualify n s
  | .lnkQuarantine n => Sys2Proof.Machine.execLnkQuarantine n s
  | .lnkQuarantineRelease n => Sys2Proof.Machine.execLnkQuarantineRelease n s
  | .timStatus n => Sys2Proof.Machine.execTimStatus n s
  | .colStatus n => Sys2Proof.Machine.execColStatus n s
  | .colReplay n => Sys2Proof.Machine.execColReplay n s
  | .diagnosticReplay sched => Sys2Proof.Machine.execDiagnosticReplay sched s
  | .colKat n => Sys2Proof.Machine.execColKat n s
  | .colAdmitDeviceLoad n answers => Sys2Proof.Machine.execColAdmitDeviceLoad n answers s
  | .colAdmitDeviceShadow n answers => Sys2Proof.Machine.execColAdmitDeviceShadow n answers s
  | .colPeerLoad n failed => Sys2Proof.Machine.execColPeerLoad n failed s
  | .startShadowFeed n => Sys2Proof.Machine.execStartShadowFeed n s
  | .endShadowFeed n => Sys2Proof.Machine.execEndShadowFeed n s
  | .shadowFeedReceive p resId item => Sys2Proof.Machine.execShadowFeedReceive p resId item s
  | .shadowStep step => Sys2Proof.Machine.execShadowStep step s
  | .shadowFeedStall p => Sys2Proof.Machine.execShadowFeedStall p s
  | .ckpBegin n replies => Sys2Proof.Machine.execCkpBegin n replies s
  | .ckpStatus n => Sys2Proof.Machine.execCkpStatus n s
  | .ckpLoad n record pieces => Sys2Proof.Machine.execCkpLoad n record pieces s
  | .ckpAbort n => Sys2Proof.Machine.execCkpAbort n s
  | .ckpPeerBegin n record => Sys2Proof.Machine.execCkpPeerBegin n s record
  | .ckpPeerPieceDone n => Sys2Proof.Machine.execCkpPeerPieceDone n s
  | .ckpPeerHashList n => Sys2Proof.Machine.execCkpPeerHashList n s
  | .ckpPeerRecord n => Sys2Proof.Machine.execCkpPeerRecord n s
  | .ckpPeerFetch n failed => Sys2Proof.Machine.execCkpPeerFetch n failed s
  | .ckpPeerAbort n => Sys2Proof.Machine.execCkpPeerAbort n s
  | .numScalesRead n => Sys2Proof.Machine.execNumScalesRead n s
  | .numScalesWrite n => Sys2Proof.Machine.execNumScalesWrite n s
  | .numMonitor n => Sys2Proof.Machine.execNumMonitor n s
  | .trcStart n => Sys2Proof.Machine.execTrcStart n s
  | .trcRead n => Sys2Proof.Machine.execTrcRead n s
  | .fltInject n => Sys2Proof.Machine.execFltInject n s
  | .fltRecords n => Sys2Proof.Machine.execFltRecords n s
  | .injectionFire id => Sys2Proof.Machine.execInjectionFire id s
  | .nop e => Sys2Proof.Machine.execNop e s
  | .endPkt e => Sys2Proof.Machine.execEndPkt e s
  | .wait e => Sys2Proof.Machine.execWait e s
  | .waitSatisfied e => Sys2Proof.Machine.execWaitSatisfied e s
  | .signal e => Sys2Proof.Machine.execSignal e s
  | .remoteSignalAck e accepted => Sys2Proof.Machine.execRemoteSignalAck e accepted s
  | .tokenMessageReceive p m => Sys2Proof.Machine.execTokenMessageReceive p m s
  | .loop e ev => Sys2Proof.Machine.execLoop e s ev
  | .endloop e => Sys2Proof.Machine.execEndloop e s
  | .setreg e => Sys2Proof.Machine.execSetreg e s
  | .leafLoad e units ev => Sys2Proof.Machine.execLeafLoad e units s ev
  | .streamRows e units ev => Sys2Proof.Machine.execStreamRows e units ev s
  | .add e units ev => Sys2Proof.Machine.execAdd e units s ev
  | .sub e units ev => Sys2Proof.Machine.execSub e units s ev
  | .mul e units ev => Sys2Proof.Machine.execMul e units s ev
  | .fma e units ev => Sys2Proof.Machine.execFma e units s ev
  | .max e units ev => Sys2Proof.Machine.execMax e units s ev
  | .min e units ev => Sys2Proof.Machine.execMin e units s ev
  | .abs e units ev => Sys2Proof.Machine.execAbs e units s ev
  | .neg e units ev => Sys2Proof.Machine.execNeg e units s ev
  | .cvt e units ev => Sys2Proof.Machine.execCvt e units s ev
  | .scale e units ev => Sys2Proof.Machine.execScale e units s ev
  | .select e units ev => Sys2Proof.Machine.execSelect e units s ev
  | .cmp e units ev => Sys2Proof.Machine.execCmp e units s ev
  | .exp e units ev => Sys2Proof.Machine.execExp e units s ev
  | .log e units ev => Sys2Proof.Machine.execLog e units s ev
  | .sqrt e units ev => Sys2Proof.Machine.execSqrt e units s ev
  | .rsqrt e units ev => Sys2Proof.Machine.execRsqrt e units s ev
  | .recip e units ev => Sys2Proof.Machine.execRecip e units s ev
  | .div e units ev => Sys2Proof.Machine.execDiv e units s ev
  | .tanh e units ev => Sys2Proof.Machine.execTanh e units s ev
  | .sigmoid e units ev => Sys2Proof.Machine.execSigmoid e units s ev
  | .erf e units ev => Sys2Proof.Machine.execErf e units s ev
  | .gelu e units ev => Sys2Proof.Machine.execGelu e units s ev
  | .silu e units ev => Sys2Proof.Machine.execSilu e units s ev
  | .rsum e units ev => Sys2Proof.Machine.execRsum e units s ev
  | .rsumsq e units ev => Sys2Proof.Machine.execRsumsq e units s ev
  | .rmax e units ev => Sys2Proof.Machine.execRmax e units s ev
  | .rmin e units ev => Sys2Proof.Machine.execRmin e units s ev
  | .ramax e units ev => Sys2Proof.Machine.execRamax e units s ev
  | .rdot e units ev => Sys2Proof.Machine.execRdot e units s ev
  | .softmax e units ev => Sys2Proof.Machine.execSoftmax e units s ev
  | .softmaxBwd e units ev => Sys2Proof.Machine.execSoftmaxBwd e units s ev
  | .lnorm e units ev => Sys2Proof.Machine.execLnorm e units s ev
  | .rmsnorm e units ev => Sys2Proof.Machine.execRmsnorm e units s ev
  | .lnormBwd e units ev => Sys2Proof.Machine.execLnormBwd e units s ev
  | .rmsnormBwd e units ev => Sys2Proof.Machine.execRmsnormBwd e units s ev
  | .csum e units ev => Sys2Proof.Machine.execCsum e units s ev
  | .rfold e units ev => Sys2Proof.Machine.execRfold e units s ev
  | .copy e units ev => Sys2Proof.Machine.execCopy e units ev s
  | .copyList e units ev => Sys2Proof.Machine.execCopyList e units s ev
  | .tip e units ev => Sys2Proof.Machine.execTip e units s ev
  | .update e units ev => Sys2Proof.Machine.execUpdate e units s ev
  | .route e units ev => Sys2Proof.Machine.execRoute e units s ev
  | .engineCommandComplete e pos ev => Sys2Proof.Machine.execEngineCommandComplete e pos s ev
  | .commandTimeout e => Sys2Proof.Machine.execCommandTimeout e s
  | .stopAcknowledge e => Sys2Proof.Machine.execStopAcknowledge e s
  | .unitWedged e => Sys2Proof.Machine.execUnitWedged e s
  | .dataPartReceive p m => Sys2Proof.Machine.execDataPartReceive p m s
  | .remoteCopyDeclare p m => Sys2Proof.Machine.execRemoteCopyDeclare p m s
  | .partAcknowledge copy part accepted => Sys2Proof.Machine.execPartAcknowledge copy part accepted s
  | .copyAbandon p resId copy => Sys2Proof.Machine.execCopyAbandon p resId copy s
  | .correctedErrorWarningClear channel => Sys2Proof.Machine.execCorrectedErrorWarningClear channel s
  | .patrolScrub addr found => Sys2Proof.Machine.execPatrolScrub addr found s
  | .stagingScrub q addr found => Sys2Proof.Machine.execStagingScrub q addr found s
  | .regionZeroing => Sys2Proof.Machine.execRegionZeroing s
  | .stackSensorReport readings => Sys2Proof.Machine.execStackSensorReport readings s
  | .throttleBandRaise => Sys2Proof.Machine.execThrottleBandRaise s
  | .throttleStepDown => Sys2Proof.Machine.execThrottleStepDown s
  | .junctionSensorReport r => Sys2Proof.Machine.execJunctionSensorReport r s
  | .operatingPointReturn => Sys2Proof.Machine.execOperatingPointReturn s
  | .voltageStep => Sys2Proof.Machine.execVoltageStep s
  | .thermalStall => Sys2Proof.Machine.execThermalStall s
  | .coolantDemand powerW => Sys2Proof.Machine.execCoolantDemand powerW s
  | .binderAlive => Sys2Proof.Machine.execBinderAlive s
  | .binderWatchdog => Sys2Proof.Machine.execBinderWatchdog s
  | .phaseLaunch sched phase => Sys2Proof.Machine.execPhaseLaunch sched phase s
  | .backgroundWindow sched entry => Sys2Proof.Machine.execBackgroundWindow sched entry s
  | .knownAnswerRun p failed quireFailed => Sys2Proof.Machine.execKnownAnswerRun p failed quireFailed s
  | .barrierUpSend sched => Sys2Proof.Machine.execBarrierUpSend sched s
  | .barrierUpReceive p m => Sys2Proof.Machine.execBarrierUpReceive p m s
  | .barrierDownReceive p m => Sys2Proof.Machine.execBarrierDownReceive p m s
  | .voteReceive p m => Sys2Proof.Machine.execVoteReceive p m s
  | .barrierLimitExpiry sched => Sys2Proof.Machine.execBarrierLimitExpiry sched s
  | .replayStart sched => Sys2Proof.Machine.execReplayStart sched s
  | .logItemInject sched => Sys2Proof.Machine.execLogItemInject sched s
  | .syncExchangeStart p => Sys2Proof.Machine.execSyncExchangeStart p s
  | .syncReceive p m => Sys2Proof.Machine.execSyncReceive p m s
  | .replyReceive p m => Sys2Proof.Machine.execReplyReceive p m s
  | .holdoverEntry => Sys2Proof.Machine.execHoldoverEntry s
  | .unlockedEntry => Sys2Proof.Machine.execUnlockedEntry s
  | .portBarExpiry p => Sys2Proof.Machine.execPortBarExpiry p s
  | .rootConflictReport => Sys2Proof.Machine.execRootConflictReport s
  | .ppsEdge ref10m => Sys2Proof.Machine.execPpsEdge s ref10m
  | .ppsLoss => Sys2Proof.Machine.execPpsLoss s
  | .trainingRetry p => Sys2Proof.Machine.execTrainingRetry p s
  | .signalDetect p => Sys2Proof.Machine.execSignalDetect p s
  | .peerAdmissionMessage p m => Sys2Proof.Machine.execPeerAdmissionMessage p m s
  | .qualificationSoakEnd k => Sys2Proof.Machine.execQualificationSoakEnd k s
  | .dataFrameReceive p f => Sys2Proof.Machine.execDataFrameReceive p f s
  | .frameReplay p seq => Sys2Proof.Machine.execFrameReplay p seq s
  | .fastRetrain p => Sys2Proof.Machine.execFastRetrain p s
  | .retrainComplete p ok => Sys2Proof.Machine.execRetrainComplete p ok s
  | .lossOfSignal p => Sys2Proof.Machine.execLossOfSignal p s
  | .routeClosed p resId => Sys2Proof.Machine.execRouteClosed p resId s
  | .linkWarning k => Sys2Proof.Machine.execLinkWarning k s
  | .linkWarningClear p => Sys2Proof.Machine.execLinkWarningClear p s
  | .vcCreditStall p vc => Sys2Proof.Machine.execVcCreditStall p vc s
  | .keyRenewal p => Sys2Proof.Machine.execKeyRenewal p s
  | .peerMailboxPost p n off width v => Sys2Proof.Machine.execPeerMailboxPost p n off width v s
  | .hostPerstRise second => Sys2Proof.Machine.execHostPerstRise second s
  | .hostPerstFall second => Sys2Proof.Machine.execHostPerstFall second s
  | .hostPortFailover => Sys2Proof.Machine.execHostPortFailover s
  | .fastCopy sheets => Sys2Proof.Machine.execFastCopy sheets s
  | .heldWrite => Sys2Proof.Machine.execHeldWrite s
  | .drain piece ack => Sys2Proof.Machine.execDrain piece ack s
  | .ckpLimitExpiry id => Sys2Proof.Machine.execCkpLimitExpiry id s
  | .recordSend => Sys2Proof.Machine.execRecordSend s
  | .recordRepeat => Sys2Proof.Machine.execRecordRepeat s
  | .collectorAck seq => Sys2Proof.Machine.execCollectorAck seq s
  | .summaryRecord => Sys2Proof.Machine.execSummaryRecord s
  | .sessionTimeout session => Sys2Proof.Machine.execSessionTimeout session s
  | .guardTake => Sys2Proof.Machine.execGuardTake s
  | .logRead src data => Sys2Proof.Machine.execLogRead src data s
  | .crashDumpRead src data => Sys2Proof.Machine.execCrashDumpRead src data s
  | .sensorRead src data => Sys2Proof.Machine.execSensorRead src data s
  | .powerStateChangeNap src data => Sys2Proof.Machine.execPowerStateChangeNap src data s
  | .powerStateChangeHold src data => Sys2Proof.Machine.execPowerStateChangeHold src data s
  | .powerStateChangeRun src data k => Sys2Proof.Machine.execPowerStateChangeRun src data k s
  | .powerStateEntry => Sys2Proof.Machine.execPowerStateEntry s
  | .powerStateEntryTimeout => Sys2Proof.Machine.execPowerStateEntryTimeout s
  | .wakeAfterExpiry k => Sys2Proof.Machine.execWakeAfterExpiry k s
  | .binderReset src data k => Sys2Proof.Machine.execBinderReset src data k s
  | .fullDeviceReset src data b => Sys2Proof.Machine.execFullDeviceReset src data b s
  | .returnToService src data b => Sys2Proof.Machine.execReturnToService src data b s
  | .linkHoldSet src data => Sys2Proof.Machine.execLinkHoldSet src data s
  | .linkHoldRelease src data => Sys2Proof.Machine.execLinkHoldRelease src data s
  | .attestation src data => Sys2Proof.Machine.execAttestation src data s
  | .getVersion src => Sys2Proof.Machine.execGetVersion src s
  | .getCapabilities src version => Sys2Proof.Machine.execGetCapabilities src version s
  | .negotiateAlgorithms src algs => Sys2Proof.Machine.execNegotiateAlgorithms src algs s
  | .getDigests src => Sys2Proof.Machine.execGetDigests src s
  | .getCertificate src slot off len => Sys2Proof.Machine.execGetCertificate src slot off len s
  | .challenge src slot nonce => Sys2Proof.Machine.execChallenge src slot nonce s
  | .getMeasurements src index signed nonce => Sys2Proof.Machine.execGetMeasurements src index signed nonce s
  | .keyExchange src session exchange mutAuth => Sys2Proof.Machine.execKeyExchange src session exchange mutAuth s
  | .finish session chain sig verifyOk => Sys2Proof.Machine.execFinish session chain sig verifyOk s
  | .heartbeat session => Sys2Proof.Machine.execHeartbeat session s
  | .keyUpdate session => Sys2Proof.Machine.execKeyUpdate session s
  | .endSession session => Sys2Proof.Machine.execEndSession session s
  | .chunkSend src handle seq last chunk => Sys2Proof.Machine.execChunkSend src handle seq last chunk s
  | .chunkGet src handle seq => Sys2Proof.Machine.execChunkGet src handle seq s
  | .setLimit src data => Sys2Proof.Machine.execSetLimit src data s
  | .setBound src data => Sys2Proof.Machine.execSetBound src data s
  | .setResetPolicy src data => Sys2Proof.Machine.execSetResetPolicy src data s
  | .clearLog src data => Sys2Proof.Machine.execClearLog src data s
  | .keyInstall src data => Sys2Proof.Machine.execKeyInstall src data s
  | .keyErase src data => Sys2Proof.Machine.execKeyErase src data s
  | .issueTicket src data => Sys2Proof.Machine.execIssueTicket src data s
  | .fwStage src data => Sys2Proof.Machine.execFwStage src data s
  | .fwStatus src data => Sys2Proof.Machine.execFwStatus src data s
  | .takeOwner src data => Sys2Proof.Machine.execTakeOwner src data s
  | .releaseOwner src data => Sys2Proof.Machine.execReleaseOwner src data s
  | .mgmtConfig src data => Sys2Proof.Machine.execMgmtConfig src data s
  | .mgmtPost src data => Sys2Proof.Machine.execMgmtPost src data s
  | .mgmtPostFetch src data => Sys2Proof.Machine.execMgmtPostFetch src data s
  | .computePartitionReset k => Sys2Proof.Machine.execComputePartitionReset k s
  | .powerUp b => Sys2Proof.Machine.execPowerUp b s
  | .readinessChange => Sys2Proof.Machine.execReadinessChange s
  | .bringUpDeadline => Sys2Proof.Machine.execBringUpDeadline s
  | .powerLoss => Sys2Proof.Machine.execPowerLoss s
  | .supplyFault rail => Sys2Proof.Machine.execSupplyFault rail s
  | .overvoltage => Sys2Proof.Machine.execOvervoltage s
  | .thermalCutoff => Sys2Proof.Machine.execThermalCutoff s
  | .cutoffCooldown b => Sys2Proof.Machine.execCutoffCooldown b s
  | .referenceLoss ppm => Sys2Proof.Machine.execReferenceLoss ppm s
  | .referenceRestored k => Sys2Proof.Machine.execReferenceRestored k s
  | .bypass => Sys2Proof.Machine.execBypass s
  | .idcode => Sys2Proof.Machine.execIdcode s
  | .samplePreload => Sys2Proof.Machine.execSamplePreload s
  | .extest => Sys2Proof.Machine.execExtest s
  | .clamp => Sys2Proof.Machine.execClamp s
  | .highz => Sys2Proof.Machine.execHighz s
  | .frameLock p r => Sys2Proof.Machine.execFrameLock p r s
  | .noSignal p lane => Sys2Proof.Machine.execNoSignal p lane s
  | .hostLinkUp p => Sys2Proof.Machine.execHostLinkUp p s
  | .liveSoakEnd n soaks => Sys2Proof.Machine.execLiveSoakEnd n soaks s
  | .mgmtPostTimeout src => Sys2Proof.Machine.execMgmtPostTimeout src s

end Sys2Proof.Machine
end

