-- ==== Sys2Proof/Machine/Tick.lean ====
section
/-! DEFINITION. A tick of 1 ns of the Guard oscillator: what a step does where no command waits (log entry 4). -/

namespace Sys2Proof.Machine

/-- The rate of the Stitch counter in units of 1/1,024 ppb: frequency and slew corrections (11_time R309 R317). -/
def Time.rate (t : Time) : Int := t.freq + 1024 * t.slew

/-- 1 ns of the Guard oscillator passes; the Stitch counter advances by 1 ns and its corrections, unless it stands still (11_time R309
R310). -/
def Time.tick (t : Time) : Time :=
  let a := ((t.acc : Int) + 1024000000000 + t.rate).toNat
  if !t.running then { t with clock := t.clock + 1 }
  else if t.still ≠ 0 then { t with clock := t.clock + 1, still := t.still - 1 }
  else { t with clock := t.clock + 1, stitch := t.stitch + BitVec.ofNat 64 (a / 1024000000000), acc := a % 1024000000000 }

/-- One tick of the block. The counter stands still while the Guard is unpowered. -/
def State.tick (s : State) : State := { s with time := s.time.tick }

end Sys2Proof.Machine
end

