-- ==== Sys2Proof/Safety.lean ====
section
/-! DEFINITION. What counts as a sound state and a sound run of the block, and the terms in which the claims are stated. -/

namespace Sys2Proof.Machine

/-! ## Sound states -/

/-- The error log keeps its bounds: 16,384 records in the ring and 64 in the pinned area (15_faults R450). -/
abbrev State.logBounded (s : State) : Prop := s.guard.log.length ≤ 16384 ∧ s.guard.pinned.length ≤ 64

/-- The stores are in their canonical form, and the log keeps its bounds. -/
abbrev State.sound (s : State) : Prop := s.mem.wf = true ∧ s.logBounded

/-- A state after some steps. -/
inductive Reaches : State → State → Prop where
  | here (s : State) : Reaches s s
  | next {s t u : State} : step s = .next t → Reaches t u → Reaches s u

/-- A run that has not stopped: from every state that steps lead to, another step answers a next state. -/
def State.safe (s : State) : Prop := ∀ t, Reaches s t → ∃ u, step t = .next u

/-! ## Commands that complete in their slots -/

/-- What the completion of a command leaves in its slot: STATE 3, STATUS, DETAIL, RLEN, STAMP, the response over the payload, the other
header fields as posted, and every other slot as it was (02_binder R47, Table 02-4). -/
structure Answered (s t : State) (n : SlotId) (status detail : Nat) (resp : Bytes) : Prop where
  header : t.slots[n].hdr = { s.slots[n].hdr with
    state := 3, status := BitVec.ofNat 16 status, detail := BitVec.ofNat 16 detail, rlen := BitVec.ofNat 16 resp.length, stamp := s.time.stitch }
  payload : t.slots[n].payload = wrMap s.slots[n].payload 0 resp
  released : t.slots[n].held = .none
  others : ∀ m, m ≠ n → t.slots[m] = s.slots[m]
  taken : t.binder.taken = s.binder.taken.filter fun m => m ≠ n

/-- Two states that differ in their slots, in the Binder's list of taken slots, in what the block has sent, and in the TAG of log records, and
in nothing else. -/
def SameButAnswers (s t : State) : Prop :=
  { t with slots := s.slots, binder.taken := s.binder.taken, out := s.out, guard.log := s.guard.log, guard.pinned := s.guard.pinned } = s

/-- No request of the Guard waits for the command of a slot (16_guard R481). -/
abbrev State.notRelayed (s : State) (n : SlotId) : Prop := ∀ m ∈ s.guard.mposts, m.slot ≠ n

/-- A command of a slot answers the state that its meaning gives; the log records it causes carry its TAG (02_binder, slot header). -/
def Serves (s : State) (c : Instr) (n : SlotId) (t : State) : Prop :=
  exec c s = .next (t.tagFrom s.guard.logNext s.slots[n].hdr.tag)

/-- A command completes in its slot with a status and a response, and changes nothing but what a function of the state gives. -/
def Completes (s : State) (c : Instr) (n : SlotId) (status : Nat) (resp : Bytes) (change : State → State) : Prop :=
  ∃ t, exec c s = .next t ∧ Answered s t n status 0 resp ∧ SameButAnswers (change s) t

/-! ## Requests that the Guard serves -/

/-- A message keeps its session open (16_guard R491). -/
def State.heardBy (s : State) (src : Src) : State := match src with | .mgmt n _ => s.heard n | _ => s

/-- A request reaches the Guard under a code and passes the checks that come before its own (16_guard R479 R484, 15_faults R463). -/
structure Asks (s : State) (src : Src) (code : Nat) (data : Bytes) (r : GReq) (fixed : Nat) (resv : List (Nat × Nat)) : Prop where
  reaches : s.reqOf src code data = some r
  served : s.guard.bring.finalFail ≠ some (2, 0) ∨ code ≤ 3
  inService : s.guard.devState ≠ .removed ∨ refusedRemoved r = false
  sized : fixed ≤ r.data.length ∧ r.data.length ≤ 4032
  zeros : (resv.all fun x => allZero r.data x.1 x.2) = true

/-- A request of the Guard answers the state that its meaning gives; the log records that it causes carry its TAG. -/
def Handles (s : State) (c : Instr) (r : GReq) (t : State) : Prop := exec c s = .next (t.tagFrom s.guard.logNext r.tag)

/-- The vector operations, each with its opcode (05_vector_optimizer). -/
def vectorCommands (e : EngId) (units : Nat) (ev : List MemEvent) : List (Instr × Nat) :=
  [(.add e units ev, 0x01), (.sub e units ev, 0x02), (.mul e units ev, 0x03), (.fma e units ev, 0x04), (.max e units ev, 0x05), (.min e units ev, 0x06),
   (.abs e units ev, 0x07), (.neg e units ev, 0x08), (.cvt e units ev, 0x09), (.scale e units ev, 0x0A), (.select e units ev, 0x0B), (.cmp e units ev, 0x0C),
   (.exp e units ev, 0x10), (.log e units ev, 0x11), (.sqrt e units ev, 0x12), (.rsqrt e units ev, 0x13), (.recip e units ev, 0x14), (.div e units ev, 0x15),
   (.tanh e units ev, 0x16), (.sigmoid e units ev, 0x17), (.erf e units ev, 0x18), (.gelu e units ev, 0x20), (.silu e units ev, 0x21), (.rsum e units ev, 0x30),
   (.rsumsq e units ev, 0x31), (.rmax e units ev, 0x32), (.rmin e units ev, 0x33), (.ramax e units ev, 0x34), (.rdot e units ev, 0x35), (.softmax e units ev, 0x38),
   (.softmaxBwd e units ev, 0x39), (.lnorm e units ev, 0x3A), (.rmsnorm e units ev, 0x3B), (.lnormBwd e units ev, 0x3C), (.rmsnormBwd e units ev, 0x3D), (.csum e units ev, 0x3E),
   (.rfold e units ev, 0x40)]

end Sys2Proof.Machine
end

