-- ==== Sys2Proof/Certificates/Slice0/Obligations.lean ====
section
/-! DEFINITION. The statements for the provers: what the commands do, what every step keeps, and what the stores of the block hold. A statement
about a command says that it answers a next state, and which; the next state is written with the operations of the model, so what it does not name is unchanged. -/

open Sys2Proof Sys2Proof.Machine

/-! ## The queue, the invariants and reset -/

/-- A step takes the command at the front of the queue and runs it on the state with the rest of the queue. -/
def Obligations.StepRunsTheFrontCommand : Prop :=
  ∀ (s : State) (c : Instr) (cs : List Instr), step { s with pending := c :: cs } = exec c { s with pending := cs }

/-- On an empty queue 1 ns of the Guard oscillator passes, and nothing but the time state changes (the model's choice, log entry 4). While the Stitch
counter runs, it advances by at most the rate that its corrections give. -/
def Obligations.AnEmptyQueueLetsTimePass : Prop :=
  ∀ s : State, s.pending = [] → ∃ t, step s = .next t ∧ { t with time := s.time } = s ∧ t.time.clock = s.time.clock + 1 ∧
    { t.time with clock := s.time.clock, stitch := s.time.stitch, acc := s.time.acc, still := s.time.still } = s.time ∧
    (s.time.running = false ∨ s.time.still ≠ 0 → t.time.stitch = s.time.stitch) ∧
    (s.time.running = true → s.time.still = 0 → s.time.freq = 0 → s.time.slew = 0 → s.time.acc = 0 →
      t.time.stitch = s.time.stitch + 1)

/-- No command adds to the queue of waiting commands or takes from it. -/
def Obligations.NoCommandTouchesTheQueue : Prop :=
  ∀ (c : Instr) (s t : State), exec c s = .next t → t.pending = s.pending

/-- Every step keeps the memory of the block in its canonical form: its maps rise strictly and list no default. -/
def Obligations.EveryStepKeepsTheStoresCanonical : Prop :=
  ∀ s t : State, s.mem.wf = true → step s = .next t → t.mem.wf = true

/-- Every step keeps the bounds of the error log: 16,384 records in the ring and 64 in the pinned area (R450). -/
def Obligations.EveryStepKeepsTheLogBounds : Prop :=
  ∀ s t : State, s.logBounded → step s = .next t → t.logBounded

/-- No command is refused: every row of the table has its effect. -/
def Obligations.NoCommandIsRefused : Prop :=
  ∀ (c : Instr) (s : State) (r : Refusal), exec c s ≠ .refused r

/-- The state after reset is sound: no command waits; every slot reads zero and expects SEQ 1; no context is open, no schedule is loaded and no port
is up; every byte of memory reads zero (the model's choice where the spec gives no content, log entry 1). -/
def Obligations.TheResetStateIsSound : Prop :=
  State.reset.sound ∧ State.reset.pending = [] ∧
  (∀ n : SlotId, State.reset.slots[n].hdr = Hdr.reset ∧ State.reset.slots[n].payload = [] ∧ State.reset.slots[n].expSeq = 1) ∧
  (∀ c : Fin 64, State.reset.ctxs[c].isOpen = false) ∧ State.reset.scheds = [] ∧ (∀ p : Port, State.reset.ports[p].st = .off) ∧
  (∀ e : EngId, State.reset.engines[e].running = false) ∧ (∀ a, State.reset.memByte a = 0) ∧ State.reset.guard.log = []

/-! ## Slots and registers -/

/-- The agent that may write in a slot of the Binder reaches it (R45): the windows answer, and the slot's class names the agent. -/
def Obligations.TheStateWriteCommits : Prop :=
  ∀ (s : State) (who : Agent) (n : SlotId) (resv : BitVec 6) (upper : Option W32), s.windowsDead = false → s.mayWrite who n = true →
    let x := s.slots[n]
    let h := (upper.map fun u => x.hdr.setWord 1 u.toNat).getD x.hdr
    (x.hdr.state = 0 → exec (.slotPost who (.slot n) resv upper) s = .next (s.setSlot n { x with hdr := { h with state := 1, resv0 := resv, viol := 0 } })) ∧
    (x.hdr.state = 3 → exec (.slotRelease who (.slot n) resv upper) s = .next (s.setSlot n { x with hdr := { h with state := 0, resv0 := resv } })) ∧
    (x.hdr.state = 1 → upper = none →
      exec (.slotWithdraw who (.slot n) resv upper) s = .next (s.setSlot n { x with hdr := { x.hdr with state := 0, resv0 := resv } })) ∧
    (x.hdr.state = 2 → upper = none → ∃ t, exec (.slotWithdraw who (.slot n) resv upper) s = .next t ∧ t.slots[n].hdr.state = 2)

/-- A write to the payload of a slot in state 0 or 3 stores its bytes there, and nothing else changes; a peer's write over its link does the same on
its assigned port. The Guard mailbox takes the host's writes as a slot does, and an access by another agent only counts; its payload is read back. -/
def Obligations.SlotWritesStoreTheirBytes : Prop :=
  (∀ (s : State) (who : Agent) (n : SlotId) (off width : Nat) (v : W64), s.windowsDead = false → s.mayWrite who n = true →
    (s.slots[n].hdr.state = 0 ∨ s.slots[n].hdr.state = 3) → (width = 1 ∨ width = 2 ∨ width = 4 ∨ width = 8) → off % width = 0 → 64 ≤ off →
    off + width ≤ 4096 →
    let t := s.setSlot n { s.slots[n] with payload := wrMap s.slots[n].payload (off - 64) (le width (v.toNat % 2 ^ (8 * width))) }
    exec (.slotWrite who (.slot n) off width v) s = .next t ∧
    ∀ p, who = .peer p → s.ports[p].admitted = true → exec (.peerMailboxPost p n off width v) s = .next t) ∧
  (∀ (s : State) (resv : BitVec 6), s.guard.powered = true →
    let m := s.guard.mbox
    (m.hdr.state = 0 → exec (.slotPost .host .guard resv none) s = .next { s with guard.mbox := { m with hdr := { m.hdr with state := 1, resv0 := resv, viol := 0 } } }) ∧
    (m.hdr.state = 3 → exec (.slotRelease .host .guard resv none) s = .next { s with guard.mbox := { m with hdr := { m.hdr with state := 0, resv0 := resv } } }) ∧
    (m.hdr.state = 1 → exec (.slotWithdraw .host .guard resv none) s = .next { s with guard.mbox := { m with hdr := { m.hdr with state := 0, resv0 := resv } } }) ∧
    (∀ who off width v, who ≠ .host → exec (.slotWrite who .guard off width v) s = .next { s with guard.mbox := m.violate }) ∧
    (∀ off v, m.hdr.state = 0 → off % 8 = 0 → 64 ≤ off → off + 8 ≤ 4096 → AMap.wf zeroB m.payload = true →
      ∃ t, exec (.slotWrite .host .guard off 8 v) s = .next t ∧ rdMap t.guard.mbox.payload (off - 64) 8 = le 8 v.toNat))

/-- While STATE is 1 or 2, a write of the poster to any byte of the slot outside the first header word changes nothing but VIOL, which it increments
up to its limit. -/
def Obligations.WritesToTakenSlotsCount : Prop :=
  ∀ (s : State) (who : Agent) (n : SlotId) (off width : Nat) (v : W64), s.windowsDead = false → s.mayWrite who n = true →
    (s.slots[n].hdr.state = 1 ∨ s.slots[n].hdr.state = 2) → off % width = 0 → 4 ≤ off → off + width ≤ 4096 →
    ((off < 64 ∧ (width = 4 ∨ width = 8)) ∨ (64 ≤ off ∧ (width = 1 ∨ width = 2 ∨ width = 4 ∨ width = 8))) →
    exec (.slotWrite who (.slot n) off width v) s = .next (s.setSlot n { s.slots[n] with
      hdr.viol := if s.slots[n].hdr.viol = 0xFFFF then 0xFFFF else s.slots[n].hdr.viol + 1 })

/-- A write by an agent that the slot's class does not name changes no byte of the slot but VIOL. -/
def Obligations.WritesByOthersAreIgnored : Prop :=
  ∀ (s : State) (who : Agent) (n : SlotId) (off width : Nat) (v : W64), s.windowsDead = false → s.mayWrite who n = false →
    exec (.slotWrite who (.slot n) off width v) s = .next (s.setSlot n { s.slots[n] with
      hdr.viol := if s.slots[n].hdr.viol = 0xFFFF then 0xFFFF else s.slots[n].hdr.viol + 1 })

/-- The Binder takes the next posted slot of its scan: a post that passes the checks reaches STATE 2 and waits its turn, and its SEQ is used up. -/
def Obligations.TheBinderTakesAPost : Prop :=
  ∀ (s : State) (n : SlotId), s.nextPosted = some n → s.binder.run ≠ .off → s.slots[n].hdr.seq = s.slots[n].expSeq → s.postCheck n = none →
    (s.slots[n].ctxNo = 0 ∨ s.ctxs[ctxId s.slots[n].ctxNo].resetting = false) →
    exec .binderTake s = .next { s.setSlot n { s.slots[n] with
        expSeq := s.slots[n].expSeq + 1, hdr.state := 2, takenAt := s.clock, held := .none } with
      binder.taken := s.binder.taken ++ [n], binder.scanPos := n }

/-- A post with another SEQ completes with REFUSED_SEQUENCE and the low 16 bits of the expected SEQ, which stays (slots outside class PEER). -/
def Obligations.AWrongSequenceIsRefused : Prop :=
  ∀ (s : State) (n : SlotId), s.nextPosted = some n → s.binder.run ≠ .off → s.slots[n].hdr.seq ≠ s.slots[n].expSeq →
    imgClass s.act n.val ≠ 2 → s.notRelayed n →
    ∃ t, exec .binderTake s = .next t ∧ Answered s t n stSequence (s.slots[n].expSeq.toNat % 65536) [] ∧ t.slots[n].expSeq = s.slots[n].expSeq

/-- Accesses of the device aperture from outside. A write to a register of the shadow image at its width sets its writable bits; a write to a register
of the Guard is dropped and counted or recorded; the host's write through BAR2 to another index goes over an admitted link; the group master records
an access of an absent device, and its read returns 0; a relayed read or write for this device is done here, and one for another device goes on. -/
def Obligations.ApertureAccessesAct : Prop :=
  (∀ (s : State) (off width : Nat) (v : W64) (r : Reg), 0x100000 ≤ off → off < 0x180000 → regAt (off - 0x100000) = some r → r.width = 8 * width →
    s.windowsDead = false →
    exec (.registerWrite .host off width v false) s = .next { s with
      cfg.shadow := imgSet s.cfg.shadow (off - 0x100000) ((v.toNat % 2 ^ (8 * width)).land r.mask) }) ∧
  (∀ (s : State) (i off width : Nat) (v : W64) (p : Port), imgMaster s.act = true → i < 16 → i ≠ imgGroupIndex s.act → off < 0x200000 →
    (List.finRange 12).find? (fun p => s.ports[p].admitted) = some p →
    exec (.registerWrite .host (0x200000 * i + off) width v true) s = .next (s.emit (.relayForward p i (.write off width v)))) ∧
  (∀ (s : State) (off width : Nat) (v : W64), s.guard.powered = true → off < 0x8000 → gdwIsReg off width = true →
    exec (.guardRegisterWrite .host off width v) s = .next (s.gdwDrop off)) ∧
  (∀ (s : State) (i : Fin 16) (off : Nat), imgMaster s.act = true → imgGroupIndex s.act ≠ i.val →
    exec (.absentApertureAccess i off true) s = .next (s.native 3 0x0204 i.val off 0) ∧
    exec (.absentApertureAccess i off false) s = .next ((s.emit (.hostRead 0)).native 3 0x0204 i.val off 0)) ∧
  (∀ (s : State) (p : Port) (dest off width : Nat) (v : W64), s.ports[p].admitted = true →
    (dest ≠ imgGroupIndex s.act → ∀ body, exec (.hostRelay p dest body) s = .next (s.emit (.relayForward p dest body))) ∧
    (dest = imgGroupIndex s.act → exec (.hostRelay p dest (.read off width)) s = .next (s.emit (.relayReply p (s.read off width)))) ∧
    (dest = imgGroupIndex s.act → exec (.hostRelay p dest (.write off width v)) s = .next (s.write .host off width v.toNat)) ∧
    (∀ a d, dest = imgGroupIndex s.act → s.copyCovers 0 a d.length = true → exec (.hostRelay p dest (.copyIn a d)) s = .next (s.memWrite a d)) ∧
    (∀ a k, dest = imgGroupIndex s.act → s.copyCovers 1 a k = true → exec (.hostRelay p dest (.copyOut a k)) s = .next (s.emit (.relayData p (s.memRead a k)))))

/-! ## Serloth commands -/

/-- The commands that only read complete with their responses and change nothing else: SYS_INFO, SYS_READY, SYS_NOP, CTX_STATUS, CFG_CHECK,
SCH_STATUS, SCH_SLIPS, LNK_STATUS, TIM_STATUS, COL_STATUS and CKP_STATUS. The commands that read a table or a buffer complete with what it holds, and
change nothing else: MEM_POISON_SCAN, NUM_SCALES read, TRC_READ and FLT_RECORDS. -/
def Obligations.ReadCommandsAnswer : Prop :=
  (∀ (s : State) (n : SlotId), s.notRelayed n →
    let x := s.slots[n]
    (s.runs n 0x0101 = true → Completes s (.sysInfo n) n stOk s.sysInfo id) ∧
    (s.runs n 0x0102 = true → Completes s (.sysReady n) n stOk s.sysReady id) ∧
    (s.runs n 0x0103 = true → Completes s (.sysNop n) n (if x.req = [] then stEmpty else stOk) x.req id) ∧
    (s.runs n 0x0205 = true → x.ctxNo ≠ 0 → Completes s (.ctxStatus n) n stOk (s.ctxStatus x.ctxNo) id) ∧
    (s.runs n 0x0302 = true → maskBad (fld x.req 0 8) true = false → fld x.req 0 8 ≠ 0 →
      firstFailing s.guard.keys (s.merged (BitVec.ofNat 64 (fld x.req 0 8)) s.cfg.shadow) = 0 →
      Completes s (.cfgCheck n) n stOk (le 2 0 ++ le 2 0 ++
        le 4 (rowOffset s.guard.keys (s.merged (BitVec.ofNat 64 (fld x.req 0 8)) s.cfg.shadow) 0)) id) ∧
    (∀ y, s.runs n 0x0405 = true → s.ownSched x.ctxNo (fld x.req 0 2) = some y → Completes s (.schStatus n) n stOk
      (le 1 (schCode y.state) ++ le 1 (timeCode s.time.tstate) ++ le 6 0 ++ le 8 y.step ++ y.lastBytes ++ le 8 y.slipTotal) id) ∧
    (∀ y, s.runs n 0x0406 = true → s.ownSched x.ctxNo (fld x.req 0 2) = some y → fld x.req 0x10 2 ≤ 125 → fld x.req 0x10 2 ≠ 0 →
      fld x.req 8 8 < y.slipTotal →
      let from_ := max (fld x.req 8 8) (y.slipTotal - y.slips.length)
      let rs := (y.slips.drop (from_ - (y.slipTotal - y.slips.length))).take (fld x.req 0x10 2)
      Completes s (.schSlips n) n stOk (le 8 from_ ++ le 4 rs.length ++ le 4 0 ++ rs.flatMap Slip.bytes) id) ∧
    (s.runs n 0x0602 = true → fld x.req 0 2 ≠ 0 →
      Completes s (.lnkStatus n) n stOk ((portsOf (fld x.req 0 2)).flatMap s.portRecord) id) ∧
    (s.runs n 0x0701 = true → Completes s (.timStatus n) n stOk s.timStatus id) ∧
    (∀ y, s.runs n 0x0801 = true → s.collated = some y →
      Completes s (.colStatus n) n stOk
        (s.colStatus (some y) (if fld x.req 0 8 = 0xFFFFFFFFFFFFFFFF then y.step else fld x.req 0 8)) id) ∧
    (∀ k, s.runs n 0x0902 = true → fld x.req 0 8 ≠ 0 → s.ckpts.find? (fun k => k.id = fld x.req 0 8) = some k →
      Completes s (.ckpStatus n) n stOk (s.ckStatus k) id)) ∧
  (∀ (s : State) (n : SlotId), s.notRelayed n →
    let x := s.slots[n]
    (s.runs n 0x0504 = true → s.mem.selfRefresh = false → fld x.req 8 8 ≠ 0 →
      (if x.ctxNo = 0 then s.inMap (fld x.req 0 8) (fld x.req 8 8) else s.mappedTo x.ctxNo (fld x.req 0 8) (fld x.req 8 8)) = true →
      let all := (sheetRange (fld x.req 0 8) (fld x.req 8 8)).filter s.poisoned
      Completes s (.memPoisonScan n) n stOk
        (le 8 all.length ++ le 4 (all.take 502).length ++ le 4 0 ++ (all.take 502).flatMap fun sh => le 8 (sh * 1024)) id) ∧
    (∀ y, s.runs n 0x0A01 = true → s.mem.selfRefresh = false → fld x.req 0 1 ≠ 1 → s.scalesBad x = none → s.numOf x.ctxNo = some y →
      Completes s (.numScalesRead n) n
        (if s.rangePoisoned (y.numTable + 32 * fld x.req 2 2) (32 * fld x.req 4 2) then stPoisoned else stOk)
        (s.memRead (y.numTable + 32 * fld x.req 2 2) (32 * fld x.req 4 2)) id) ∧
    (∀ t, s.runs n 0x0B02 = true → fld x.req 0x10 2 ≤ 125 → fld x.req 0x10 2 ≠ 0 →
      s.traces.find? (fun t => t.id = fld x.req 0 4 && (x.ctxNo = 0 || t.ctx = x.ctxNo)) = some t →
      fld x.req 8 8 + 1 < t.first + t.recs.length →
      let out := (t.recs.drop (max (fld x.req 8 8) t.first - t.first)).take (fld x.req 0x10 2)
      Completes s (.trcRead n) n stOk
        (le 8 (max (fld x.req 8 8) t.first) ++ le 2 out.length ++ le 2 0 ++ le 4 t.dropped ++ out.flatMap TraceRec.bytes) id) ∧
    (s.runs n 0x0C02 = true → fld x.req 8 2 ≤ 62 → imgClass s.act n.val ≠ 1 →
      (s.logResp s.guard.records (fld x.req 0 8) (fld x.req 8 2) fun _ => true).1 = stOk →
      Completes s (.fltRecords n) n stOk (s.logResp s.guard.records (fld x.req 0 8) (fld x.req 8 2) fun _ => true).2 id))

/-- The commands that set a part of a context, of the shadow image or of a table complete, and change only that: CTX_TIMEOUT, CFG_REVERT, NUM_SCALES
write, NUM_MONITOR, FLT_INJECT and the start of a shadow feed. -/
def Obligations.SettingCommandsSet : Prop :=
  ∀ (s : State) (n : SlotId), s.notRelayed n →
    let x := s.slots[n]
    let c := ctxId x.ctxNo
    (s.runs n 0x0204 = true → x.ctxNo ≠ 0 → 1000 ≤ fld x.req 0 4 → fld x.req 0 4 ≤ 60000000 →
      Completes s (.ctxTimeout n) n stOk (le 4 s.ctxs[c].timeoutUs ++ le 4 0) fun s => s.setCtx c { s.ctxs[c] with timeoutUs := fld x.req 0 4 }) ∧
    (s.runs n 0x0303 = true → maskBad (fld x.req 0 8) true = false → fld x.req 0 8 ≠ 0 →
      Completes s (.cfgRevert n) n stOk [] fun s =>
        { s with cfg.shadow := imgMerge (BitVec.ofNat 64 (fld x.req 0 8)) s.cfg.active s.cfg.shadow }) ∧
    (s.runs n 0x0A02 = true →
      Completes s (.numMonitor n) n stOk (le 2 s.ctxs[c].streakLimit.toNat ++ le 2 s.ctxs[c].ufThresh.toNat ++ le 4 0) fun s =>
        s.setCtx c { s.ctxs[c] with
          streakLimit := if fld x.req 0 2 = 0 then s.ctxs[c].streakLimit else BitVec.ofNat 16 (fld x.req 0 2)
          ufThresh := if fld x.req 2 2 = 0 then s.ctxs[c].ufThresh else BitVec.ofNat 16 (fld x.req 2 2) }) ∧
    (∀ y, s.runs n 0x0A01 = true → s.mem.selfRefresh = false → fld x.req 0 1 = 1 → s.scalesBad x = none → s.numOf x.ctxNo = some y →
      (s.scheds.any fun z => z.ctx = x.ctxNo && z.active) = false →
      ((List.range (fld x.req 4 2)).all fun i => scaleEntOk (sub (sub x.req 8 (32 * fld x.req 4 2)) (32 * i) 32)) = true →
      Serves s (.numScalesWrite n) n
        ((s.memWrite (y.numTable + 32 * fld x.req 2 2) (sub x.req 8 (32 * fld x.req 4 2))).complete n stOk 0 [])) ∧
    (s.runs n 0x0C01 = true →
      let b := x.req
      let mine := fld b 0x20 8 = Config.devId.toNat ∧ Config.identityVerify (sha512v (sub b 0x20 24)) (sub b 0x38 132) = true
      fld b 0x28 8 ≤ s.now → s.now ≤ fld b 0x28 8 + 600000000000 → bit (fld b 0x30 4) (fld b 0 2) = true →
      (bit (fld b 2 2) 0 = true → bit (fld b 0x30 4) 31 = true) → 1 ≤ fld b 0 2 → fld b 0 2 ≤ 0x0E → 1 ≤ fld b 4 4 → fld b 4 4 ≤ 1024 →
      paramOk (fld b 0 2) (fld b 0x18 8) = true → s.guard.injections.length < 16 →
      s.guard.ticketUse (BitVec.ofNat 64 (fld b 0x28 8)) (BitVec.ofNat 32 (fld b 0x30 4)) < 16 →
      let i : Inj := { id := s.guard.nextInj, type := fld b 0 2, noesc := bit (fld b 2 2) 0, left := fld b 4 4, trigger := BitVec.ofNat 64 (fld b 8 8),
                       target := BitVec.ofNat 64 (fld b 0x10 8), param := BitVec.ofNat 64 (fld b 0x18 8) }
      let t := s.useTicket (BitVec.ofNat 64 (fld b 0x28 8)) (BitVec.ofNat 32 (fld b 0x30 4))
      Serves s (.fltInject n) n (if mine then ({ t with guard := { t.guard with injections := t.guard.injections ++ [i], nextInj := i.id + 1 } } : State).complete n
        stOk 0 (le 4 i.id ++ le 4 0) else s.refuse n stAuth 1)) ∧
    (∀ y h, s.runs n 0x0805 = true → s.mem.selfRefresh = false → fld x.req 0 1 = 5 → s.collated = some y → s.hopOf (BitVec.ofNat 64 (fld x.req 8 8)) 0 = some h →
      let f := fun (s : State) => { s with shadow := { s.shadow with
        feedTo := some (BitVec.ofNat 64 (fld x.req 8 8)), feedFrom := if y.between then y.launchStep else y.step + 1, feedPort := portId h.outPort } }
      Completes s (.startShadowFeed n) n stOk (f s).feedResp f) ∧
    (s.runs n 0x0805 = true → s.mem.selfRefresh = false → fld x.req 0 1 = 6 →
      Serves s (.endShadowFeed n) n ((s.endFeed.endShadow 5).complete n stOk 0 s.feedResp))

/-- CTX_OPEN opens the context that it names, with its quotas and the monitors of the active image, and binds its slots; CTX_CLOSE removes what the
context holds and returns it to its reset state; CTX_RESET stops it and, once nothing of it waits, ends it; one that executes during another of the
context ends with it. -/
def Obligations.ContextsOpenAndClose : Prop :=
  ∀ (s : State) (n : SlotId),
    let x := s.slots[n]
    let b := x.req
    (s.runs n 0x0201 = true → fld b 0 1 % 64 ≠ 0 → s.ctxs[ctxId (fld b 0 1 % 64)].isOpen = false → fld b 0x10 4 ≤ 49152 → fld b 0x14 4 ≤ 262144 →
      ((bitList (fld b 8 8) 64).any fun i => imgClass s.act i ≠ 1) = false → ((bitList (fld b 8 8) 64).any fun i => s.slots[ctxId i].bound.isSome) = false →
      let t := (bitList (fld b 8 8) 64).foldl (fun s i => s.setSlot (ctxId i) { s.slots[ctxId i] with bound := some (fld b 0 1 % 64) }) s
      Serves s (.ctxOpen n) n ((t.setCtx (ctxId (fld b 0 1 % 64)) { Ctx.reset with
          isOpen := true, nearQuota := fld b 0x10 4, farQuota := fld b 0x14 4, streakLimit := BitVec.ofNat 16 (imgStreak t.act),
          ufThresh := BitVec.ofNat 16 (imgUfThresh t.act) }).complete n stOk 0 (le 1 (fld b 0 1 % 64) ++ le 7 0))) ∧
    (s.runs n 0x0202 = true → x.ctxNo ≠ 0 → (s.scheds.any fun y => y.ctx = x.ctxNo && y.active) = false → s.pinCount x.ctxNo = 0 →
      (s.mem.regions.any fun r => r.ctx = x.ctxNo && s.protectedIn r.base r.size) = false →
      let t := ((s.scheds.filter fun y => y.ctx = x.ctxNo).foldl (fun s y => s.removeSched y.id) s).unmapAll x.ctxNo
      let u := { t with
        slots := t.slots.map fun (y : Slot) => if y.bound = some x.ctxNo then { y with bound := none } else y
        traces := t.traces.filter fun z => z.ctx ≠ x.ctxNo }
      Serves s (.ctxClose n) n ((u.setCtx (ctxId x.ctxNo) Ctx.reset).complete n stOk 0 [])) ∧
    (s.runs n 0x0203 = true → x.ctxNo ≠ 0 → s.ctxs[ctxId x.ctxNo].resetting = false →
      let t := (s.hold n .ctxReset).stopContext x.ctxNo false
      Serves s (.ctxReset n) n (if t.contextWaits x.ctxNo then t else t.endContext x.ctxNo (bit (fld b 0 1) 0))) ∧
    (s.runs n 0x0203 = true → x.ctxNo ≠ 0 → s.ctxs[ctxId x.ctxNo].resetting = true → Serves s (.ctxReset n) n (s.hold n .ctxReset))

/-- CFG_PRESS takes its snapshot of the shadow image. A press of the MODE block completes and stays pending; one whose blocks no active schedule uses
takes effect and completes with OK and the new CFG_EPOCH; one whose blocks are in use keeps its slot in STATE 2, and its image is pending. A LNK_PRESS
of a port that is left as it stands completes with OK and the port's record; of a port that trains it keeps its slot until the port has settled; where
every port of the mask is in use, it completes with PARTIAL and REASON 15. LNK_RESERVE installs a list of hop records as a whole where each passes the
checks of R369 beside those before it, and releases a list of installed reservations that no active schedule names; the response is COUNT. LNK_QUALIFY
begins a soak of the ports that are UP, or completes with PARTIAL where none is, and LIVE_SOAK_END completes it with the records; LNK_QUARANTINE
quarantines its ports, and releases quarantined ones. -/
def Obligations.PressesAndLinkCommandsAct : Prop :=
  ((∀ (s : State) (n : SlotId),
    let mask := BitVec.ofNat 64 (fld s.slots[n].req 0 8)
    let m := s.merged mask s.cfg.shadow
    let p : Pending := { mask := mask, image := imgMerge mask s.cfg.shadow [], slot := some n }
    s.runs n 0x0301 = true → maskBad (fld s.slots[n].req 0 8) false = false → fld s.slots[n].req 0 8 ≠ 0 →
    (s.cfg.pendings.any fun r => r.mask &&& mask ≠ 0) = false → firstFailing s.guard.keys m = 0 → s.pressBusy mask m = none →
    (bit mask.toNat 0 = true → s.notRelayed n → Completes s (.cfgPress n) n stOk (s.pressResp 0 0 0) fun s =>
      { s with cfg.pendings := s.cfg.pendings ++ [{ p with slot := none }] }) ∧
    (bit mask.toNat 0 = false → s.maskInUse mask = false →
      let u := { s.hold n (.press 0) with cfg.pendings := (s.cfg.pendings ++ [p]).filter fun q => q ≠ p }.pressEffect mask m
      Serves s (.cfgPress n) n ((u.complete n stOk 0 (u.pressResp u.now 0 0)).reReady.tagFrom s.guard.logNext s.slots[n].hdr.tag)) ∧
    (bit mask.toNat 0 = false → s.maskInUse mask = true →
      Serves s (.cfgPress n) n ({ s with cfg.pendings := s.cfg.pendings ++ [p] }.hold n (.press 0)))) ∧
  (∀ (s : State) (n : SlotId) (q : Port),
    let full := BitVec.ofNat 64 (2 ^ (q.val + 16))
    let m := s.merged full s.cfg.shadow
    let p : Pending := { mask := full, image := imgMerge full s.cfg.shadow [], slot := some n }
    s.runs n 0x0601 = true → fld s.slots[n].req 0 2 = 2 ^ q.val → (s.cfg.pendings.any fun r => r.mask &&& full ≠ 0) = false →
    firstFailing s.guard.keys m = 0 → s.linkRow m = 0 → s.maskInUse full = false → s.portNamed q.val = false →
    let u := { s.hold n (.press 0) with cfg.pendings := (s.cfg.pendings ++ [p]).filter fun q => q ≠ p }.pressEffect full m
    (portChanges s.act m q.val = false → s.ports[q].settled = true → s.ports[q].st ≠ .down →
      Serves s (.lnkPress n) n ((u.complete n stOk 0 (u.trainRecord q none true)).reReady.tagFrom s.guard.logNext s.slots[n].hdr.tag)) ∧
    (portChanges s.act m q.val = true → s.ports[q].carries = false → lnkRole m q.val ≠ 0 → s.scheds = [] → s.guard.devState = .ready →
      Serves s (.lnkPress n) n (((u.startTraining q).hold n (.training (BitVec.ofNat 12 (2 ^ q.val)) 0)).tagFrom s.guard.logNext s.slots[n].hdr.tag))) ∧
  (∀ (s : State) (n : SlotId),
    let mask := fld s.slots[n].req 0 2
    let full := BitVec.ofNat 64 (mask * 65536)
    let m := s.merged full s.cfg.shadow
    s.runs n 0x0601 = true → mask ≠ 0 → (s.cfg.pendings.any fun r => r.mask &&& full ≠ 0) = false → s.linkRow m = 0 → s.notRelayed n →
    (∀ q ∈ bitList mask 12, portChanges s.act m q = true ∧ s.portNamed q = true) →
      Completes s (.lnkPress n) n stPartial ((portsOf mask).flatMap fun q => s.trainRecord q (some 15) false) id)) ∧
  (∀ (s : State) (n : SlotId), s.notRelayed n →
    let b := s.slots[n].req
    let ids := (List.range (fld b 2 2)).map fun i => (hopAt b i).resId
    (s.runs n 0x0603 = true → fld b 0 1 = 0 → fld b 2 2 ≠ 0 → fld b 2 2 ≤ 120 → 8 + 32 * fld b 2 2 ≤ b.length →
      (∀ i, i < fld b 2 2 → (hopAt b i).formed = true ∧ { s with hops := s.hops ++ (List.range i).map (hopAt b) }.hopBad (hopAt b i) = none) →
      Completes s (.lnkReserveInstall n) n stOk (le 2 (fld b 2 2)) fun s =>
        { s with hops := s.hops ++ (List.range (fld b 2 2)).map (hopAt b) }) ∧
    (s.runs n 0x0603 = true → fld b 0 1 = 1 → fld b 2 2 ≠ 0 → fld b 2 2 ≤ 120 → 8 + 32 * fld b 2 2 ≤ b.length → ids.Nodup →
      (∀ r ∈ ids, r ≠ 0 ∧ (∃ h ∈ s.hops, h.resId = r) ∧ ∀ x ∈ s.scheds, x.active = true → x.namesRes r = false) →
      Serves s (.lnkReserveRelease n) n
        (((s.hops.filter fun h => ids.contains h.resId).foldl State.releaseHop s).complete n stOk 0 (le 2 (fld b 2 2)))) ∧
    (s.runs n 0x0604 = true → 1000 ≤ fld b 4 4 → fld b 4 4 ≤ 3600000 → fld b 0 2 ≠ 0 →
      ((∃ p ∈ portsOf (fld b 0 2), s.ports[p].st = .up) →
        Serves s (.lnkQualify n) n (s.hold n (.qualify (BitVec.ofNat 12 (fld b 0 2)) (s.clock + fld b 4 4 * 1000000)))) ∧
      (portsOf (fld b 0 2) ≠ [] → (∀ p ∈ portsOf (fld b 0 2), s.ports[p].st ≠ .up) →
        Completes s (.lnkQualify n) n stPartial ((portsOf (fld b 0 2)).flatMap fun p => s.trainRecord p none false) id)) ∧
    (∀ mask t soaks, s.slots[n].held = .qualify mask t → s.slots[n].hdr.state = 2 → t ≤ s.clock → (∀ k ∈ soaks, soakPass k = true) →
      let done := (portsOf mask.toNat).all fun p => s.ports[p].st = .up && soaks.any fun k => k.port = p
      ∃ u, exec (.liveSoakEnd n soaks) s = .next u ∧
        Answered s u n (if done then stOk else stPartial) 0 ((portsOf mask.toNat).flatMap (s.soakRecord soaks)) ∧ SameButAnswers s u) ∧
    (s.runs n 0x0605 = true → bit (fld b 2 1) 0 = false → fld b 0 2 < 4096 → fld b 0 2 ≠ 0 → (portsOf (fld b 0 2)).any s.isHost = false →
      Serves s (.lnkQuarantine n) n ((((portsOf (fld b 0 2)).foldl State.quarantineCmd s).portsSettle).complete n stOk 0 [])) ∧
    (s.runs n 0x0605 = true → bit (fld b 2 1) 0 = true → fld b 0 2 < 4096 → fld b 0 2 ≠ 0 →
      ((portsOf (fld b 0 2)).any fun p => s.isHost p || s.ports[p].st ≠ .quarantined) = false →
      Serves s (.lnkQuarantineRelease n) n (((portsOf (fld b 0 2)).foldl State.releasePort s).complete n stOk 0 [])))

/-- SCH_LOAD of an image that passes its checks adds the schedule in state LOADED; SCH_ADMIT admits it; SCH_ARM arms it; SCH_CANCEL ends it, at once
or at its barrier. -/
def Obligations.SchedulesLoadAdmitArmAndCancel : Prop :=
  ∀ (s : State) (n : SlotId),
    let x := s.slots[n]
    let b := x.req
    let c := x.ctxNo
    (s.runs n 0x0401 = true → s.notRelayed n → s.mem.selfRefresh = false → fld b 0 2 ≠ 0 →
      let addr := fld b 8 8
      let len := fld b 0x10 8
      let m := s.memRead addr len
      0 < len → addr + len ≤ nearSize → s.mappedTo c addr len = true → s.scheds.length < 16 → (s.sched (fld b 0 2)).isSome = false →
      s.rangePoisoned addr len = false → fld m 0 2 = 0x0512 → fld m 2 1 = 1 → 256 ≤ len → secOff m 0 ≠ 0 → secOff m 2 ≠ 0 → secOff m 11 ≠ 0 →
      secsFit m = true →
      let i := parseImage addr m
      s.loadResource i = none → (i.progs.any fun p => s.rangePoisoned p.addr (32 * p.packets)) = false → firstFail (s.loadFails c (addr, len) m i) = none →
      Completes s (.schLoad n) n stOk [] fun s =>
        { s with scheds := s.scheds ++ [Sched.loaded (fld b 0 2) c addr len i (s.refsOf i addr len) (s.cachedOf i)] }) ∧
    (∀ y, s.runs n 0x0402 = true → s.notRelayed n → s.sched (fld b 0 2) = some y → y.ctx = c → y.state = .loaded →
      let np := y.image.phases.length
      let sims := s.sims y.image noCap
      let times := (List.range np).map (timeOf sims)
      let last := times.getD (np - 1) { done := none, bind := 0, index := 0 }
      let z : Sched := { y with state := .admitted, native := !imgCompat s.act, demands := (y.image.phases.mapIdx fun p f => s.demandsOf y.image p f).flatten
                                ceilings := (List.range np).map fun p =>
                                  if imgCompat s.act then (0, 0) else ((s.ceiling y.image p false).getD 0, (s.ceiling y.image p true).getD 0) }
      s.admFail y times sims = none →
      Completes s (.schAdmit n) n stOk (le 2 0 ++ le 2 0xFFFF ++ le 1 last.bind ++ [0] ++ le 2 last.index ++ le 8 0 ++
        (List.range np).flatMap (s.admEntry y.image times)) fun s => s.setSched z) ∧
    (∀ y, s.runs n 0x0403 = true → s.ownSched c (fld b 0 2) = some y → y.state = .admitted → s.lockedFor y.image.machineScope = true →
      s.beyondSync y.image = false → fld b 8 8 % 8 = 0 → s.takenStitch n + 100000 ≤ fld b 8 8 →
      Serves s (.schArm n) n ((s.raiseSupply.armed y (fld b 8 8)).complete n stOk 0 [])) ∧
    (∀ y, s.runs n 0x0404 = true → bit (fld b 2 1) 0 = false → s.ownSched c (fld b 0 2) = some y →
      Serves s (.schCancel n) n (((s.setSched { y with cancel := some false }).hold n (.cancel y.id)).finishCancel y.id)) ∧
    (∀ y, s.runs n 0x0404 = true → bit (fld b 2 1) 0 = true → s.ownSched c (fld b 0 2) = some y → y.state = .running → y.between = false →
      y.cancel ≠ some false →
      Serves s (.schCancelAtBarrier n) n (((s.setSched { y with cancel := some true }).hold n (.cancel y.id)).finishCancel y.id))

/-- MEM_MAP grants a range, zeroes it and maps it; MEM_UNMAP removes a region that nothing refers to; MEM_HOST_COPY moves the parts that its TLPs
delivered; TRC_START maps a trace buffer and starts capture. -/
def Obligations.MemoryCommandsAct : Prop :=
  ∀ (s : State) (n : SlotId),
    let x := s.slots[n]
    let b := x.req
    let c := x.ctxNo
    (∀ base t, s.runs n 0x0501 = true → fld b 0 1 ≤ 5 → 10 ≤ fld b 1 1 → fld b 1 1 ≤ 40 → fld b 8 8 % 1024 = 0 → fld b 8 8 ≠ 0 →
      s.overQuota c (fld b 0 1) (fld b 8 8) = false → (s.mem.regions.filter fun r => r.ctx = c).length < 4096 →
      s.grantBase (fld b 0 1) (fld b 8 8) (2 ^ fld b 1 1) = (some base, t) →
      Serves s (.memMap n) n ((t.mapRegion c (fld b 0 1) base (fld b 8 8)).complete n stOk 0 (le 8 base ++ le 4 t.mem.nextRegion ++ le 4 0))) ∧
    (∀ r, s.runs n 0x0502 = true → s.mem.regions.find? (fun r => r.id = fld b 0 4) = some r → (c = 0 ∨ r.ctx = c) → s.referenced r = false →
      s.protectedIn r.base r.size = false → Serves s (.memUnmap n) n ((s.unmap r).complete n stOk 0 [])) ∧
    (∀ (host : Bytes) (tlp : List Nat) (failed : W64) (ev : List MemEvent), s.runs n 0x0503 = true → s.mem.selfRefresh = false → fld b 0 1 ≤ 1 → fld b 0x18 8 ≤ 2 ^ 40 →
      fld b 0x18 8 ≠ 0 → (if c = 0 then (sheetRange (fld b 0x10 8) (fld b 0x18 8)).all fun sh => (s.regionOf (sh * 1024) 1024).isSome
        else s.mappedTo c (fld b 0x10 8) (fld b 0x18 8)) = true →
      let haddr := fld b 8 8
      let dev := fld b 0x10 8
      let len := fld b 0x18 8
      let ctr := 512 * bits (fld b 2 2) 9 4 + bits (fld b 2 2) 0 9
      let t := s.memEvents ev x.hdr.tag 0xFF
      let good := (hostParts len).filter fun p => !bit failed.toNat p.1
      let bad := (hostParts len).filter fun p => bit failed.toNat p.1
      let resp := le 8 (good.foldl (fun m p => m + 2 ^ p.1) 0) ++ le 8 (partSize len)
      (fld b 0 1 = 1 → Serves s (.memHostCopy n host tlp failed ev) n ((good.foldl (fun s p => s.hostOut haddr dev p) t).complete n
        (copyStatus good.length (hostParts len).length (t.rangePoisoned dev len)) 0 resp)) ∧
      (fld b 0 1 = 0 → s.sealed dev len = false → (bit (fld b 2 2) 15 = true → s.ownsCtr c ctr = true) →
        let data := host.take len ++ List.replicate (len - host.length) 0
        let u := bad.foldl (fun s p => s.spoil (dev + p.2.1) p.2.2) (good.foldl (fun s p => s.hostIn dev data tlp p) t)
        Serves s (.memHostCopy n host tlp failed ev) n
          ((if bit (fld b 2 2) 15 = true ∧ good ≠ [] then u.addCtr ctr 1 u.slots[n].ctxNo 0xFF u.slots[n].hdr.tag else u).complete n
            (copyStatus good.length (hostParts len).length (tlp.any fun o => decide (o < len))) 0 resp))) ∧
    (∀ base t, s.runs n 0x0B01 = true → fld b 0x10 8 ≠ 0 → fld b 0x10 8 % 0x100000 = 0 → fld b 0x10 8 ≤ 0x100000000 → fld b 0x18 1 ≤ 1 →
      s.traces.length < 8 → s.overQuota c 0 (fld b 0x10 8) = false → s.grantBase 0 (fld b 0x10 8) 1024 = (some base, t) →
      let u := (t.mapRegion c 0 base (fld b 0x10 8)).undefine base (fld b 0x10 8)
      let z : Trace := { id := t.nextTrace, ctx := c, mask := BitVec.ofNat 64 (fld b 0 8), tagValue := BitVec.ofNat 32 (fld b 8 4),
                         tagMask := BitVec.ofNat 32 (fld b 0xC 4), size := fld b 0x10 8, overwrite := decide (fld b 0x18 1 = 1),
                         region := some t.mem.nextRegion, capturing := true, first := 0, recs := [], dropped := 0 }
      Serves s (.trcStart n) n (({ u with traces := u.traces ++ [z], nextTrace := t.nextTrace + 1 }).complete n stOk 0 (le 4 t.nextTrace ++ le 4 0)))

/-- MEM_UNMAP: an unknown region is REFUSED_STATE with DETAIL 1, another context's is REFUSED_CONTEXT with DETAIL 1 unless the post is under context
0, a region that is referenced or holds a protected page is REFUSED_BUSY, and any other is unmapped. -/
def Obligations.UnmappingIsRefusedOrDone : Prop :=
  ∀ (s : State) (n : SlotId), s.runs n 0x0502 = true →
    let x := s.slots[n]
    (s.mem.regions.find? (fun r => r.id = fld x.req 0 4) = none → Serves s (.memUnmap n) n (s.refuse n stState 1)) ∧
    ∀ r, s.mem.regions.find? (fun r => r.id = fld x.req 0 4) = some r →
      (x.ctxNo ≠ 0 → r.ctx ≠ x.ctxNo → Serves s (.memUnmap n) n (s.refuse n stContext 1)) ∧
      ((x.ctxNo = 0 ∨ r.ctx = x.ctxNo) → (s.referenced r = true ∨ s.protectedIn r.base r.size = true) → Serves s (.memUnmap n) n (s.refuse n stBusy 0)) ∧
      ((x.ctxNo = 0 ∨ r.ctx = x.ctxNo) → s.referenced r = false → s.protectedIn r.base r.size = false →
        Serves s (.memUnmap n) n ((s.unmap r).complete n stOk 0 []) ∧ (s.unmap r).mem.regions = s.mem.regions.filter fun y => y.id ≠ r.id)

/-! ## Collation, replacement and checkpoint commands -/

/-- COL_REPLAY holds its slot until the replay that it starts has ended: the pending step is rejoined, or the last step is diagnosed. COL_KAT holds
its slot until the tests that it asks for have run. COL_ADMIT_DEVICE loads this device's state from its sources, or begins a shadow; COL_PEER_LOAD
pushes what it names on its reservation. -/
def Obligations.CollationCommandsAct : Prop :=
  (∀ (s : State) (n : SlotId),
    let b := s.slots[n].req
    (∀ x, s.runs n 0x0802 = true → s.collated = some x → bit (fld b 8 1) 0 = false → ((x.pendingStep = some (fld b 0 8) ∧ x.state = .admitted) ∨ (x.coll.state = .escalated ∧ x.step = fld b 0 8)) →
      (∀ i k, s.slots[ctxId i].held ≠ .replay x.id k) →
      Serves s (.colReplay n) n ((s.setSched { x with
          state := .held, replay := none
          coll := { x.coll with state := .waiting, flags := x.coll.flags ||| 0x200#16 }
          bar := if x.bar.upSent && !x.bar.failed then x.bar.next s.now else { x.bar with failed := false, roundStart := s.now } }).hold n
        (.replay x.id 0))) ∧
    (∀ x, s.runs n 0x0802 = true → s.collated = some x → bit (fld b 8 1) 0 = false → x.state = .running → x.coll.state ≠ .escalated →
      x.active = true → x.launchStep = fld b 0 8 →
      (∀ i k, s.slots[ctxId i].held ≠ .replay x.id k) →
      Serves s (.colReplay n) n ((s.setSched { x with diag := some (fld b 0 8, 0) }).hold n (.replay x.id 0))) ∧
    (s.runs n 0x0803 = true →
      let m := (s.activeFolios.filter fun l => bit (fld b 0 2) l).foldl (fun a l => a + 2 ^ l) 0
      m ≠ 0 → Serves s (.colKat n) n (s.raiseSupply.hold n (.kat (BitVec.ofNat 12 m) 0)))) ∧
  (∀ (s : State) (n : SlotId),
    let b := s.slots[n].req
    (∀ answers x r, s.runs n 0x0804 = true → s.mem.selfRefresh = false → fld b 0 1 = 1 → s.admitRefusal b answers = none → s.sched (fld b 4 2) = some x →
      let t := (s.askLoads x answers (fld b 1 1) 1 (fld b 2 1) 2).loadState x 1 2 answers
      t.1 = some r →
      Serves s (.colAdmitDeviceLoad n answers) n (t.2.complete n stOk 0 (admitResp r.1 r.2))) ∧
    (∀ answers x r, s.runs n 0x0804 = true → s.mem.selfRefresh = false → fld b 0 1 = 2 → s.admitRefusal b answers = none → s.sched (fld b 4 2) = some x →
      let t := (s.askLoads x answers (fld b 1 1) 2 (fld b 1 1) 1).loadState x 2 1 answers
      t.1 = some r →
      Serves s (.colAdmitDeviceShadow n answers) n (({ t.2.emit (.peerLoad (fld b 1 1) 5 0 0 0) with
        shadow := { Shadow.reset with status := 1, sched := x.id, partner := fld b 1 1, resIn := BitVec.ofNat 64 (fld b 8 8) } }).hold n .shadow)) ∧
    (∀ failed x u, s.runs n 0x0805 = true → s.mem.selfRefresh = false → (fld b 0 1 = 1 ∨ fld b 0 1 = 2) → s.collated = some x → fld b 24 8 ≠ 0 →
      x.mirrorOf (fld b 0 1 = 1) (fld b 2 2) = some u → fld b 16 8 + fld b 24 8 ≤ u.count →
      Serves s (.colPeerLoad n failed) n (s.pushParts n (BitVec.ofNat 64 (fld b 8 8)) (fld b 0 1) (fld b 2 2) (fld b 16 8) (fld b 24 8)
        (((s.ledger.recs.find? fun r => r.masterA = u.masterA).map CollRec.step).getD 0) (s.lastHalf u) failed
        fun f k => s.stateSlice u (s.lastHalf u) f k)))

/-- CKP_BEGIN begins a checkpoint that every member joins; CKP_LOAD loads the image of a record whose devices match; CKP_ABORT ends the live
checkpoint. CKP_PEER (OP 1 to 6): a member joins, answers for a piece, keeps a hash list, sends its record or part of a piece, or gives up. -/
def Obligations.CheckpointCommandsAct : Prop :=
  (∀ (s : State) (n : SlotId),
    let x := s.slots[n]
    let b := x.req
    (∀ replies t k, s.runs n 0x0901 = true → fld b 0 1 ≠ 3 → fld b 1 1 ≤ 16 → 8 + 16 * fld b 1 1 ≤ b.length →
      s.tryBegin x.ctxNo (fld b 0 1) (parseCarry b (fld b 1 1)) replies = (0, t) → t.ckpts.head? = some k →
      Serves s (.ckpBegin n replies) n ((t.setCtx (ctxId x.ctxNo) { t.ctxs[ctxId x.ctxNo] with carry := parseCarry b (fld b 1 1) }).complete n stOk 0
        (le 8 k.id ++ le 1 k.slot ++ le 7 0 ++ le 8 k.cut))) ∧
    (∀ pieces y rb, s.runs n 0x0903 = true → s.mem.selfRefresh = false → fld b 3 1 ≠ 0 → fld b 3 1 ≤ 16 → 16 + 16 * fld b 3 1 ≤ b.length → fld b 0 1 = 0xFF →
      s.collated = some y → y.ctx = x.ctxNo → (y.state = .loaded ∨ y.state = .admitted) → s.ckptLive = false → s.loadSlot b = none →
      (fld b 8 8 = 0 ∨ (OldRec.parse rb).id = fld b 8 8) → (OldRec.parse rb).n = fld b 3 1 →
      ((List.range (fld b 3 1)).any fun g => holderDev b g ≠ 0 && holderDev b g ≠ (OldRec.parse rb).dev g) = false →
      let r := OldRec.parse rb
      let asked := (List.range (fld b 3 1)).findSome? fun g =>
        if holderDev b g ≠ 0 && holderDev b g ≠ Config.devId.toNat then some (holderDev b g) else none
      let t := ((match asked with | some h => s.emit (.ckpFetch h 4 0 0) | none => s).askPieces b r)
      Serves s (.ckpLoad n (some rb) pieces) n (t.ckpLoad n b x.ctxNo y r none pieces)) ∧
    (∀ k, s.runs n 0x0904 = true → s.liveOf (fld b 0 8) = some k → k.st ≠ .committing →
      Serves s (.ckpAbort n) n ((s.ckEnd k .aborted 1).complete n stOk 0 []))) ∧
  (∀ (s : State) (n : SlotId), s.runs n 0x0905 = true → s.mem.selfRefresh = false →
    let b := s.slots[n].req
    (∀ record x, fld b 0 1 = 1 → fld b 2 1 ≤ 2 → (∀ k, s.liveCkpt = some k → k.st = .begun ∧ k.id = fld b 8 8 ∧ fld b 1 1 ≤ k.init) →
      s.collated = some x → (s.lastStep x).isSome = true →
      Serves s (.ckpPeerBegin n record) n (((s.joinBegin x b).adoptRecord (fld b 1 1) (fld b 8 8 - 1) record).complete n stOk 0
        (le 8 Config.devId.toNat ++ le 8 s.highestId ++ le 8 (s.imageLen x (fld b 2 1) s.ctxs[ctxId x.ctx].carry) ++ le 8 x.drainWindow.1 ++
          le 8 x.drainWindow.2 ++ le 1 1))) ∧
    (∀ k, fld b 0 1 = 2 → s.knownCkpt (fld b 8 8) = some k → fld b 1 1 < imgGroupSize s.act →
      let a := s.pieceAt k.slot (fld b 1 1)
      let z := s.pieceSize (s.member k (fld b 1 1)).2
      Serves s (.ckpPeerPieceDone n) n (s.complete n stOk 0 (sha512t256 (s.memRead a z) ++ le 1 (bnat (s.rangePoisoned a z))))) ∧
    (∀ k, fld b 0 1 = 3 → b.length = 16 + 32 * fld b 2 1 → fld b 2 1 = imgGroupSize s.act → s.liveOf (fld b 8 8) = some k →
      (k.hashes.any fun h => h.1 = fld b 1 1) = false →
      let k' := { k with hashes := k.hashes ++ [(fld b 1 1, (List.range (fld b 2 1)).map fun j => sub b (16 + 32 * j) 32)] }
      Serves s (.ckpPeerHashList n) n (((s.setLive k').complete n stOk 0 (le 2 k'.hashes.length)).tryCommit)) ∧
    (fld b 0 1 = 4 → fld b 1 1 = 1 → fld b 2 1 ≤ 1 → s.slotValid (fld b 2 1) = true → s.routeOpen (BitVec.ofNat 64 (fld b 16 8)) = true →
      let len := s.memNat (s.slotBase (fld b 2 1) + 0x10) 8
      Serves s (.ckpPeerRecord n) n ((s.emit (.push (BitVec.ofNat 64 (fld b 16 8)) (fld b 24 8) (s.memRead (s.slotBase (fld b 2 1) + 0x400) len))).complete n
        stOk 0 (le 8 len))) ∧
    (∀ failed k, fld b 0 1 = 5 → (List.range 2).find? (fun k => s.slotValid k && s.slotId k = fld b 8 8) = some k → fld b 1 1 ≤ 15 →
      let z := s.memNat (s.slotBase k + 0x540 + 8 * fld b 1 1) 8
      let a := s.pieceAt k (fld b 1 1)
      s.rangePoisoned a z = false → fld b 16 8 + fld b 24 8 ≤ z → sha512t256 (s.memRead a z) = sub b 32 32 → fld b 24 8 ≠ 0 →
      s.routeOpen (BitVec.ofNat 64 (fld b 64 8)) = true →
      let parts := hostParts (fld b 24 8)
      let good := parts.filter fun p => !bit failed.toNat p.1
      let t := parts.foldl (fun t p => t.emit (.push (BitVec.ofNat 64 (fld b 64 8)) (fld b 72 8 + p.2.1) (t.memRead (a + fld b 16 8 + p.2.1) p.2.2))) s
      Serves s (.ckpPeerFetch n failed) n (t.complete n (Machine.copyStatus good.length parts.length false) 0
        (le 8 (good.foldl (fun m p => m + 2 ^ p.1) 0)))) ∧
    (∀ k, fld b 0 1 = 6 → s.liveOf (fld b 8 8) = some k → Serves s (.ckpPeerAbort n) n ((s.ckFail k 4).complete n stOk 0 [])))

/-! ## Engine packets -/

/-- The packets that act on their stream alone begin and end at once: NOP, END, WAIT for 0, a SIGNAL of 0 or of an own counter, LOOP, ENDLOOP and
SETREG; a remote SIGNAL sends its token and waits for the acknowledgement. Of these, a SIGNAL adds to its counter, LOOP and ENDLOOP move the stream, a
LOOP of count 0 goes past its ENDLOOP, and SETREG writes a stream register. A WAIT ends once its counter has reached its threshold, and consumes it
where CONSUME is set; the acknowledgement of a remote SIGNAL ends it with OK, and its refusal with HARDWARE and the port. -/
def Obligations.StreamPacketsAct : Prop :=
  (∀ (s : State) (e : EngId) (g : Grant) (x : Sched) (b : Bytes), s.engines[e].hung = false →
    let pc := s.engines[e].pc + 1
    (s.nextPacket e 0 = some (g, x, b) → exec (.nop e) s = .next (s.atOnce e b pc stOk 0)) ∧
    (s.nextPacket e 1 = some (g, x, b) → exec (.endPkt e) s = .next (s.atOnce e b pc stOk 0)) ∧
    (s.nextPacket e 2 = some (g, x, b) → fld b 8 4 = 0 → exec (.wait e) s = .next (s.atOnce e b pc stEmpty (s.ctr (pkCtr b)).toNat)) ∧
    (s.nextPacket e 2 = some (g, x, b) → fld b 8 4 ≠ 0 → exec (.wait e) s = .next (s.begin_ e { s.entry e b 0 with waiting := true } pc)) ∧
    (s.nextPacket e 3 = some (g, x, b) → fld b 8 4 = 0 → exec (.signal e) s = .next (s.atOnce e b pc stEmpty 0)) ∧
    (s.nextPacket e 3 = some (g, x, b) → fld b 8 4 ≠ 0 → fld b 6 1 = 0xFF →
      let t := s.addCtr (pkCtr b) (fld b 8 4) g.ctx (s.unitByte e) (pkTag b)
      exec (.signal e) s = .next ((t.traceCmd e (t.entry e b 0) 4 0 (ctrData (ctrField (pkCtr b)) (fld b 8 4))).atOnce e b pc stOk 0)) ∧
    (∀ p res h port, s.nextPacket e 3 = some (g, x, b) → fld b 8 4 ≠ 0 → fld b 6 1 ≠ 0xFF → x.alone g.phase = false →
      x.image.peers[fld b 6 1]? = some p → (s.countIssue e x).routeOf x p.resv = some (res, h) → (s.countIssue e x).routeUp h = true →
      portId h.outPort = some port →
      let t := s.entry e b 0
      let m : TokenMsg :=
        { resId := res, ctx := p.rctx, folio := pkCtr b / 512, index := pkCtr b % 512, inc := BitVec.ofNat 32 (fld b 8 4), tag := pkTag b }
      let u := (((s.countIssue e x).begin_ e { t with waiting := true } pc).emit (.token port m)).traceCmd e t 4 0 (ctrData (ctrField (pkCtr b)) (fld b 8 4))
      exec (.signal e) s = .next { u with
        sent := u.sent ++ [{ copy := 0, eng := some e, pos := t.pos, resId := res, port := port, parts := 0, token := true, down := false }] }) ∧
    (∀ ev, s.nextPacket e 4 = some (g, x, b) →
      let u := s.memEvents ev (pkTag b) (s.unitByte e)
      let n := if fld b 4 1 = 0 then fld b 8 4 else (AMap.get zero32 u.engines[e].regs (fld b 5 1 % 16)).toNat
      let t := u.atOnce e b (u.engines[e].pc + 1) stOk n
      fld b 4 1 ≤ 1 → n ≤ fld b 0xC 4 →
      (n ≠ 0 → exec (.loop e ev) s =
        .next (t.setEng e { t.engines[e] with loops := t.engines[e].loops ++ [{ idx := 0, cnt := n, top := u.engines[e].pc + 1 }] })) ∧
      (∀ p, n = 0 → x.prog g = some p → exec (.loop e ev) s =
        .next (u.atOnce e b (u.afterLoop p.addr (p.packets - u.engines[e].pc) (u.engines[e].pc + 1) 0) stEmpty 0))) ∧
    (∀ l, s.nextPacket e 5 = some (g, x, b) → s.engines[e].loops.getLast? = some l →
      let again := decide (l.idx + 1 < l.cnt)
      let t := s.atOnce e b (if again then l.top else pc) stOk 0
      exec (.endloop e) s = .next (t.setEng e { t.engines[e] with
        loops := s.engines[e].loops.dropLast ++ (if again then [{ l with idx := l.idx + 1 }] else []) })) ∧
    (s.nextPacket e 6 = some (g, x, b) →
      let t := s.atOnce e b pc stOk 0
      exec (.setreg e) s = .next (t.setEng e { t.engines[e] with
        regs := AMap.set zero32 t.engines[e].regs (fld b 4 1 % 16) (BitVec.ofNat 32 (fld b 8 4)) }))) ∧
  ((∀ (s : State) (e : EngId) (t : Entry), s.engines[e].entries.find? (fun t => pkOp t.packet = 2 && t.waiting) = some t →
    fld t.packet 8 4 ≤ (s.ctr (pkCtr t.packet)).toNat → s.enginesLive = true →
    let c := pkCtr t.packet
    let v := (s.ctr c).toNat
    let u := if bit (fld t.packet 6 1) 0 then s.setCtr c (BitVec.ofNat 32 (v - fld t.packet 8 4)) else s
    let w := u.setEng e { u.engines[e] with entries := u.engines[e].entries.map fun y => if y.pos = t.pos then { y with watermark := v } else y }
    exec (.waitSatisfied e) s = .next ((w.traceCmd e t 3 0 (ctrData (ctrField c) v)).endEntry e t.pos stOk)) ∧
  (∀ (s : State) (e : EngId) (y : Sent), s.sent.find? (fun y => y.eng = some e && y.token) = some y →
    let u := s.setEng e { s.engines[e] with entries := s.engines[e].entries.map fun t => if t.pos = y.pos then { t with detail := y.port.val } else t }
    exec (.remoteSignalAck e true) s = .next (({ s with sent := s.sent.filter fun z => z ≠ y }).endEntry e y.pos stOk) ∧
    exec (.remoteSignalAck e false) s = .next (({ u with sent := u.sent.filter fun z => z ≠ y }).endEntry e y.pos stHardware)))

/-- Every vector operation: a packet of its opcode whose operands are defined and lie in mapped memory begins, and runs the units that the command
grants it; the rows of the table differ in their opcode. -/
def Obligations.VectorPacketsRun : Prop :=
  ∀ (s : State) (e : EngId) (units : Nat) (ev : List MemEvent) (p : Instr × Nat), p ∈ vectorCommands e units ev →
    ∀ (g : Grant) (x : Sched) (b : Bytes) (o : Opnd), s.nextPacket e 0x40 = some (g, x, b) → vxOp b = p.2 → s.engines[e].hung = false →
      let u := s.memEvents ev (pkTag b) (s.unitByte e)
      let t := u.entry e b 0
      let os := u.vxOpnds x b t.idx
      os.getD 0 none = some o → ((List.range 5).any fun k => vxUses p.2 k && (os.getD k none).isNone) = false →
      u.vxBad b os o.lay.rows o.lay.cols = none → o.lay.rows ≠ 0 → o.lay.cols ≠ 0 →
      let ch := u.chainBegin e x g b o.lay.rows
      let t1 := { t with total := o.lay.rows, scales := os.map fun v => (v.map (·.exp)).getD 0, chIn := ch.1, chOut := ch.2.1 }
      let acc := ch.2.2.accIn e x t1 o.lay.cols
      let t2 : Entry := { t1 with colAcc := valsOf acc.1, colPoison := acc.1.map (·.2), colPart := acc.1.map fun _ => FV.zero, aflags := BitVec.ofNat 8 acc.2.1 }
      exec p.1 s = .next (((acc.2.2.begin_ e t2 (acc.2.2.engines[e].pc + 1)).checkPair e t2).runUnits State.vecUnit units e t2.pos)

/-- LEAF_LOAD of a tile without a list opens the back leaf, where it is EMPTY or TURNING, and loads the units granted; STREAM_ROWS of an operand
without a list streams its rows through the leaf that it meets. COPY, COPY_LIST and TIP with operands in mapped memory begin their copy, in parts; a
copy to this device's own memory outside a chain and outside a replay runs the units granted. -/
def Obligations.ArrayAndCopyPacketsRun : Prop :=
  ((∀ (s : State) (e : EngId) (units : Nat) (ev : List MemEvent) (g : Grant) (x : Sched) (b : Bytes) (o : Opnd), s.nextPacket e 0x20 = some (g, x, b) →
    s.engines[e].hung = false →
    let u := s.memEvents ev (pkTag b) (s.unitByte e)
    (u.engines[e].array.backState = .empty ∨ u.engines[e].array.backState = .turning) → (llSparse b = 0 ∨ llSplit b = 0) →
    u.opnd x b 4 (u.entry e b 0).idx = some o → u.badOpnd o o.lay.rows o.lay.cols = none → u.opnd x b 7 (u.entry e b 0).idx = none →
    let t := { u.entry e b 512 with list := [], scales := [o.exp] }
    let v := u.setEng e { u.engines[e] with array := { u.engines[e].array with back := some (newLeaf b o), backState := .loading } }
    exec (.leafLoad e units ev) s = .next ((v.begin_ e t (u.engines[e].pc + 1)).runUnits State.leafUnit units e t.pos)) ∧
  (∀ (s : State) (e : EngId) (units : Nat) (ev : List MemEvent) (g : Grant) (x : Sched) (b : Bytes) (l : Leaf) (o d : Opnd),
    s.nextPacket e 0x21 = some (g, x, b) → s.engines[e].hung = false →
    let u := s.memEvents ev (pkTag b) (s.unitByte e)
    let idx := (u.entry e b 0).idx
    let rows := if srRows b = 0xFFFFFFFF then (asRead (srTrans b) o.lay).1 else srRows b
    u.opnd x b 4 idx = some o → u.opnd x b 0xA idx = some d → o.lay.kind ≠ 2 → rows ≠ 0 → (asRead (srTrans b) o.lay).2 ≠ 0 →
    (srTurn b = true → u.engines[e].array.backState ≠ .empty ∧ u.engines[e].array.backState ≠ .turning ∧ u.engines[e].entries.any Entry.turn = false) →
    u.engines[e].meets (srTurn b) = some l → (srSplit b = 0 ∨ l.split = 0 ∨ srSplit b = l.split) → (asRead (srTrans b) o.lay).2 = l.logk →
    u.streamBad b o d (u.opnd x b 7 idx) [] rows (asRead (srTrans b) o.lay).2 l.next = none →
    let ch := u.chainBegin e x g b rows
    let v := ch.2.2
    let t0 := v.entry e b rows
    let t := { t0 with list := [], chIn := ch.1, chOut := ch.2.1, turn := srTurn b
                       scales := [(v.streamed x t0 l.fmt).map (·.exp), (v.opnd x b 7 t0.idx).map (·.exp), (v.opnd x b 0xA t0.idx).map (·.exp)].map (·.getD 0) }
    exec (.streamRows e units ev) s = .next (((v.begin_ e t (u.engines[e].pc + 1)).checkPair e t).runUnits State.streamUnit units e t.pos))) ∧
  ((∀ (s : State) (e : EngId) (units : Nat) (ev : List MemEvent) (g : Grant) (x : Sched) (b : Bytes) (c d : Opnd), s.nextPacket e 0x60 = some (g, x, b) →
    s.engines[e].hung = false →
    let u := s.memEvents ev (pkTag b) (s.unitByte e)
    let t := u.entry e b 0
    u.opnd x b 4 t.idx = some c → u.opnd x b 7 t.idx = some d → u.copyBad b c d = none → c.lay.rows ≠ 0 → c.lay.cols ≠ 0 →
    exec (.copy e units ev) s = .next (u.copyBegin e g x { t with scales := [c.exp, d.exp] } c.lay.rows units)) ∧
  (∀ (s t : State) (e : EngId) (units : Nat) (ev : List MemEvent) (g : Grant) (x : Sched) (b : Bytes) (c d l : Opnd) (list : List Nat),
    s.nextPacket e 0x61 = some (g, x, b) → s.engines[e].hung = false →
    let u := s.memEvents ev (pkTag b) (s.unitByte e)
    let y := u.entry e b 0
    u.opnd x b 4 y.idx = some c → u.opnd x b 7 y.idx = some d → u.opnd x b 0xA y.idx = some l → u.mayRead e x l.listRange = true →
    u.inMap l.addr 16 = true → u.copyBad b c d = none → c.lay.cols ≠ 0 → d.lay.cols ≠ 0 → d.lay.rows ≠ 0 →
    u.readList none l = (some (false, list), t) → list.any (badEntry l.lay.kind c.lay d.lay) = false →
    exec (.copyList e units ev) s = .next (t.copyBegin e g x { y with list := list, scales := [c.exp, d.exp] } d.lay.rows units)) ∧
  (∀ (s : State) (e : EngId) (units : Nat) (ev : List MemEvent) (g : Grant) (x : Sched) (b : Bytes), s.nextPacket e 0x62 = some (g, x, b) →
    s.engines[e].hung = false → tipLen b ≠ 0 →
    let u := s.memEvents ev (pkTag b) (s.unitByte e)
    u.inMap (tipSrc b) (tipLen b) = true → (pkPeer b = 0xFF → u.inMap (tipDst b) (tipLen b) = true) →
    exec (.tip e units ev) s = .next (u.copyBegin e g x (u.entry e b 0) 0 units)) ∧
  (∀ (s : State) (e : EngId) (g : Grant) (x : Sched) (t : Entry) (rows units : Nat), pkPeer t.packet = 0xFF → pkChIn t.packet = false →
    pkChOut t.packet = false → t.chIn = none → t.chOut = none → x.replaying g.phase = false → s.cpeItems x { t with total := (s.cpeParts x t).length } ≠ 0 →
    let u := { t with total := (s.cpeParts x t).length }
    s.copyBegin e g x t rows units = ((s.begin_ e u (s.engines[e].pc + 1)).checkPair e u).runUnits State.copyUnit units e t.pos))

/-- UPDATE of a verso descriptor begins and does what the vote's decision lets it do, and one of a probe pass writes nothing; ROUTE of unpoisoned
scores begins and routes the units granted. -/
def Obligations.UpdateAndRoutePacketsRun : Prop :=
  (∀ (s : State) (e : EngId) (units : Nat) (ev : List MemEvent) (g : Grant) (x : Sched) (b : Bytes) (d : Nat) (u : UpdateE),
    s.nextPacket e 0x80 = some (g, x, b) → s.engines[e].hung = false → x.descOf b = some (d, u) →
    let v := s.memEvents ev (pkTag b) (s.unitByte e)
    let w := v.setSched { x with shareTags := x.shareTags ++ [(d, upFirst b, upCount b, pkTag b)] }
    let t := { v.entry e b 1 with fetched := units }
    ((u.regions true ++ u.regions false ++ u.inputs).find? fun r => !v.inMap r.1 r.2) = none →
    (x.probe.pass = true → exec (.update e units ev) s =
      .next (w.begin_ e { t with units := 1, watermark := upCount b } (v.engines[e].pc + 1))) ∧
    (x.probe.pass = false → u.verso = true →
      let gr := w.gradient u (upFirst b) (upCount b)
      let fl := w.scanFlags u (upFirst b) (upCount b) (u.count ≤ x.scanned (ordinalOf x.image d) + upCount b)
      exec (.update e units ev) s = .next ((w.begin_ e { t with waiting := true, poison := gr.any (·.2), aflags := BitVec.ofNat 8 fl }
        (v.engines[e].pc + 1)).opeWork e units))) ∧
  (∀ (s : State) (e : EngId) (units : Nat) (ev : List MemEvent) (g : Grant) (x : Sched) (b : Bytes) (so lo co : Opnd),
    s.nextPacket e 0xA0 = some (g, x, b) → s.engines[e].hung = false →
    let u := s.memEvents ev (pkTag b) (s.unitByte e)
    let t := u.entry e b (rtExperts b)
    u.opnd x b 4 t.idx = some so → u.opnd x b 7 t.idx = some lo → u.opnd x b 0xA t.idx = some co → u.badOpnd so so.lay.rows so.lay.cols = none →
    u.badOpnd co 3 (rtExperts b) = none → u.inMap lo.addr (listRegion (rtExperts b) lo.lay.rows so.lay.rows (rtTopk b)) = true →
    let r := u.scores (u.engQuire e) so
    (r.1.any fun r => r.vals.any (·.2)) = false →
    exec (.route e units ev) s = .next ((r.2.begin_ e t (r.2.engines[e].pc + 1)).runUnits State.routeUnit units e t.pos))

/-- A command that has no work left completes with its status; one that has some does it first. A command past its limit is told to stop, and ends
with TIMEOUT at the engine's acknowledgement; an engine that does not acknowledge within 10 ms is recorded as wedged, and asks for a reset of the
compute partition. -/
def Obligations.EngineCommandsEnd : Prop :=
  (∀ (s : State) (e : EngId) (pos st : Nat) (t : Entry), s.entryAt e pos = some t → s.enginesLive = true → t.stopAt = none → s.engines[e].wedged = false →
    (∀ y ∈ s.engines[e].entries, y.pos = pos → y = t) → t.work = false → pkOp t.packet ≠ 0x80 → s.endedWith e t = some st →
    exec (.engineCommandComplete e pos []) s = .next ((s.closeWork e t).endEntry e pos st)) ∧
  (∀ (s : State) (e : EngId) (pos st : Nat) (ev : List MemEvent) (t u : Entry), s.entryAt e pos = some t → s.enginesLive = true → t.stopAt = none →
    s.engines[e].wedged = false →
    let v := (s.memEvents ev (pkTag t.packet) (s.unitByte e)).runAll e t
    v.entryAt e pos = some u → v.endedWith e u = some st →
    exec (.engineCommandComplete e pos ev) s = .next ((v.closeWork e u).endEntry e pos st)) ∧
  (∀ (s : State) (e : EngId),
    let hit := s.engines[e].entries.filter fun t => !t.ready && t.stopAt.isNone && decide (t.limit ≤ s.now)
    let u := s.setEng e { s.engines[e] with
      stopAt := some (s.engines[e].stopAt.getD s.clock)
      entries := s.engines[e].entries.map fun t => if hit.contains t then { t with stopAt := some s.clock } else t }
    exec (.commandTimeout e) s = .next (if hit = [] then s else hit.foldl (fun s t => s.traceCmd e t 7 stTimeout 0) u)) ∧
  (∀ (s : State) (e : EngId), s.engines[e].stopAt.isSome = true → s.engines[e].noAck = false → s.engines[e].wedged = false →
    exec (.stopAcknowledge e) s = .next (((s.engines[e].entries.filter fun t => t.stopAt.isSome && !t.ready).foldl
      (fun s t => (s.dropLoad e t).closeEntry e t.pos stTimeout) (s.setEng e { s.engines[e] with stopAt := none })).flush e)) ∧
  (∀ (s : State) (e : EngId) (t0 : Nat), s.engines[e].stopAt = some t0 → t0 + 10000000 ≤ s.clock → s.engines[e].wedged = false → s.binder.run ≠ .off →
    s.guard.resetReq = none → ∃ t, exec (.unitWedged e) s = .next t ∧ t.engines[e].wedged = true ∧ t.guard.resetReq.isSome = true ∧
      t.guard.logNext = s.guard.logNext + 1)

/-! ## Messages of copies, events of memory, and temperatures -/

/-- A copy's part that a route delivers writes its pieces and is acknowledged; one for a region that is not open to the sender is refused and is a
malformed frame; a declaration is kept; an abandoned copy poisons what it has not delivered; a token adds to its counter and is acknowledged. -/
def Obligations.MessagesOfCopiesAct : Prop :=
  ∀ (s : State) (p : Port) (h : Hop),
    (∀ m : PartMsg, s.destHop p m.resId = some h → s.refusesData p m.ctx = false →
      (m.pieces.all fun r => s.isOpenTo m.ctx h.peerId r.1 r.2.length) = true →
      let t := m.pieces.foldl (fun s r => s.logItem m.ctx 1 h.peerId m.resId r.1 (if (sheetRange r.1 r.2.length).any m.poisoned.contains then 1 else 0) r.2)
        (s.putPieces m.pieces m.poisoned)
      let rs := t.recvs.map fun r => if r.resId = m.resId && r.copy = m.copy then { r with complete := dedup (r.complete ++ [m.part]) } else r
      exec (.dataPartReceive p m) s = .next (({ t with recvs := rs.filter fun r => r.missing ≠ [] } : State).emit (.partAck p m.copy m.part true))) ∧
    (∀ m : PartMsg, s.destHop p m.resId = some h → s.refusesData p m.ctx = true →
      exec (.dataPartReceive p m) s = .next (s.emit (.partAck p m.copy m.part false))) ∧
    (∀ m : DeclareMsg, s.destHop p m.resId = some h → s.refusesData p m.ctx = false →
      exec (.remoteCopyDeclare p m) s = .next { s with recvs := s.recvs ++ [{
        resId := m.resId, copy := m.copy, ctx := m.ctx, complete := []
        parts := m.parts.filter fun x => x.2.all fun r => s.isOpenTo m.ctx h.peerId r.1 r.2 }] }) ∧
    (∀ res copy, s.destHop p res = some h →
      exec (.copyAbandon p res copy) s = .next ((s.recvs.filter fun r => r.resId = res && r.copy = copy).foldl State.abandonRecv s)) ∧
    (∀ m : TokenMsg, s.destHop p m.resId = some h → s.refusesData p m.ctx = false → s.ownsCounter m.ctx (512 * m.folio + m.index) = true →
      let t := if s.tokenLate h (512 * m.folio + m.index) then s.noteCause 9 else s
      exec (.tokenMessageReceive p m) s = .next (((t.addCtr (512 * m.folio + m.index) m.inc.toNat m.ctx 0xFF m.tag).logItem m.ctx 2 h.peerId m.resId
        (512 * m.folio + m.index + 4294967296 * m.inc.toNat) 0 []).emit (.tokenAck p m true))) ∧
    (∀ copy part ok y e, s.sent.find? (fun y => y.copy = copy && !y.token && bit y.parts part && !y.down) = some y → y.eng = some e →
      exec (.partAcknowledge copy part ok) s = .next (s.updEntry e y.pos fun t =>
        if t.ready || bit t.done.toNat part || bit t.failed.toNat part then t
        else if ok then { t with done := t.done ||| BitVec.ofNat 64 (2 ^ part) } else { t with failed := t.failed ||| BitVec.ofNat 64 (2 ^ part) }))

/-- An addition that would take a counter above 0xFFFF_FFFF leaves it there, with record 0x0404 of the counter and the tag, and the flag of the step
(of the next pass after the barrier message); any other adds exactly; no other counter changes. -/
def Obligations.CountersSaturate : Prop :=
  ∀ (s : State) (c n ctx : Nat) (unit : Byte) (tag : W32), 0 < n →
    let t := s.addCtr c n ctx unit tag
    ((s.ctr c).toNat + n < 2 ^ 32 → (t.ctr c).toNat = (s.ctr c).toNat + n ∧ t.guard = s.guard ∧ t.scheds = s.scheds) ∧
    (2 ^ 32 ≤ (s.ctr c).toNat + n → t.ctr c = 0xFFFFFFFF#32 ∧
      (∃ r ∈ t.guard.log, r.seq = s.guard.logNext ∧ r.code = 0x0404 ∧ r.body = nativeBody tag c 0 0) ∧
      ∀ x ∈ t.scheds, x.collated = true → x.active = true → (if x.takesFlags then x.coll.flags else x.later.flags).getLsbD 3 = true) ∧
    (∀ d, d ≠ c → t.ctr d = s.ctr d)

/-- The scrubs report what they find; a region that waits for its zeroing reads zero afterwards; the warning of a channel that has stayed low for 60 s
ends. -/
def Obligations.MemoryEventsAct : Prop :=
  (∀ (s : State) (a : Nat), isTier a = true → s.mem.selfRefresh = false → s.fenced (a / 1024) = false →
    exec (.patrolScrub a .clean) s = .next s ∧
    exec (.patrolScrub a .correctable) s = .next (s.memEvent (.corrected a) 0 0xFF) ∧
    exec (.patrolScrub a .uncorrectable) s = .next (s.memEvent (.uncorrectable a) 0 0xFF)) ∧
  (∀ (s : State) (q : Quire) (a : Nat), s.mem.selfRefresh = false →
    exec (.stagingScrub q (some a) .clean) s = .next s ∧
    exec (.stagingScrub q (some a) .correctable) s = .next (s.countWarn (0x2000 + q.val) 1 true false) ∧
    (isTier a = true → exec (.stagingScrub q (some a) .uncorrectable) s = .next ((s.dropLine q (a / 1024)).native 3 0x0105 q.val 0 0)) ∧
    (isTier a = false → s.storeOf a = some (q.val + 2) → exec (.stagingScrub q (some a) .uncorrectable) s = .next (s.uncorrectable a 0 0xFF false))) ∧
  (∀ (s : State) (r : Region), s.mem.zeroQ.find? (fun r => !s.protectedIn r.base r.size) = some r → s.mem.selfRefresh = false →
    ∃ t, exec .regionZeroing s = .next t ∧ (t.mem.zeroQ = s.mem.zeroQ.filter fun y => y.id ≠ r.id) ∧
      ∀ a, r.base ≤ a → a < r.base + r.size → t.memByte a = 0) ∧
  (∀ (s : State) (ch t : Nat), (s.chan ch).lowSince = some t → (s.chan ch).warned = true → t + 60000000000 ≤ s.clock →
    exec (.correctedErrorWarningClear ch) s = .next (s.setChan ch { s.chan ch with warned := false, lowSince := none }))

/-- Sensor reports set the readings, and the Guard settles its limits by them. The bandwidth cap rises by 8 (from below 40 to 40) after 1 ms of cool
stacks, falls by 8 down to 16 after 1 ms of hot ones; the compute supply moves to its target by at most 25 mV a step; the stall asserts after its
time; the operating point returns one step at a time. The coolant demand rises at once and falls by at most 1 % in 200 ms; in the emergency point it
is 100 %. -/
def Obligations.TheGuardKeepsItsLimits : Prop :=
  ((∀ (s : State) (l : List (Option Int)), s.guard.powered = true → l.length = 40 →
    exec (.stackSensorReport l) s =
      .next (({ s with guard := { s.guard with sensors := { s.guard.sensors with dram := l } } } : State).settleCap.settlePoint)) ∧
  (∀ (s : State) (r : JReport), s.guard.powered = true → r.junction.length = 16 →
    exec (.junctionSensorReport r) s = .next (({ s with guard := { s.guard with
      sensors := { s.guard.sensors with junction := r.junction, inlet := r.inlet, outlet := r.outlet, powerW := r.powerW, vin10mV := r.vin10mV }
      supply := { s.guard.supply with supplyFault := s.guard.supply.supplyFault && decide (r.vin10mV < 4000) } } } : State).settlePoint.powerRecord.inletRecord))) ∧
  (∀ s : State,
    let g := s.guard.supply
    (∀ t, g.capSince = some t → t + 1000000 ≤ s.clock → g.cap < 64 →
      let c := if g.cap < 40 then 40 else g.cap + 8
      exec .throttleBandRaise s = .next { s with guard.supply := { g with cap := c, capSince := s.capCool c none } }) ∧
    (∀ t, g.capHotSince = some t → t + 1000000 ≤ s.clock → exec .throttleStepDown s = .next { s with
      guard.supply := { g with cap := max 16 (g.cap - 8), capHotSince := some s.clock } }) ∧
    (let v := if g.vcomp < g.vtarget then min g.vtarget (g.vcomp + 25) else if g.vtarget < g.vcomp then max g.vtarget (g.vcomp - 25) else g.vcomp
     let u : State := { s with guard.supply := { g with vcomp := v } }
     exec .voltageStep s = .next { u with guard.supply := { u.guard.supply with hotSince := u.hotNow } } ∧
      (g.vtarget ≤ g.vcomp + 25 → g.vcomp ≤ g.vtarget + 25 → v = g.vtarget) ∧ (g.vcomp + 25 < g.vtarget → v = g.vcomp + 25) ∧
      (g.vtarget + 25 < g.vcomp → v = g.vcomp - 25)) ∧
    (s.guard.powered = true → g.stall = false → s.hotNow.isSome = true → s.ripe g.hotSince = true →
      exec .thermalStall s = .next { s with guard.supply := { g with stall := true, stallSince := s.clock } }) ∧
    (let u := s.settlePoint
     let p := u.guard.supply
     u.guard.powered = true → u.guard.cutoff = false → u.guard.overvolt = false → u.guard.devState ≠ .removed →
      (pointRank p.opPoint = 0 → u.ripe p.floorSince = true → exec .operatingPointReturn s = .next (u.setPoint .floor)) ∧
      (pointRank p.opPoint ≠ 0 → pointRank p.opPoint < 3 → u.ripe p.peakSince = true → exec .operatingPointReturn s = .next (u.setPoint .peak)) ∧
      (pointRank p.opPoint = 1 → u.ripe p.peakSince = false → u.ripe p.nominalSince = true → exec .operatingPointReturn s = .next (u.setPoint .nominal)))) ∧
  (∀ (s : State) (w : Nat), s.guard.powered = true →
    let g := s.guard
    let d := if g.supply.opPoint = .emergency then 100 else demandOf w s.designPower s.tJ s.tS g.limits.demandMin
    let n := min (g.supply.demand - d) ((s.clock - g.supply.demandAt) / 200000000)
    (g.supply.demand ≤ d → exec (.coolantDemand w) s = .next { s with guard := { g with supply := { g.supply with demand := d, demandAt := s.clock } } }) ∧
    (d < g.supply.demand → exec (.coolantDemand w) s = .next { s with guard := { g with
      supply := { g.supply with demand := g.supply.demand - n, demandAt := g.supply.demandAt + 200000000 * n } } }))

/-- A running Binder shows that it is alive; one that has not for 100 ms is recorded and reset. A reset of the compute partition that is due is done,
or removes the device where it is one too many. -/
def Obligations.TheBinderAndThePartitionAreReset : Prop :=
  ((∀ s : State, s.binder.run = .running → exec .binderAlive s = .next { s with binder.lastAlive := s.clock }) ∧
  (∀ s : State, s.binder.run ≠ .off → s.guard.powered = true → s.guard.supply.stall = false → s.binder.lastAlive + 100000000 ≤ s.clock →
    (s.latents.find? fun l => l.type = 0x0D) = none →
    let t := s.nativeI false 3 0x0802 0 0 0
    exec .binderWatchdog s = .next (if t.countReset.1 then t.countReset.2.removeFromService (some s.guard.logNext)
      else t.countReset.2.binderReset (some s.guard.logNext) false))) ∧
  (∀ (s : State) (k : PartitionKat) (c : Option Nat), s.guard.powered = true → s.guard.devState ≠ .removed → s.guard.cutoff = false → s.guard.overvolt = false →
    s.guard.refLost = none → s.guard.devState ≠ .booting → s.guard.devState ≠ .resetting →
    let t := { s with guard.resetReq := none }
    (s.guard.resetReq = some (.partition c true) → exec (.computePartitionReset k) s = .next (t.partitionReset c k)) ∧
    (s.guard.resetReq = some (.partition c false) → t.countReset.1 = false → exec (.computePartitionReset k) s = .next (t.countReset.2.partitionReset c k)) ∧
    (s.guard.resetReq = some (.partition c false) → t.countReset.1 = true → exec (.computePartitionReset k) s = .next (t.countReset.2.removeFromService c)))

/-! ## Steps, barriers, votes and replays -/

/-- A phase that may launch launches: the first launch of a step begins the step; the streams of the phase start on their engines. A background window
opens its entry once. -/
def Obligations.PhasesAndWindowsOpen : Prop :=
  (∀ (s : State) (id phase : Nat) (x y : Sched) (p : PhaseE), (s.settle id).sched id = some x → x.image.phases[phase]? = some p →
    (s.settle id).launchable x phase p = true →
    (if x.between then (s.settle id).firstLaunch id x.launchStep else s.settle id).sched id = some y →
    exec (.phaseLaunch id phase) s = .next ((if x.between then (s.settle id).firstLaunch id x.launchStep else s.settle id).launch y phase p)) ∧
  (∀ (s : State) (id entry : Nat) (x : Sched) (b : BgE), s.sched id = some x → x.image.bgs[entry]? = some b → x.state = .running →
    x.coll.state ≠ .none → x.replay = none → x.cancel ≠ some false → x.bgOpen b s.now = true → s.guard.power.pstate = .run →
    x.launchedBg.contains entry = false →
    exec (.backgroundWindow id entry) s = .next (s.setSched { x with launchedBg := x.launchedBg ++ [entry] }))

/-- The messages of a barrier. A device whose barrier is ready sends its up message to its parent, once; the root completes the barrier with its own
message. A child's up message of the awaited round is kept. The down message goes to the children and ends the round; a failed one leaves the schedule
HELD. A message that no barrier awaits is malformed traffic. A barrier that is not complete at its limit makes the schedule HELD, with a BARRIER slip
of cause 9 and record 0x0508 of a schedule that was not; a root that misses messages sends the failed down message, and every other device marks its
barrier failed and waits for it. A step whose first launch is still to come begins with it. Votes and the arm exchange. A child's entry is kept; with
the entries of a whole subtree there, they go up once, and at the root they decide the ordinal; the parent's entries decide it below. An arming device
that has every device's entry keeps the exchange, or is ADMITTED again, with record 0x0504, where a device of a collated schedule is not named by
exactly one other. -/
def Obligations.BarriersAct : Prop :=
  (((∀ (s : State) (id : Nat) (x : Sched),
    let t := (s.settle id).beginEmpty id
    let m := t.upMessage x
    let own := t.ownEntry x
    let y : Sched := { x with bar := { x.bar with upSent := true }, coll := if x.probe.pass then { x.coll with state := .round } else { x.coll with
      recto := own.recto, verso := own.verso, flags := own.flags, state := if x.coll.state = .waiting then .waiting else .round } }
    t.sched id = some x → x.upReady = true →
    (∀ q, portId x.image.bar.parent = some q → exec (.barrierUpSend id) s = .next ((t.setSched y).emit (.barrierUp q m))) ∧
    (portId x.image.bar.parent = none → exec (.barrierUpSend id) s = .next ((t.setSched y).barrierDone id m))) ∧
  (∀ (s : State) (p : Port) (m : BarrierMsg) (x : Sched), s.ports[p].admitted = true → s.awaits m = some x →
    x.image.bar.children.getLsbD p.val = true → (x.bar.ups.any fun u => u.1 = p) = false →
    let t := s.setSched { x with bar := { x.bar with ups := x.bar.ups ++ [(p, m)] } }
    ((portId x.image.bar.parent).isSome = true → exec (.barrierUpReceive p m) s = .next t) ∧
    (portId x.image.bar.parent = none → exec (.barrierUpReceive p m) s = .next ((t.settle x.id).sendUp x.id))) ∧
  (∀ (s : State) (p : Port) (m : BarrierMsg) (x : Sched), s.ports[p].admitted = true → s.awaits m = some x → s.sched x.id = some x →
    portId x.image.bar.parent = some p → x.cancel ≠ some false →
    let t := (barPorts x.image.bar.children).foldl (fun s q => s.emit (.barrierDown q m)) s
    let u := ((t.reloadCounters x).setSched { x with downAt := if x.bar.round = 0 then (t.reloadCounters x).now else x.downAt }).barrierPendings x
    (m.failed = true → exec (.barrierDownReceive p m) s = .next (t.barFailed x.id m.missing)) ∧
    (m.failed = false → x.bar.upSent = true →
      exec (.barrierDownReceive p m) s = .next (if x.probe.pass then u.probeEnd x.id m else u.roundEnd x.id m))) ∧
  (∀ (s : State) (p : Port) (m : BarrierMsg), s.ports[p].admitted = true → s.awaits m = none →
    exec (.barrierUpReceive p m) s = .next (s.malformed p) ∧ exec (.barrierDownReceive p m) s = .next (s.malformed p))) ∧
  (∀ (s : State) (id : Nat) (x y : Sched), s.sched id = some x → (x.state = .armed ∨ x.state = .running ∨ x.state = .held) →
    (x.between = true → x.image.nSteps ≠ 0 → x.launchStep < x.image.nSteps) → x.coll.state ≠ .escalated →
    x.bar.failed = false → x.barrierDue ≤ s.now → s.guard.supply.stall = false →
    let n := x.launchStep
    let t := (if x.between = true ∧ x.state ≠ .held then s.firstLaunch id n else s).slip id
      { tag := 0, kind := 3, cause := 9, phase := 0xFF, unit := 0xFF, step := n,
        nominal := x.stepStart n + x.image.barrierAt, actual := (if x.between = true ∧ x.state ≠ .held then s.firstLaunch id n else s).now }
    let u := (if x.state = .held then t else (t.nativeE 3 0x0508 x.ctx 0xFF 0 x.missingUps.toNat 0 0).emit (.report 0x0508 x.missingUps.toNat)).holdSched id
    u.sched id = some y →
    exec (.barrierLimitExpiry id) s = .next (if (portId x.image.bar.parent).isNone && x.missingUps ≠ 0 then
        u.barrierDone id { setId := x.image.setId, step := n, round := x.bar.round, entries := [], obs := [], failed := true, missing := x.missingUps }
      else u.setSched { y with bar := { y.bar with failed := true } }))) ∧
  ((∀ (s : State) (p : Port) (setId : W64) (step : Nat) (v : VoteEntry) (x : Sched), s.ports[p].admitted = true →
    (s.scheds.find? fun x => x.collated && x.active && x.image.setId = setId && x.step = step) = some x → s.sched x.id = some x →
    x.image.bar.children.getLsbD p.val = true →
    let y : Sched := { x with vote := { x.vote with got := x.vote.got.filter (fun z => !(z.1 = p && v.ordinal = z.2.ordinal && v.dev = z.2.dev)) ++ [(p, v)] } }
    let z : Sched := { y with vote := { y.vote with sentUp := y.vote.sentUp ++ [v.ordinal] } }
    let m : VoteMsg := { setId := setId, step := step, down := false, entries := [v] }
    ((y.subtree v.ordinal = none ∨ y.vote.sentUp.contains v.ordinal = true) → exec (.voteReceive p m) s = .next (s.setSched y)) ∧
    (∀ es, y.subtree v.ordinal = some es → y.vote.sentUp.contains v.ordinal = false →
      (∀ q, portId x.image.bar.parent = some q → exec (.voteReceive p m) s =
        .next (((s.setSched y).setSched z).emit (.vote q { setId := x.image.setId, step := x.step, down := false, entries := es }))) ∧
      (portId x.image.bar.parent = none → exec (.voteReceive p m) s = .next (((s.setSched y).setSched z).decideVote x.id v.ordinal es)))) ∧
  (∀ (s : State) (p : Port) (m : VoteMsg) (x : Sched), s.ports[p].admitted = true → m.authOk = true →
    (s.scheds.find? fun x => x.collated && x.active && x.image.setId = m.setId && x.step = m.step) = some x → m.down = true →
    portId x.image.bar.parent = some p →
      exec (.voteReceive p m) s = .next ((dedup (m.entries.map VoteEntry.ordinal)).foldl
        (fun s o => s.decideVote x.id o (m.entries.filter fun v => v.ordinal = o)) s)) ∧
  (∀ (s : State) (id : Nat) (entries : List ArmEntry) (x : Sched), s.sched id = some x → x.state = .armed → x.probe.exchange = none →
    let es := s.armEntry x :: entries.filter fun a => a.index ≠ imgGroupIndex s.act
    (∀ g, g < imgGroupSize s.act → ∃ a ∈ es, a.index = g) →
    ((x.collated = false ∨ ∀ g, g < imgGroupSize s.act → namers es g = 1) → exec (.armExchangeReceive id entries) s =
      .next (s.setSched { x with probe := { x.probe with exchange := some es, armOk := true, unsettled := unsettledOf es x.numTensors } })) ∧
    (∀ g, x.collated = true → g < imgGroupSize s.act → namers es g ≠ 1 → (∀ k, k < g → namers es k = 1) → exec (.armExchangeReceive id entries) s =
      .next ((s.nativeE 3 0x0504 x.ctx 0xFF 0 g 0 0).setSched { x with state := .admitted }).runPendings)))

/-- A replay starts at its granule: the state of the step is restored and its pass begins, that of a group replay with a fresh log and vote record. A
logged item goes in once every engine has issued as many commands as it had when the item came: a token is added, data is written. A diagnostic replay
of the step that has collated starts at a granule; when it has its digest, it ends: what it wrote is put back, and the result is 0 where both digests
are those of the step. A known-answer test that is due on a folio runs, and its result goes to what asked for it; that of a spare settles the
takeover. -/
def Obligations.ReplaysAndTestsRun : Prop :=
  ((∀ (s : State) (id : Nat) (x : Sched) (r : Replay), s.sched id = some x → x.replay = some r → r.started = false → r.start ≤ s.now → s.now % 8 = 0 →
    x.coll.arbTodo = 0 → x.coll.takes = [] → s.spoiltRanges x = [] → x.cancel ≠ some false →
    let t := if r.kind = .group then { s.restore x with
        ledger := { (s.restore x).ledger with logPos := 0, logIdx := 0, overflow := false, incomplete := false, votes := [] } } else s.restore x
    exec (.replayStart id) s = .next ((t.setSched (x.replayPass { r with started := true, start := granule t.now })).clearIssue x)) ∧
  (∀ (s : State) (id : Nat) (x y : Sched) (r : Replay), s.sched id = some x → x.replay = some r → r.started = true → r.kind ≠ .group →
    r.logIdx < s.ledger.logIdx →
    let a := s.logBase + r.logPos
    ((List.finRange 44).all fun e => decide (s.memNat (a + 0x40 + 4 * e.val) 4 ≤ s.engines[e].issue)) = true →
    let target := s.memNat (a + 0x18) 8
    let u := if s.memNat a 4 = 2 then s.addCtr (512 * bits target 9 4 + bits target 0 9) (target / 4294967296) x.ctx 0xFF 0
      else s.memWriteP target (s.memRead (a + 256) (s.memNat (a + 4) 4)) fun _ => bit (s.memNat (a + 0x28) 4) 0
    u.sched id = some y →
    exec (.logItemInject id) s = .next (u.setSched { y with
      replay := some { r with logPos := r.logPos + 256 + ceilDiv (s.memNat (a + 4) 4) 64 * 64, logIdx := r.logIdx + 1 } }))) ∧
  ((∀ (s : State) (id : Nat) (x : Sched) (step k : Nat), (s.settle id).sched id = some x → x.diag = some (step, k) → x.replay = none →
    x.coll.state = .collated → x.step = step → x.active = true → (s.settle id).now % 8 = 0 →
    let t := s.settle id
    let r := t.saveFor x { Replay.at .diagnostic t.now step with started := true }
    exec (.diagnosticReplay id) s = .next (((t.restore x).setSched (x.replayPass r)).clearIssue x)) ∧
  (∀ (s : State) (id : Nat) (x : Sched) (d : Nat × Nat) (r : Replay), (s.settle id).sched id = some x → x.diag = some d → x.replay = some r →
    r.kind = .diagnostic → x.learned x.step = true → (x.runs.any fun p => p.step = x.step && !p.gen && p.stopped) = false →
    (x.deviceDigest false).poison = false → (x.deviceDigest true).poison = false → (x.deviceDigest false).val = x.coll.recto.val →
    (x.deviceDigest true).val = x.coll.verso.val →
    let t := s.settle id
    let u := r.saved.foldl (fun s w => if w.2 = [] then s else s.memWrite w.1 w.2) { t with counters := r.savedCtrs, ledger.held := false }
    exec (.diagnosticReplay id) s = .next (((u.setSched { x with replay := none, diag := none }).cutCheck).finishReplayCmd id 0)) ∧
  (∀ (s : State) (p : Phys) (failed : BitVec 5) (quireFailed : BitVec 2), s.katWanted p = true → s.enginesLive = true →
    let k := s.raiseSupply.katRun p (failed.toNat + if s.katQuire p then 32 * quireFailed.toNat else 0)
    (∀ l, s.logOf p = some l → k.2.katAsked l = true → exec (.knownAnswerRun p failed quireFailed) s = .next (k.2.katForCommand l k.1)) ∧
    (∀ l, s.logOf p = some l → k.2.katAsked l = false → exec (.knownAnswerRun p failed quireFailed) s = .next ((k.2.katForReplay l k.1).katForStep l k.1)) ∧
    (s.logOf p = none → exec (.knownAnswerRun p failed quireFailed) s = .next (k.2.takeover p k.1))))

/-- A shadow takes the items of its feed, runs the fed step from its base at a granule, and compares; a stalled feed ends it. An injection whose time
has come fires: its effect, record 0x0901, and one count less; the record and everything that it causes carry INJECTED. A long command that is still
in STATE 2 after 60 s completes with TIMEOUT. -/
def Obligations.ShadowsAndInjectionsAct : Prop :=
  ((∀ (s : State) (p : Port) (item : FeedItem) (h : Hop), (s.shadow.status = 1 ∨ s.shadow.status = 2) → s.destHop p s.shadow.resIn = some h →
    s.feedStarted.shadow.feedStep = some (feedStepOf item) →
    exec (.shadowFeedReceive p s.shadow.resIn item) s = .next (s.feedStarted.feedItem item)) ∧
  (∀ (s : State) (d : Nat × Dig × Dig) (x : Sched),
    let t := s.settle s.shadow.sched
    t.sched s.shadow.sched = some x → t.shadow.sched = s.shadow.sched → t.shadow.atBase = some d → t.shadowRuns x = true →
    (x.inReplay = true → x.learned x.step = true → exec (.shadowStep d.1) s = .next (t.shadowCompare x d)) ∧
    (x.inReplay = false → t.now % 8 = 0 →
      let y := { x with step := d.1, coll := { Coll.start with state := .localReplay } }
      exec (.shadowStep d.1) s =
        .next (((t.restore y).setSched (y.replayPass { Replay.at .localReplay t.now d.1 with started := true })).clearIssue y))) ∧
  (∀ (s : State) (p : Port) (h : Hop), s.hopOf s.shadow.resIn 2 = some h → h.inPort = p.val → s.shadow.feedPort ≠ some p →
    exec (.shadowFeedStall p) s = .next (s.endShadow 3))) ∧
  ((∀ (s : State) (id : Nat) (i : Inj), (s.guard.injections.find? fun j => j.id = id) = some i → i.trigger.toNat ≤ s.now → s.guard.powered = true →
    let js : List Inj := s.guard.injections.flatMap fun j =>
      if j.id = id then (if i.left ≤ 1 || i.type = 0x0E then [] else [{ j with left := j.left - 1 }]) else [j]
    exec (.injectionFire id) s =
      .next ((((({ s with guard := { s.guard with injections := js } } : State).fire i).native 0 0x0901 i.id i.target.toNat i.type)).injectedFrom s.guard.logNext)) ∧
  (∀ (s : State) (n : SlotId) (r : CmdRow), s.slots[n].hdr.state = 2 → cmdRow s.slots[n].hdr.cmd.toNat = some r → r.long = true →
    s.slots[n].takenAt + 60000000000 ≤ s.clock → s.binder.run ≠ .off →
    exec (.longCommandTimeout n) s = .next ((s.stopHeld n).refuse n stTimeout 0)))

/-! ## Time -/

/-- A port that takes part in timing starts an exchange at most once in a microsecond; a good SYNC is answered; a good REPLY gives a sample, which the
window takes unless its delay or its offset rules it out; a bad message is discarded and counted. -/
def Obligations.TimingExchangesRun : Prop :=
  (∀ (s : State) (p : Port), s.times p = true → s.ports[p].timing.lastSync + 1000 ≤ s.clock →
    exec (.syncExchangeStart p) s = .next ((s.setPort p { s.ports[p] with timing := { s.ports[p].timing with
      lastSync := s.clock, syncAt := s.ports[p].timing.syncAt ++ [s.now16] } }).sendTiming p 1 s.now16 0 0)) ∧
  (∀ (s : State) (p : Port) (m : TimingMsg), s.timingBad p 1 m = none →
    exec (.syncReceive p m) s = .next ((s.peerTiming p m).sendTiming p 2 m.tA.toNat (s.peerTiming p m).now16 (s.peerTiming p m).now16)) ∧
  (∀ (s : State) (p : Port) (m : TimingMsg) (w : Nat),
    (s.timingBad p 1 m = some w → exec (.syncReceive p m) s = .next (s.discard p w)) ∧
    (s.timingBad p 2 m = some w → exec (.replyReceive p m) s = .next (s.discard p w))) ∧
  (∀ (s : State) (p : Port) (m : TimingMsg), s.timingBad p 2 m = none →
    let t := s.peerTiming p m
    let u := t.setPort p { t.ports[p] with timing := { t.ports[p].timing with syncAt := t.ports[p].timing.syncAt.erase m.tA.toNat } }
    u.meet 0x07 p.val = none →
    let t1 : Int := m.tA.toNat
    let t2 : Int := m.tB.toNat
    let t3 : Int := m.tC.toNat
    let t4 : Int := s.now16
    let d2 := (t4 - t1) - (t3 - t2)
    let o2 := (t2 - t1) - (t4 - t3)
    (u.ports[p].timing.window = [] → exec (.replyReceive p m) s = .next (u.acceptSample p d2 o2 false)) ∧
    (u.ports[p].timing.window ≠ [] → u.ports[p].timing.minDelay + 128 < d2 → exec (.replyReceive p m) s = .next (u.rejectSample p true)) ∧
    (u.ports[p].timing.window ≠ [] → u.ports[p].timing.window.length < 16 → d2 ≤ u.ports[p].timing.minDelay + 128 →
      exec (.replyReceive p m) s = .next (u.acceptSample p d2 o2 false)) ∧
    (u.ports[p].timing.window.length = 16 → d2 ≤ u.ports[p].timing.minDelay + 128 → 2 * o2 - u.ports[p].timing.median4 ≤ 512 →
      -512 ≤ 2 * o2 - u.ports[p].timing.median4 → exec (.replyReceive p m) s = .next (u.acceptSample p d2 o2 false)) ∧
    (u.ports[p].timing.window.length = 16 → d2 ≤ u.ports[p].timing.minDelay + 128 →
      (512 < 2 * o2 - u.ports[p].timing.median4 ∨ 2 * o2 - u.ports[p].timing.median4 < -512) →
      exec (.replyReceive p m) s = .next (u.rejectSample p false)))

/-- HOLDOVER after 20 us without a sample, UNLOCKED after 2 ms of HOLDOVER, a bar that ends, and a conflict of roots that is reported once a second.
The edges of the external reference: within 100 ns of the alignment an edge slews the counter, and the eighth in a row enters ROOT_EXTERNAL; one
farther away is rejected, and the fourth in a row loses the reference, as 2 s without an edge do; before the first READY a counter that is off the
alignment, or below TIM_START, steps to it (the slew's gain is log entry 73). -/
def Obligations.TimeStatesFollowTheClock : Prop :=
  ((∀ s : State, s.time.tstate = .locked → s.time.lastSample + 20000 ≤ s.clock →
    exec .holdoverEntry s = .next (s.setTime .holdover) ∧ (s.setTime .holdover).time.tstate = .holdover ∧ (s.setTime .holdover).time.slew = 0) ∧
  (∀ s : State, s.time.tstate = .locked → s.clock < s.time.lastSample + 20000 → exec .holdoverEntry s = .next s) ∧
  (∀ s : State, s.time.tstate = .holdover → s.time.holdSince + 2000000 ≤ s.clock →
    exec .unlockedEntry s = .next (s.setTime .unlocked) ∧ (s.setTime .unlocked).time.tstate = .unlocked) ∧
  (∀ (s : State) (p : Port) (t : Nat), s.ports[p].timing.barUntil = some t → t ≤ s.clock →
    exec (.portBarExpiry p) s = .next (s.setPort p { s.ports[p] with timing := { s.ports[p].timing with barUntil := none } })) ∧
  (∀ (s : State) (p : Port), s.rootConflict = some p → (s.time.conflict = false ∨ s.time.conflictAt + 1000000000 ≤ s.clock) →
    let t := { s with time := { s.time with conflict := true, conflictAt := s.clock } }
    exec .rootConflictReport s = .next ((t.native 2 0x0302 p.val s.ports[p].timing.rootId.toNat 0).emit (.report 0x0302 p.val)))) ∧
  ((∀ (s : State) (ref10m : Int), s.onPps = true → s.time.everReady = true → -100 ≤ s.ppsError → s.ppsError ≤ 100 →
    let t := { s with time := { s.time with
      ppsLast := some s.clock, ppsGood := s.time.ppsGood + 1, ppsMiss := 0, freq := clampI ref10m (-102400000) 102400000
      slew := clampI (-(s.ppsError * 1024)) (-50000) 50000 } }
    exec (.ppsEdge ref10m) s = .next (if 8 ≤ s.time.ppsGood + 1 ∧ s.time.tstate = .rootFree then t.setTime .rootExt else t)) ∧
  (∀ (s : State) (ref10m : Int), s.onPps = true → s.time.everReady = true → (s.ppsError < -100 ∨ 100 < s.ppsError) →
    let t := { s with time := { s.time with ppsLast := some s.clock, ppsRejected := satAdd32 s.time.ppsRejected 1, ppsMiss := s.time.ppsMiss + 1, ppsGood := 0 } }
    exec (.ppsEdge ref10m) s = .next (if 4 ≤ s.time.ppsMiss + 1 then t.rootLost else t)) ∧
  (∀ (s : State) (ref10m : Int), s.onPps = true → s.time.everReady = false → (s.ppsAway = true ∨ s.now < imgStart s.act) →
    let t := { s with time := { s.time with stitch := BitVec.ofNat 64 s.ppsStart, ppsLast := some s.clock } }
    exec (.ppsEdge ref10m) s = .next (if t.ppsAway then t.ppsReject else t.ppsAccept ref10m)) ∧
  (∀ (s : State) (t : Nat), s.onPps = true → s.time.ppsLast = some t → t + 2000000000 ≤ s.clock →
    exec .ppsLoss s = .next ({ s with time := { s.time with ppsGood := 0 } } : State).rootLost))

/-! ## Links -/

/-- Training. A DOWN port trains again after 1 s; a detected signal is kept; a lock admits or ends the attempt with its reason; 1 s without a signal
ends it, and the lane is reported; a host port whose link comes up is the host's or its standby. -/
def Obligations.PortsTrain : Prop :=
  ∀ (s : State) (p : Port),
    (s.ports[p].st = .down → s.ports[p].at_ + 1000000000 ≤ s.clock → lnkRole s.act p.val ≠ 0 → s.guard.refLost = none →
      exec (.trainingRetry p) s = .next (s.startTraining p)) ∧
    (s.ports[p].st = .training → s.isLink p = true → exec (.signalDetect p) s = .next (s.setPort p { s.ports[p] with signal := true })) ∧
    (s.ports[p].st = .training → s.isLink p = true → s.ports[p].signal = true →
      exec (.frameLock p .locked) s = .next (s.beginAdmission p) ∧
      exec (.frameLock p .noConvergence) s = .next (s.portDown p 2).portsSettle ∧
      exec (.frameLock p .generationMismatch) s = .next (s.portDown p 3).portsSettle ∧
      exec (.frameLock p .noLock) s = .next (s.portDown p 4).portsSettle) ∧
    (s.ports[p].st = .quarantined → s.isLink p = true → s.ports[p].signal = false →
      exec (.frameLock p .locked) s = .next (s.setPort p { s.ports[p] with signal := true, soakDue := true })) ∧
    (∀ lane, s.ports[p].st = .training → s.isLink p = true → s.ports[p].signal = false → s.ports[p].at_ + 1000000000 ≤ s.clock →
      let t := s.portDown p 1
      exec (.noSignal p lane) s = .next (((t.setPort p { t.ports[p] with lane := lane % 8 }).emit (.report 0x0201 (p.val + 256 * (lane % 8)))).portsSettle)) ∧
    (s.isHost p = true → s.ports[p].st = .training → s.ports[p].signal = true →
      (p.val ≠ 0 → exec (.hostLinkUp p) s = .next (s.portTo p (if s.isHost 0 then .hostStandby else .hostUp) 0).portsSettle) ∧
      (p.val = 0 → exec (.hostLinkUp p) s = .next
        (if s.ports[(1 : Port)].st = .hostUp then (s.portTo p .hostUp 0).portTo 1 .hostStandby 0 else s.portTo p .hostUp 0).portsSettle))

/-- Admission. The messages of a peer are answered in their order; a bad signature or confirmation fails the attempt, and a good confirmation admits
the peer; the soak that follows puts the port UP, or DOWN with REASON 8. The soak of a port that qualifies ends after 2 s: UP, or DOWN with REASON 8. -/
def Obligations.PeersAreAdmitted : Prop :=
  (∀ (s : State) (p : Port), s.ports[p].st = .admitting →
    let x := s.ports[p]
    (∀ chain major part port, x.adm.chain = none →
      exec (.peerAdmissionMessage p (.hello chain major part port)) s =
        .next ((s.setPort p { x with adm := { x.adm with chain := some chain, major := major, part := part, port := port } }).emit
          (.admission p (.keys (Config.ephemeralKey p.val x.attempt) (Config.ownChallenge p.val x.attempt))))) ∧
    (∀ eph chal, x.adm.chain.isSome = true → x.adm.keys = none → s.guard.bring.finalFail ≠ some (2, 0) →
      let t := s.setPort p { x with adm := { x.adm with keys := some (eph, chal) } }
      exec (.peerAdmissionMessage p (.keys eph chal)) s = .next (t.emit (.admission p (.signature (Config.identitySign (t.transcript p true)))))) ∧
    (∀ sig, x.adm.keys.isSome = true → x.adm.sigOk = false →
      exec (.peerAdmissionMessage p (.signature sig)) s = .next (match s.peerBad p sig with
        | none => (s.deriveKeys p).emit (.admission p (.confirm (Config.confirmMac (s.deriveKeys p).ports[p].confirmKey true)))
        | some r => s.admissionFails p r)) ∧
    (∀ mac, x.adm.sigOk = true →
      (mac = Config.confirmMac x.confirmKey false → exec (.peerAdmissionMessage p (.confirm mac)) s = .next (s.admitPeer p)) ∧
      (mac ≠ Config.confirmMac x.confirmKey false → exec (.peerAdmissionMessage p (.confirm mac)) s = .next (s.admissionFails p 7)))) ∧
  (∀ (s : State) (k : Soak), s.ports[k.port].st = .qualifying → s.ports[k.port].at_ + 2000000000 ≤ s.clock →
    let x := s.ports[k.port]
    let t := s.setPort k.port { x with soak := some k, lane := k.lane, corrected := satAdd64 x.corrected k.corrected, uncorr := satAdd64 x.uncorr k.uncorr }
    (soakPass k = true → exec (.qualificationSoakEnd k) s = .next (t.goUp k.port)) ∧
    (soakPass k = false → exec (.qualificationSoakEnd k) s = .next (t.portDown k.port 8).portsSettle))

/-- Frames. A frame whose reservation enters here is delivered at its destination or goes on at a transit hop; one that no hop names is malformed
traffic; the replay buffer sends a frame again and counts it. A fast retrain of an UP port is counted, and ends UP within 2 ms or DOWN with REASON 13;
a lost signal takes the port DOWN with REASON 1; a route that a neighbour closed is closed here, and a transit hop passes the message on. -/
def Obligations.FramesAndRoutesMove : Prop :=
  ((∀ (s : State) (p : Port) (f : Frame), s.ports[p].admitted = true →
    let t := s.setPort p { s.ports[p] with frames := s.ports[p].frames + 1 }
    (((lnkCrypt s.act p.val = true ∧ f.authOk = false) ∨ f.overrun = true ∨ bodyRes f.body ≠ some f.resId) →
      exec (.dataFrameReceive p f) s = .next (t.malformed p)) ∧
    ((lnkCrypt s.act p.val = false ∨ f.authOk = true) → f.overrun = false → bodyRes f.body = some f.resId →
      (s.hops.find? (fun h => h.resId = f.resId && h.role ≠ 0 && h.inPort = p.val && h.vc = f.vc) = none →
        exec (.dataFrameReceive p f) s = .next (t.malformed p)) ∧
      (∀ h q, s.hops.find? (fun h => h.resId = f.resId && h.role ≠ 0 && h.inPort = p.val && h.vc = f.vc) = some h →
        (h.role = 2 → exec (.dataFrameReceive p f) s = .next (t.deliver p f.body)) ∧
        (h.role ≠ 2 → portId h.outPort = some q → t.ports[q].admitted = true → exec (.dataFrameReceive p f) s = .next (t.emit (.forward q f)))))) ∧
  (∀ (s : State) (p : Port) (q : Nat), s.ports[p].carries = true →
    exec (.frameReplay p q) s = .next ((s.setPort p { s.ports[p] with replays := satAdd64 s.ports[p].replays 1 }).emit (.replayFrame p q)))) ∧
  (∀ (s : State) (p : Port) (res : W64),
    (s.ports[p].st = .up → let t := s.portTo p .retraining 0
      exec (.fastRetrain p) s = .next (t.setPort p { t.ports[p] with retrains := satAdd32 t.ports[p].retrains 1 })) ∧
    (s.ports[p].st = .retraining → s.clock ≤ s.ports[p].at_ + 2000000 →
      exec (.retrainComplete p true) s = .next (s.portTo p .up 0).portsSettle ∧
      exec (.retrainComplete p false) s = .next (s.portDown p 13).portsSettle) ∧
    ((s.ports[p].carries = true ∨ s.ports[p].st = .training ∧ s.ports[p].signal = true) → exec (.lossOfSignal p) s = .next (s.portDown p 1).portsSettle) ∧
    (s.ports[p].st = .quarantined → exec (.lossOfSignal p) s = .next (s.setPort p { s.ports[p] with signal := false })) ∧
    (∀ h, s.ports[p].admitted = true → s.hops.find? (fun h => h.resId = res && h.role ≠ 2 && h.outPort = p.val) = some h →
      (h.role ≠ 1 → exec (.routeClosed p res) s = .next (s.closeRoute res p.val)) ∧
      (∀ q, h.role = 1 → portId h.inPort = some q → exec (.routeClosed p res) s = .next ((s.closeRoute res p.val).emit (.routeClosed q res)))))

/-- Link warnings begin above a BER of 1e-5 or with an uncorrected frame, and clear after 60 s below 5e-6; a stalled credit of an enabled channel
quarantines its port with REASON 11; keys are renewed after 2^40 frames or an hour. The host's reset lines: a rise lets a host port that trains see
its host; a fall takes a host port that was up back to training; the standby takes over when the first host port is not up. -/
def Obligations.LinkWarningsAndHostLinesAct : Prop :=
  ((∀ (s : State) (k : Soak), s.ports[k.port].st = .up →
    let x := s.ports[k.port]
    let t := s.setPort k.port { x with
      corrected := satAdd64 x.corrected k.corrected, uncorr := satAdd64 x.uncorr k.uncorr
      lowSince := if k.cber.toNat < 0x36A7C5AC then some (x.lowSince.getD s.clock) else none }
    exec (.linkWarning k) s = .next (if 0x3727C5AC < k.cber.toNat ∨ k.uncorr ≠ 0 then t.warnLink k.port k.cber else t)) ∧
  (∀ (s : State) (p : Port) (t : Nat), s.ports[p].lowSince = some t → s.ports[p].warned = true → t + 60000000000 ≤ s.clock →
    exec (.linkWarningClear p) s = .next (s.setPort p { s.ports[p] with warned := false })) ∧
  (∀ (s : State) (p : Port) (vc : Nat), s.ports[p].carries = true → vc < 8 → lnkVcEn s.act p.val vc = true →
    exec (.vcCreditStall p vc) s = .next (s.malformedNow p 11).portsSettle) ∧
  (∀ (s : State) (p : Port), s.ports[p].admitted = true → (2 ^ 40 ≤ s.ports[p].frames ∨ s.ports[p].keyAt + 3600000000000 ≤ s.clock) →
    let x := s.ports[p]
    let k := Config.renewKey (x.session.getD 0)
    let t := x.traffic.map fun _ => Config.trafficKey k ((s.guard.keys.toList.getD (lnkKeySlot s.act p.val) none).getD 0)
    exec (.keyRenewal p) s = .next ((s.setPort p { x with session := some k, traffic := t, frames := 0, keyAt := s.clock }).emit (.keyRenewed p)))) ∧
  ((∀ (s : State) (second : Bool),
    let p : Port := if second then 1 else 0
    let x := s.ports[p]
    ((x.st ≠ .training ∨ s.isHost p = false) → exec (.hostPerstRise second) s = .next (s.setPort p { x with perstHigh := true })) ∧
    (x.st = .training → s.isHost p = true → exec (.hostPerstRise second) s = .next (s.setPort p { x with perstHigh := true, signal := true, at_ := s.clock })) ∧
    (s.isHost p = false → exec (.hostPerstFall second) s = .next (s.setPort p { x with perstHigh := false })) ∧
    (s.isHost p = true → x.st = .training → exec (.hostPerstFall second) s = .next (s.setPort p { x with perstHigh := false, signal := false })) ∧
    (s.isHost p = true → x.st ≠ .training → x.st ≠ .off → exec (.hostPerstFall second) s = .next ((s.setPort p { x with perstHigh := false }).startTraining p))) ∧
  (∀ s : State, s.isHost 0 = true → s.ports[(0 : Port)].st ≠ .hostUp → s.ports[(1 : Port)].st = .hostStandby →
    exec .hostPortFailover s = .next (s.portTo 1 .hostUp 0)))

/-! ## Guard requests -/

/-- The Guard takes a posted request whose SEQ is the expected one; another SEQ is refused with the expected one. The requests that read: LOG_READ,
CRASH_DUMP_READ of a slot that holds a dump, SENSOR_READ, FW_STATUS and ATTESTATION. -/
def Obligations.TheGuardTakesAndAnswers : Prop :=
  (∀ s : State, s.guard.powered = true → s.guard.mbox.hdr.state = 1 →
    let m := s.guard.mbox
    let c := m.hdr.cmd.toNat
    (m.hdr.seq = m.expSeq → m.hdr.wellFormed = true → m.hdr.ctx = 0 → ((1 ≤ c ∧ c ≤ 8) ∨ (0x10 ≤ c ∧ c ≤ 0x1C)) →
      exec .guardTake s = .next { s with guard.mbox := { m with expSeq := m.expSeq + 1, hdr := { m.hdr with state := 2 }, takenAt := s.clock } }) ∧
    (m.hdr.seq ≠ m.expSeq → exec .guardTake s = .next (s.answer .mailbox stSequence (m.expSeq.toNat % 65536) []))) ∧
  (∀ (s : State) (src : Src) (data : Bytes) (r : GReq),
    let u := s.heardBy src
    (Asks s src 0x01 data r 10 [] → fld r.data 8 2 ≤ 62 →
      let a := u.logResp u.guard.records (fld r.data 0 8) (fld r.data 8 2) fun _ => true
      Handles s (.logRead src data) r (u.answer src a.1 0 a.2)) ∧
    (∀ d, Asks s src 0x02 data r 20 [(1, 7)] → fld r.data 0 1 ≤ 1 → fld r.data 16 4 ≤ 4032 → fld r.data 8 8 + fld r.data 16 4 ≤ 0x20000000 →
      fld r.data 16 4 ≠ 0 → (if fld r.data 0 1 = 0 then s.guard.dumps.1 else s.guard.dumps.2) = some d →
      Handles s (.crashDumpRead src data) r (u.answer src (if d.complete && d.lost = [] then stOk else stPartial) 0
        ((List.range (fld r.data 16 4)).map fun i => Config.dumpByte d.number (fld r.data 8 8 + i)))) ∧
    (Asks s src 0x03 data r 0 [] → Handles s (.sensorRead src data) r (u.answer src stOk 0 (le 8 u.grdTemp ++ le 8 u.grdPower ++
      (u.asRead 0 u.guard.sensors.dram ++ u.asRead 40 u.guard.sensors.junction).flatMap fun t => le 2 (temp16 t)))) ∧
    (Asks s src 0x18 data r 8 [(0, 8)] → Handles s (.fwStatus src data) r
      (u.answer src stOk 0 (le 8 u.guard.fwReg ++ le 4 u.guard.fw.stagedLen ++ le 4 (bnat u.guard.fw.stagedOk)))) ∧
    (Asks s src 0x08 data r 0 [] → Handles s (.attestation src data) r (match Config.spdmParse r.data with
      | none => u.answer src stOk 0 (Config.spdmEncode r.data none)
      | some q => (u.setConn (u.spdmAnswer (u.conn src) q).2).answer src stOk 0
          ((Config.spdmEncode r.data (u.spdmAnswer (u.conn src) q).1).take 4032))))

/-- The limits: SET_LIMIT within the owner's bound sets the limits; SET_BOUND of the owner sets the bound and lowers the limits to it;
SET_RESET_POLICY sets when resets remove the device; CLEAR_LOG empties the log. Keys, tickets, firmware, the owner and the collector: what their
requests set. -/
def Obligations.SettingRequestsSet : Prop :=
  (∀ (s : State) (src : Src) (data : Bytes) (r : GReq),
    let u := s.heardBy src
    let l := u.guard.limits
    let b := r.data
    (Asks s src 0x10 data r 8 [(4, 4)] → u.limitOk (fld b 0 2) (fld b 2 1) = true → 25 ≤ fld b 3 1 → fld b 3 1 ≤ 100 →
      fld b 0 2 ≤ l.bndPlim → l.bndCeil ≤ fld b 2 1 →
      let t := { u with guard.limits := { l with plim := fld b 0 2, ceil := fld b 2 1, demandMin := fld b 3 1 } }
      Handles s (.setLimit src data) r ((t.answer src stOk 0 (le 8 l.limitReg)).settlePoint)) ∧
    (Asks s src 0x10 data r 8 [(4, 4)] → u.limitOk (fld b 0 2) (fld b 2 1) = true → 25 ≤ fld b 3 1 → fld b 3 1 ≤ 100 →
      (l.bndPlim < fld b 0 2 ∨ fld b 2 1 < l.bndCeil) → Handles s (.setLimit src data) r (u.answer src stState 0 [])) ∧
    (Asks s src 0x11 data r 8 [(3, 5)] → s.isOwner src = true → u.limitOk (fld b 0 2) (fld b 2 1) = true →
      let t := { u with guard.limits := { l with
        bndPlim := fld b 0 2, bndCeil := fld b 2 1, plim := min l.plim (fld b 0 2), ceil := max l.ceil (fld b 2 1) } }
      Handles s (.setBound src data) r ((t.answer src stOk 0 (le 8 l.boundReg)).settlePoint)) ∧
    (Asks s src 0x12 data r 8 [(1, 3)] → s.isOwner src = true → 1 ≤ fld b 0 1 → fld b 0 1 ≤ 15 → 60 ≤ fld b 4 4 → fld b 4 4 ≤ 86400 →
      Handles s (.setResetPolicy src data) r ({ u with guard.limits := { l with resetLimit := fld b 0 1, resetWindow := fld b 4 4 } }.answer src stOk 0
        (le 4 l.resetLimit ++ le 4 l.resetWindow))) ∧
    (Asks s src 0x13 data r 8 [(0, 8)] → s.isOwner src = true → (u.guard.log ≠ [] ∨ u.guard.pinned ≠ []) →
      Handles s (.clearLog src data) r ({ u with guard := { u.guard with log := [], pinned := [], unsent := [], unacked := [] } }.answer src stOk 0
        (le 8 (u.guard.logNext - 1)))) ∧
    (Asks s src 0x11 data r 8 [(3, 5)] → s.isOwner src = false → Handles s (.setBound src data) r (u.answer src stAuth 0 []))) ∧
  (∀ (s : State) (src : Src) (data : Bytes) (r : GReq),
    let u := s.heardBy src
    let b := r.data
    (∀ k : Fin 16, Asks s src 0x14 data r 40 [(1, 7)] → s.isOwner src = true → fld b 0 1 = k.val → u.keyInUse k.val = false →
      Handles s (.keyInstall src data) r
        ({ u with guard.keys := u.guard.keys.set k (some (BitVec.ofNat 256 (fld b 8 32))) }.answer src stOk 0 [])) ∧
    (∀ k : Fin 16, Asks s src 0x15 data r 8 [(1, 7)] → s.isOwner src = true → fld b 0 1 = k.val → u.keyInUse k.val = false →
      Handles s (.keyErase src data) r ({ u with guard.keys := u.guard.keys.set k none }.answer src stOk 0 [])) ∧
    (Asks s src 0x16 data r 8 [(4, 4)] → s.isOwner src = true →
      let c := devBytes ++ le 8 u.now ++ le 4 (fld b 0 4) ++ le 4 0
      let k : Ticket := { issued := u.time.stitch, scope := BitVec.ofNat 32 (fld b 0 4), used := 0 }
      Handles s (.issueTicket src data) r ({ u with guard.tickets := u.guard.tickets ++ [k] }.answer src stOk 0 (c ++ signature c))) ∧
    (Asks s src 0x17 data r 16 [(12, 4)] → s.isOwner src = true → u.guard.bring.resetRec = none →
      let off := fld b 0 8
      let n := fld b 8 4
      let f := u.guard.fw
      let m := wrMap (if off = 0 then [] else f.staged) off ((b.drop 16).take n)
      let len := Nat.max (if off = 0 then 0 else f.stagedLen) (off + n)
      n ≤ 4000 → fld b 12 4 = 0 → 16 + n ≤ b.length → off + n ≤ bankSize →
      let good := match (if Config.bundleComplete (rdMap m 0 len) then Config.bundleVersion (rdMap m 0 len) else none) with
        | some v => decide (f.record ≤ v)
        | none => false
      ∃ t : State, Handles s (.fwStage src data) r (t.answer src stOk 0 []) ∧ t.guard.fw.staged = m ∧ t.guard.fw.stagedLen = len ∧ t.guard.fw.stagedOk = good ∧
        t.guard.fw.record = f.record ∧ t.guard.fw.active = f.active ∧ { t with guard.fw := f } = u) ∧
    (Asks s src 0x19 data r 133 [] → s.fromMgmt src = true → s.guard.owner = none →
      (∀ n t, src = .mgmt n t → ((s.guard.sess n).map Sess.mutualAsked) = some false) →
      Handles s (.takeOwner src data) r ({ u with guard.owner := some (ownerRecord (b.take 133)) }.answer src stOk 0 (sha512 (ownerRecord (b.take 133))))) ∧
    (Asks s src 0x1A data r 8 [(0, 8)] → s.isOwner src = true →
      Handles s (.releaseOwner src data) r ({ u with guard := { u.guard with
        owner := none, sessions := u.guard.sessions.map fun (x : Sess) => { x with owner := false } } }.answer src stOk 0 [])) ∧
    (Asks s src 0x1B data r 24 [(20, 4)] → s.isOwner src = true →
      Handles s (.mgmtConfig src data) r ({ u with guard := { u.guard with
        collector := b.take 16, collectorPort := BitVec.ofNat 16 (fld b 16 2), ownPort := BitVec.ofNat 16 (fld b 18 2) } }.answer src stOk 0 [])))

/-- The relay of commands: MGMT_POST posts a command in a slot of class MGMT with the slot's expected SEQ; a fetch reads what an earlier post left; an
expired post is withdrawn, or its response kept. -/
def Obligations.RelayedPostsAct : Prop :=
  (∀ (s : State) (src : Src) (data : Bytes) (r : GReq), Asks s src 0x1C data r 0x18 postResv → s.mayPost r = true → postOk r.data = true →
    let u := s.heardBy src
    let b := r.data
    let n := ctxId (fld b 0 1)
    let x := u.slots[n]
    imgClass u.act n.val = 3 →
    (fld b 2 2 ≠ 0 → x.hdr.state = 0 →
      let h := { x.hdr with state := 1, resv0 := 0, cmd := BitVec.ofNat 16 (fld b 2 2), resv1 := 0, seq := x.expSeq, len := BitVec.ofNat 16 (fld b 0xE 2), resv2 := 0,
                            ctx := BitVec.ofNat 6 (fld b 0xC 1), resv3 := 0, tag := BitVec.ofNat 32 (fld b 8 4), viol := 0 }
      let k : MPost := { src := src, slot := n, deadline := u.clock + fld b 4 4 * 1000000 }
      let t := u.setSlot n { x with hdr := h, payload := wrMap x.payload 0 ((b.drop 0x18).take (fld b 0xE 2)) }
      Handles s (.mgmtPost src data) r { t with guard.mposts := t.guard.mposts ++ [k] }) ∧
    (∀ off, fld b 2 2 = 0 → u.guard.mheld = [(n, off)] → x.hdr.state = 3 → x.hdr.rlen.toNat ≤ off + 4024 → off ≤ x.hdr.rlen.toNat →
      let len := x.hdr.rlen.toNat
      let t := u.setSlot n { x with hdr := { x.hdr with state := 0 } }
      Handles s (.mgmtPostFetch src data) r ({ t with guard.mheld := [] }.answer src stOk 0
        (le 2 x.hdr.status.toNat ++ le 2 x.hdr.detail.toNat ++ le 2 len ++ le 2 0 ++ rdMap x.payload off (len - off))))) ∧
  (∀ (s : State) (m : MPost), s.guard.mposts = [m] → m.deadline ≤ s.clock →
    let x := s.slots[m.slot]
    let t := { s with guard.mposts := [] }
    (x.hdr.state = 1 → exec (.mgmtPostTimeout m.src) s = .next ((t.setSlot m.slot { x with hdr := { x.hdr with state := 0 } }).answer m.src stTimeout 0 [])) ∧
    (x.hdr.state ≠ 1 → exec (.mgmtPostTimeout m.src) s = .next ({ t with
      guard.mheld := t.guard.mheld.filter (fun (y : SlotId × Nat) => y.1 ≠ m.slot) ++ [(m.slot, 0)] }.answer m.src stTimeout 0 [])))

/-- Power states. NAP and HOLD begin an entry that completes once no phase is in progress and times out after 1 s; RUN, or the end of a wake-after
time, wakes the device; link hold holds and releases the ports that it names. -/
def Obligations.PowerStatesChange : Prop :=
  (∀ (s : State) (src : Src) (data : Bytes) (r : GReq), Asks s src 0x04 data r 8 powerResv → fld r.data 1 1 ≤ 1 → s.guard.cutoff = false →
    s.guard.overvolt = false → s.guard.devState ≠ .booting → s.guard.devState ≠ .resetting → s.guard.resetReq = none →
    let u := s.heardBy src
    let t := { u with guard.power := { u.guard.power with
      pstate := .entering, req := some r, target := fld r.data 0 1, holdLinks := bit (fld r.data 1 1) 0, wakeAfter := fld r.data 4 4, entryAt := u.clock } }
    (fld r.data 0 1 = 1 → s.guard.power.pstate = .run → Handles s (.powerStateChangeNap src data) r (t.keepReq src)) ∧
    (fld r.data 0 1 = 2 → (s.guard.power.pstate = .run ∨ s.guard.power.pstate = .nap) → Handles s (.powerStateChangeHold src data) r (t.keepReq src)) ∧
    (∀ k, fld r.data 0 1 = 0 → (s.guard.power.pstate = .nap ∨ s.guard.power.pstate = .hold) →
      Handles s (.powerStateChangeRun src data k) r ((u.wake k).answer src stOk 0 []) ∧ (u.wake k).guard.power.pstate = .run)) ∧
  (∀ (s : State) (r : GReq), s.guard.power.pstate = .entering → s.guard.power.req = some r →
    ((s.scheds.any Sched.inProgress) = false →
      let t := if s.guard.power.target = 2 then s.enterHold else s.enterNap
      exec .powerStateEntry s = .next ({ t with
        mem := { t.mem with selfRefresh := true }
        guard := { t.guard with power := { t.guard.power with
          pstate := if s.guard.power.target = 2 then .hold else .nap, req := none
          wakeAt := if s.guard.power.wakeAfter = 0 then none else some (t.clock + s.guard.power.wakeAfter * 1000000) } } }.answer r.src stOk 0 [])) ∧
    (s.guard.power.entryAt + 1000000000 < s.clock →
      exec .powerStateEntryTimeout s = .next ({ s with guard.power := { s.guard.power with pstate := .run, req := none, runAt := s.now } }.answer r.src stTimeout 0 []))) ∧
  (∀ (s : State) (k : PartitionKat) (t : Nat), s.guard.power.wakeAt = some t → t ≤ s.clock → s.guard.powered = true →
    (s.guard.power.pstate = .nap ∨ s.guard.power.pstate = .hold) →
    exec (.wakeAfterExpiry k) s = .next (s.wake k) ∧ (s.wake k).guard.power.pstate = .run ∧ (s.wake k).guard.power.wakeAt = none) ∧
  (∀ (s : State) (src : Src) (data : Bytes) (r : GReq), Asks s src 0x07 data r 3 [] → fld r.data 0 2 ≤ 0xFFF → fld r.data 0 2 ≠ 0 →
    let u := s.heardBy src
    (fld r.data 2 1 = 0 → Handles s (.linkHoldSet src data) r ((u.linkHold (fld r.data 0 2) true).answer src stOk 0 [])) ∧
    (fld r.data 2 1 = 1 → Handles s (.linkHoldRelease src data) r ((u.linkHold (fld r.data 0 2) false).answer src stOk 0 [])))

/-- The records of the log go to the collector in batches of at most 20, are repeated after 100 ms without an acknowledgement, and are summed up every
10 s. -/
def Obligations.RecordsReachTheCollector : Prop :=
  (∀ s : State, s.mgmtUp = true → s.stillKept s.guard.unsent ≠ [] →
    let l := s.stillKept s.guard.unsent
    exec .recordSend s = .next ({ s with guard := { s.guard with
      unsent := l.drop 20, unacked := s.guard.unacked ++ l.take 20,
      repeatAt := if s.guard.unacked = [] then s.clock else s.guard.repeatAt } }.emit (.records (l.take 20)))) ∧
  (∀ s : State, s.mgmtUp = true → s.guard.unacked ≠ [] → s.guard.repeatAt + 100000000 ≤ s.clock →
    let l := s.stillKept s.guard.unacked
    ∃ t, exec .recordRepeat s = .next t ∧ t.guard.unacked = l ∧ t.guard.repeatAt = s.clock ∧ t.out = s.out ++ (batches l.length l).map .records) ∧
  (∀ (s : State) (q : Nat), s.mgmtUp = true →
    exec (.collectorAck q) s = .next { s with guard.unacked := s.guard.unacked.filter fun k => k ≠ q }) ∧
  (∀ s : State, s.guard.powered = true → s.guard.summaryAt + 10000000000 ≤ s.clock →
    exec .summaryRecord s = .next ((List.finRange 12).foldl State.sumPort ((s.mem.chans.map (·.1)).foldl State.sumChan { s with guard.summaryAt := s.clock })))

/-! ## SPDM -/

/-- The messages of SPDM: GET_VERSION, GET_CAPABILITIES of a version that the Guard has and NEGOTIATE_ALGORITHMS of its four algorithms are answered
and move the connection; then GET_DIGESTS, GET_CERTIFICATE, CHALLENGE and GET_MEASUREMENTS are answered; large responses and requests go in chunks.
Sessions: a key exchange opens one of at most two; FINISH establishes it where its checks pass; the messages of an established session keep it open;
60 s of silence end it. -/
def Obligations.SpdmMessagesAct : Prop :=
  (∀ (s : State) (src : Src), s.guard.powered = true → s.spdmServed = true → src ≠ .mailbox →
    let x := s.conn src
    let d := sha512 Config.certChain
    exec (.getVersion src) s = .next ((s.setConn (Spdm.start x.src)).spdmSend src (some [0x12, 0x13])) ∧
    (∀ v, (v = 0x12 ∨ v = 0x13) → exec (.getCapabilities src v) s =
      .next ((s.setConn { x with version := some v, caps := true }).spdmSend src (some (le 4 spdmCaps)))) ∧
    (∀ a, x.caps = true → a.ecdsaP521 = true → a.sha512 = true → a.secp521r1 = true → a.aes256gcm = true → exec (.negotiateAlgorithms src a) s =
      .next ((s.setConn { x with algs := true }).spdmSend src (some [1, 1, 1, 1]))) ∧
    (x.algs = true →
      exec (.getDigests src) s = .next ((s.setConn x).spdmSend src (some d)) ∧
      (∀ off len, exec (.getCertificate src 0 off len) s = .next ((s.setConn x).spdmSend src (some ((Config.certChain.drop off).take len)))) ∧
      (∀ nonce, exec (.challenge src 0 nonce) s = .next ((s.setConn x).spdmSend src (some (d ++ nonce ++ signed (d ++ nonce))))) ∧
      (∀ index sign nonce, (index ≤ 9 ∨ index = 0xFF) →
        let m := if index = 0 then [9] else if index = 0xFF then (List.range 9).flatMap fun i => s.measBlock (i + 1) else s.measBlock index
        exec (.getMeasurements src index sign nonce) s =
          .next ((s.setConn x).spdmSend src (some (if sign then m ++ nonce ++ signed (m ++ nonce) else m))))) ∧
    (∀ h c, exec (.chunkSend src h 0 false c) s = .next ((s.setConn { x with chunkIn := some (h, 1, c) }).emit (.spdm src (some [])))) ∧
    (∀ h n c e, x.chunkIn = some (h, n, c) → n ≠ 0 →
      let t := s.setConn { x with chunkIn := none }
      exec (.chunkSend src h n true e) s = .next (match Config.spdmParse (c ++ e) with
        | some q => t.spdmMessage src q
        | none => t.emit (.spdm src none))) ∧
    (∀ h n c, x.chunkOut = some (h, n, c) →
      let rest := c.drop (Config.spdmChunk + 1)
      exec (.chunkGet src h n) s = .next ((s.setConn { x with chunkOut := if rest = [] then none else some (h, n + 1, rest) }).emit
        (.spdm src (some (c.take (Config.spdmChunk + 1))))))) ∧
  ((∀ (s : State) (src : Src) (n : Nat) (x : Bytes) (m : Bool), s.guard.powered = true → src ≠ .mailbox → s.spdmServed = true → overMgmt src = true →
    (s.conn src).algs = true → s.guard.sessions.length < 2 → s.guard.sess n = none →
    let b := Config.spdmKeyExchange n x
    let y : Sess := { id := n, established := false, owner := false, mutualAsked := m, last := s.clock, keyGen := 0 }
    exec (.keyExchange src n x m) s = .next ({ s with guard.sessions := s.guard.sessions ++ [y] }.spdmSend src (some (b ++ signed b)))) ∧
  (∀ (s : State) (n : Nat) (x : Sess) (chain sig : Bytes), s.guard.powered = true → s.guard.sess n = some x → x.established = false →
    (x.mutualAsked = false ∨ Config.chainVerify chain (Config.spdmTranscript n) sig = true) →
    let y := { x with established := true, owner := x.mutualAsked && s.ownerChain chain, last := s.clock }
    exec (.finish n chain sig true) s = .next ({ s with
      guard.sessions := s.guard.sessions.map fun (z : Sess) => if z.id = n then y else z }.emit (.spdm (.mgmt n 0) (some [])))) ∧
  (∀ (s : State) (n : Nat) (x : Sess), s.guard.powered = true → s.guard.sess n = some x → x.established = true →
    let t := s.heard n
    exec (.heartbeat n) s = .next (t.emit (.spdm (.mgmt n 0) (some []))) ∧
    exec (.keyUpdate n) s = .next ({ t with guard.sessions := t.guard.sessions.map fun (x : Sess) =>
      if x.id = n then { x with keyGen := x.keyGen + 1 } else x }.emit (.spdm (.mgmt n 0) (some []))) ∧
    exec (.endSession n) s = .next ((t.endSession n).emit (.spdm (.mgmt n 0) (some [])))) ∧
  (∀ (s : State) (n : Nat) (x : Sess), s.guard.powered = true → s.guard.sess n = some x → x.last + 60000000000 ≤ s.clock →
    exec (.sessionTimeout n) s = .next (s.endSession n)))

/-! ## Resets, bring-up and rails -/

/-- Bring-up and readiness: power-up runs the bring-up; a device whose reason not to be ready is gone becomes ready; at the deadline a device that
still has one is NOT_READY. Power loss keeps of the Guard the owner, the firmware record, the repair record and the JTAG register (with the inputs of
its sensors), empties the memory, and stops the Stitch counter. -/
def Obligations.BringUpAndPowerLoss : Prop :=
  ((∀ (s : State) (b : BringUp), (s.guard.powered = false ∨ s.guard.bring.running = true) →
    exec (.powerUp b) s = .next ({ s with time.running := true, guard.powered := true }.bringUp b true)) ∧
  (∀ s : State, s.guard.powered = true → (s.guard.devState = .notReady ∨ s.guard.devState = .booting) → s.guard.bring.running = false → s.readyFail = none →
    s.guard.cutoff = false → s.guard.overvolt = false → exec .readinessChange s = .next s.becomeReady) ∧
  (∀ s : State, s.guard.powered = true → s.guard.devState = .booting → s.guard.bring.running = false → s.guard.bring.b0 + 10500000000 ≤ s.clock →
    s.readyFail.isSome = true → exec .bringUpDeadline s = .next (s.setDev .notReady).endBringUp)) ∧
  (∀ s : State, ∃ t, exec .powerLoss s = .next t ∧ t.mem = State.reset.mem ∧ t.slots = State.reset.slots ∧ t.engines = State.reset.engines ∧ t.cfg = State.reset.cfg ∧
    t.guard.powered = false ∧ t.guard.owner = s.guard.owner ∧ t.guard.fw = s.guard.fw ∧ t.guard.repair = s.guard.repair ∧ t.guard.log = [] ∧ t.guard.pinned = [] ∧ t.guard.sessions = [] ∧
    t.time.running = false ∧ t.pending = s.pending)

/-- The reset requests. A Binder reset restarts the Binder of a device in service; a full reset wipes the device and brings it up; a return to service
clears the count of resets first. A full device reset begins by setting every slot to zero with expected SEQ 1, closing the contexts and dropping the
schedules; the log, the owner, the tickets and the keys stay. -/
def Obligations.ResetRequestsReset : Prop :=
  (∀ (s : State) (src : Src) (data : Bytes) (r : GReq),
    let u := s.heardBy src
    s.guard.cutoff = false → s.guard.devState ≠ .booting → s.guard.devState ≠ .resetting → fld r.data 0 1 ≤ 3 →
    (∀ k, Asks s src 0x05 data r 1 [] → s.guard.overvolt = false → (s.binder.run ≠ .off ∨ s.guard.power.pstate = .hold) →
      (bit (fld r.data 0 1) 0 = true → Handles s (.binderReset src data k) r (((u.wake k).binderReset none true).answer src stOk 0 [])) ∧
      (bit (fld r.data 0 1) 0 = false →
        (u.countReset.1 = false → Handles s (.binderReset src data k) r (((u.countReset.2.wake k).binderReset none false).answer src stOk 0 [])) ∧
        (u.countReset.1 = true → Handles s (.binderReset src data k) r ((u.countReset.2.answer src stState 0 []).removeFromService none)))) ∧
    (∀ b, Asks s src 0x06 data r 1 [] → fld r.data 0 1 = 1 →
      let t := { u with guard.bring.reqs := u.guard.bring.reqs ++ [r] }.keepReq src
      Handles s (.fullDeviceReset src data b) r (t.fullReset true b)) ∧
    (∀ b, Asks s src 0x06 data r 1 [] → bit (fld r.data 0 1) 1 = true →
      (if s.guard.owner.isSome then s.isOwner src else s.fromMgmt src) = true →
      let v := { u with guard.limits.resetTimes := [] }
      let t := { v with guard.bring.reqs := v.guard.bring.reqs ++ [r] }.keepReq src
      Handles s (.returnToService src data b) r (t.fullReset (bit (fld r.data 0 1) 0) b))) ∧
  (∀ s : State, let t := s.wiped
    t.slots = Vector.replicate 64 Slot.reset ∧ t.ctxs = State.reset.ctxs ∧ t.scheds = [] ∧ t.engines = State.reset.engines ∧ t.counters = [] ∧ t.hops = [] ∧
    t.traces = [] ∧ t.mem.regions = [] ∧ t.pending = s.pending ∧ t.guard.log = s.guard.log ∧ t.guard.pinned = s.guard.pinned ∧ t.guard.owner = s.guard.owner ∧
    t.guard.tickets = s.guard.tickets ∧ t.guard.keys = s.guard.keys ∧ t.guard.sessions = [])

/-- The rails and the reference. A supply fault is recorded and limits the point; an overvoltage or a thermal cutoff takes the rails down; after the
cooldown the held reset is done; without its reference the device stalls, and with it again a partition reset follows. -/
def Obligations.RailsAndReferenceAct : Prop :=
  (∀ (s : State) (rail : Nat), s.guard.powered = true → s.guard.cutoff = false → s.guard.overvolt = false → s.guard.devState ≠ .removed → rail ≤ 7 →
    let t := s.native 5 0x0702 rail 0 0
    exec (.supplyFault rail) s = .next ({ t with guard.supply.supplyFault := true }).settlePoint) ∧
  (∀ s : State, s.guard.powered = true → s.guard.overvolt = false → exec .overvoltage s = .next { s.railsOff 0xFF with guard.overvolt := true }) ∧
  (∀ s : State, s.guard.powered = true → s.guard.cutoff = false → exec .thermalCutoff s = .next { s.railsOff 0xFE with guard.cutoff := true }) ∧
  (∀ (s : State) (b : BringUp) (r : GReq), s.guard.power.heldReset = some r → s.guard.powered = true → s.guard.cutoff = true → s.stillHot = false →
    fld r.data 0 1 = 1 → exec (.cutoffCooldown b) s = .next ((s.fullReset true b).tagFrom s.guard.logNext r.tag)) ∧
  (∀ (s : State) (ppm : Option Int), s.guard.powered = true → s.guard.bring.running = false → s.guard.refLost = none → s.guard.cutoff = false →
    s.guard.overvolt = false → ∃ t, exec (.referenceLoss ppm) s = .next t ∧ t.mem.selfRefresh = true ∧ t.guard.refLost = some s.guard.logNext ∧
      t.guard.supply.stall = true) ∧
  (∀ (s : State) (k : PartitionKat), s.guard.powered = true → s.guard.bring.refAbsent = true →
    exec (.referenceRestored k) s = .next ({ s with guard.bring.refAbsent := false } : State).reReady) ∧
  (∀ (s : State) (k : PartitionKat) (q : Nat), s.guard.powered = true → s.guard.bring.refAbsent = false → s.guard.refLost = some q →
    let t := ({ s with guard.refLost := none } : State).endStall
    t.guard.devState ≠ .removed → t.guard.cutoff = false → t.guard.overvolt = false → t.guard.devState ≠ .booting → t.guard.devState ≠ .resetting →
    t.countReset.1 = false → exec (.referenceRestored k) s = .next (t.countReset.2.partitionReset (some q) k))

/-- JTAG: an instruction is loaded in every state, and IDCODE sends 0x1051_2A6B; EXTEST, CLAMP and HIGHZ act in NOT_READY or REMOVED alone and as
BYPASS elsewhere; nothing but the JTAG register and what the pin TDO sends changes. -/
def Obligations.JtagInstructionsAct : Prop :=
  (∀ s : State,
    exec .bypass s = .next { s with guard.jtag := .bypass } ∧
    exec .idcode s = .next { s with guard.jtag := .idcode, out := s.out ++ [.tdo 0x10512A6B] } ∧
    exec .samplePreload s = .next { s with guard.jtag := .samplePreload } ∧
    exec .extest s = .next { s with guard.jtag := .extest } ∧ exec .clamp s = .next { s with guard.jtag := .clamp } ∧
    exec .highz s = .next { s with guard.jtag := .highz }) ∧
  (∀ s : State, (s.guard.devState = .notReady ∨ s.guard.devState = .removed) → s.jtagActs = s.guard.jtag) ∧
  (∀ s : State, s.guard.devState ≠ .notReady → s.guard.devState ≠ .removed →
    s.jtagActs = if s.guard.jtag = .extest ∨ s.guard.jtag = .clamp ∨ s.guard.jtag = .highz then .bypass else s.guard.jtag)

/-! ## Checkpoints -/

/-- A live checkpoint copies, drains and ends. The background copies sheets up to its frontier; a held write goes on and is counted; a piece is
drained, kept where its hash matches, sent again at most three times, and after that ends the checkpoint with CAUSE 5; at its limit it ends with CAUSE
3. -/
def Obligations.CheckpointsCopyAndDrain : Prop :=
  (∀ (s : State) (k : Ckpt) (n : Nat), s.liveCkpt = some k → k.st = .copying → (s.running = false ∨ s.bgWindow 2 = true) →
    let r := copySheets n k s
    exec (.fastCopy n) s = .next (if r.1.imageLen ≤ r.1.frontier then (r.2.setLive r.1).copyDone r.1 else r.2.setLive r.1)) ∧
  (∀ (s : State) (a t : Nat) (rest : List (Nat × Nat)) (k : Ckpt), s.held = (a, t) :: rest → s.liveCkpt = some k →
    exec .heldWrite s = .next (({ s with held := rest } : State).setLive { k with heldPages := k.heldPages + 1, heldNs := k.heldNs + (s.clock - t) })) ∧
  (∀ (s : State) (k : Ckpt) (i : Nat), s.liveCkpt = some k → k.st = .draining → 0 < i → i < imgGroupSize s.act → k.acked.contains i = false →
    let g := (imgGroupIndex s.act + i) % imgGroupSize s.act
    let res := imgCkpRes s.act g
    (s.running = false ∨ (s.bgWindow 3 = true ∧ s.peerWindow k g = true)) → s.routeOpen res = true →
    let d := s.ownPiece k i
    let t := (s.sendPiece res i d).emit (.ckpPeer g (pieceBytes (imgGroupIndex s.act) i k.id (sha512t256 d)))
    exec (.drain i .interrupted) s = .next t ∧ exec (.drain i .matching) s = .next (t.pieceAcked k i) ∧
    (∀ a, a ≠ .interrupted → a ≠ .matching →
      (AMap.get zeroN k.resends i < 3 →
        exec (.drain i a) s = .next (t.setLive { k with resends := AMap.set zeroN k.resends i (AMap.get zeroN k.resends i + 1) })) ∧
      (3 ≤ AMap.get zeroN k.resends i → exec (.drain i a) s = .next (t.ckFail k 5)))) ∧
  (∀ (s : State) (id : Nat) (k : Ckpt), s.liveOf id = some k → k.st ≠ .begun → k.cutAt + imgCkpLimit s.act * 1000000000 ≤ s.clock →
    exec (.ckpLimitExpiry id) s = .next (s.ckFail k 3))

/-! ## Memory, marks, responses and formats -/

/-- A byte of memory reads as it was last written: inside the bytes of a write to channels that are not fenced it reads the new byte, and every other
byte reads as before; a zeroed range reads zero, and nothing else changes. -/
def Obligations.MemoryHoldsWhatIsWritten : Prop :=
  (∀ (s : State) (a : Nat) (d : Bytes), s.mem.wf = true → (∀ i, i < d.length → s.fenced ((a + i) / 1024) = false) →
    ∀ k, (s.memWrite a d).memByte k = if a ≤ k ∧ k < a + d.length then d.getD (k - a) 0 else s.memByte k) ∧
  (∀ (s : State) (a n : Nat), s.mem.wf = true → ∀ k, (s.zeroRange a n).memByte k = if a ≤ k ∧ k < a + n then 0 else s.memByte k)

/-- Marks and fences. A poisoned write marks its sheet, an unpoisoned write of the whole sheet clears the mark, one of a part leaves it, and no other
sheet's mark changes; a sheet of a fenced channel reads zero bytes and poisoned, and a write to it changes no byte and is recorded. -/
def Obligations.MarksFollowTheirSheets : Prop :=
  (∀ (s : State) (a : Nat) (d : Bytes), s.mem.wf = true → s.fenced (a / 1024) = false →
    (s.writeSheet a d true).poisoned (a / 1024) = true ∧
    (s.writeSheet a d false).poisoned (a / 1024) = (if d.length = 1024 then false else s.poisoned (a / 1024)) ∧
    ∀ p sheet, sheet ≠ a / 1024 → (s.writeSheet a d p).poisoned sheet = s.poisoned sheet) ∧
  (∀ (s : State) (a : Nat), s.fenced (a / 1024) = true → s.memByte a = 0 ∧ s.poisoned (a / 1024) = true ∧
    ∀ d p, (s.writeSheet a d p).mem.bytes = s.mem.bytes ∧ AMap.get noMark (s.writeSheet a d p).mem.fence (a / 1024) = true)

/-- A completed command's response is read back from its slot, RLEN bytes of it, and the slot is in STATE 3. -/
def Obligations.AResponseIsReadBack : Prop :=
  ∀ (s t : State) (n : SlotId) (status detail : Nat) (resp : Bytes), Answered s t n status detail resp → AMap.wf zeroB s.slots[n].payload = true →
    resp.length < 65536 → t.slots[n].hdr.state = 3 ∧ rdMap t.slots[n].payload 0 t.slots[n].hdr.rlen.toNat = resp

/-- The element encodings: a field that is not a NaN encodes back from its value, and a narrowing to its own format leaves that value as it is. -/
def Obligations.ElementFieldsRoundTrip : Prop :=
  ∀ f v, isFloat f = true → v < 2 ^ elemBits f → FV.isNan (decodeElem f v) = false →
    encodeElem f (decodeElem f v) = v ∧ ∀ sat, (narrow f sat (decodeElem f v)).1 = decodeElem f v

/-- E8M0 scale bytes: a byte up to 0xFE stands for 2^(s - 127), 0xFF for NaN, and every element of a block whose scale is 0xFF is NaN. -/
def Obligations.ScaleBytesScaleTheirBlocks : Prop :=
  (∀ b, b < 0xFF → scaleExp b = some ((b : Int) - 127)) ∧ scaleExp 0xFF = none ∧
  ∀ f n b sc i v, isMX f = true → (decodeRow f n b sc).1[i]? = some v →
    (fld sc (i / 32) 1 = 0xFF → v = .nan) ∧
    (fld sc (i / 32) 1 ≠ 0xFF → ∃ e, e < 2 ^ elemBits f ∧ v = FV.scale (decodeElem f e) ((fld sc (i / 32) 1 : Int) - 127))

/-- Widening from BF16, FP16, E4M3 or E5M2 to a wider format is exact, for subnormal, infinite and zero values too, and a NaN widens to the canonical
NaN. -/
def Obligations.WideningIsExact : Prop :=
  ∀ f g v sat, (f, g) ∈ ([(1, 0), (2, 0), (3, 0), (4, 0), (3, 1), (4, 1), (3, 2), (4, 2)] : List (Nat × Nat)) → v < 2 ^ elemBits f →
    let x := decodeElem f v
    let y := (narrow g sat x).1
    (FV.isNan x = false → FV.isNan y = false ∧ FV.cmp y x = 0 ∧ FV.sign y = FV.sign x ∧ FV.isInf y = FV.isInf x) ∧
    (FV.isNan x = true → encodeElem g y = (if g = 0 then 0x7FC00000 else if g = 1 then 0x7FC0 else 0x7E00))
end

