-- ==== Sys2Proof/Laws/State.lean ====
section
/-! SUPPORT. What each update of one part of State leaves: one lemma for each other field, and what the changed field holds. -/

namespace Sys2Proof.Machine

/-! ## emit -/

@[simp] theorem State.emit_time (s : State) (m : OutMsg) : (s.emit m).time = s.time := rfl
@[simp] theorem State.emit_cfg (s : State) (m : OutMsg) : (s.emit m).cfg = s.cfg := rfl
@[simp] theorem State.emit_frw (s : State) (m : OutMsg) : (s.emit m).frw = s.frw := rfl
@[simp] theorem State.emit_binder (s : State) (m : OutMsg) : (s.emit m).binder = s.binder := rfl
@[simp] theorem State.emit_slots (s : State) (m : OutMsg) : (s.emit m).slots = s.slots := rfl
@[simp] theorem State.emit_ctxs (s : State) (m : OutMsg) : (s.emit m).ctxs = s.ctxs := rfl
@[simp] theorem State.emit_mem (s : State) (m : OutMsg) : (s.emit m).mem = s.mem := rfl
@[simp] theorem State.emit_scheds (s : State) (m : OutMsg) : (s.emit m).scheds = s.scheds := rfl
@[simp] theorem State.emit_ledger (s : State) (m : OutMsg) : (s.emit m).ledger = s.ledger := rfl
@[simp] theorem State.emit_shadow (s : State) (m : OutMsg) : (s.emit m).shadow = s.shadow := rfl
@[simp] theorem State.emit_engines (s : State) (m : OutMsg) : (s.emit m).engines = s.engines := rfl
@[simp] theorem State.emit_counters (s : State) (m : OutMsg) : (s.emit m).counters = s.counters := rfl
@[simp] theorem State.emit_katRuns (s : State) (m : OutMsg) : (s.emit m).katRuns = s.katRuns := rfl
@[simp] theorem State.emit_katLast (s : State) (m : OutMsg) : (s.emit m).katLast = s.katLast := rfl
@[simp] theorem State.emit_arith (s : State) (m : OutMsg) : (s.emit m).arith = s.arith := rfl
@[simp] theorem State.emit_ports (s : State) (m : OutMsg) : (s.emit m).ports = s.ports := rfl
@[simp] theorem State.emit_hops (s : State) (m : OutMsg) : (s.emit m).hops = s.hops := rfl
@[simp] theorem State.emit_sent (s : State) (m : OutMsg) : (s.emit m).sent = s.sent := rfl
@[simp] theorem State.emit_recvs (s : State) (m : OutMsg) : (s.emit m).recvs = s.recvs := rfl
@[simp] theorem State.emit_nextCopy (s : State) (m : OutMsg) : (s.emit m).nextCopy = s.nextCopy := rfl
@[simp] theorem State.emit_ckpts (s : State) (m : OutMsg) : (s.emit m).ckpts = s.ckpts := rfl
@[simp] theorem State.emit_held (s : State) (m : OutMsg) : (s.emit m).held = s.held := rfl
@[simp] theorem State.emit_cover (s : State) (m : OutMsg) : (s.emit m).cover = s.cover := rfl
@[simp] theorem State.emit_lastCkpt (s : State) (m : OutMsg) : (s.emit m).lastCkpt = s.lastCkpt := rfl
@[simp] theorem State.emit_latents (s : State) (m : OutMsg) : (s.emit m).latents = s.latents := rfl
@[simp] theorem State.emit_traces (s : State) (m : OutMsg) : (s.emit m).traces = s.traces := rfl
@[simp] theorem State.emit_nextTrace (s : State) (m : OutMsg) : (s.emit m).nextTrace = s.nextTrace := rfl
@[simp] theorem State.emit_guard (s : State) (m : OutMsg) : (s.emit m).guard = s.guard := rfl
@[simp] theorem State.emit_free (s : State) (m : OutMsg) : (s.emit m).free = s.free := rfl
@[simp] theorem State.emit_pending (s : State) (m : OutMsg) : (s.emit m).pending = s.pending := rfl

/-! ## setSlot -/

@[simp] theorem State.setSlot_time (s : State) (n : SlotId) (x : Slot) : (s.setSlot n x).time = s.time := rfl
@[simp] theorem State.setSlot_cfg (s : State) (n : SlotId) (x : Slot) : (s.setSlot n x).cfg = s.cfg := rfl
@[simp] theorem State.setSlot_frw (s : State) (n : SlotId) (x : Slot) : (s.setSlot n x).frw = s.frw := rfl
@[simp] theorem State.setSlot_binder (s : State) (n : SlotId) (x : Slot) : (s.setSlot n x).binder = s.binder := rfl
@[simp] theorem State.setSlot_ctxs (s : State) (n : SlotId) (x : Slot) : (s.setSlot n x).ctxs = s.ctxs := rfl
@[simp] theorem State.setSlot_mem (s : State) (n : SlotId) (x : Slot) : (s.setSlot n x).mem = s.mem := rfl
@[simp] theorem State.setSlot_scheds (s : State) (n : SlotId) (x : Slot) : (s.setSlot n x).scheds = s.scheds := rfl
@[simp] theorem State.setSlot_ledger (s : State) (n : SlotId) (x : Slot) : (s.setSlot n x).ledger = s.ledger := rfl
@[simp] theorem State.setSlot_shadow (s : State) (n : SlotId) (x : Slot) : (s.setSlot n x).shadow = s.shadow := rfl
@[simp] theorem State.setSlot_engines (s : State) (n : SlotId) (x : Slot) : (s.setSlot n x).engines = s.engines := rfl
@[simp] theorem State.setSlot_counters (s : State) (n : SlotId) (x : Slot) : (s.setSlot n x).counters = s.counters := rfl
@[simp] theorem State.setSlot_katRuns (s : State) (n : SlotId) (x : Slot) : (s.setSlot n x).katRuns = s.katRuns := rfl
@[simp] theorem State.setSlot_katLast (s : State) (n : SlotId) (x : Slot) : (s.setSlot n x).katLast = s.katLast := rfl
@[simp] theorem State.setSlot_arith (s : State) (n : SlotId) (x : Slot) : (s.setSlot n x).arith = s.arith := rfl
@[simp] theorem State.setSlot_ports (s : State) (n : SlotId) (x : Slot) : (s.setSlot n x).ports = s.ports := rfl
@[simp] theorem State.setSlot_hops (s : State) (n : SlotId) (x : Slot) : (s.setSlot n x).hops = s.hops := rfl
@[simp] theorem State.setSlot_sent (s : State) (n : SlotId) (x : Slot) : (s.setSlot n x).sent = s.sent := rfl
@[simp] theorem State.setSlot_recvs (s : State) (n : SlotId) (x : Slot) : (s.setSlot n x).recvs = s.recvs := rfl
@[simp] theorem State.setSlot_nextCopy (s : State) (n : SlotId) (x : Slot) : (s.setSlot n x).nextCopy = s.nextCopy := rfl
@[simp] theorem State.setSlot_ckpts (s : State) (n : SlotId) (x : Slot) : (s.setSlot n x).ckpts = s.ckpts := rfl
@[simp] theorem State.setSlot_held (s : State) (n : SlotId) (x : Slot) : (s.setSlot n x).held = s.held := rfl
@[simp] theorem State.setSlot_cover (s : State) (n : SlotId) (x : Slot) : (s.setSlot n x).cover = s.cover := rfl
@[simp] theorem State.setSlot_lastCkpt (s : State) (n : SlotId) (x : Slot) : (s.setSlot n x).lastCkpt = s.lastCkpt := rfl
@[simp] theorem State.setSlot_latents (s : State) (n : SlotId) (x : Slot) : (s.setSlot n x).latents = s.latents := rfl
@[simp] theorem State.setSlot_traces (s : State) (n : SlotId) (x : Slot) : (s.setSlot n x).traces = s.traces := rfl
@[simp] theorem State.setSlot_nextTrace (s : State) (n : SlotId) (x : Slot) : (s.setSlot n x).nextTrace = s.nextTrace := rfl
@[simp] theorem State.setSlot_guard (s : State) (n : SlotId) (x : Slot) : (s.setSlot n x).guard = s.guard := rfl
@[simp] theorem State.setSlot_free (s : State) (n : SlotId) (x : Slot) : (s.setSlot n x).free = s.free := rfl
@[simp] theorem State.setSlot_out (s : State) (n : SlotId) (x : Slot) : (s.setSlot n x).out = s.out := rfl
@[simp] theorem State.setSlot_pending (s : State) (n : SlotId) (x : Slot) : (s.setSlot n x).pending = s.pending := rfl

/-! ## setCtx -/

@[simp] theorem State.setCtx_time (s : State) (c : Fin 64) (x : Ctx) : (s.setCtx c x).time = s.time := rfl
@[simp] theorem State.setCtx_cfg (s : State) (c : Fin 64) (x : Ctx) : (s.setCtx c x).cfg = s.cfg := rfl
@[simp] theorem State.setCtx_frw (s : State) (c : Fin 64) (x : Ctx) : (s.setCtx c x).frw = s.frw := rfl
@[simp] theorem State.setCtx_binder (s : State) (c : Fin 64) (x : Ctx) : (s.setCtx c x).binder = s.binder := rfl
@[simp] theorem State.setCtx_slots (s : State) (c : Fin 64) (x : Ctx) : (s.setCtx c x).slots = s.slots := rfl
@[simp] theorem State.setCtx_mem (s : State) (c : Fin 64) (x : Ctx) : (s.setCtx c x).mem = s.mem := rfl
@[simp] theorem State.setCtx_scheds (s : State) (c : Fin 64) (x : Ctx) : (s.setCtx c x).scheds = s.scheds := rfl
@[simp] theorem State.setCtx_ledger (s : State) (c : Fin 64) (x : Ctx) : (s.setCtx c x).ledger = s.ledger := rfl
@[simp] theorem State.setCtx_shadow (s : State) (c : Fin 64) (x : Ctx) : (s.setCtx c x).shadow = s.shadow := rfl
@[simp] theorem State.setCtx_engines (s : State) (c : Fin 64) (x : Ctx) : (s.setCtx c x).engines = s.engines := rfl
@[simp] theorem State.setCtx_counters (s : State) (c : Fin 64) (x : Ctx) : (s.setCtx c x).counters = s.counters := rfl
@[simp] theorem State.setCtx_katRuns (s : State) (c : Fin 64) (x : Ctx) : (s.setCtx c x).katRuns = s.katRuns := rfl
@[simp] theorem State.setCtx_katLast (s : State) (c : Fin 64) (x : Ctx) : (s.setCtx c x).katLast = s.katLast := rfl
@[simp] theorem State.setCtx_arith (s : State) (c : Fin 64) (x : Ctx) : (s.setCtx c x).arith = s.arith := rfl
@[simp] theorem State.setCtx_ports (s : State) (c : Fin 64) (x : Ctx) : (s.setCtx c x).ports = s.ports := rfl
@[simp] theorem State.setCtx_hops (s : State) (c : Fin 64) (x : Ctx) : (s.setCtx c x).hops = s.hops := rfl
@[simp] theorem State.setCtx_sent (s : State) (c : Fin 64) (x : Ctx) : (s.setCtx c x).sent = s.sent := rfl
@[simp] theorem State.setCtx_recvs (s : State) (c : Fin 64) (x : Ctx) : (s.setCtx c x).recvs = s.recvs := rfl
@[simp] theorem State.setCtx_nextCopy (s : State) (c : Fin 64) (x : Ctx) : (s.setCtx c x).nextCopy = s.nextCopy := rfl
@[simp] theorem State.setCtx_ckpts (s : State) (c : Fin 64) (x : Ctx) : (s.setCtx c x).ckpts = s.ckpts := rfl
@[simp] theorem State.setCtx_held (s : State) (c : Fin 64) (x : Ctx) : (s.setCtx c x).held = s.held := rfl
@[simp] theorem State.setCtx_cover (s : State) (c : Fin 64) (x : Ctx) : (s.setCtx c x).cover = s.cover := rfl
@[simp] theorem State.setCtx_lastCkpt (s : State) (c : Fin 64) (x : Ctx) : (s.setCtx c x).lastCkpt = s.lastCkpt := rfl
@[simp] theorem State.setCtx_latents (s : State) (c : Fin 64) (x : Ctx) : (s.setCtx c x).latents = s.latents := rfl
@[simp] theorem State.setCtx_traces (s : State) (c : Fin 64) (x : Ctx) : (s.setCtx c x).traces = s.traces := rfl
@[simp] theorem State.setCtx_nextTrace (s : State) (c : Fin 64) (x : Ctx) : (s.setCtx c x).nextTrace = s.nextTrace := rfl
@[simp] theorem State.setCtx_guard (s : State) (c : Fin 64) (x : Ctx) : (s.setCtx c x).guard = s.guard := rfl
@[simp] theorem State.setCtx_free (s : State) (c : Fin 64) (x : Ctx) : (s.setCtx c x).free = s.free := rfl
@[simp] theorem State.setCtx_out (s : State) (c : Fin 64) (x : Ctx) : (s.setCtx c x).out = s.out := rfl
@[simp] theorem State.setCtx_pending (s : State) (c : Fin 64) (x : Ctx) : (s.setCtx c x).pending = s.pending := rfl

/-! ## setEng -/

@[simp] theorem State.setEng_time (s : State) (e : EngId) (x : Engine) : (s.setEng e x).time = s.time := rfl
@[simp] theorem State.setEng_cfg (s : State) (e : EngId) (x : Engine) : (s.setEng e x).cfg = s.cfg := rfl
@[simp] theorem State.setEng_frw (s : State) (e : EngId) (x : Engine) : (s.setEng e x).frw = s.frw := rfl
@[simp] theorem State.setEng_binder (s : State) (e : EngId) (x : Engine) : (s.setEng e x).binder = s.binder := rfl
@[simp] theorem State.setEng_slots (s : State) (e : EngId) (x : Engine) : (s.setEng e x).slots = s.slots := rfl
@[simp] theorem State.setEng_ctxs (s : State) (e : EngId) (x : Engine) : (s.setEng e x).ctxs = s.ctxs := rfl
@[simp] theorem State.setEng_mem (s : State) (e : EngId) (x : Engine) : (s.setEng e x).mem = s.mem := rfl
@[simp] theorem State.setEng_scheds (s : State) (e : EngId) (x : Engine) : (s.setEng e x).scheds = s.scheds := rfl
@[simp] theorem State.setEng_ledger (s : State) (e : EngId) (x : Engine) : (s.setEng e x).ledger = s.ledger := rfl
@[simp] theorem State.setEng_shadow (s : State) (e : EngId) (x : Engine) : (s.setEng e x).shadow = s.shadow := rfl
@[simp] theorem State.setEng_counters (s : State) (e : EngId) (x : Engine) : (s.setEng e x).counters = s.counters := rfl
@[simp] theorem State.setEng_katRuns (s : State) (e : EngId) (x : Engine) : (s.setEng e x).katRuns = s.katRuns := rfl
@[simp] theorem State.setEng_katLast (s : State) (e : EngId) (x : Engine) : (s.setEng e x).katLast = s.katLast := rfl
@[simp] theorem State.setEng_arith (s : State) (e : EngId) (x : Engine) : (s.setEng e x).arith = s.arith := rfl
@[simp] theorem State.setEng_ports (s : State) (e : EngId) (x : Engine) : (s.setEng e x).ports = s.ports := rfl
@[simp] theorem State.setEng_hops (s : State) (e : EngId) (x : Engine) : (s.setEng e x).hops = s.hops := rfl
@[simp] theorem State.setEng_sent (s : State) (e : EngId) (x : Engine) : (s.setEng e x).sent = s.sent := rfl
@[simp] theorem State.setEng_recvs (s : State) (e : EngId) (x : Engine) : (s.setEng e x).recvs = s.recvs := rfl
@[simp] theorem State.setEng_nextCopy (s : State) (e : EngId) (x : Engine) : (s.setEng e x).nextCopy = s.nextCopy := rfl
@[simp] theorem State.setEng_ckpts (s : State) (e : EngId) (x : Engine) : (s.setEng e x).ckpts = s.ckpts := rfl
@[simp] theorem State.setEng_held (s : State) (e : EngId) (x : Engine) : (s.setEng e x).held = s.held := rfl
@[simp] theorem State.setEng_cover (s : State) (e : EngId) (x : Engine) : (s.setEng e x).cover = s.cover := rfl
@[simp] theorem State.setEng_lastCkpt (s : State) (e : EngId) (x : Engine) : (s.setEng e x).lastCkpt = s.lastCkpt := rfl
@[simp] theorem State.setEng_latents (s : State) (e : EngId) (x : Engine) : (s.setEng e x).latents = s.latents := rfl
@[simp] theorem State.setEng_traces (s : State) (e : EngId) (x : Engine) : (s.setEng e x).traces = s.traces := rfl
@[simp] theorem State.setEng_nextTrace (s : State) (e : EngId) (x : Engine) : (s.setEng e x).nextTrace = s.nextTrace := rfl
@[simp] theorem State.setEng_guard (s : State) (e : EngId) (x : Engine) : (s.setEng e x).guard = s.guard := rfl
@[simp] theorem State.setEng_free (s : State) (e : EngId) (x : Engine) : (s.setEng e x).free = s.free := rfl
@[simp] theorem State.setEng_out (s : State) (e : EngId) (x : Engine) : (s.setEng e x).out = s.out := rfl
@[simp] theorem State.setEng_pending (s : State) (e : EngId) (x : Engine) : (s.setEng e x).pending = s.pending := rfl

/-! ## setPort -/

@[simp] theorem State.setPort_time (s : State) (p : Port) (x : PortS) : (s.setPort p x).time = s.time := rfl
@[simp] theorem State.setPort_cfg (s : State) (p : Port) (x : PortS) : (s.setPort p x).cfg = s.cfg := rfl
@[simp] theorem State.setPort_frw (s : State) (p : Port) (x : PortS) : (s.setPort p x).frw = s.frw := rfl
@[simp] theorem State.setPort_binder (s : State) (p : Port) (x : PortS) : (s.setPort p x).binder = s.binder := rfl
@[simp] theorem State.setPort_slots (s : State) (p : Port) (x : PortS) : (s.setPort p x).slots = s.slots := rfl
@[simp] theorem State.setPort_ctxs (s : State) (p : Port) (x : PortS) : (s.setPort p x).ctxs = s.ctxs := rfl
@[simp] theorem State.setPort_mem (s : State) (p : Port) (x : PortS) : (s.setPort p x).mem = s.mem := rfl
@[simp] theorem State.setPort_scheds (s : State) (p : Port) (x : PortS) : (s.setPort p x).scheds = s.scheds := rfl
@[simp] theorem State.setPort_ledger (s : State) (p : Port) (x : PortS) : (s.setPort p x).ledger = s.ledger := rfl
@[simp] theorem State.setPort_shadow (s : State) (p : Port) (x : PortS) : (s.setPort p x).shadow = s.shadow := rfl
@[simp] theorem State.setPort_engines (s : State) (p : Port) (x : PortS) : (s.setPort p x).engines = s.engines := rfl
@[simp] theorem State.setPort_counters (s : State) (p : Port) (x : PortS) : (s.setPort p x).counters = s.counters := rfl
@[simp] theorem State.setPort_katRuns (s : State) (p : Port) (x : PortS) : (s.setPort p x).katRuns = s.katRuns := rfl
@[simp] theorem State.setPort_katLast (s : State) (p : Port) (x : PortS) : (s.setPort p x).katLast = s.katLast := rfl
@[simp] theorem State.setPort_arith (s : State) (p : Port) (x : PortS) : (s.setPort p x).arith = s.arith := rfl
@[simp] theorem State.setPort_hops (s : State) (p : Port) (x : PortS) : (s.setPort p x).hops = s.hops := rfl
@[simp] theorem State.setPort_sent (s : State) (p : Port) (x : PortS) : (s.setPort p x).sent = s.sent := rfl
@[simp] theorem State.setPort_recvs (s : State) (p : Port) (x : PortS) : (s.setPort p x).recvs = s.recvs := rfl
@[simp] theorem State.setPort_nextCopy (s : State) (p : Port) (x : PortS) : (s.setPort p x).nextCopy = s.nextCopy := rfl
@[simp] theorem State.setPort_ckpts (s : State) (p : Port) (x : PortS) : (s.setPort p x).ckpts = s.ckpts := rfl
@[simp] theorem State.setPort_held (s : State) (p : Port) (x : PortS) : (s.setPort p x).held = s.held := rfl
@[simp] theorem State.setPort_cover (s : State) (p : Port) (x : PortS) : (s.setPort p x).cover = s.cover := rfl
@[simp] theorem State.setPort_lastCkpt (s : State) (p : Port) (x : PortS) : (s.setPort p x).lastCkpt = s.lastCkpt := rfl
@[simp] theorem State.setPort_latents (s : State) (p : Port) (x : PortS) : (s.setPort p x).latents = s.latents := rfl
@[simp] theorem State.setPort_traces (s : State) (p : Port) (x : PortS) : (s.setPort p x).traces = s.traces := rfl
@[simp] theorem State.setPort_nextTrace (s : State) (p : Port) (x : PortS) : (s.setPort p x).nextTrace = s.nextTrace := rfl
@[simp] theorem State.setPort_guard (s : State) (p : Port) (x : PortS) : (s.setPort p x).guard = s.guard := rfl
@[simp] theorem State.setPort_free (s : State) (p : Port) (x : PortS) : (s.setPort p x).free = s.free := rfl
@[simp] theorem State.setPort_out (s : State) (p : Port) (x : PortS) : (s.setPort p x).out = s.out := rfl
@[simp] theorem State.setPort_pending (s : State) (p : Port) (x : PortS) : (s.setPort p x).pending = s.pending := rfl

/-! ## setSched -/

@[simp] theorem State.setSched_time (s : State) (x : Sched) : (s.setSched x).time = s.time := rfl
@[simp] theorem State.setSched_cfg (s : State) (x : Sched) : (s.setSched x).cfg = s.cfg := rfl
@[simp] theorem State.setSched_frw (s : State) (x : Sched) : (s.setSched x).frw = s.frw := rfl
@[simp] theorem State.setSched_binder (s : State) (x : Sched) : (s.setSched x).binder = s.binder := rfl
@[simp] theorem State.setSched_slots (s : State) (x : Sched) : (s.setSched x).slots = s.slots := rfl
@[simp] theorem State.setSched_ctxs (s : State) (x : Sched) : (s.setSched x).ctxs = s.ctxs := rfl
@[simp] theorem State.setSched_mem (s : State) (x : Sched) : (s.setSched x).mem = s.mem := rfl
@[simp] theorem State.setSched_ledger (s : State) (x : Sched) : (s.setSched x).ledger = s.ledger := rfl
@[simp] theorem State.setSched_shadow (s : State) (x : Sched) : (s.setSched x).shadow = s.shadow := rfl
@[simp] theorem State.setSched_engines (s : State) (x : Sched) : (s.setSched x).engines = s.engines := rfl
@[simp] theorem State.setSched_counters (s : State) (x : Sched) : (s.setSched x).counters = s.counters := rfl
@[simp] theorem State.setSched_katRuns (s : State) (x : Sched) : (s.setSched x).katRuns = s.katRuns := rfl
@[simp] theorem State.setSched_katLast (s : State) (x : Sched) : (s.setSched x).katLast = s.katLast := rfl
@[simp] theorem State.setSched_arith (s : State) (x : Sched) : (s.setSched x).arith = s.arith := rfl
@[simp] theorem State.setSched_ports (s : State) (x : Sched) : (s.setSched x).ports = s.ports := rfl
@[simp] theorem State.setSched_hops (s : State) (x : Sched) : (s.setSched x).hops = s.hops := rfl
@[simp] theorem State.setSched_sent (s : State) (x : Sched) : (s.setSched x).sent = s.sent := rfl
@[simp] theorem State.setSched_recvs (s : State) (x : Sched) : (s.setSched x).recvs = s.recvs := rfl
@[simp] theorem State.setSched_nextCopy (s : State) (x : Sched) : (s.setSched x).nextCopy = s.nextCopy := rfl
@[simp] theorem State.setSched_ckpts (s : State) (x : Sched) : (s.setSched x).ckpts = s.ckpts := rfl
@[simp] theorem State.setSched_held (s : State) (x : Sched) : (s.setSched x).held = s.held := rfl
@[simp] theorem State.setSched_cover (s : State) (x : Sched) : (s.setSched x).cover = s.cover := rfl
@[simp] theorem State.setSched_lastCkpt (s : State) (x : Sched) : (s.setSched x).lastCkpt = s.lastCkpt := rfl
@[simp] theorem State.setSched_latents (s : State) (x : Sched) : (s.setSched x).latents = s.latents := rfl
@[simp] theorem State.setSched_traces (s : State) (x : Sched) : (s.setSched x).traces = s.traces := rfl
@[simp] theorem State.setSched_nextTrace (s : State) (x : Sched) : (s.setSched x).nextTrace = s.nextTrace := rfl
@[simp] theorem State.setSched_guard (s : State) (x : Sched) : (s.setSched x).guard = s.guard := rfl
@[simp] theorem State.setSched_free (s : State) (x : Sched) : (s.setSched x).free = s.free := rfl
@[simp] theorem State.setSched_out (s : State) (x : Sched) : (s.setSched x).out = s.out := rfl
@[simp] theorem State.setSched_pending (s : State) (x : Sched) : (s.setSched x).pending = s.pending := rfl

/-! ## setChan -/

@[simp] theorem State.setChan_time (s : State) (c : Nat) (x : Chan) : (s.setChan c x).time = s.time := rfl
@[simp] theorem State.setChan_cfg (s : State) (c : Nat) (x : Chan) : (s.setChan c x).cfg = s.cfg := rfl
@[simp] theorem State.setChan_frw (s : State) (c : Nat) (x : Chan) : (s.setChan c x).frw = s.frw := rfl
@[simp] theorem State.setChan_binder (s : State) (c : Nat) (x : Chan) : (s.setChan c x).binder = s.binder := rfl
@[simp] theorem State.setChan_slots (s : State) (c : Nat) (x : Chan) : (s.setChan c x).slots = s.slots := rfl
@[simp] theorem State.setChan_ctxs (s : State) (c : Nat) (x : Chan) : (s.setChan c x).ctxs = s.ctxs := rfl
@[simp] theorem State.setChan_scheds (s : State) (c : Nat) (x : Chan) : (s.setChan c x).scheds = s.scheds := rfl
@[simp] theorem State.setChan_ledger (s : State) (c : Nat) (x : Chan) : (s.setChan c x).ledger = s.ledger := rfl
@[simp] theorem State.setChan_shadow (s : State) (c : Nat) (x : Chan) : (s.setChan c x).shadow = s.shadow := rfl
@[simp] theorem State.setChan_engines (s : State) (c : Nat) (x : Chan) : (s.setChan c x).engines = s.engines := rfl
@[simp] theorem State.setChan_counters (s : State) (c : Nat) (x : Chan) : (s.setChan c x).counters = s.counters := rfl
@[simp] theorem State.setChan_katRuns (s : State) (c : Nat) (x : Chan) : (s.setChan c x).katRuns = s.katRuns := rfl
@[simp] theorem State.setChan_katLast (s : State) (c : Nat) (x : Chan) : (s.setChan c x).katLast = s.katLast := rfl
@[simp] theorem State.setChan_arith (s : State) (c : Nat) (x : Chan) : (s.setChan c x).arith = s.arith := rfl
@[simp] theorem State.setChan_ports (s : State) (c : Nat) (x : Chan) : (s.setChan c x).ports = s.ports := rfl
@[simp] theorem State.setChan_hops (s : State) (c : Nat) (x : Chan) : (s.setChan c x).hops = s.hops := rfl
@[simp] theorem State.setChan_sent (s : State) (c : Nat) (x : Chan) : (s.setChan c x).sent = s.sent := rfl
@[simp] theorem State.setChan_recvs (s : State) (c : Nat) (x : Chan) : (s.setChan c x).recvs = s.recvs := rfl
@[simp] theorem State.setChan_nextCopy (s : State) (c : Nat) (x : Chan) : (s.setChan c x).nextCopy = s.nextCopy := rfl
@[simp] theorem State.setChan_ckpts (s : State) (c : Nat) (x : Chan) : (s.setChan c x).ckpts = s.ckpts := rfl
@[simp] theorem State.setChan_held (s : State) (c : Nat) (x : Chan) : (s.setChan c x).held = s.held := rfl
@[simp] theorem State.setChan_cover (s : State) (c : Nat) (x : Chan) : (s.setChan c x).cover = s.cover := rfl
@[simp] theorem State.setChan_lastCkpt (s : State) (c : Nat) (x : Chan) : (s.setChan c x).lastCkpt = s.lastCkpt := rfl
@[simp] theorem State.setChan_latents (s : State) (c : Nat) (x : Chan) : (s.setChan c x).latents = s.latents := rfl
@[simp] theorem State.setChan_traces (s : State) (c : Nat) (x : Chan) : (s.setChan c x).traces = s.traces := rfl
@[simp] theorem State.setChan_nextTrace (s : State) (c : Nat) (x : Chan) : (s.setChan c x).nextTrace = s.nextTrace := rfl
@[simp] theorem State.setChan_guard (s : State) (c : Nat) (x : Chan) : (s.setChan c x).guard = s.guard := rfl
@[simp] theorem State.setChan_free (s : State) (c : Nat) (x : Chan) : (s.setChan c x).free = s.free := rfl
@[simp] theorem State.setChan_out (s : State) (c : Nat) (x : Chan) : (s.setChan c x).out = s.out := rfl
@[simp] theorem State.setChan_pending (s : State) (c : Nat) (x : Chan) : (s.setChan c x).pending = s.pending := rfl

/-! ## setCtr -/

@[simp] theorem State.setCtr_time (s : State) (c : Nat) (v : W32) : (s.setCtr c v).time = s.time := rfl
@[simp] theorem State.setCtr_cfg (s : State) (c : Nat) (v : W32) : (s.setCtr c v).cfg = s.cfg := rfl
@[simp] theorem State.setCtr_frw (s : State) (c : Nat) (v : W32) : (s.setCtr c v).frw = s.frw := rfl
@[simp] theorem State.setCtr_binder (s : State) (c : Nat) (v : W32) : (s.setCtr c v).binder = s.binder := rfl
@[simp] theorem State.setCtr_slots (s : State) (c : Nat) (v : W32) : (s.setCtr c v).slots = s.slots := rfl
@[simp] theorem State.setCtr_ctxs (s : State) (c : Nat) (v : W32) : (s.setCtr c v).ctxs = s.ctxs := rfl
@[simp] theorem State.setCtr_mem (s : State) (c : Nat) (v : W32) : (s.setCtr c v).mem = s.mem := rfl
@[simp] theorem State.setCtr_scheds (s : State) (c : Nat) (v : W32) : (s.setCtr c v).scheds = s.scheds := rfl
@[simp] theorem State.setCtr_ledger (s : State) (c : Nat) (v : W32) : (s.setCtr c v).ledger = s.ledger := rfl
@[simp] theorem State.setCtr_shadow (s : State) (c : Nat) (v : W32) : (s.setCtr c v).shadow = s.shadow := rfl
@[simp] theorem State.setCtr_engines (s : State) (c : Nat) (v : W32) : (s.setCtr c v).engines = s.engines := rfl
@[simp] theorem State.setCtr_katRuns (s : State) (c : Nat) (v : W32) : (s.setCtr c v).katRuns = s.katRuns := rfl
@[simp] theorem State.setCtr_katLast (s : State) (c : Nat) (v : W32) : (s.setCtr c v).katLast = s.katLast := rfl
@[simp] theorem State.setCtr_arith (s : State) (c : Nat) (v : W32) : (s.setCtr c v).arith = s.arith := rfl
@[simp] theorem State.setCtr_ports (s : State) (c : Nat) (v : W32) : (s.setCtr c v).ports = s.ports := rfl
@[simp] theorem State.setCtr_hops (s : State) (c : Nat) (v : W32) : (s.setCtr c v).hops = s.hops := rfl
@[simp] theorem State.setCtr_sent (s : State) (c : Nat) (v : W32) : (s.setCtr c v).sent = s.sent := rfl
@[simp] theorem State.setCtr_recvs (s : State) (c : Nat) (v : W32) : (s.setCtr c v).recvs = s.recvs := rfl
@[simp] theorem State.setCtr_nextCopy (s : State) (c : Nat) (v : W32) : (s.setCtr c v).nextCopy = s.nextCopy := rfl
@[simp] theorem State.setCtr_ckpts (s : State) (c : Nat) (v : W32) : (s.setCtr c v).ckpts = s.ckpts := rfl
@[simp] theorem State.setCtr_held (s : State) (c : Nat) (v : W32) : (s.setCtr c v).held = s.held := rfl
@[simp] theorem State.setCtr_cover (s : State) (c : Nat) (v : W32) : (s.setCtr c v).cover = s.cover := rfl
@[simp] theorem State.setCtr_lastCkpt (s : State) (c : Nat) (v : W32) : (s.setCtr c v).lastCkpt = s.lastCkpt := rfl
@[simp] theorem State.setCtr_latents (s : State) (c : Nat) (v : W32) : (s.setCtr c v).latents = s.latents := rfl
@[simp] theorem State.setCtr_traces (s : State) (c : Nat) (v : W32) : (s.setCtr c v).traces = s.traces := rfl
@[simp] theorem State.setCtr_nextTrace (s : State) (c : Nat) (v : W32) : (s.setCtr c v).nextTrace = s.nextTrace := rfl
@[simp] theorem State.setCtr_guard (s : State) (c : Nat) (v : W32) : (s.setCtr c v).guard = s.guard := rfl
@[simp] theorem State.setCtr_free (s : State) (c : Nat) (v : W32) : (s.setCtr c v).free = s.free := rfl
@[simp] theorem State.setCtr_out (s : State) (c : Nat) (v : W32) : (s.setCtr c v).out = s.out := rfl
@[simp] theorem State.setCtr_pending (s : State) (c : Nat) (v : W32) : (s.setCtr c v).pending = s.pending := rfl

/-! ## tagFrom -/

@[simp] theorem State.tagFrom_time (s : State) (i : Nat) (g : W32) : (s.tagFrom i g).time = s.time := rfl
@[simp] theorem State.tagFrom_cfg (s : State) (i : Nat) (g : W32) : (s.tagFrom i g).cfg = s.cfg := rfl
@[simp] theorem State.tagFrom_frw (s : State) (i : Nat) (g : W32) : (s.tagFrom i g).frw = s.frw := rfl
@[simp] theorem State.tagFrom_binder (s : State) (i : Nat) (g : W32) : (s.tagFrom i g).binder = s.binder := rfl
@[simp] theorem State.tagFrom_slots (s : State) (i : Nat) (g : W32) : (s.tagFrom i g).slots = s.slots := rfl
@[simp] theorem State.tagFrom_ctxs (s : State) (i : Nat) (g : W32) : (s.tagFrom i g).ctxs = s.ctxs := rfl
@[simp] theorem State.tagFrom_mem (s : State) (i : Nat) (g : W32) : (s.tagFrom i g).mem = s.mem := rfl
@[simp] theorem State.tagFrom_scheds (s : State) (i : Nat) (g : W32) : (s.tagFrom i g).scheds = s.scheds := rfl
@[simp] theorem State.tagFrom_ledger (s : State) (i : Nat) (g : W32) : (s.tagFrom i g).ledger = s.ledger := rfl
@[simp] theorem State.tagFrom_shadow (s : State) (i : Nat) (g : W32) : (s.tagFrom i g).shadow = s.shadow := rfl
@[simp] theorem State.tagFrom_engines (s : State) (i : Nat) (g : W32) : (s.tagFrom i g).engines = s.engines := rfl
@[simp] theorem State.tagFrom_counters (s : State) (i : Nat) (g : W32) : (s.tagFrom i g).counters = s.counters := rfl
@[simp] theorem State.tagFrom_katRuns (s : State) (i : Nat) (g : W32) : (s.tagFrom i g).katRuns = s.katRuns := rfl
@[simp] theorem State.tagFrom_katLast (s : State) (i : Nat) (g : W32) : (s.tagFrom i g).katLast = s.katLast := rfl
@[simp] theorem State.tagFrom_arith (s : State) (i : Nat) (g : W32) : (s.tagFrom i g).arith = s.arith := rfl
@[simp] theorem State.tagFrom_ports (s : State) (i : Nat) (g : W32) : (s.tagFrom i g).ports = s.ports := rfl
@[simp] theorem State.tagFrom_hops (s : State) (i : Nat) (g : W32) : (s.tagFrom i g).hops = s.hops := rfl
@[simp] theorem State.tagFrom_sent (s : State) (i : Nat) (g : W32) : (s.tagFrom i g).sent = s.sent := rfl
@[simp] theorem State.tagFrom_recvs (s : State) (i : Nat) (g : W32) : (s.tagFrom i g).recvs = s.recvs := rfl
@[simp] theorem State.tagFrom_nextCopy (s : State) (i : Nat) (g : W32) : (s.tagFrom i g).nextCopy = s.nextCopy := rfl
@[simp] theorem State.tagFrom_ckpts (s : State) (i : Nat) (g : W32) : (s.tagFrom i g).ckpts = s.ckpts := rfl
@[simp] theorem State.tagFrom_held (s : State) (i : Nat) (g : W32) : (s.tagFrom i g).held = s.held := rfl
@[simp] theorem State.tagFrom_cover (s : State) (i : Nat) (g : W32) : (s.tagFrom i g).cover = s.cover := rfl
@[simp] theorem State.tagFrom_lastCkpt (s : State) (i : Nat) (g : W32) : (s.tagFrom i g).lastCkpt = s.lastCkpt := rfl
@[simp] theorem State.tagFrom_latents (s : State) (i : Nat) (g : W32) : (s.tagFrom i g).latents = s.latents := rfl
@[simp] theorem State.tagFrom_traces (s : State) (i : Nat) (g : W32) : (s.tagFrom i g).traces = s.traces := rfl
@[simp] theorem State.tagFrom_nextTrace (s : State) (i : Nat) (g : W32) : (s.tagFrom i g).nextTrace = s.nextTrace := rfl
@[simp] theorem State.tagFrom_free (s : State) (i : Nat) (g : W32) : (s.tagFrom i g).free = s.free := rfl
@[simp] theorem State.tagFrom_out (s : State) (i : Nat) (g : W32) : (s.tagFrom i g).out = s.out := rfl
@[simp] theorem State.tagFrom_pending (s : State) (i : Nat) (g : W32) : (s.tagFrom i g).pending = s.pending := rfl

/-! ## The changed field -/

@[simp] theorem State.emit_out (s : State) (m : OutMsg) : (s.emit m).out = s.out ++ [m] := rfl
@[simp] theorem State.setSlot_val (s : State) (n : SlotId) (x : Slot) : (s.setSlot n x).slots[n.val] = x := by simp [State.setSlot]
theorem State.setSlot_same (s : State) (n : SlotId) (x : Slot) : (s.setSlot n x).slots[n] = x := State.setSlot_val s n x
theorem State.setSlot_other (s : State) (n m : SlotId) (x : Slot) (h : m ≠ n) : (s.setSlot n x).slots[m] = s.slots[m] := by
  have h' : n.val ≠ m.val := fun e => h (Fin.ext e).symm
  simpa [State.setSlot] using Vector.getElem_set_ne n.isLt m.isLt h'
@[simp] theorem State.setCtx_val (s : State) (c : Fin 64) (x : Ctx) : (s.setCtx c x).ctxs[c.val] = x := by simp [State.setCtx]
theorem State.setCtx_same (s : State) (c : Fin 64) (x : Ctx) : (s.setCtx c x).ctxs[c] = x := State.setCtx_val s c x
theorem State.setCtx_other (s : State) (c d : Fin 64) (x : Ctx) (h : d ≠ c) : (s.setCtx c x).ctxs[d] = s.ctxs[d] := by
  have h' : c.val ≠ d.val := fun e => h (Fin.ext e).symm
  simpa [State.setCtx] using Vector.getElem_set_ne c.isLt d.isLt h'
@[simp] theorem State.setEng_val (s : State) (e : EngId) (x : Engine) : (s.setEng e x).engines[e.val] = x := by simp [State.setEng]
theorem State.setEng_same (s : State) (e : EngId) (x : Engine) : (s.setEng e x).engines[e] = x := State.setEng_val s e x
theorem State.setEng_other (s : State) (e f : EngId) (x : Engine) (h : f ≠ e) : (s.setEng e x).engines[f] = s.engines[f] := by
  have h' : e.val ≠ f.val := fun i => h (Fin.ext i).symm
  simpa [State.setEng] using Vector.getElem_set_ne e.isLt f.isLt h'
@[simp] theorem State.setPort_val (s : State) (p : Port) (x : PortS) : (s.setPort p x).ports[p.val] = x := by simp [State.setPort]
theorem State.setPort_same (s : State) (p : Port) (x : PortS) : (s.setPort p x).ports[p] = x := State.setPort_val s p x
theorem State.setPort_other (s : State) (p q : Port) (x : PortS) (h : q ≠ p) : (s.setPort p x).ports[q] = s.ports[q] := by
  have h' : p.val ≠ q.val := fun i => h (Fin.ext i).symm
  simpa [State.setPort] using Vector.getElem_set_ne p.isLt q.isLt h'

/-- A schedule that is set is found under its ID; every other stays (11_time R322). -/
theorem State.sched_setSched (s : State) (x : Sched) (id : Nat) :
    (s.setSched x).sched id = (s.sched id).map fun y => if y.id = x.id then x else y := by
  unfold State.sched State.setSched
  induction s.scheds with
  | nil => rfl
  | cons y l ih =>
    simp only [List.map_cons, List.find?_cons]
    by_cases h : y.id = x.id
    · simp only [h, if_true]
      split
      · rw [Option.map_some, if_pos h]
      · exact ih
    · simp only [h, if_false]
      split
      · simp [h]
      · exact ih
theorem State.sched_id {s : State} {id : Nat} {x : Sched} (h : s.sched id = some x) : x.id = id := by
  simpa using List.find?_some h
/-- A loaded schedule that is updated holds what was set. -/
theorem State.setSched_sched {s : State} {id : Nat} {x y : Sched} (h : s.sched id = some x) (e : y.id = id) : (s.setSched y).sched id = some y := by
  rw [State.sched_setSched, h, Option.map_some, State.sched_id h, e, if_pos rfl]

end Sys2Proof.Machine
end

