-- ==== Sys2Proof/Laws/Answers.lean ====
section
/-! SUPPORT. What the completion of a command does, said once: the meanings of the Serloth commands end in it. -/

namespace Sys2Proof.Machine

/-- A command that is ready runs its meaning; the records it causes carry its TAG. -/
theorem State.serloth_of_runs {s : State} {n : SlotId} {cmd : Nat} {f : Slot → State} (h : s.runs n cmd = true) :
    s.serloth n cmd f = .next ((f s.slots[n]).tagFrom s.guard.logNext s.slots[n].hdr.tag) := by simp [State.serloth, h]

/-- A slot that is not ready for a code changes nothing (log entry 22). -/
theorem State.serloth_of_not {s : State} {n : SlotId} {cmd : Nat} {f : Slot → State} (h : s.runs n cmd = false) :
    s.serloth n cmd f = .next s := by simp [State.serloth, h]

theorem SameButAnswers.refl (s : State) : SameButAnswers s s := rfl

theorem SameButAnswers.emit {s t : State} {m : OutMsg} (h : SameButAnswers s t) : SameButAnswers s (t.emit m) := h

theorem SameButAnswers.tagFrom {s t : State} {i : Nat} {g : W32} (h : SameButAnswers s t) : SameButAnswers s (t.tagFrom i g) := h

theorem Answered.tagFrom {s t : State} {n : SlotId} {st d : Nat} {r : Bytes} {i : Nat} {g : W32} (h : Answered s t n st d r) :
    Answered s (t.tagFrom i g) n st d r := ⟨h.header, h.payload, h.released, h.others, h.taken⟩

/-- A completion that is no refusal, of a slot that no request of the Guard waits for. -/
theorem State.complete_answered {s : State} {n : SlotId} {st d : Nat} {r : Bytes} (hm : s.notRelayed n) (hs : isRefused st = false) :
    Answered s (s.complete n st d r) n st d r ∧ SameButAnswers s (s.complete n st d r) := by
  unfold State.complete
  extract_lets x ts u0 b u v
  have hv : v = u.notify n := by
    have f : (u.notify n).guard.mposts.find? (fun m => m.slot = n) = none := by
      have e : (u.notify n).guard = s.guard := by unfold State.notify; split <;> rfl
      rw [e]
      simp only [List.find?_eq_none, decide_eq_true_eq]
      exact hm
    simp only [v, State.relayDone, f]
  have hu : Answered s u n st d r ∧ SameButAnswers s u := by
    refine ⟨⟨?_, ?_, ?_, ?_, rfl⟩, rfl⟩
    · simp [u, u0, x, Slot.finish]
    · simp [u, u0, x, Slot.finish]
    · simp [u, u0, x, Slot.finish]
    · intro m h
      exact State.setSlot_other s n m _ h
  have key : Answered s v n st d r ∧ SameButAnswers s v := by
    rw [hv]
    unfold State.notify
    split
    · exact ⟨⟨hu.1.header, hu.1.payload, hu.1.released, hu.1.others, hu.1.taken⟩, hu.2⟩
    · exact hu
  split
  · simpa only [hs, Bool.and_false, Bool.false_eq_true, if_false] using key
  · exact key

/-- A command that serves a completion which is no refusal completes so. -/
theorem Completes.of_serves {s : State} {c : Instr} {n : SlotId} {st : Nat} {r : Bytes} {g : State → State}
    (e : Serves s c n ((g s).complete n st 0 r)) (hm : (g s).notRelayed n) (hs : isRefused st = false)
    (hg : (g s).slots = s.slots ∧ (g s).binder = s.binder ∧ (g s).time = s.time) : Completes s c n st r g := by
  obtain ⟨h1, h2, h3⟩ := hg
  have k := (State.complete_answered (d := 0) (r := r) hm hs).1.tagFrom (i := s.guard.logNext) (g := s.slots[n].hdr.tag)
  exact ⟨_, e, ⟨by rw [k.header, h1, h3], by rw [k.payload, h1], k.released, fun m hmn => by rw [k.others m hmn, h1], by rw [k.taken, h2]⟩,
    (State.complete_answered hm hs).2.tagFrom⟩

/-! ## Requests of the Guard -/

/-- A request keeps the source and the code under which it arrived. -/
theorem State.reqOf_eq {s : State} {src : Src} {code : Nat} {data : Bytes} {r : GReq} (h : s.reqOf src code data = some r) : r.src = src ∧ r.code = code := by
  simp only [State.reqOf] at h
  split at h
  · cases h
  · split at h
    · split at h <;> cases h
      exact ⟨rfl, rfl⟩
    · split at h <;> cases h
      exact ⟨rfl, rfl⟩
    · cases h
      exact ⟨rfl, rfl⟩

/-- What a message changes before its request is served. -/
theorem State.heardBy_same (s : State) (src : Src) :
    (s.heardBy src).guard.bring = s.guard.bring ∧ (s.heardBy src).guard.devState = s.guard.devState ∧ (s.heardBy src).guard.logNext = s.guard.logNext ∧
      (s.heardBy src).guard.power = s.guard.power ∧ (s.heardBy src).guard.dumps = s.guard.dumps ∧ (s.heardBy src).time = s.time := by
  cases src <;> exact ⟨rfl, rfl, rfl, rfl, rfl, rfl⟩

/-- A request that passes the first checks and is allowed is served by its own function. -/
theorem Asks.serve {s : State} {src : Src} {code : Nat} {data : Bytes} {r : GReq} {fixed : Nat} {resv : List (Nat × Nat)} (h : Asks s src code data r fixed resv)
    (mine : Bytes → Bool) (may : GReq → Bool) (f : GReq → State → State) (hm : mine r.data = true) (ha : may r = true) :
    s.request src code data mine may fixed resv f = .next ((f r (s.heardBy src)).tagFrom s.guard.logNext r.tag) := by
  obtain ⟨h1, h2, h3, h4, h5⟩ := h
  obtain ⟨rfl, rfl⟩ := State.reqOf_eq h1
  simp only [State.request, h1, hm, if_true, ok, State.serve, ha]
  change Host.Outcome.next (State.tagFrom _ (s.heardBy r.src).guard.logNext r.tag) = _
  obtain ⟨e1, e2, e3, -⟩ := s.heardBy_same r.src
  rw [e3]
  change Host.Outcome.next (State.tagFrom (if !true then (s.heardBy r.src).answer r.src stAuth 0 []
    else if (s.heardBy r.src).guard.bring.finalFail = some (2, 0) && decide (3 < r.code) then (s.heardBy r.src).answer r.src stState 0 []
    else if (s.heardBy r.src).guard.devState = .removed && refusedRemoved r then (s.heardBy r.src).answer r.src stState 0 []
    else if decide (r.data.length < fixed) || decide (4032 < r.data.length) || !(resv.all fun x => allZero r.data x.1 x.2) then
      (s.heardBy r.src).answer r.src stMalformed 0 []
    else f r (s.heardBy r.src)) s.guard.logNext r.tag) = _
  rw [e1, e2, if_neg (by simp), if_neg, if_neg, if_neg]
  · simp only [h5, Bool.not_true, Bool.or_false, Bool.or_eq_true, decide_eq_true_eq]
    omega
  · rcases h3 with h3 | h3 <;> simp [h3]
  · rcases h2 with h2 | h2
    · simp [h2]
    · simp only [Bool.and_eq_true, decide_eq_true_eq, not_and]
      omega

end Sys2Proof.Machine
end

