-- ==== Sys2Proof/Laws/Map.lean ====
section
/-! SUPPORT. Laws of finite maps: what a read gives after a write, and that writes, removals and filters keep the canonical form. -/

namespace Sys2Proof
variable {α : Type}

/-! ## Reading after writing -/

theorem AMap.get_put (d : Nat → α) (m : AMap α) (a b : Nat) (v : α) :
    AMap.get d (AMap.put m a v) b = if b = a then v else AMap.get d m b := by
  induction m with
  | nil =>
    simp only [AMap.put, AMap.get]
    repeat' split
    all_goals first | rfl | omega
  | cons kw m ih =>
    obtain ⟨k, w⟩ := kw
    simp only [AMap.put]
    split
    · subst_vars; simp only [AMap.get]
      repeat' split
      all_goals first | rfl | omega
    · split
      · simp only [AMap.get]
        repeat' split
        all_goals first | rfl | omega
      · simp only [AMap.get, ih]
        repeat' split
        all_goals first | rfl | omega

variable [DecidableEq α] {d : Nat → α}

theorem AMap.wfFrom_mono {m : AMap α} {lo lo' : Nat} (h : AMap.wfFrom d lo m = true) (l : lo' ≤ lo) : AMap.wfFrom d lo' m = true := by
  cases m with
  | nil => rfl
  | cons kw m =>
    simp only [AMap.wfFrom, Bool.and_eq_true, decide_eq_true_eq] at h ⊢
    exact ⟨⟨Nat.le_trans l h.1.1, h.1.2⟩, h.2⟩

/-- Below the least number a canonical map reads as its default. -/
theorem AMap.get_below {m : AMap α} {lo b : Nat} (h : AMap.wfFrom d lo m = true) (l : b < lo) : AMap.get d m b = d b := by
  cases m with
  | nil => rfl
  | cons kw m =>
    simp only [AMap.wfFrom, Bool.and_eq_true, decide_eq_true_eq] at h
    have h1 := h.1.1
    simp only [AMap.get]
    split
    · omega
    · split
      · rfl
      · omega

theorem AMap.get_del {m : AMap α} {lo a : Nat} (h : AMap.wfFrom d lo m = true) (b : Nat) :
    AMap.get d (AMap.del m a) b = if b = a then d b else AMap.get d m b := by
  induction m generalizing lo with
  | nil => simp [AMap.del, AMap.get]
  | cons kw m ih =>
    obtain ⟨k, w⟩ := kw
    have hh := h
    simp only [AMap.wfFrom, Bool.and_eq_true, decide_eq_true_eq] at hh
    have hm := hh.2
    simp only [AMap.del]
    split
    · subst_vars
      by_cases e : b < k + 1
      · rw [AMap.get_below hm e]
        simp only [AMap.get]
        repeat' split
        all_goals first | rfl | omega
      · simp only [AMap.get]
        repeat' split
        all_goals first | rfl | omega
    · split
      · rename_i hk ha
        by_cases e : b = a
        · subst e
          simp only [AMap.get, if_pos]
          rw [if_neg hk, if_pos ha]
        · rw [if_neg e]
      · simp only [AMap.get, ih hm]
        repeat' split
        all_goals first | rfl | omega

/-- A read after a write gives the value written, and a write leaves every other number alone. -/
theorem AMap.get_set {m : AMap α} (h : AMap.wf d m = true) (a b : Nat) (v : α) :
    AMap.get d (AMap.set d m a v) b = if b = a then v else AMap.get d m b := by
  unfold AMap.set
  split
  · rename_i e
    rw [AMap.get_del h]
    split
    · subst_vars; rfl
    · rfl
  · exact AMap.get_put d m a b v

/-! ## The canonical form -/

theorem AMap.wfFrom_put {m : AMap α} {lo a : Nat} {v : α} (h : AMap.wfFrom d lo m = true) (hv : v ≠ d a) (l : lo ≤ a) :
    AMap.wfFrom d lo (AMap.put m a v) = true := by
  induction m generalizing lo with
  | nil => simp [AMap.put, AMap.wfFrom, l, hv]
  | cons kw m ih =>
    obtain ⟨k, w⟩ := kw
    have hh := h
    simp only [AMap.wfFrom, Bool.and_eq_true, decide_eq_true_eq] at hh
    simp only [AMap.put]
    split
    · subst_vars
      simp only [AMap.wfFrom, Bool.and_eq_true, decide_eq_true_eq]
      exact ⟨⟨l, hv⟩, hh.2⟩
    · split
      · rename_i ha
        simp only [AMap.wfFrom, Bool.and_eq_true, decide_eq_true_eq]
        exact ⟨⟨l, hv⟩, ⟨⟨ha, hh.1.2⟩, hh.2⟩⟩
      · simp only [AMap.wfFrom, Bool.and_eq_true, decide_eq_true_eq]
        exact ⟨hh.1, ih hh.2 (by omega)⟩

theorem AMap.wfFrom_del {m : AMap α} {lo a : Nat} (h : AMap.wfFrom d lo m = true) : AMap.wfFrom d lo (AMap.del m a) = true := by
  induction m generalizing lo with
  | nil => rfl
  | cons kw m ih =>
    obtain ⟨k, w⟩ := kw
    have hh := h
    simp only [AMap.wfFrom, Bool.and_eq_true, decide_eq_true_eq] at hh
    simp only [AMap.del]
    split
    · exact AMap.wfFrom_mono hh.2 (by omega)
    · split
      · exact h
      · simp only [AMap.wfFrom, Bool.and_eq_true, decide_eq_true_eq]
        exact ⟨hh.1, ih hh.2⟩

/-- A write keeps the canonical form. -/
theorem AMap.wf_set {m : AMap α} (h : AMap.wf d m = true) (a : Nat) (v : α) : AMap.wf d (AMap.set d m a v) = true := by
  unfold AMap.set
  split
  · exact AMap.wfFrom_del h
  · rename_i e; exact AMap.wfFrom_put h e (Nat.zero_le a)

theorem AMap.wfFrom_filter {m : AMap α} {lo : Nat} (p : Nat × α → Bool) (h : AMap.wfFrom d lo m = true) :
    AMap.wfFrom d lo (m.filter p) = true := by
  induction m generalizing lo with
  | nil => rfl
  | cons kw m ih =>
    obtain ⟨k, w⟩ := kw
    simp only [AMap.wfFrom, Bool.and_eq_true, decide_eq_true_eq] at h
    have i := ih h.2
    simp only [List.filter]
    split
    · simp only [AMap.wfFrom, Bool.and_eq_true, decide_eq_true_eq]
      exact ⟨h.1, i⟩
    · exact AMap.wfFrom_mono i (by omega)

/-- A default may change at numbers that the map does not list. -/
theorem AMap.wfFrom_congr {m : AMap α} {d' : Nat → α} {lo : Nat} (e : ∀ kv ∈ m, d kv.1 = d' kv.1) (h : AMap.wfFrom d lo m = true) :
    AMap.wfFrom d' lo m = true := by
  induction m generalizing lo with
  | nil => rfl
  | cons kw m ih =>
    obtain ⟨k, w⟩ := kw
    simp only [AMap.wfFrom, Bool.and_eq_true, decide_eq_true_eq] at h ⊢
    refine ⟨⟨h.1.1, ?_⟩, ih (fun kv hk => e kv (List.mem_cons_of_mem _ hk)) h.2⟩
    rw [← e (k, w) List.mem_cons_self]
    exact h.1.2

/-! ## Bytes -/

namespace Machine

/-- Writing bytes keeps the canonical form. -/
theorem wf_wrMapD {d : Nat → Byte} {m : AMap Byte} (b : Bytes) (a : Nat) (h : AMap.wf d m = true) : AMap.wf d (wrMapD d m a b) = true := by
  induction b generalizing m a with
  | nil => exact h
  | cons x xs ih => exact ih (a + 1) (AMap.wf_set h a x)

/-- A byte after bytes have been written: the one written there, or the one that was there. -/
theorem get_wrMapD {d : Nat → Byte} {m : AMap Byte} (b : Bytes) (a i : Nat) (h : AMap.wf d m = true) :
    AMap.get d (wrMapD d m a b) i = if a ≤ i ∧ i < a + b.length then b.getD (i - a) 0 else AMap.get d m i := by
  induction b generalizing m a with
  | nil => simp only [wrMapD, List.length_nil, Nat.add_zero]; rw [if_neg (by omega)]
  | cons x xs ih =>
    simp only [wrMapD]
    rw [ih (a + 1) (AMap.wf_set h a x), AMap.get_set h]
    simp only [List.length_cons]
    by_cases e : i = a
    · subst e
      rw [if_neg (by omega), if_pos rfl, if_pos (by omega)]
      simp
    · rw [if_neg e]
      by_cases e2 : a ≤ i ∧ i < a + (xs.length + 1)
      · rw [if_pos (by omega), if_pos e2]
        have : i - a = (i - (a + 1)) + 1 := by omega
        rw [this, List.getD_cons_succ]
      · rw [if_neg (by omega), if_neg e2]

theorem rdMap_length (m : AMap Byte) (a n : Nat) : (rdMap m a n).length = n := by
  induction n generalizing a with
  | zero => rfl
  | succ n ih => simp [rdMap, ih]

theorem rdMap_congr {m k : AMap Byte} {a n : Nat} (h : ∀ i, i < n → AMap.get zeroB m (a + i) = AMap.get zeroB k (a + i)) :
    rdMap m a n = rdMap k a n := by
  induction n generalizing a with
  | zero => rfl
  | succ n ih =>
    simp only [rdMap]
    have h0 := h 0 (by omega)
    rw [Nat.add_zero] at h0
    rw [h0, ih fun i hi => by have := h (i + 1) (by omega); rwa [show a + (i + 1) = a + 1 + i by omega] at this]

/-- Bytes that were written read back. -/
theorem rdMap_wrMap {m : AMap Byte} (b : Bytes) (a : Nat) (h : AMap.wf zeroB m = true) : rdMap (wrMap m a b) a b.length = b := by
  induction b generalizing m a with
  | nil => rfl
  | cons x xs ih =>
    have hs := AMap.wf_set h a x
    have g := get_wrMapD (x :: xs) a a h
    simp only [List.length_cons, rdMap]
    congr 1
    · simp only [wrMap]
      rw [g, if_pos (by simp)]
      simp
    · exact ih (a + 1) hs

end Machine
end Sys2Proof
end

