-- ==== Sys2Proof/Laws/Stores.lean ====
section
/-! SUPPORT. The stores: every operation on the bytes and the marks keeps their canonical form, and what reads give after writes. -/

namespace Sys2Proof.Machine

/-- The canonical form, part by part. -/
theorem Mem.wf_iff (m : Mem) : m.wf = true ↔ AMap.wf m.dflt m.bytes = true ∧ AMap.wf noMark m.poison = true ∧ AMap.wf noMark m.fence = true := by
  simp [Mem.wf, and_assoc]

/-- Whether a list of undefined ranges names a number first in this range. -/
def undefAt (l : List (Nat × Nat × Nat)) (k : Nat) : Option (Nat × Nat × Nat) := l.find? fun r => decide (r.1 ≤ k) && decide (k < r.1 + r.2.1)

/-- The free value that the first range holding a number gives it. -/
def undefIdx (l : List (Nat × Nat × Nat)) (k : Nat) : Option Nat := (undefAt l k).map fun r => r.2.2 + (k - r.1)

theorem Mem.dflt_eq (m : Mem) (k : Nat) : m.dflt k = match undefIdx m.undef k with | some i => (Config.freeValue i).truncate 8 | none => 0 := by
  unfold Mem.dflt undefIdx undefAt
  cases List.find? _ m.undef <;> rfl

/-- A cut leaves the numbers outside the cut range as they were. -/
theorem undefIdx_cut (a n : Nat) (r : Nat × Nat × Nat) (k : Nat) (h : ¬(a ≤ k ∧ k < a + n)) :
    undefIdx (cutRange a n r) k = undefIdx [r] k := by
  obtain ⟨b, m, i⟩ := r
  simp only [cutRange, undefIdx, undefAt, overlaps, Bool.and_eq_true, decide_eq_true_eq]
  by_cases o : ((0 < n ∧ 0 < m) ∧ a < b + m) ∧ b < a + n
  · rw [if_pos o]
    by_cases c1 : b < a
    · by_cases c2 : a + n < b + m
      · rw [if_pos c1, if_pos c2]
        simp only [List.cons_append, List.nil_append, List.find?_cons, List.find?_nil]
        have hm : max b (a + n) = a + n := by omega
        rw [hm]
        by_cases p : b ≤ k ∧ k < b + m
        · by_cases q : k < a
          · simp [p.1, show k < b + (a - b) by omega, show k < b + m by omega]
          · have : a + n ≤ k := by omega
            simp [p.1, p.2, show ¬ k < b + (a - b) by omega, this, show k < a + n + (b + m - (a + n)) by omega]
            omega
        · have e1 : ¬(b ≤ k ∧ k < b + (a - b)) := by omega
          have e2 : ¬(a + n ≤ k ∧ k < a + n + (b + m - (a + n))) := by omega
          simp only [← Bool.decide_and, e1, e2, p, decide_false]
      · rw [if_pos c1, if_neg c2]
        simp only [List.append_nil, List.find?_cons, List.find?_nil]
        by_cases p : b ≤ k ∧ k < b + m
        · have : k < a := by omega
          simp [p.1, p.2, show k < b + (a - b) by omega]
        · have e1 : ¬(b ≤ k ∧ k < b + (a - b)) := by omega
          simp only [← Bool.decide_and, e1, p, decide_false]
    · by_cases c2 : a + n < b + m
      · rw [if_neg c1, if_pos c2]
        simp only [List.nil_append, List.find?_cons, List.find?_nil]
        have hm : max b (a + n) = a + n := by omega
        rw [hm]
        by_cases p : b ≤ k ∧ k < b + m
        · have : a + n ≤ k := by omega
          simp [p.1, p.2, this, show k < a + n + (b + m - (a + n)) by omega]
          omega
        · have e2 : ¬(a + n ≤ k ∧ k < a + n + (b + m - (a + n))) := by omega
          simp only [← Bool.decide_and, e2, p, decide_false]
      · rw [if_neg c1, if_neg c2]
        have p : ¬(b ≤ k ∧ k < b + m) := by omega
        simp [p, ← Bool.decide_and]
  · rw [if_neg o]

theorem undefIdx_append (l l' : List (Nat × Nat × Nat)) (k : Nat) : undefIdx (l ++ l') k = (undefIdx l k).or (undefIdx l' k) := by
  simp only [undefIdx, undefAt, List.find?_append]
  cases List.find? _ l <;> simp

theorem undefIdx_flatMap (a n : Nat) (l : List (Nat × Nat × Nat)) (k : Nat) (h : ¬(a ≤ k ∧ k < a + n)) :
    undefIdx (l.flatMap (cutRange a n)) k = undefIdx l k := by
  induction l with
  | nil => rfl
  | cons r l ih =>
    rw [List.flatMap_cons, undefIdx_append, ih, undefIdx_cut a n r k h, show r :: l = [r] ++ l from rfl, undefIdx_append [r] l]

/-- What a number outside a cleared range reads as by default stays. -/
theorem Mem.dflt_clear (m : Mem) (a n k : Nat) (h : ¬(a ≤ k ∧ k < a + n)) : (m.clear a n).dflt k = m.dflt k := by
  rw [Mem.dflt_eq, Mem.dflt_eq]
  simp only [Mem.clear]
  rw [undefIdx_flatMap a n m.undef k h]

theorem Mem.dflt_undefine (m : Mem) (a n i k : Nat) (h : ¬(a ≤ k ∧ k < a + n)) : (m.undefine a n i).dflt k = m.dflt k := by
  rw [Mem.dflt_eq, Mem.dflt_eq]
  simp only [Mem.undefine, Mem.clear]
  rw [undefIdx_append, undefIdx_flatMap a n m.undef k h]
  have : undefIdx [(a, n, i)] k = none := by
    simp only [undefIdx, undefAt, List.find?_cons, List.find?_nil, ← Bool.decide_and, h, decide_false, Option.map_none]
  rw [this]
  simp

/-- A listed number that survives a drop lies outside the dropped range. -/
theorem mem_drop_range {m : AMap Byte} {a n : Nat} {kv : Nat × Byte}
    (h : kv ∈ AMap.drop m fun k => decide (a ≤ k) && decide (k < a + n)) : ¬(a ≤ kv.1 ∧ kv.1 < a + n) := by
  simp only [AMap.drop, List.mem_filter, Bool.not_eq_true', Bool.and_eq_false_iff, decide_eq_false_iff_not] at h
  omega

theorem Mem.wf_clear {m : Mem} (a n : Nat) (h : m.wf = true) : (m.clear a n).wf = true := by
  rw [Mem.wf_iff] at h ⊢
  refine ⟨?_, h.2⟩
  refine AMap.wfFrom_congr (d := m.dflt) (fun kv hk => ?_) (AMap.wfFrom_filter _ h.1)
  exact (Mem.dflt_clear m a n kv.1 (mem_drop_range hk)).symm

theorem Mem.wf_undefine {m : Mem} (a n i : Nat) (h : m.wf = true) : (m.undefine a n i).wf = true := by
  rw [Mem.wf_iff] at h ⊢
  refine ⟨?_, h.2⟩
  refine AMap.wfFrom_congr (d := m.dflt) (fun kv hk => ?_) (AMap.wfFrom_filter _ h.1)
  exact (Mem.dflt_undefine m a n i kv.1 (mem_drop_range hk)).symm

theorem Mem.wf_zero {m : Mem} (a n : Nat) (h : m.wf = true) : (m.zero a n).wf = true := by
  have c := Mem.wf_clear a n h
  rw [Mem.wf_iff] at c ⊢
  exact ⟨c.1, AMap.wfFrom_filter _ c.2.1, c.2.2⟩

theorem Mem.wf_bytes {m : Mem} (a : Nat) (b : Bytes) (h : m.wf = true) : ({ m with bytes := wrMapD m.dflt m.bytes a b } : Mem).wf = true := by
  rw [Mem.wf_iff] at h ⊢
  exact ⟨wf_wrMapD b a h.1, h.2⟩

theorem Mem.wf_mark {m : Mem} (k : Nat) (v : Bool) (h : m.wf = true) : ({ m with poison := AMap.set noMark m.poison k v } : Mem).wf = true := by
  rw [Mem.wf_iff] at h ⊢
  exact ⟨h.1, AMap.wf_set h.2.1 k v, h.2.2⟩

theorem Mem.wf_fence {m : Mem} (k : Nat) (v : Bool) (h : m.wf = true) : ({ m with fence := AMap.set noMark m.fence k v } : Mem).wf = true := by
  rw [Mem.wf_iff] at h ⊢
  exact ⟨h.1, h.2.1, AMap.wf_set h.2.2 k v⟩

/-- The store right after reset is canonical. -/
theorem reset_mem_wf : State.reset.mem.wf = true := by decide

end Sys2Proof.Machine
end

