-- ==== Sys2Proof/Laws/Kept.lean ====
section
/-! SUPPORT. What every operation of the block keeps: the queue of waiting commands, the canonical form of the stores, and the bounds of the
error log. Here stand the relation and its rules; the files after this one state it of each operation and of each meaning. -/

namespace Sys2Proof.Machine

/-- From one state to a later one, the queue stays, and the stores and the log stay in their form (15_faults R450). -/
structure Kept (s t : State) : Prop where
  queue : t.pending = s.pending
  stores : s.mem.wf = true → t.mem.wf = true
  ring : s.guard.log.length ≤ 16384 → t.guard.log.length ≤ 16384
  area : s.guard.pinned.length ≤ 64 → t.guard.pinned.length ≤ 64

/-- The next state of an outcome, if it is one; and no refusal. -/
structure KeptR (s : State) (r : Res) : Prop where
  next : ∀ t, r = .next t → Kept s t
  runs : ∀ x, r ≠ .refused x

theorem Kept.refl (s : State) : Kept s s := ⟨rfl, id, id, id⟩

theorem Kept.trans {a s t : State} (h : Kept a s) (k : Kept s t) : Kept a t :=
  ⟨k.queue.trans h.queue, fun x => k.stores (h.stores x), fun x => k.ring (h.ring x), fun x => k.area (h.area x)⟩

theorem Kept.cut {a s u : State} (h : Kept a s) (k : Kept a s → Kept a u) : Kept a u := k h

/-- An update of fields other than the queue, the stores and the log. -/
theorem Kept.mk_ {a t : State} {time cfg frw binder slots ctxs mem scheds ledger shadow engines counters katRuns katLast arith ports hops sent recvs
    nextCopy ckpts held cover lastCkpt latents traces nextTrace guard free out pending} (h : Kept a t)
    (q : pending = t.pending) (m : mem.wf = t.mem.wf) (l : guard.log = t.guard.log) (p : guard.pinned = t.guard.pinned) :
    Kept a { time, cfg, frw, binder, slots, ctxs, mem, scheds, ledger, shadow, engines, counters, katRuns, katLast, arith, ports, hops, sent, recvs,
             nextCopy, ckpts, held, cover, lastCkpt, latents, traces, nextTrace, guard, free, out, pending } :=
  ⟨q.trans h.queue, fun x => (congrArg (· = true) m).mpr (h.stores x), fun x => (congrArg (List.length · ≤ 16384) l).mpr (h.ring x),
   fun x => (congrArg (List.length · ≤ 64) p).mpr (h.area x)⟩

/-- An update of the stores that keeps their form. -/
theorem Kept.mem {a s : State} {m : Mem} (h : Kept a s) (k : s.mem.wf = true → m.wf = true) : Kept a { s with mem := m } :=
  ⟨h.queue, fun x => k (h.stores x), h.ring, h.area⟩

/-! ## Choices and repetitions -/

theorem Kept.ite {a A B : State} {c : Prop} [Decidable c] (h : Kept a A) (k : Kept a B) : Kept a (if c then A else B) := by
  split <;> assumption

theorem Kept.dite {a : State} {c : Prop} [Decidable c] {A : c → State} {B : ¬c → State} (h : ∀ x, Kept a (A x)) (k : ∀ x, Kept a (B x)) :
    Kept a (if x : c then A x else B x) := by
  split
  · exact h _
  · exact k _

theorem Kept.foldl {α : Type} {a s : State} {f : State → α → State} {l : List α} (h : Kept a s) (hf : ∀ s x, Kept a s → Kept a (f s x)) :
    Kept a (l.foldl f s) := by
  induction l generalizing s with
  | nil => exact h
  | cons x l ih => exact ih (hf s x h)

theorem Kept.foldr {α : Type} {a s : State} {f : α → State → State} {l : List α} (h : Kept a s) (hf : ∀ s x, Kept a s → Kept a (f x s)) :
    Kept a (l.foldr f s) := by
  induction l with
  | nil => exact h
  | cons x l ih => exact hf _ x ih

variable {α β γ δ : Type}

theorem Kept.foldl2 {a : State} {i : β × State} {f : β × State → α → β × State} {l : List α} (h : Kept a i.2)
    (hf : ∀ b s x, Kept a s → Kept a (f (b, s) x).2) : Kept a (l.foldl f i).2 := by
  induction l generalizing i with
  | nil => exact h
  | cons x l ih => exact ih (hf i.1 i.2 x h)

theorem Kept.foldl3 {a : State} {i : β × γ × State} {f : β × γ × State → α → β × γ × State} {l : List α} (h : Kept a i.2.2)
    (hf : ∀ b c s x, Kept a s → Kept a (f (b, c, s) x).2.2) : Kept a (l.foldl f i).2.2 := by
  induction l generalizing i with
  | nil => exact h
  | cons x l ih => exact ih (hf i.1 i.2.1 i.2.2 x h)

theorem Kept.of_pair {a t : State} {p : β × State} {b : β} (e : p = (b, t)) (h : Kept a p.2) : Kept a t := by rw [e] at h; exact h

theorem Kept.of_triple {a t : State} {p : β × γ × State} {b : β} {c : γ} (e : p = (b, c, t)) (h : Kept a p.2.2) : Kept a t := by
  rw [e] at h; exact h

theorem Kept.of_quad {a t : State} {p : β × γ × δ × State} {b : β} {c : γ} {d : δ} (e : p = (b, c, d, t)) (h : Kept a p.2.2.2) : Kept a t := by
  rw [e] at h; exact h

theorem Kept.ite2 {a : State} {A B : β × State} {c : Prop} [Decidable c] (h : Kept a A.2) (k : Kept a B.2) : Kept a (if c then A else B).2 := by
  split <;> assumption

theorem Kept.ite3 {a : State} {A B : β × γ × State} {c : Prop} [Decidable c] (h : Kept a A.2.2) (k : Kept a B.2.2) :
    Kept a (if c then A else B).2.2 := by
  split <;> assumption

/-! ## Outcomes -/

theorem KeptR.ok {a s : State} (h : Kept a s) : KeptR a (Machine.ok s) := ⟨fun _ e => by cases e; exact h, fun _ => nofun⟩
theorem KeptR.next_ {a s : State} (h : Kept a s) : KeptR a (.next s) := ⟨fun _ e => by cases e; exact h, fun _ => nofun⟩
theorem KeptR.fault {a : State} {f : Fault} : KeptR a (.fault f) := ⟨fun _ e => (by cases e), fun _ => nofun⟩
theorem KeptR.ite {a : State} {A B : Res} {c : Prop} [Decidable c] (h : KeptR a A) (k : KeptR a B) : KeptR a (if c then A else B) := by
  split <;> assumption
theorem KeptR.dite {a : State} {c : Prop} [Decidable c] {A : c → Res} {B : ¬c → Res} (h : ∀ x, KeptR a (A x)) (k : ∀ x, KeptR a (B x)) :
    KeptR a (if x : c then A x else B x) := by
  split
  · exact h _
  · exact k _

/-! ## The log -/

theorem State.emit_kept {a s : State} {m} (h : Kept a s) : Kept a (s.emit m) := h.trans ⟨rfl, id, id, id⟩

/-- A new record: the ring holds the last 16,384 records, the pinned area the first 64 (R450). -/
theorem State.addRecAt_kept {a s : State} {step cls source code ctx inj unit body} (h : Kept a s) :
    Kept a (s.addRecAt step cls source code ctx inj unit body) := by
  refine h.trans ?_
  unfold State.addRecAt
  extract_lets pin r ring g u
  have k : Kept s u := by
    refine ⟨rfl, id, fun _ => ?_, fun hp => ?_⟩
    · simp only [u, List.length_drop]; omega
    · simp only [u, pin]
      split
      · rename_i c
        simp only [Bool.and_eq_true, decide_eq_true_eq] at c
        simp only [List.length_append, List.length_singleton]; omega
      · exact hp
  exact Kept.ite (State.emit_kept k) k

/-- A map over the log keeps its length. -/
theorem State.tagFrom_kept {a s : State} {first tag} (h : Kept a s) : Kept a (s.tagFrom first tag) :=
  h.trans ⟨rfl, id, fun x => by simpa [State.tagFrom] using x, fun x => by simpa [State.tagFrom] using x⟩

/-! ## The stores -/

theorem State.undefine_kept {a s : State} {b n} (h : Kept a s) : Kept a (s.undefine b n) := by
  refine h.trans ?_
  unfold State.undefine
  split
  · exact Kept.refl s
  · exact ⟨rfl, fun x => Mem.wf_undefine b n s.free x, id, id⟩

theorem State.mark_kept {a s : State} {k v} (h : Kept a s) : Kept a (s.mark k v) :=
  h.trans ⟨rfl, fun x => Mem.wf_mark k v x, id, id⟩

theorem State.invalidate_kept {a s : State} {k} (h : Kept a s) : Kept a (s.invalidate k) := h.trans ⟨rfl, id, id, id⟩

theorem State.holdPage_kept {a s : State} {k} (h : Kept a s) : Kept a (s.holdPage k) := by
  refine h.trans ?_
  unfold State.holdPage
  simp only []
  split
  · exact ⟨rfl, id, id, id⟩
  · exact Kept.refl s

theorem State.writeSheet_kept {a s : State} {b d p} (h : Kept a s) : Kept a (s.writeSheet b d p) := by
  refine h.trans ?_
  unfold State.writeSheet
  simp only []
  split
  · exact ⟨rfl, fun x => Mem.wf_fence _ _ x, id, id⟩
  · have k : Kept s (s.holdPage b) := State.holdPage_kept (Kept.refl s)
    have w : Kept s { s.holdPage b with mem.bytes := wrMapD (s.holdPage b).mem.dflt (s.holdPage b).mem.bytes b d } :=
      k.mem fun x => Mem.wf_bytes b d x
    have i := State.invalidate_kept (k := b / 1024) w
    split
    · exact State.mark_kept i
    · split
      · exact State.mark_kept i
      · exact i

theorem State.poisonRange_kept {a s : State} {b n} (h : Kept a s) : Kept a (s.poisonRange b n) := by
  unfold State.poisonRange
  refine Kept.foldl h fun t k ht => ?_
  split
  · exact ht.mem fun x => Mem.wf_fence _ _ x
  · exact State.invalidate_kept (State.mark_kept ht)

theorem State.zeroRange_kept {a s : State} {b n} (h : Kept a s) : Kept a (s.zeroRange b n) :=
  h.trans ⟨rfl, fun x => Mem.wf_zero b n x, id, id⟩

end Sys2Proof.Machine
end

