-- ==== Sys2Proof/Laws/KeptOps.lean ====
section
/-! SUPPORT. What the operations of Ops, Ledger, Cut, LinkOps, Slots, Firmware keep: one lemma for each (Kept). -/

namespace Sys2Proof.Machine

/-! ## Ops -/

theorem State.setSlot_kept {a s : State} {x1 x2} (h : Kept a s) : Kept a (State.setSlot s x1 x2) := by
  unfold State.setSlot
  repeat' first
    | with_reducible assumption
    | (with_reducible refine fun h => ?_)
    | (lift_lets; intro v; first | (refine Kept.cut (s := v) ?_ (fun hv => ?_); rotate_left; clear_value v; rotate_right) | clear_value v)
    | with_reducible apply Kept.ite
    | with_reducible apply Kept.foldl
    | split
    | (refine Kept.mk_ ?_ rfl rfl rfl rfl; assumption)

theorem State.setCtx_kept {a s : State} {x1 x2} (h : Kept a s) : Kept a (State.setCtx s x1 x2) := by
  unfold State.setCtx
  repeat' first
    | with_reducible assumption
    | (with_reducible refine fun h => ?_)
    | (lift_lets; intro v; first | (refine Kept.cut (s := v) ?_ (fun hv => ?_); rotate_left; clear_value v; rotate_right) | clear_value v)
    | with_reducible apply Kept.ite
    | with_reducible apply Kept.foldl
    | split
    | (refine Kept.mk_ ?_ rfl rfl rfl rfl; assumption)

theorem State.setEng_kept {a s : State} {x1 x2} (h : Kept a s) : Kept a (State.setEng s x1 x2) := by
  unfold State.setEng
  repeat' first
    | with_reducible assumption
    | (with_reducible refine fun h => ?_)
    | (lift_lets; intro v; first | (refine Kept.cut (s := v) ?_ (fun hv => ?_); rotate_left; clear_value v; rotate_right) | clear_value v)
    | with_reducible apply Kept.ite
    | with_reducible apply Kept.foldl
    | split
    | (refine Kept.mk_ ?_ rfl rfl rfl rfl; assumption)

theorem State.setPort_kept {a s : State} {x1 x2} (h : Kept a s) : Kept a (State.setPort s x1 x2) := by
  unfold State.setPort
  repeat' first
    | with_reducible assumption
    | (with_reducible refine fun h => ?_)
    | (lift_lets; intro v; first | (refine Kept.cut (s := v) ?_ (fun hv => ?_); rotate_left; clear_value v; rotate_right) | clear_value v)
    | with_reducible apply Kept.ite
    | with_reducible apply Kept.foldl
    | split
    | (refine Kept.mk_ ?_ rfl rfl rfl rfl; assumption)

theorem State.fresh_kept {a s : State} (h : Kept a s) : Kept a (State.fresh s).2 := by
  unfold State.fresh
  repeat' first
    | with_reducible assumption
    | (with_reducible refine fun h => ?_)
    | (lift_lets; intro v; first | (refine Kept.cut (s := v) ?_ (fun hv => ?_); rotate_left; clear_value v; rotate_right) | clear_value v)
    | with_reducible apply Kept.ite
    | with_reducible apply Kept.foldl
    | with_reducible apply Kept.ite2
    | with_reducible apply Kept.ite3
    | with_reducible apply Kept.foldl2
    | with_reducible apply Kept.foldl3
    | split
    | (refine Kept.mk_ ?_ rfl rfl rfl rfl; assumption)

theorem State.fresh_keptE {a s : State} {r t} (e : State.fresh s = (r, t)) (h : Kept a s) : Kept a t := Kept.of_pair e (State.fresh_kept h)

theorem State.freshBytes_kept {a s : State} {x1} (h : Kept a s) : Kept a (State.freshBytes s x1).2 := by
  unfold State.freshBytes
  repeat' first
    | with_reducible assumption
    | (with_reducible refine fun h => ?_)
    | (lift_lets; intro v; first | (refine Kept.cut (s := v) ?_ (fun hv => ?_); rotate_left; clear_value v; rotate_right) | clear_value v)
    | with_reducible apply Kept.ite
    | with_reducible apply Kept.foldl
    | with_reducible apply Kept.ite2
    | with_reducible apply Kept.ite3
    | with_reducible apply Kept.foldl2
    | with_reducible apply Kept.foldl3
    | split
    | (refine Kept.mk_ ?_ rfl rfl rfl rfl; assumption)

theorem State.freshBytes_keptE {a s : State} {x1} {r t} (e : State.freshBytes s x1 = (r, t)) (h : Kept a s) : Kept a t := Kept.of_pair e (State.freshBytes_kept h)

theorem State.setSched_kept {a s : State} {x1} (h : Kept a s) : Kept a (State.setSched s x1) := by
  unfold State.setSched
  repeat' first
    | with_reducible assumption
    | (with_reducible refine fun h => ?_)
    | (lift_lets; intro v; first | (refine Kept.cut (s := v) ?_ (fun hv => ?_); rotate_left; clear_value v; rotate_right) | clear_value v)
    | with_reducible apply Kept.ite
    | with_reducible apply Kept.foldl
    | split
    | (refine Kept.mk_ ?_ rfl rfl rfl rfl; assumption)

theorem State.noteCause_kept {a s : State} {x1} (h : Kept a s) : Kept a (State.noteCause s x1) := by
  unfold State.noteCause
  repeat' first
    | with_reducible assumption
    | (with_reducible refine fun h => ?_)
    | (lift_lets; intro v; first | (refine Kept.cut (s := v) ?_ (fun hv => ?_); rotate_left; clear_value v; rotate_right) | clear_value v)
    | with_reducible apply Kept.ite
    | with_reducible apply Kept.foldl
    | split
    | (refine Kept.mk_ ?_ rfl rfl rfl rfl; assumption)

theorem State.addRec_kept {a s : State} {x1 x2 x3 x4 x5 x6 x7} (h : Kept a s) : Kept a (State.addRec s x1 x2 x3 x4 x5 x6 x7) := by
  unfold State.addRec
  repeat' first
    | with_reducible assumption
    | (with_reducible refine fun h => ?_)
    | (lift_lets; intro v; first | (refine Kept.cut (s := v) ?_ (fun hv => ?_); rotate_left; clear_value v; rotate_right) | clear_value v)
    | with_reducible apply State.addRecAt_kept
    | with_reducible apply Kept.ite
    | with_reducible apply Kept.foldl
    | split
    | (refine Kept.mk_ ?_ rfl rfl rfl rfl; assumption)

theorem State.native_kept {a s : State} {x1 x2 x3 x4 x5} (h : Kept a s) : Kept a (State.native s x1 x2 x3 x4 x5) := by
  unfold State.native
  repeat' first
    | with_reducible assumption
    | (with_reducible refine fun h => ?_)
    | (lift_lets; intro v; first | (refine Kept.cut (s := v) ?_ (fun hv => ?_); rotate_left; clear_value v; rotate_right) | clear_value v)
    | with_reducible apply State.addRec_kept
    | with_reducible apply Kept.ite
    | with_reducible apply Kept.foldl
    | split
    | (refine Kept.mk_ ?_ rfl rfl rfl rfl; assumption)

theorem State.nativeI_kept {a s : State} {x1 x2 x3 x4 x5 x6} (h : Kept a s) : Kept a (State.nativeI s x1 x2 x3 x4 x5 x6) := by
  unfold State.nativeI
  repeat' first
    | with_reducible assumption
    | (with_reducible refine fun h => ?_)
    | (lift_lets; intro v; first | (refine Kept.cut (s := v) ?_ (fun hv => ?_); rotate_left; clear_value v; rotate_right) | clear_value v)
    | with_reducible apply State.addRec_kept
    | with_reducible apply Kept.ite
    | with_reducible apply Kept.foldl
    | split
    | (refine Kept.mk_ ?_ rfl rfl rfl rfl; assumption)

theorem State.nativeE_kept {a s : State} {x1 x2 x3 x4 x5 x6 x7 x8} (h : Kept a s) : Kept a (State.nativeE s x1 x2 x3 x4 x5 x6 x7 x8) := by
  unfold State.nativeE
  repeat' first
    | with_reducible assumption
    | (with_reducible refine fun h => ?_)
    | (lift_lets; intro v; first | (refine Kept.cut (s := v) ?_ (fun hv => ?_); rotate_left; clear_value v; rotate_right) | clear_value v)
    | with_reducible apply State.addRec_kept
    | with_reducible apply Kept.ite
    | with_reducible apply Kept.foldl
    | split
    | (refine Kept.mk_ ?_ rfl rfl rfl rfl; assumption)

theorem State.setChan_kept {a s : State} {x1 x2} (h : Kept a s) : Kept a (State.setChan s x1 x2) := by
  unfold State.setChan
  repeat' first
    | with_reducible assumption
    | (with_reducible refine fun h => ?_)
    | (lift_lets; intro v; try (refine Kept.cut (s := v) ?_ (fun hv => ?_); rotate_left; clear_value v; rotate_right))
    | with_reducible apply Kept.ite
    | with_reducible apply Kept.foldl
    | split
    | (refine Kept.mk_ ?_ rfl rfl rfl rfl; assumption)

theorem State.dropLine_kept {a s : State} {x1 x2} (h : Kept a s) : Kept a (State.dropLine s x1 x2) := by
  unfold State.dropLine
  repeat' first
    | with_reducible assumption
    | (with_reducible refine fun h => ?_)
    | (lift_lets; intro v; first | (refine Kept.cut (s := v) ?_ (fun hv => ?_); rotate_left; clear_value v; rotate_right) | clear_value v)
    | with_reducible apply Kept.ite
    | with_reducible apply Kept.foldl
    | split
    | (refine Kept.mk_ ?_ rfl rfl rfl rfl; assumption)

theorem State.cacheRead_kept {a s : State} {x1 x2} (h : Kept a s) : Kept a (State.cacheRead s x1 x2).2 := by
  unfold State.cacheRead
  repeat' first
    | with_reducible assumption
    | (with_reducible refine fun h => ?_)
    | (lift_lets; intro v; first | (refine Kept.cut (s := v) ?_ (fun hv => ?_); rotate_left; clear_value v; rotate_right) | clear_value v)
    | with_reducible apply State.dropLine_kept
    | with_reducible apply Kept.ite
    | with_reducible apply Kept.foldl
    | with_reducible apply Kept.ite2
    | with_reducible apply Kept.ite3
    | with_reducible apply Kept.foldl2
    | with_reducible apply Kept.foldl3
    | split
    | (refine Kept.mk_ ?_ rfl rfl rfl rfl; assumption)

theorem State.cacheRead_keptE {a s : State} {x1 x2} {r t} (e : State.cacheRead s x1 x2 = (r, t)) (h : Kept a s) : Kept a t := Kept.of_pair e (State.cacheRead_kept h)

theorem State.memWriteP_kept {a s : State} {x1 x2 x3} (h : Kept a s) : Kept a (State.memWriteP s x1 x2 x3) := by
  unfold State.memWriteP
  repeat' first
    | with_reducible assumption
    | (with_reducible refine fun h => ?_)
    | (lift_lets; intro v; first | (refine Kept.cut (s := v) ?_ (fun hv => ?_); rotate_left; clear_value v; rotate_right) | clear_value v)
    | with_reducible apply State.writeSheet_kept
    | with_reducible apply Kept.ite
    | with_reducible apply Kept.foldl
    | split
    | (refine Kept.mk_ ?_ rfl rfl rfl rfl; assumption)

theorem State.memWrite_kept {a s : State} {x1 x2} (h : Kept a s) : Kept a (State.memWrite s x1 x2) := by
  unfold State.memWrite
  repeat' first
    | with_reducible assumption
    | (with_reducible refine fun h => ?_)
    | (lift_lets; intro v; first | (refine Kept.cut (s := v) ?_ (fun hv => ?_); rotate_left; clear_value v; rotate_right) | clear_value v)
    | with_reducible apply State.memWriteP_kept
    | with_reducible apply Kept.ite
    | with_reducible apply Kept.foldl
    | split
    | (refine Kept.mk_ ?_ rfl rfl rfl rfl; assumption)

theorem State.countChan_kept {a s : State} {x1 x2 x3 x4} (h : Kept a s) : Kept a (State.countChan s x1 x2 x3 x4).2 := by
  unfold State.countChan
  repeat' first
    | with_reducible assumption
    | (with_reducible refine fun h => ?_)
    | (lift_lets; intro v; first | (refine Kept.cut (s := v) ?_ (fun hv => ?_); rotate_left; clear_value v; rotate_right) | clear_value v)
    | with_reducible apply State.setChan_kept
    | with_reducible apply State.nativeI_kept
    | with_reducible apply Kept.ite
    | with_reducible apply Kept.foldl
    | with_reducible apply Kept.ite2
    | with_reducible apply Kept.ite3
    | with_reducible apply Kept.foldl2
    | with_reducible apply Kept.foldl3
    | split
    | (refine Kept.mk_ ?_ rfl rfl rfl rfl; assumption)

theorem State.countChan_keptE {a s : State} {x1 x2 x3 x4} {r t} (e : State.countChan s x1 x2 x3 x4 = (r, t)) (h : Kept a s) : Kept a t := Kept.of_pair e (State.countChan_kept h)

theorem State.dropChan_kept {a s : State} {x1} (h : Kept a s) : Kept a (State.dropChan s x1) := by
  unfold State.dropChan
  repeat' first
    | with_reducible assumption
    | (with_reducible refine fun h => ?_)
    | (lift_lets; intro v; try (refine Kept.cut (s := v) ?_ (fun hv => ?_); rotate_left; clear_value v; rotate_right))
    | with_reducible apply Kept.ite
    | with_reducible apply Kept.foldl
    | split
    | (refine Kept.mk_ ?_ rfl rfl rfl rfl; assumption)

theorem State.fenceChan_kept {a s : State} {x1 x2} (h : Kept a s) : Kept a (State.fenceChan s x1 x2) := by
  unfold State.fenceChan
  repeat' first
    | with_reducible assumption
    | (with_reducible refine fun h => ?_)
    | (lift_lets; intro v; first | (refine Kept.cut (s := v) ?_ (fun hv => ?_); rotate_left; clear_value v; rotate_right) | clear_value v)
    | with_reducible apply State.nativeI_kept
    | with_reducible apply State.dropChan_kept
    | with_reducible apply State.setChan_kept
    | with_reducible apply Kept.ite
    | with_reducible apply Kept.foldl
    | split
    | (refine Kept.mk_ ?_ rfl rfl rfl rfl; assumption)

theorem State.uncorrectable_kept {a s : State} {x1 x2 x3 x4} (h : Kept a s) : Kept a (State.uncorrectable s x1 x2 x3 x4) := by
  unfold State.uncorrectable
  repeat' first
    | with_reducible assumption
    | (with_reducible refine fun h => ?_)
    | (lift_lets; intro v; first | (refine Kept.cut (s := v) ?_ (fun hv => ?_); rotate_left; clear_value v; rotate_right) | clear_value v)
    | with_reducible apply State.invalidate_kept
    | with_reducible apply State.mark_kept
    | with_reducible apply State.addRec_kept
    | with_reducible apply Kept.ite
    | with_reducible apply Kept.foldl
    | split
    | (refine Kept.mk_ ?_ rfl rfl rfl rfl; assumption)

theorem State.trace_kept {a s : State} {x1 x2 x3 x4} (h : Kept a s) : Kept a (State.trace s x1 x2 x3 x4) := by
  unfold State.trace
  repeat' first
    | with_reducible assumption
    | (with_reducible refine fun h => ?_)
    | (lift_lets; intro v; first | (refine Kept.cut (s := v) ?_ (fun hv => ?_); rotate_left; clear_value v; rotate_right) | clear_value v)
    | with_reducible apply Kept.ite
    | with_reducible apply Kept.foldl
    | split
    | (refine Kept.mk_ ?_ rfl rfl rfl rfl; assumption)

theorem State.setCtr_kept {a s : State} {x1 x2} (h : Kept a s) : Kept a (State.setCtr s x1 x2) := by
  unfold State.setCtr
  repeat' first
    | with_reducible assumption
    | (with_reducible refine fun h => ?_)
    | (lift_lets; intro v; first | (refine Kept.cut (s := v) ?_ (fun hv => ?_); rotate_left; clear_value v; rotate_right) | clear_value v)
    | with_reducible apply Kept.ite
    | with_reducible apply Kept.foldl
    | split
    | (refine Kept.mk_ ?_ rfl rfl rfl rfl; assumption)

theorem State.colFlag_kept {a s : State} {x1} (h : Kept a s) : Kept a (State.colFlag s x1) := by
  unfold State.colFlag
  repeat' first
    | with_reducible assumption
    | (with_reducible refine fun h => ?_)
    | (lift_lets; intro v; first | (refine Kept.cut (s := v) ?_ (fun hv => ?_); rotate_left; clear_value v; rotate_right) | clear_value v)
    | with_reducible apply Kept.ite
    | with_reducible apply Kept.foldl
    | split
    | (refine Kept.mk_ ?_ rfl rfl rfl rfl; assumption)

theorem State.addCtr_kept {a s : State} {x1 x2 x3 x4 x5} (h : Kept a s) : Kept a (State.addCtr s x1 x2 x3 x4 x5) := by
  unfold State.addCtr
  repeat' first
    | with_reducible assumption
    | (with_reducible refine fun h => ?_)
    | (lift_lets; intro v; first | (refine Kept.cut (s := v) ?_ (fun hv => ?_); rotate_left; clear_value v; rotate_right) | clear_value v)
    | with_reducible apply State.setCtr_kept
    | with_reducible apply State.colFlag_kept
    | with_reducible apply State.nativeE_kept
    | with_reducible apply Kept.ite
    | with_reducible apply Kept.foldl
    | split
    | (refine Kept.mk_ ?_ rfl rfl rfl rfl; assumption)

theorem State.meet_keptE {a s : State} {x1 x2 l t} (e : State.meet s x1 x2 = some (l, t)) (h : Kept a s) : Kept a t := by
  unfold State.meet at e
  simp only [Option.map_eq_some_iff] at e
  obtain ⟨l, -, e⟩ := e
  cases e
  exact Kept.mk_ h rfl rfl rfl rfl

theorem State.askPartition_kept {a s : State} {x1 x2} (h : Kept a s) : Kept a (State.askPartition s x1 x2) := by
  unfold State.askPartition
  repeat' first
    | with_reducible assumption
    | (with_reducible refine fun h => ?_)
    | (lift_lets; intro v; try (refine Kept.cut (s := v) ?_ (fun hv => ?_); rotate_left; clear_value v; rotate_right))
    | with_reducible apply Kept.ite
    | with_reducible apply Kept.foldl
    | split
    | (refine Kept.mk_ ?_ rfl rfl rfl rfl; assumption)

theorem State.raiseSupply_kept {a s : State} (h : Kept a s) : Kept a (State.raiseSupply s) := by
  unfold State.raiseSupply
  repeat' first
    | with_reducible assumption
    | (with_reducible refine fun h => ?_)
    | (lift_lets; intro v; try (refine Kept.cut (s := v) ?_ (fun hv => ?_); rotate_left; clear_value v; rotate_right))
    | with_reducible apply Kept.ite
    | with_reducible apply Kept.foldl
    | split
    | (refine Kept.mk_ ?_ rfl rfl rfl rfl; assumption)

/-! ## Ledger -/

theorem State.feed_kept {a s : State} {x1} (h : Kept a s) : Kept a (State.feed s x1) := by
  unfold State.feed
  repeat' first
    | with_reducible assumption
    | (with_reducible refine fun h => ?_)
    | (lift_lets; intro v; first | (refine Kept.cut (s := v) ?_ (fun hv => ?_); rotate_left; clear_value v; rotate_right) | clear_value v)
    | with_reducible apply State.emit_kept
    | with_reducible apply Kept.ite
    | with_reducible apply Kept.foldl
    | split
    | (refine Kept.mk_ ?_ rfl rfl rfl rfl; assumption)

theorem State.countIssue_kept {a s : State} {x1 x2} (h : Kept a s) : Kept a (State.countIssue s x1 x2) := by
  unfold State.countIssue
  repeat' first
    | with_reducible assumption
    | (with_reducible refine fun h => ?_)
    | (lift_lets; intro v; first | (refine Kept.cut (s := v) ?_ (fun hv => ?_); rotate_left; clear_value v; rotate_right) | clear_value v)
    | with_reducible apply State.setEng_kept
    | with_reducible apply Kept.ite
    | with_reducible apply Kept.foldl
    | split
    | (refine Kept.mk_ ?_ rfl rfl rfl rfl; assumption)

theorem State.logItem_kept {a s : State} {x1 x2 x3 x4 x5 x6 x7} (h : Kept a s) : Kept a (State.logItem s x1 x2 x3 x4 x5 x6 x7) := by
  unfold State.logItem
  repeat' first
    | with_reducible assumption
    | (with_reducible refine fun h => ?_)
    | (lift_lets; intro v; first | (refine Kept.cut (s := v) ?_ (fun hv => ?_); rotate_left; clear_value v; rotate_right) | clear_value v)
    | with_reducible apply State.nativeE_kept
    | with_reducible apply State.feed_kept
    | with_reducible apply State.memWrite_kept
    | with_reducible apply Kept.ite
    | with_reducible apply Kept.foldl
    | split
    | (refine Kept.mk_ ?_ rfl rfl rfl rfl; assumption)
    | (refine Kept.mk_ ?_ rfl rfl rfl rfl; first | with_reducible assumption | (with_reducible refine fun h => ?_) | with_reducible apply State.nativeE_kept | with_reducible apply State.feed_kept | with_reducible apply State.memWrite_kept | with_reducible apply Kept.ite | with_reducible apply Kept.foldl | split)

/-! ## Cut -/

theorem State.cutAt_kept {a s : State} {x1 x2} (h : Kept a s) : Kept a (State.cutAt s x1 x2) := by
  unfold State.cutAt
  repeat' first
    | with_reducible assumption
    | (with_reducible refine fun h => ?_)
    | (lift_lets; intro v; first | (refine Kept.cut (s := v) ?_ (fun hv => ?_); rotate_left; clear_value v; rotate_right) | clear_value v)
    | with_reducible apply Kept.ite
    | with_reducible apply Kept.foldl
    | split
    | (refine Kept.mk_ ?_ rfl rfl rfl rfl; assumption)

theorem State.cutCheck_kept {a s : State} (h : Kept a s) : Kept a (State.cutCheck s) := by
  unfold State.cutCheck
  repeat' first
    | with_reducible assumption
    | (with_reducible refine fun h => ?_)
    | (lift_lets; intro v; first | (refine Kept.cut (s := v) ?_ (fun hv => ?_); rotate_left; clear_value v; rotate_right) | clear_value v)
    | with_reducible apply State.cutAt_kept
    | with_reducible apply Kept.ite
    | with_reducible apply Kept.foldl
    | split
    | (refine Kept.mk_ ?_ rfl rfl rfl rfl; assumption)

theorem State.cutBefore_kept {a s : State} {x1} (h : Kept a s) : Kept a (State.cutBefore s x1) := by
  unfold State.cutBefore
  repeat' first
    | with_reducible assumption
    | (with_reducible refine fun h => ?_)
    | (lift_lets; intro v; first | (refine Kept.cut (s := v) ?_ (fun hv => ?_); rotate_left; clear_value v; rotate_right) | clear_value v)
    | with_reducible apply State.cutAt_kept
    | with_reducible apply Kept.ite
    | with_reducible apply Kept.foldl
    | split
    | (refine Kept.mk_ ?_ rfl rfl rfl rfl; assumption)

theorem State.ckTell_kept {a s : State} {x1} (h : Kept a s) : Kept a (State.ckTell s x1) := by
  unfold State.ckTell
  repeat' first
    | with_reducible assumption
    | (with_reducible refine fun h => ?_)
    | (lift_lets; intro v; first | (refine Kept.cut (s := v) ?_ (fun hv => ?_); rotate_left; clear_value v; rotate_right) | clear_value v)
    | with_reducible apply State.emit_kept
    | with_reducible apply Kept.ite
    | with_reducible apply Kept.foldl
    | split
    | (refine Kept.mk_ ?_ rfl rfl rfl rfl; assumption)

theorem State.tryBegin_kept {a s : State} {x1 x2 x3 x4} (h : Kept a s) : Kept a (State.tryBegin s x1 x2 x3 x4).2 := by
  unfold State.tryBegin
  repeat' first
    | with_reducible assumption
    | (with_reducible refine fun h => ?_)
    | (lift_lets; intro v; first | (refine Kept.cut (s := v) ?_ (fun hv => ?_); rotate_left; clear_value v; rotate_right) | clear_value v)
    | with_reducible apply State.ckTell_kept
    | with_reducible apply State.emit_kept
    | with_reducible apply State.cutAt_kept
    | with_reducible apply Kept.ite
    | with_reducible apply Kept.foldl
    | with_reducible apply Kept.ite2
    | with_reducible apply Kept.ite3
    | with_reducible apply Kept.foldl2
    | with_reducible apply Kept.foldl3
    | split
    | (refine Kept.mk_ ?_ rfl rfl rfl rfl; assumption)
    | (refine Kept.mk_ ?_ rfl rfl rfl rfl; first | with_reducible assumption | (with_reducible refine fun h => ?_) | with_reducible apply State.ckTell_kept | with_reducible apply State.emit_kept | with_reducible apply State.cutAt_kept | with_reducible apply Kept.ite | with_reducible apply Kept.foldl | with_reducible apply Kept.ite2 | with_reducible apply Kept.ite3 | with_reducible apply Kept.foldl2 | with_reducible apply Kept.foldl3 | split)

theorem State.tryBegin_keptE {a s : State} {x1 x2 x3 x4} {r t} (e : State.tryBegin s x1 x2 x3 x4 = (r, t)) (h : Kept a s) : Kept a t := Kept.of_pair e (State.tryBegin_kept h)

theorem State.warnBegin_kept {a s : State} {x1} (h : Kept a s) : Kept a (State.warnBegin s x1) := by
  unfold State.warnBegin
  repeat' first
    | with_reducible assumption
    | (with_reducible refine fun h => ?_)
    | (lift_lets; intro v; first | (refine Kept.cut (s := v) ?_ (fun hv => ?_); rotate_left; clear_value v; rotate_right) | clear_value v)
    | with_reducible apply State.tryBegin_kept
    | (with_reducible apply State.tryBegin_keptE; · assumption)
    | with_reducible apply Kept.ite
    | with_reducible apply Kept.foldl
    | split
    | (refine Kept.mk_ ?_ rfl rfl rfl rfl; assumption)

theorem State.countWarn_kept {a s : State} {x1 x2 x3 x4} (h : Kept a s) : Kept a (State.countWarn s x1 x2 x3 x4) := by
  unfold State.countWarn
  repeat' first
    | with_reducible assumption
    | (with_reducible refine fun h => ?_)
    | (lift_lets; intro v; try (refine Kept.cut (s := v) ?_ (fun hv => ?_); rotate_left; clear_value v; rotate_right))
    | with_reducible apply State.countChan_kept
    | (with_reducible apply State.countChan_keptE; · assumption)
    | with_reducible apply State.warnBegin_kept
    | with_reducible apply Kept.ite
    | with_reducible apply Kept.foldl
    | split
    | (refine Kept.mk_ ?_ rfl rfl rfl rfl; assumption)

/-! ## LinkOps -/

theorem State.setTime_kept {a s : State} {x1} (h : Kept a s) : Kept a (State.setTime s x1) := by
  unfold State.setTime
  repeat' first
    | with_reducible assumption
    | (with_reducible refine fun h => ?_)
    | (lift_lets; intro v; first | (refine Kept.cut (s := v) ?_ (fun hv => ?_); rotate_left; clear_value v; rotate_right) | clear_value v)
    | with_reducible apply State.native_kept
    | with_reducible apply State.noteCause_kept
    | with_reducible apply Kept.ite
    | with_reducible apply Kept.foldl
    | split
    | (refine Kept.mk_ ?_ rfl rfl rfl rfl; assumption)
    | (refine Kept.mk_ ?_ rfl rfl rfl rfl; first | with_reducible assumption | (with_reducible refine fun h => ?_) | with_reducible apply State.native_kept | with_reducible apply State.noteCause_kept | with_reducible apply Kept.ite | with_reducible apply Kept.foldl | split)

theorem State.unfollow_kept {a s : State} {x1} (h : Kept a s) : Kept a (State.unfollow s x1) := by
  unfold State.unfollow
  repeat' first
    | with_reducible assumption
    | (with_reducible refine fun h => ?_)
    | (lift_lets; intro v; first | (refine Kept.cut (s := v) ?_ (fun hv => ?_); rotate_left; clear_value v; rotate_right) | clear_value v)
    | with_reducible apply State.setTime_kept
    | with_reducible apply Kept.ite
    | with_reducible apply Kept.foldl
    | split
    | (refine Kept.mk_ ?_ rfl rfl rfl rfl; assumption)

theorem State.portTo_kept {a s : State} {x1 x2 x3} (h : Kept a s) : Kept a (State.portTo s x1 x2 x3) := by
  unfold State.portTo
  repeat' first
    | with_reducible assumption
    | (with_reducible refine fun h => ?_)
    | (lift_lets; intro v; first | (refine Kept.cut (s := v) ?_ (fun hv => ?_); rotate_left; clear_value v; rotate_right) | clear_value v)
    | with_reducible apply State.setPort_kept
    | with_reducible apply State.native_kept
    | with_reducible apply Kept.ite
    | with_reducible apply Kept.foldl
    | split
    | (refine Kept.mk_ ?_ rfl rfl rfl rfl; assumption)

theorem State.abandonRecv_kept {a s : State} {x1} (h : Kept a s) : Kept a (State.abandonRecv s x1) := by
  unfold State.abandonRecv
  repeat' first
    | with_reducible assumption
    | (with_reducible refine fun h => ?_)
    | (lift_lets; intro v; first | (refine Kept.cut (s := v) ?_ (fun hv => ?_); rotate_left; clear_value v; rotate_right) | clear_value v)
    | with_reducible apply State.logItem_kept
    | with_reducible apply State.poisonRange_kept
    | with_reducible apply Kept.ite
    | with_reducible apply Kept.foldl
    | split
    | (refine Kept.mk_ ?_ rfl rfl rfl rfl; assumption)
    | (refine Kept.mk_ ?_ rfl rfl rfl rfl; first | with_reducible assumption | (with_reducible refine fun h => ?_) | with_reducible apply State.logItem_kept | with_reducible apply State.poisonRange_kept | with_reducible apply Kept.ite | with_reducible apply Kept.foldl | split)

theorem State.closeRoute_kept {a s : State} {x1 x2} (h : Kept a s) : Kept a (State.closeRoute s x1 x2) := by
  unfold State.closeRoute
  repeat' first
    | with_reducible assumption
    | (with_reducible refine fun h => ?_)
    | (lift_lets; intro v; first | (refine Kept.cut (s := v) ?_ (fun hv => ?_); rotate_left; clear_value v; rotate_right) | clear_value v)
    | with_reducible apply State.abandonRecv_kept
    | with_reducible apply State.setEng_kept
    | with_reducible apply Kept.ite
    | with_reducible apply Kept.foldl
    | split
    | (refine Kept.mk_ ?_ rfl rfl rfl rfl; assumption)

theorem State.losePort_kept {a s : State} {x1} (h : Kept a s) : Kept a (State.losePort s x1) := by
  unfold State.losePort
  repeat' first
    | with_reducible assumption
    | (with_reducible refine fun h => ?_)
    | (lift_lets; intro v; first | (refine Kept.cut (s := v) ?_ (fun hv => ?_); rotate_left; clear_value v; rotate_right) | clear_value v)
    | with_reducible apply State.closeRoute_kept
    | with_reducible apply State.emit_kept
    | with_reducible apply State.unfollow_kept
    | with_reducible apply Kept.ite
    | with_reducible apply Kept.foldl
    | split
    | (refine Kept.mk_ ?_ rfl rfl rfl rfl; assumption)

theorem State.quarantine_kept {a s : State} {x1 x2} (h : Kept a s) : Kept a (State.quarantine s x1 x2) := by
  unfold State.quarantine
  repeat' first
    | with_reducible assumption
    | (with_reducible refine fun h => ?_)
    | (lift_lets; intro v; first | (refine Kept.cut (s := v) ?_ (fun hv => ?_); rotate_left; clear_value v; rotate_right) | clear_value v)
    | with_reducible apply State.emit_kept
    | with_reducible apply State.losePort_kept
    | with_reducible apply State.portTo_kept
    | with_reducible apply Kept.ite
    | with_reducible apply Kept.foldl
    | split
    | (refine Kept.mk_ ?_ rfl rfl rfl rfl; assumption)

theorem State.portDown_kept {a s : State} {x1 x2} (h : Kept a s) : Kept a (State.portDown s x1 x2) := by
  unfold State.portDown
  repeat' first
    | with_reducible assumption
    | (with_reducible refine fun h => ?_)
    | (lift_lets; intro v; first | (refine Kept.cut (s := v) ?_ (fun hv => ?_); rotate_left; clear_value v; rotate_right) | clear_value v)
    | with_reducible apply State.portTo_kept
    | with_reducible apply State.losePort_kept
    | with_reducible apply State.setPort_kept
    | with_reducible apply Kept.ite
    | with_reducible apply Kept.foldl
    | split
    | (refine Kept.mk_ ?_ rfl rfl rfl rfl; assumption)

theorem State.malformed_kept {a s : State} {x1} (h : Kept a s) : Kept a (State.malformed s x1) := by
  unfold State.malformed
  repeat' first
    | with_reducible assumption
    | (with_reducible refine fun h => ?_)
    | (lift_lets; intro v; first | (refine Kept.cut (s := v) ?_ (fun hv => ?_); rotate_left; clear_value v; rotate_right) | clear_value v)
    | with_reducible apply State.setPort_kept
    | with_reducible apply State.quarantine_kept
    | with_reducible apply Kept.ite
    | with_reducible apply Kept.foldl
    | split
    | (refine Kept.mk_ ?_ rfl rfl rfl rfl; assumption)

theorem State.malformedNow_kept {a s : State} {x1 x2} (h : Kept a s) : Kept a (State.malformedNow s x1 x2) := by
  unfold State.malformedNow
  repeat' first
    | with_reducible assumption
    | (with_reducible refine fun h => ?_)
    | (lift_lets; intro v; first | (refine Kept.cut (s := v) ?_ (fun hv => ?_); rotate_left; clear_value v; rotate_right) | clear_value v)
    | with_reducible apply State.quarantine_kept
    | with_reducible apply State.setPort_kept
    | with_reducible apply Kept.ite
    | with_reducible apply Kept.foldl
    | split
    | (refine Kept.mk_ ?_ rfl rfl rfl rfl; assumption)

/-! ## Slots -/

theorem State.slotAccess_kept {a s : State} {x1 x2 x3 x4 x5} (h : Kept a s) : Kept a (State.slotAccess s x1 x2 x3 x4 x5) := by
  unfold State.slotAccess
  repeat' first
    | with_reducible assumption
    | (with_reducible refine fun h => ?_)
    | (lift_lets; intro v; try (refine Kept.cut (s := v) ?_ (fun hv => ?_); rotate_left; clear_value v; rotate_right))
    | with_reducible apply State.setSlot_kept
    | with_reducible apply Kept.ite
    | with_reducible apply Kept.foldl
    | split
    | (refine Kept.mk_ ?_ rfl rfl rfl rfl; assumption)

theorem State.stateWrite_kept {a s : State} {x1 x2 x3 x4 x5} (h : Kept a s) : Kept a (State.stateWrite s x1 x2 x3 x4 x5) := by
  unfold State.stateWrite
  repeat' first
    | with_reducible assumption
    | (with_reducible refine fun h => ?_)
    | (lift_lets; intro v; first | (refine Kept.cut (s := v) ?_ (fun hv => ?_); rotate_left; clear_value v; rotate_right) | clear_value v)
    | with_reducible apply State.slotAccess_kept
    | with_reducible apply Kept.ite
    | with_reducible apply Kept.foldl
    | split
    | (refine Kept.mk_ ?_ rfl rfl rfl rfl; assumption)

theorem State.answer_kept {a s : State} {x1 x2 x3 x4} (h : Kept a s) : Kept a (State.answer s x1 x2 x3 x4) := by
  unfold State.answer
  repeat' first
    | with_reducible assumption
    | (with_reducible refine fun h => ?_)
    | (lift_lets; intro v; try (refine Kept.cut (s := v) ?_ (fun hv => ?_); rotate_left; clear_value v; rotate_right))
    | with_reducible apply State.emit_kept
    | with_reducible apply Kept.ite
    | with_reducible apply Kept.foldl
    | split
    | (refine Kept.mk_ ?_ rfl rfl rfl rfl; assumption)

theorem State.relayDone_kept {a s : State} {x1} (h : Kept a s) : Kept a (State.relayDone s x1) := by
  unfold State.relayDone
  dsimp only
  repeat' first
    | with_reducible assumption
    | (with_reducible refine fun h => ?_)
    | with_reducible apply State.answer_kept
    | with_reducible apply State.setSlot_kept
    | with_reducible apply Kept.ite
    | with_reducible apply Kept.foldl
    | with_reducible apply Kept.ite2
    | with_reducible apply Kept.ite3
    | with_reducible apply Kept.foldl2
    | with_reducible apply Kept.foldl3
    | split
    | (refine Kept.mk_ ?_ rfl rfl rfl rfl; assumption)

theorem State.notify_kept {a s : State} {x1} (h : Kept a s) : Kept a (State.notify s x1) := by
  unfold State.notify
  repeat' first
    | with_reducible assumption
    | (with_reducible refine fun h => ?_)
    | (lift_lets; intro v; first | (refine Kept.cut (s := v) ?_ (fun hv => ?_); rotate_left; clear_value v; rotate_right) | clear_value v)
    | with_reducible apply State.emit_kept
    | with_reducible apply Kept.ite
    | with_reducible apply Kept.foldl
    | split
    | (refine Kept.mk_ ?_ rfl rfl rfl rfl; assumption)

theorem State.complete_kept {a s : State} {x1 x2 x3 x4} (h : Kept a s) : Kept a (State.complete s x1 x2 x3 x4) := by
  unfold State.complete
  repeat' first
    | with_reducible assumption
    | (with_reducible refine fun h => ?_)
    | (lift_lets; intro v; first | (refine Kept.cut (s := v) ?_ (fun hv => ?_); rotate_left; clear_value v; rotate_right) | clear_value v)
    | with_reducible apply State.setSlot_kept
    | with_reducible apply State.relayDone_kept
    | with_reducible apply State.notify_kept
    | with_reducible apply State.malformedNow_kept
    | with_reducible apply Kept.ite
    | with_reducible apply Kept.foldl
    | split
    | (refine Kept.mk_ ?_ rfl rfl rfl rfl; assumption)
    | (refine Kept.mk_ ?_ rfl rfl rfl rfl; first | with_reducible assumption | (with_reducible refine fun h => ?_) | with_reducible apply State.setSlot_kept | with_reducible apply State.relayDone_kept | with_reducible apply State.notify_kept | with_reducible apply State.malformedNow_kept | with_reducible apply Kept.ite | with_reducible apply Kept.foldl | split)

theorem State.refuse_kept {a s : State} {x1 x2 x3} (h : Kept a s) : Kept a (State.refuse s x1 x2 x3) := by
  unfold State.refuse
  repeat' first
    | with_reducible assumption
    | (with_reducible refine fun h => ?_)
    | (lift_lets; intro v; first | (refine Kept.cut (s := v) ?_ (fun hv => ?_); rotate_left; clear_value v; rotate_right) | clear_value v)
    | with_reducible apply State.complete_kept
    | with_reducible apply Kept.ite
    | with_reducible apply Kept.foldl
    | split
    | (refine Kept.mk_ ?_ rfl rfl rfl rfl; assumption)

theorem State.hold_kept {a s : State} {x1 x2} (h : Kept a s) : Kept a (State.hold s x1 x2) := by
  unfold State.hold
  repeat' first
    | with_reducible assumption
    | (with_reducible refine fun h => ?_)
    | (lift_lets; intro v; first | (refine Kept.cut (s := v) ?_ (fun hv => ?_); rotate_left; clear_value v; rotate_right) | clear_value v)
    | with_reducible apply State.setSlot_kept
    | with_reducible apply Kept.ite
    | with_reducible apply Kept.foldl
    | split
    | (refine Kept.mk_ ?_ rfl rfl rfl rfl; assumption)

theorem State.serloth_kept {a s : State} {n cmd f} (h : Kept a s) (hf : ∀ y, Kept a (f y)) : KeptR a (State.serloth s n cmd f) := by
  unfold State.serloth
  split
  · exact KeptR.next_ (State.tagFrom_kept (hf _))
  · exact KeptR.next_ h

theorem State.serlothMem_kept {a s : State} {n cmd f} (h : Kept a s) (hf : ∀ y, Kept a (f y)) : KeptR a (State.serlothMem s n cmd f) := by
  unfold State.serlothMem
  exact KeptR.ite (KeptR.ok h) (State.serloth_kept h hf)

/-! ## Firmware -/

theorem State.fwStage_kept {a s : State} {x1 x2} (h : Kept a s) : Kept a (State.fwStage s x1 x2) := by
  unfold State.fwStage
  repeat' first
    | with_reducible assumption
    | (with_reducible refine fun h => ?_)
    | (lift_lets; intro v; first | (refine Kept.cut (s := v) ?_ (fun hv => ?_); rotate_left; clear_value v; rotate_right) | clear_value v)
    | with_reducible apply State.answer_kept
    | with_reducible apply Kept.ite
    | with_reducible apply Kept.foldl
    | split
    | (refine Kept.mk_ ?_ rfl rfl rfl rfl; assumption)

theorem State.startEntry_kept {a s : State} {x1} (h : Kept a s) : Kept a (State.startEntry s x1) := by
  unfold State.startEntry
  repeat' first
    | with_reducible assumption
    | (with_reducible refine fun h => ?_)
    | (lift_lets; intro v; try (refine Kept.cut (s := v) ?_ (fun hv => ?_); rotate_left; clear_value v; rotate_right))
    | with_reducible apply Kept.ite
    | with_reducible apply Kept.foldl
    | split
    | (refine Kept.mk_ ?_ rfl rfl rfl rfl; assumption)

theorem State.refuseWaiting_kept {a s : State} (h : Kept a s) : Kept a (State.refuseWaiting s) := by
  unfold State.refuseWaiting
  repeat' first
    | with_reducible assumption
    | (with_reducible refine fun h => ?_)
    | (lift_lets; intro v; try (refine Kept.cut (s := v) ?_ (fun hv => ?_); rotate_left; clear_value v; rotate_right))
    | with_reducible apply State.answer_kept
    | with_reducible apply Kept.ite
    | with_reducible apply Kept.foldl
    | split
    | (refine Kept.mk_ ?_ rfl rfl rfl rfl; assumption)

theorem State.applyPower_kept {a s : State} {x1} (h : Kept a s) : Kept a (State.applyPower s x1) := by
  unfold State.applyPower
  repeat' first
    | with_reducible assumption
    | (with_reducible refine fun h => ?_)
    | (lift_lets; intro v; first | (refine Kept.cut (s := v) ?_ (fun hv => ?_); rotate_left; clear_value v; rotate_right) | clear_value v)
    | with_reducible apply State.answer_kept
    | with_reducible apply State.startEntry_kept
    | with_reducible apply Kept.ite
    | with_reducible apply Kept.foldl
    | split
    | (refine Kept.mk_ ?_ rfl rfl rfl rfl; assumption)

theorem State.releaseHeld_kept {a s : State} (h : Kept a s) : Kept a (State.releaseHeld s) := by
  unfold State.releaseHeld
  repeat' first
    | with_reducible assumption
    | (with_reducible refine fun h => ?_)
    | (lift_lets; intro v; first | (refine Kept.cut (s := v) ?_ (fun hv => ?_); rotate_left; clear_value v; rotate_right) | clear_value v)
    | with_reducible apply State.fwStage_kept
    | with_reducible apply State.applyPower_kept
    | with_reducible apply Kept.ite
    | with_reducible apply Kept.foldl
    | split
    | (refine Kept.mk_ ?_ rfl rfl rfl rfl; assumption)

end Sys2Proof.Machine
end

