-- ==== Sys2Proof/Laws/KeptBinder.lean ====
section
/-! SUPPORT. What the operations of Binder, Press, Memory keep: one lemma for each (Kept). -/

namespace Sys2Proof.Machine

/-! ## Binder -/

theorem State.take_kept {a s : State} {x1} (h : Kept a s) : Kept a (State.take s x1) := by
  unfold State.take
  repeat' first
    | with_reducible assumption
    | (with_reducible refine fun h => ?_)
    | (lift_lets; intro v; first | (refine Kept.cut (s := v) ?_ (fun hv => ?_); rotate_left; clear_value v; rotate_right) | clear_value v)
    | with_reducible apply State.complete_kept
    | with_reducible apply State.setSlot_kept
    | with_reducible apply Kept.ite
    | with_reducible apply Kept.foldl
    | split
    | (refine Kept.mk_ ?_ rfl rfl rfl rfl; assumption)
    | (refine Kept.mk_ ?_ rfl rfl rfl rfl; first | with_reducible assumption | (with_reducible refine fun h => ?_) | with_reducible apply State.complete_kept | with_reducible apply State.setSlot_kept | with_reducible apply Kept.ite | with_reducible apply Kept.foldl | split)

theorem State.gdwDrop_kept {a s : State} {x1} (h : Kept a s) : Kept a (State.gdwDrop s x1) := by
  unfold State.gdwDrop
  repeat' first
    | with_reducible assumption
    | (with_reducible refine fun h => ?_)
    | (lift_lets; intro v; first | (refine Kept.cut (s := v) ?_ (fun hv => ?_); rotate_left; clear_value v; rotate_right) | clear_value v)
    | with_reducible apply State.native_kept
    | with_reducible apply Kept.ite
    | with_reducible apply Kept.foldl
    | split
    | (refine Kept.mk_ ?_ rfl rfl rfl rfl; assumption)

theorem State.gdwWrite_kept {a s : State} {x1 x2 x3 x4} (h : Kept a s) : Kept a (State.gdwWrite s x1 x2 x3 x4) := by
  unfold State.gdwWrite
  repeat' first
    | with_reducible assumption
    | (with_reducible refine fun h => ?_)
    | (lift_lets; intro v; first | (refine Kept.cut (s := v) ?_ (fun hv => ?_); rotate_left; clear_value v; rotate_right) | clear_value v)
    | with_reducible apply State.slotAccess_kept
    | with_reducible apply State.gdwDrop_kept
    | with_reducible apply Kept.ite
    | with_reducible apply Kept.foldl
    | split
    | (refine Kept.mk_ ?_ rfl rfl rfl rfl; assumption)

theorem State.scwWrite_kept {a s : State} {x1 x2 x3 x4} (h : Kept a s) : Kept a (State.scwWrite s x1 x2 x3 x4) := by
  unfold State.scwWrite
  repeat' first
    | with_reducible assumption
    | (with_reducible refine fun h => ?_)
    | (lift_lets; intro v; first | (refine Kept.cut (s := v) ?_ (fun hv => ?_); rotate_left; clear_value v; rotate_right) | clear_value v)
    | with_reducible apply Kept.ite
    | with_reducible apply Kept.foldl
    | split
    | (refine Kept.mk_ ?_ rfl rfl rfl rfl; assumption)

theorem State.write_kept {a s : State} {who off width v} (h : Kept a s) : Kept a (State.write s who off width v) := by
  unfold State.write
  exact Kept.ite (State.slotAccess_kept h) (Kept.ite (State.gdwWrite_kept h) (Kept.ite (State.scwWrite_kept h) h))

theorem execSlotPost_kept {a s : State} {x1 x2 x3 x4} (h : Kept a s) : KeptR a (execSlotPost x1 x2 x3 x4 s) := by
  unfold execSlotPost
  repeat' first
    | with_reducible assumption
    | (with_reducible refine fun h => ?_)
    | (lift_lets; intro v; first | (refine Kept.cut (s := v) ?_ (fun hv => ?_); rotate_left; clear_value v; rotate_right) | clear_value v)
    | with_reducible apply KeptR.ok
    | with_reducible apply State.stateWrite_kept
    | with_reducible apply KeptR.next_
    | with_reducible apply KeptR.ite
    | with_reducible exact KeptR.fault
    | with_reducible apply Kept.ite
    | with_reducible apply Kept.foldl
    | split
    | (refine Kept.mk_ ?_ rfl rfl rfl rfl; assumption)

theorem execSlotWithdraw_kept {a s : State} {x1 x2 x3 x4} (h : Kept a s) : KeptR a (execSlotWithdraw x1 x2 x3 x4 s) := by
  unfold execSlotWithdraw
  repeat' first
    | with_reducible assumption
    | (with_reducible refine fun h => ?_)
    | (lift_lets; intro v; first | (refine Kept.cut (s := v) ?_ (fun hv => ?_); rotate_left; clear_value v; rotate_right) | clear_value v)
    | with_reducible apply KeptR.ok
    | with_reducible apply State.stateWrite_kept
    | with_reducible apply KeptR.next_
    | with_reducible apply KeptR.ite
    | with_reducible exact KeptR.fault
    | with_reducible apply Kept.ite
    | with_reducible apply Kept.foldl
    | split
    | (refine Kept.mk_ ?_ rfl rfl rfl rfl; assumption)

theorem execSlotRelease_kept {a s : State} {x1 x2 x3 x4} (h : Kept a s) : KeptR a (execSlotRelease x1 x2 x3 x4 s) := by
  unfold execSlotRelease
  repeat' first
    | with_reducible assumption
    | (with_reducible refine fun h => ?_)
    | (lift_lets; intro v; first | (refine Kept.cut (s := v) ?_ (fun hv => ?_); rotate_left; clear_value v; rotate_right) | clear_value v)
    | with_reducible apply KeptR.ok
    | with_reducible apply State.stateWrite_kept
    | with_reducible apply KeptR.next_
    | with_reducible apply KeptR.ite
    | with_reducible exact KeptR.fault
    | with_reducible apply Kept.ite
    | with_reducible apply Kept.foldl
    | split
    | (refine Kept.mk_ ?_ rfl rfl rfl rfl; assumption)

theorem execSlotWrite_kept {a s : State} {x1 x2 x3 x4 x5} (h : Kept a s) : KeptR a (execSlotWrite x1 x2 x3 x4 x5 s) := by
  unfold execSlotWrite
  repeat' first
    | with_reducible assumption
    | (with_reducible refine fun h => ?_)
    | (lift_lets; intro v; first | (refine Kept.cut (s := v) ?_ (fun hv => ?_); rotate_left; clear_value v; rotate_right) | clear_value v)
    | with_reducible apply KeptR.ok
    | with_reducible apply State.slotAccess_kept
    | with_reducible apply KeptR.next_
    | with_reducible apply KeptR.ite
    | with_reducible exact KeptR.fault
    | with_reducible apply Kept.ite
    | with_reducible apply Kept.foldl
    | split
    | (refine Kept.mk_ ?_ rfl rfl rfl rfl; assumption)

theorem execBinderTake_kept {a s : State} (h : Kept a s) : KeptR a (execBinderTake s) := by
  unfold execBinderTake
  repeat' first
    | with_reducible assumption
    | (with_reducible refine fun h => ?_)
    | (lift_lets; intro v; first | (refine Kept.cut (s := v) ?_ (fun hv => ?_); rotate_left; clear_value v; rotate_right) | clear_value v)
    | with_reducible apply KeptR.ok
    | with_reducible apply State.take_kept
    | with_reducible apply KeptR.next_
    | with_reducible apply KeptR.ite
    | with_reducible exact KeptR.fault
    | with_reducible apply Kept.ite
    | with_reducible apply Kept.foldl
    | split
    | (refine Kept.mk_ ?_ rfl rfl rfl rfl; assumption)

theorem State.absentAccess_kept {a s : State} {x1 x2 x3} (h : Kept a s) : Kept a (State.absentAccess s x1 x2 x3) := by
  unfold State.absentAccess
  repeat' first
    | with_reducible assumption
    | (with_reducible refine fun h => ?_)
    | (lift_lets; intro v; first | (refine Kept.cut (s := v) ?_ (fun hv => ?_); rotate_left; clear_value v; rotate_right) | clear_value v)
    | with_reducible apply State.native_kept
    | with_reducible apply State.emit_kept
    | with_reducible apply Kept.ite
    | with_reducible apply Kept.foldl
    | split
    | (refine Kept.mk_ ?_ rfl rfl rfl rfl; assumption)

theorem State.bar2Write_kept {a s : State} {x1 x2 x3} (h : Kept a s) : Kept a (State.bar2Write s x1 x2 x3) := by
  unfold State.bar2Write
  repeat' first
    | with_reducible assumption
    | (with_reducible refine fun h => ?_)
    | (lift_lets; intro v; first | (refine Kept.cut (s := v) ?_ (fun hv => ?_); rotate_left; clear_value v; rotate_right) | clear_value v)
    | with_reducible apply State.write_kept
    | with_reducible apply State.emit_kept
    | with_reducible apply State.absentAccess_kept
    | with_reducible apply Kept.ite
    | with_reducible apply Kept.foldl
    | split
    | (refine Kept.mk_ ?_ rfl rfl rfl rfl; assumption)

theorem execRegisterWrite_kept {a s : State} {x1 x2 x3 x4 x5} (h : Kept a s) : KeptR a (execRegisterWrite x1 x2 x3 x4 s x5) := by
  unfold execRegisterWrite
  repeat' first
    | with_reducible assumption
    | (with_reducible refine fun h => ?_)
    | (lift_lets; intro v; first | (refine Kept.cut (s := v) ?_ (fun hv => ?_); rotate_left; clear_value v; rotate_right) | clear_value v)
    | with_reducible apply KeptR.ok
    | with_reducible apply State.bar2Write_kept
    | with_reducible apply State.write_kept
    | with_reducible apply KeptR.next_
    | with_reducible apply KeptR.ite
    | with_reducible exact KeptR.fault
    | with_reducible apply Kept.ite
    | with_reducible apply Kept.foldl
    | split
    | (refine Kept.mk_ ?_ rfl rfl rfl rfl; assumption)

theorem execGuardRegisterWrite_kept {a s : State} {x1 x2 x3 x4} (h : Kept a s) : KeptR a (execGuardRegisterWrite x1 x2 x3 x4 s) := by
  unfold execGuardRegisterWrite
  repeat' first
    | with_reducible assumption
    | (with_reducible refine fun h => ?_)
    | (lift_lets; intro v; first | (refine Kept.cut (s := v) ?_ (fun hv => ?_); rotate_left; clear_value v; rotate_right) | clear_value v)
    | with_reducible apply KeptR.ok
    | with_reducible apply State.gdwWrite_kept
    | with_reducible apply KeptR.next_
    | with_reducible apply KeptR.ite
    | with_reducible exact KeptR.fault
    | with_reducible apply Kept.ite
    | with_reducible apply Kept.foldl
    | split
    | (refine Kept.mk_ ?_ rfl rfl rfl rfl; assumption)

theorem execAbsentApertureAccess_kept {a s : State} {x1 x2 x3} (h : Kept a s) : KeptR a (execAbsentApertureAccess x1 x2 x3 s) := by
  unfold execAbsentApertureAccess
  repeat' first
    | with_reducible assumption
    | (with_reducible refine fun h => ?_)
    | (lift_lets; intro v; try (refine Kept.cut (s := v) ?_ (fun hv => ?_); rotate_left; clear_value v; rotate_right))
    | with_reducible apply KeptR.ok
    | with_reducible apply State.absentAccess_kept
    | with_reducible apply KeptR.next_
    | with_reducible apply KeptR.ite
    | with_reducible exact KeptR.fault
    | with_reducible apply Kept.ite
    | with_reducible apply Kept.foldl
    | split
    | (refine Kept.mk_ ?_ rfl rfl rfl rfl; assumption)

theorem execHostRelay_kept {a s : State} {x1 x2 x3} (h : Kept a s) : KeptR a (execHostRelay x1 x2 x3 s) := by
  unfold execHostRelay
  repeat' first
    | with_reducible assumption
    | (with_reducible refine fun h => ?_)
    | (lift_lets; intro v; first | (refine Kept.cut (s := v) ?_ (fun hv => ?_); rotate_left; clear_value v; rotate_right) | clear_value v)
    | with_reducible apply KeptR.ok
    | with_reducible apply State.emit_kept
    | with_reducible apply State.write_kept
    | with_reducible apply State.memWrite_kept
    | with_reducible apply KeptR.next_
    | with_reducible apply KeptR.ite
    | with_reducible exact KeptR.fault
    | with_reducible apply Kept.ite
    | with_reducible apply Kept.foldl
    | split
    | (refine Kept.mk_ ?_ rfl rfl rfl rfl; assumption)

theorem execPeerMailboxPost_kept {a s : State} {x1 x2 x3 x4 x5} (h : Kept a s) : KeptR a (execPeerMailboxPost x1 x2 x3 x4 x5 s) := by
  unfold execPeerMailboxPost
  repeat' first
    | with_reducible assumption
    | (with_reducible refine fun h => ?_)
    | (lift_lets; intro v; first | (refine Kept.cut (s := v) ?_ (fun hv => ?_); rotate_left; clear_value v; rotate_right) | clear_value v)
    | with_reducible apply KeptR.ok
    | with_reducible apply State.slotAccess_kept
    | with_reducible apply KeptR.next_
    | with_reducible apply KeptR.ite
    | with_reducible exact KeptR.fault
    | with_reducible apply Kept.ite
    | with_reducible apply Kept.foldl
    | split
    | (refine Kept.mk_ ?_ rfl rfl rfl rfl; assumption)

theorem execSysInfo_kept {a s : State} {x1} (h : Kept a s) : KeptR a (execSysInfo x1 s) := by
  unfold execSysInfo
  repeat' first
    | with_reducible assumption
    | (with_reducible refine fun h => ?_)
    | (lift_lets; intro v; first | (refine Kept.cut (s := v) ?_ (fun hv => ?_); rotate_left; clear_value v; rotate_right) | clear_value v)
    | with_reducible apply State.serloth_kept
    | with_reducible apply State.complete_kept
    | with_reducible apply KeptR.next_
    | with_reducible apply KeptR.ite
    | with_reducible exact KeptR.fault
    | with_reducible apply Kept.ite
    | with_reducible apply Kept.foldl
    | split
    | (refine Kept.mk_ ?_ rfl rfl rfl rfl; assumption)

theorem execSysNop_kept {a s : State} {x1} (h : Kept a s) : KeptR a (execSysNop x1 s) := by
  unfold execSysNop
  repeat' first
    | with_reducible assumption
    | (with_reducible refine fun h => ?_)
    | (lift_lets; intro v; first | (refine Kept.cut (s := v) ?_ (fun hv => ?_); rotate_left; clear_value v; rotate_right) | clear_value v)
    | with_reducible apply State.serloth_kept
    | with_reducible apply State.complete_kept
    | with_reducible apply KeptR.next_
    | with_reducible apply KeptR.ite
    | with_reducible exact KeptR.fault
    | with_reducible apply Kept.ite
    | with_reducible apply Kept.foldl
    | split
    | (refine Kept.mk_ ?_ rfl rfl rfl rfl; assumption)

theorem execSysReady_kept {a s : State} {x1} (h : Kept a s) : KeptR a (execSysReady x1 s) := by
  unfold execSysReady
  repeat' first
    | with_reducible assumption
    | (with_reducible refine fun h => ?_)
    | (lift_lets; intro v; first | (refine Kept.cut (s := v) ?_ (fun hv => ?_); rotate_left; clear_value v; rotate_right) | clear_value v)
    | with_reducible apply State.serloth_kept
    | with_reducible apply State.complete_kept
    | with_reducible apply KeptR.next_
    | with_reducible apply KeptR.ite
    | with_reducible exact KeptR.fault
    | with_reducible apply Kept.ite
    | with_reducible apply Kept.foldl
    | split
    | (refine Kept.mk_ ?_ rfl rfl rfl rfl; assumption)

theorem State.ctxOpen_kept {a s : State} {x1 x2} (h : Kept a s) : Kept a (State.ctxOpen s x1 x2) := by
  unfold State.ctxOpen
  repeat' first
    | with_reducible assumption
    | (with_reducible refine fun h => ?_)
    | (lift_lets; intro v; first | (refine Kept.cut (s := v) ?_ (fun hv => ?_); rotate_left; clear_value v; rotate_right) | clear_value v)
    | with_reducible apply State.refuse_kept
    | with_reducible apply State.setSlot_kept
    | with_reducible apply State.setCtx_kept
    | with_reducible apply State.complete_kept
    | with_reducible apply Kept.ite
    | with_reducible apply Kept.foldl
    | split
    | (refine Kept.mk_ ?_ rfl rfl rfl rfl; assumption)

theorem execCtxOpen_kept {a s : State} {x1} (h : Kept a s) : KeptR a (execCtxOpen x1 s) := by
  unfold execCtxOpen
  repeat' first
    | with_reducible assumption
    | (with_reducible refine fun h => ?_)
    | (lift_lets; intro v; first | (refine Kept.cut (s := v) ?_ (fun hv => ?_); rotate_left; clear_value v; rotate_right) | clear_value v)
    | with_reducible apply State.serloth_kept
    | with_reducible apply State.ctxOpen_kept
    | with_reducible apply KeptR.next_
    | with_reducible apply KeptR.ite
    | with_reducible exact KeptR.fault
    | with_reducible apply Kept.ite
    | with_reducible apply Kept.foldl
    | split
    | (refine Kept.mk_ ?_ rfl rfl rfl rfl; assumption)

theorem State.removeSched_kept {a s : State} {x1} (h : Kept a s) : Kept a (State.removeSched s x1) := by
  unfold State.removeSched
  repeat' first
    | with_reducible assumption
    | (with_reducible refine fun h => ?_)
    | (lift_lets; intro v; first | (refine Kept.cut (s := v) ?_ (fun hv => ?_); rotate_left; clear_value v; rotate_right) | clear_value v)
    | with_reducible apply State.cutBefore_kept
    | with_reducible apply Kept.ite
    | with_reducible apply Kept.foldl
    | split
    | (refine Kept.mk_ ?_ rfl rfl rfl rfl; assumption)

theorem State.unmap_kept {a s : State} {x1} (h : Kept a s) : Kept a (State.unmap s x1) := by
  unfold State.unmap
  repeat' first
    | with_reducible assumption
    | (with_reducible refine fun h => ?_)
    | (lift_lets; intro v; try (refine Kept.cut (s := v) ?_ (fun hv => ?_); rotate_left; clear_value v; rotate_right))
    | with_reducible apply Kept.ite
    | with_reducible apply Kept.foldl
    | split
    | (refine Kept.mk_ ?_ rfl rfl rfl rfl; assumption)

theorem State.unmapAll_kept {a s : State} {x1} (h : Kept a s) : Kept a (State.unmapAll s x1) := by
  unfold State.unmapAll
  repeat' first
    | with_reducible assumption
    | (with_reducible refine fun h => ?_)
    | (lift_lets; intro v; first | (refine Kept.cut (s := v) ?_ (fun hv => ?_); rotate_left; clear_value v; rotate_right) | clear_value v)
    | with_reducible apply State.unmap_kept
    | with_reducible apply Kept.ite
    | with_reducible apply Kept.foldl
    | split
    | (refine Kept.mk_ ?_ rfl rfl rfl rfl; assumption)

theorem State.ctxClose_kept {a s : State} {x1 x2} (h : Kept a s) : Kept a (State.ctxClose s x1 x2) := by
  unfold State.ctxClose
  repeat' first
    | with_reducible assumption
    | (with_reducible refine fun h => ?_)
    | (lift_lets; intro v; first | (refine Kept.cut (s := v) ?_ (fun hv => ?_); rotate_left; clear_value v; rotate_right) | clear_value v)
    | with_reducible apply State.refuse_kept
    | with_reducible apply State.removeSched_kept
    | with_reducible apply State.unmapAll_kept
    | with_reducible apply State.setCtx_kept
    | with_reducible apply State.complete_kept
    | with_reducible apply Kept.ite
    | with_reducible apply Kept.foldl
    | split
    | (refine Kept.mk_ ?_ rfl rfl rfl rfl; assumption)
    | (refine Kept.mk_ ?_ rfl rfl rfl rfl; first | with_reducible assumption | (with_reducible refine fun h => ?_) | with_reducible apply State.refuse_kept | with_reducible apply State.removeSched_kept | with_reducible apply State.unmapAll_kept | with_reducible apply State.setCtx_kept | with_reducible apply State.complete_kept | with_reducible apply Kept.ite | with_reducible apply Kept.foldl | split)

theorem execCtxClose_kept {a s : State} {x1} (h : Kept a s) : KeptR a (execCtxClose x1 s) := by
  unfold execCtxClose
  repeat' first
    | with_reducible assumption
    | (with_reducible refine fun h => ?_)
    | (lift_lets; intro v; first | (refine Kept.cut (s := v) ?_ (fun hv => ?_); rotate_left; clear_value v; rotate_right) | clear_value v)
    | with_reducible apply State.serloth_kept
    | with_reducible apply State.ctxClose_kept
    | with_reducible apply KeptR.next_
    | with_reducible apply KeptR.ite
    | with_reducible exact KeptR.fault
    | with_reducible apply Kept.ite
    | with_reducible apply Kept.foldl
    | split
    | (refine Kept.mk_ ?_ rfl rfl rfl rfl; assumption)

theorem execCtxTimeout_kept {a s : State} {x1} (h : Kept a s) : KeptR a (execCtxTimeout x1 s) := by
  unfold execCtxTimeout
  repeat' first
    | with_reducible assumption
    | (with_reducible refine fun h => ?_)
    | (lift_lets; intro v; first | (refine Kept.cut (s := v) ?_ (fun hv => ?_); rotate_left; clear_value v; rotate_right) | clear_value v)
    | with_reducible apply State.serloth_kept
    | with_reducible apply State.refuse_kept
    | with_reducible apply State.complete_kept
    | with_reducible apply State.setCtx_kept
    | with_reducible apply KeptR.next_
    | with_reducible apply KeptR.ite
    | with_reducible exact KeptR.fault
    | with_reducible apply Kept.ite
    | with_reducible apply Kept.foldl
    | split
    | (refine Kept.mk_ ?_ rfl rfl rfl rfl; assumption)

theorem execCtxStatus_kept {a s : State} {x1} (h : Kept a s) : KeptR a (execCtxStatus x1 s) := by
  unfold execCtxStatus
  repeat' first
    | with_reducible assumption
    | (with_reducible refine fun h => ?_)
    | (lift_lets; intro v; first | (refine Kept.cut (s := v) ?_ (fun hv => ?_); rotate_left; clear_value v; rotate_right) | clear_value v)
    | with_reducible apply State.serloth_kept
    | with_reducible apply State.refuse_kept
    | with_reducible apply State.complete_kept
    | with_reducible apply KeptR.next_
    | with_reducible apply KeptR.ite
    | with_reducible exact KeptR.fault
    | with_reducible apply Kept.ite
    | with_reducible apply Kept.foldl
    | split
    | (refine Kept.mk_ ?_ rfl rfl rfl rfl; assumption)

/-! ## Press -/

theorem State.measure9_kept {a s : State} (h : Kept a s) : Kept a (State.measure9 s) := by
  unfold State.measure9
  repeat' first
    | with_reducible assumption
    | (with_reducible refine fun h => ?_)
    | (lift_lets; intro v; first | (refine Kept.cut (s := v) ?_ (fun hv => ?_); rotate_left; clear_value v; rotate_right) | clear_value v)
    | with_reducible apply Kept.ite
    | with_reducible apply Kept.foldl
    | split
    | (refine Kept.mk_ ?_ rfl rfl rfl rfl; assumption)

theorem State.resplit_kept {a s : State} {x1 x2} (h : Kept a s) : Kept a (State.resplit s x1 x2) := by
  unfold State.resplit
  repeat' first
    | with_reducible assumption
    | (with_reducible refine fun h => ?_)
    | (lift_lets; intro v; first | (refine Kept.cut (s := v) ?_ (fun hv => ?_); rotate_left; clear_value v; rotate_right) | clear_value v)
    | with_reducible apply State.zeroRange_kept
    | with_reducible apply State.noteCause_kept
    | with_reducible apply Kept.ite
    | with_reducible apply Kept.foldl
    | split
    | (refine Kept.mk_ ?_ rfl rfl rfl rfl; assumption)
    | (refine Kept.mk_ ?_ rfl rfl rfl rfl; first | with_reducible assumption | (with_reducible refine fun h => ?_) | with_reducible apply State.zeroRange_kept | with_reducible apply State.noteCause_kept | with_reducible apply Kept.ite | with_reducible apply Kept.foldl | split)

theorem State.moveRegion_kept {a s : State} {x1 x2 x3 x4} (h : Kept a s) : Kept a (State.moveRegion s x1 x2 x3 x4) := by
  unfold State.moveRegion
  repeat' first
    | with_reducible assumption
    | (with_reducible refine fun h => ?_)
    | (lift_lets; intro v; first | (refine Kept.cut (s := v) ?_ (fun hv => ?_); rotate_left; clear_value v; rotate_right) | clear_value v)
    | with_reducible apply State.undefine_kept
    | with_reducible apply Kept.ite
    | with_reducible apply Kept.foldl
    | split
    | (refine Kept.mk_ ?_ rfl rfl rfl rfl; assumption)

theorem State.pressMem_kept {a s : State} {old new} (h : Kept a s) : Kept a (State.pressMem s old new) := by
  unfold State.pressMem
  extract_lets s1 s2 s3 s4
  have h4 : Kept a s4 := State.moveRegion_kept (State.moveRegion_kept (State.moveRegion_kept (State.moveRegion_kept h)))
  have h5 : Kept a (if imgDumpBase old = imgDumpBase new then s4 else { s4 with guard.dumps := (none, none) }) := Kept.ite h4 (Kept.mk_ h4 rfl rfl rfl rfl)
  exact Kept.ite h5 (Kept.mk_ h5 rfl rfl rfl rfl)

theorem State.pressTim_kept {a s : State} {x1 x2} (h : Kept a s) : Kept a (State.pressTim s x1 x2) := by
  unfold State.pressTim
  repeat' first
    | with_reducible assumption
    | (with_reducible refine fun h => ?_)
    | (lift_lets; intro v; first | (refine Kept.cut (s := v) ?_ (fun hv => ?_); rotate_left; clear_value v; rotate_right) | clear_value v)
    | with_reducible apply State.setTime_kept
    | with_reducible apply State.unfollow_kept
    | with_reducible apply Kept.ite
    | with_reducible apply Kept.foldl
    | split
    | (refine Kept.mk_ ?_ rfl rfl rfl rfl; assumption)

theorem State.pressCkp_kept {a s : State} {old new} (h : Kept a s) : Kept a (State.pressCkp s old new) := by
  unfold State.pressCkp
  exact Kept.ite h (State.memWrite_kept (State.memWrite_kept h))

theorem State.pressMbx_kept {a s : State} {x1} (h : Kept a s) : Kept a (State.pressMbx s x1) := by
  unfold State.pressMbx
  repeat' first
    | with_reducible assumption
    | (with_reducible refine fun h => ?_)
    | (lift_lets; intro v; first | (refine Kept.cut (s := v) ?_ (fun hv => ?_); rotate_left; clear_value v; rotate_right) | clear_value v)
    | with_reducible apply Kept.ite
    | with_reducible apply Kept.foldl
    | split
    | (refine Kept.mk_ ?_ rfl rfl rfl rfl; assumption)

theorem State.pressEffect_kept {a s : State} {x1 x2} (h : Kept a s) : Kept a (State.pressEffect s x1 x2) := by
  unfold State.pressEffect
  repeat' first
    | with_reducible assumption
    | (with_reducible refine fun h => ?_)
    | (lift_lets; intro v; first | (refine Kept.cut (s := v) ?_ (fun hv => ?_); rotate_left; clear_value v; rotate_right) | clear_value v)
    | with_reducible apply State.resplit_kept
    | with_reducible apply State.pressMem_kept
    | with_reducible apply State.pressTim_kept
    | with_reducible apply State.pressCkp_kept
    | with_reducible apply State.pressMbx_kept
    | with_reducible apply State.measure9_kept
    | with_reducible apply Kept.ite
    | with_reducible apply Kept.foldl
    | split
    | (refine Kept.mk_ ?_ rfl rfl rfl rfl; assumption)

theorem State.setDev_kept {a s : State} {x1} (h : Kept a s) : Kept a (State.setDev s x1) := by
  unfold State.setDev
  repeat' first
    | with_reducible assumption
    | (with_reducible refine fun h => ?_)
    | (lift_lets; intro v; first | (refine Kept.cut (s := v) ?_ (fun hv => ?_); rotate_left; clear_value v; rotate_right) | clear_value v)
    | with_reducible apply State.native_kept
    | with_reducible apply Kept.ite
    | with_reducible apply Kept.foldl
    | split
    | (refine Kept.mk_ ?_ rfl rfl rfl rfl; assumption)

theorem State.endBringUp_kept {a s : State} (h : Kept a s) : Kept a (State.endBringUp s) := by
  unfold State.endBringUp
  repeat' first
    | with_reducible assumption
    | (with_reducible refine fun h => ?_)
    | (lift_lets; intro v; first | (refine Kept.cut (s := v) ?_ (fun hv => ?_); rotate_left; clear_value v; rotate_right) | clear_value v)
    | with_reducible apply State.native_kept
    | with_reducible apply State.tagFrom_kept
    | with_reducible apply State.answer_kept
    | with_reducible apply State.releaseHeld_kept
    | with_reducible apply Kept.ite
    | with_reducible apply Kept.foldl
    | split
    | (refine Kept.mk_ ?_ rfl rfl rfl rfl; assumption)
    | (refine Kept.mk_ ?_ rfl rfl rfl rfl; first | with_reducible assumption | (with_reducible refine fun h => ?_) | with_reducible apply State.native_kept | with_reducible apply State.tagFrom_kept | with_reducible apply State.answer_kept | with_reducible apply State.releaseHeld_kept | with_reducible apply Kept.ite | with_reducible apply Kept.foldl | split)

theorem State.becomeReady_kept {a s : State} (h : Kept a s) : Kept a (State.becomeReady s) := by
  unfold State.becomeReady
  repeat' first
    | with_reducible assumption
    | (with_reducible refine fun h => ?_)
    | (lift_lets; intro v; first | (refine Kept.cut (s := v) ?_ (fun hv => ?_); rotate_left; clear_value v; rotate_right) | clear_value v)
    | with_reducible apply State.endBringUp_kept
    | with_reducible apply State.setDev_kept
    | with_reducible apply Kept.ite
    | with_reducible apply Kept.foldl
    | split
    | (refine Kept.mk_ ?_ rfl rfl rfl rfl; assumption)

theorem State.reReady_kept {a s : State} (h : Kept a s) : Kept a (State.reReady s) := by
  unfold State.reReady
  repeat' first
    | with_reducible assumption
    | (with_reducible refine fun h => ?_)
    | (lift_lets; intro v; first | (refine Kept.cut (s := v) ?_ (fun hv => ?_); rotate_left; clear_value v; rotate_right) | clear_value v)
    | with_reducible apply State.becomeReady_kept
    | with_reducible apply Kept.ite
    | with_reducible apply Kept.foldl
    | split
    | (refine Kept.mk_ ?_ rfl rfl rfl rfl; assumption)

theorem State.startTraining_kept {a s : State} {x1} (h : Kept a s) : Kept a (State.startTraining s x1) := by
  unfold State.startTraining
  repeat' first
    | with_reducible assumption
    | (with_reducible refine fun h => ?_)
    | (lift_lets; intro v; first | (refine Kept.cut (s := v) ?_ (fun hv => ?_); rotate_left; clear_value v; rotate_right) | clear_value v)
    | with_reducible apply State.losePort_kept
    | with_reducible apply State.setPort_kept
    | with_reducible apply State.portTo_kept
    | with_reducible apply Kept.ite
    | with_reducible apply Kept.foldl
    | split
    | (refine Kept.mk_ ?_ rfl rfl rfl rfl; assumption)

theorem State.endTraining_kept {a s : State} {x1 x2 x3} (h : Kept a s) : Kept a (State.endTraining s x1 x2 x3) := by
  unfold State.endTraining
  repeat' first
    | with_reducible assumption
    | (with_reducible refine fun h => ?_)
    | (lift_lets; intro v; first | (refine Kept.cut (s := v) ?_ (fun hv => ?_); rotate_left; clear_value v; rotate_right) | clear_value v)
    | with_reducible apply State.complete_kept
    | with_reducible apply State.hold_kept
    | with_reducible apply Kept.ite
    | with_reducible apply Kept.foldl
    | split
    | (refine Kept.mk_ ?_ rfl rfl rfl rfl; assumption)

theorem State.settleTraining_kept {a s : State} (h : Kept a s) : Kept a (State.settleTraining s) := by
  unfold State.settleTraining
  refine Kept.foldl h fun s i h => ?_
  split
  · exact State.endTraining_kept h
  · exact h

theorem State.linkEffect_kept {a s : State} {x1 x2 x3 x4} (h : Kept a s) : Kept a (State.linkEffect s x1 x2 x3 x4) := by
  unfold State.linkEffect
  repeat' first
    | with_reducible assumption
    | (with_reducible refine fun h => ?_)
    | (lift_lets; intro v; first | (refine Kept.cut (s := v) ?_ (fun hv => ?_); rotate_left; clear_value v; rotate_right) | clear_value v)
    | with_reducible apply State.startTraining_kept
    | with_reducible apply State.endTraining_kept
    | with_reducible apply Kept.ite
    | with_reducible apply Kept.foldl
    | split
    | (refine Kept.mk_ ?_ rfl rfl rfl rfl; assumption)

theorem State.pendingEffect_kept {a s : State} {x1} (h : Kept a s) : Kept a (State.pendingEffect s x1) := by
  unfold State.pendingEffect
  repeat' first
    | with_reducible assumption
    | (with_reducible refine fun h => ?_)
    | (lift_lets; intro v; first | (refine Kept.cut (s := v) ?_ (fun hv => ?_); rotate_left; clear_value v; rotate_right) | clear_value v)
    | with_reducible apply State.complete_kept
    | with_reducible apply State.native_kept
    | with_reducible apply State.pressEffect_kept
    | with_reducible apply State.linkEffect_kept
    | with_reducible apply State.reReady_kept
    | with_reducible apply Kept.ite
    | with_reducible apply Kept.foldl
    | split
    | (refine Kept.mk_ ?_ rfl rfl rfl rfl; assumption)

theorem State.applyPending_kept {a s : State} {x1} (h : Kept a s) : Kept a (State.applyPending s x1) := by
  unfold State.applyPending
  repeat' first
    | with_reducible assumption
    | (with_reducible refine fun h => ?_)
    | (lift_lets; intro v; first | (refine Kept.cut (s := v) ?_ (fun hv => ?_); rotate_left; clear_value v; rotate_right) | clear_value v)
    | with_reducible apply State.tagFrom_kept
    | with_reducible apply State.pendingEffect_kept
    | with_reducible apply Kept.ite
    | with_reducible apply Kept.foldl
    | split
    | (refine Kept.mk_ ?_ rfl rfl rfl rfl; assumption)

theorem State.runPendings_kept {a s : State} (h : Kept a s) : Kept a (State.runPendings s) := by
  unfold State.runPendings
  repeat' first
    | with_reducible assumption
    | (with_reducible refine fun h => ?_)
    | (lift_lets; intro v; first | (refine Kept.cut (s := v) ?_ (fun hv => ?_); rotate_left; clear_value v; rotate_right) | clear_value v)
    | with_reducible apply State.applyPending_kept
    | with_reducible apply Kept.ite
    | with_reducible apply Kept.foldl
    | split
    | (refine Kept.mk_ ?_ rfl rfl rfl rfl; assumption)

theorem State.barrierPendings_kept {a s : State} {x1} (h : Kept a s) : Kept a (State.barrierPendings s x1) := by
  unfold State.barrierPendings
  repeat' first
    | with_reducible assumption
    | (with_reducible refine fun h => ?_)
    | (lift_lets; intro v; first | (refine Kept.cut (s := v) ?_ (fun hv => ?_); rotate_left; clear_value v; rotate_right) | clear_value v)
    | with_reducible apply State.applyPending_kept
    | with_reducible apply Kept.ite
    | with_reducible apply Kept.foldl
    | split
    | (refine Kept.mk_ ?_ rfl rfl rfl rfl; assumption)

theorem State.press_kept {a s : State} {x1 x2} (h : Kept a s) : Kept a (State.press s x1 x2) := by
  unfold State.press
  repeat' first
    | with_reducible assumption
    | (with_reducible refine fun h => ?_)
    | (lift_lets; intro v; first | (refine Kept.cut (s := v) ?_ (fun hv => ?_); rotate_left; clear_value v; rotate_right) | clear_value v)
    | with_reducible apply State.complete_kept
    | with_reducible apply State.hold_kept
    | with_reducible apply State.applyPending_kept
    | with_reducible apply Kept.ite
    | with_reducible apply Kept.foldl
    | split
    | (refine Kept.mk_ ?_ rfl rfl rfl rfl; assumption)

theorem execCfgPress_kept {a s : State} {x1} (h : Kept a s) : KeptR a (execCfgPress x1 s) := by
  unfold execCfgPress
  repeat' first
    | with_reducible assumption
    | (with_reducible refine fun h => ?_)
    | (lift_lets; intro v; first | (refine Kept.cut (s := v) ?_ (fun hv => ?_); rotate_left; clear_value v; rotate_right) | clear_value v)
    | with_reducible apply State.serloth_kept
    | with_reducible apply State.refuse_kept
    | with_reducible apply State.complete_kept
    | with_reducible apply State.press_kept
    | with_reducible apply KeptR.next_
    | with_reducible apply KeptR.ite
    | with_reducible exact KeptR.fault
    | with_reducible apply Kept.ite
    | with_reducible apply Kept.foldl
    | split
    | (refine Kept.mk_ ?_ rfl rfl rfl rfl; assumption)

theorem execCfgCheck_kept {a s : State} {x1} (h : Kept a s) : KeptR a (execCfgCheck x1 s) := by
  unfold execCfgCheck
  repeat' first
    | with_reducible assumption
    | (with_reducible refine fun h => ?_)
    | (lift_lets; intro v; first | (refine Kept.cut (s := v) ?_ (fun hv => ?_); rotate_left; clear_value v; rotate_right) | clear_value v)
    | with_reducible apply State.serloth_kept
    | with_reducible apply State.refuse_kept
    | with_reducible apply State.complete_kept
    | with_reducible apply KeptR.next_
    | with_reducible apply KeptR.ite
    | with_reducible exact KeptR.fault
    | with_reducible apply Kept.ite
    | with_reducible apply Kept.foldl
    | split
    | (refine Kept.mk_ ?_ rfl rfl rfl rfl; assumption)

theorem execCfgRevert_kept {a s : State} {x1} (h : Kept a s) : KeptR a (execCfgRevert x1 s) := by
  unfold execCfgRevert
  repeat' first
    | with_reducible assumption
    | (with_reducible refine fun h => ?_)
    | (lift_lets; intro v; first | (refine Kept.cut (s := v) ?_ (fun hv => ?_); rotate_left; clear_value v; rotate_right) | clear_value v)
    | with_reducible apply State.serloth_kept
    | with_reducible apply State.refuse_kept
    | with_reducible apply State.complete_kept
    | with_reducible apply KeptR.next_
    | with_reducible apply KeptR.ite
    | with_reducible exact KeptR.fault
    | with_reducible apply Kept.ite
    | with_reducible apply Kept.foldl
    | split
    | (refine Kept.mk_ ?_ rfl rfl rfl rfl; assumption)

/-! ## Memory -/

theorem State.grantBase_kept {a s : State} {x1 x2 x3} (h : Kept a s) : Kept a (State.grantBase s x1 x2 x3).2 := by
  unfold State.grantBase
  repeat' first
    | with_reducible assumption
    | (with_reducible refine fun h => ?_)
    | (lift_lets; intro v; first | (refine Kept.cut (s := v) ?_ (fun hv => ?_); rotate_left; clear_value v; rotate_right) | clear_value v)
    | with_reducible apply State.fresh_kept
    | (with_reducible apply State.fresh_keptE; · assumption)
    | with_reducible apply Kept.ite
    | with_reducible apply Kept.foldl
    | with_reducible apply Kept.ite2
    | with_reducible apply Kept.ite3
    | with_reducible apply Kept.foldl2
    | with_reducible apply Kept.foldl3
    | split
    | (refine Kept.mk_ ?_ rfl rfl rfl rfl; assumption)

theorem State.grantBase_keptE {a s : State} {x1 x2 x3} {r t} (e : State.grantBase s x1 x2 x3 = (r, t)) (h : Kept a s) : Kept a t := Kept.of_pair e (State.grantBase_kept h)

theorem State.mapRegion_kept {a s : State} {x1 x2 x3 x4} (h : Kept a s) : Kept a (State.mapRegion s x1 x2 x3 x4) := by
  unfold State.mapRegion
  repeat' first
    | with_reducible assumption
    | (with_reducible refine fun h => ?_)
    | (lift_lets; intro v; first | (refine Kept.cut (s := v) ?_ (fun hv => ?_); rotate_left; clear_value v; rotate_right) | clear_value v)
    | with_reducible apply State.zeroRange_kept
    | with_reducible apply Kept.ite
    | with_reducible apply Kept.foldl
    | split
    | (refine Kept.mk_ ?_ rfl rfl rfl rfl; assumption)

theorem State.memMap_kept {a s : State} {x1 x2 x3} (h : Kept a s) : Kept a (State.memMap s x1 x2 x3) := by
  unfold State.memMap
  repeat' first
    | with_reducible assumption
    | (with_reducible refine fun h => ?_)
    | (lift_lets; intro v; first | (refine Kept.cut (s := v) ?_ (fun hv => ?_); rotate_left; clear_value v; rotate_right) | clear_value v)
    | with_reducible apply State.refuse_kept
    | with_reducible apply State.complete_kept
    | with_reducible apply State.grantBase_kept
    | (with_reducible apply State.grantBase_keptE; · assumption)
    | with_reducible apply State.mapRegion_kept
    | with_reducible apply Kept.ite
    | with_reducible apply Kept.foldl
    | split
    | (refine Kept.mk_ ?_ rfl rfl rfl rfl; assumption)
    | (refine Kept.mk_ ?_ rfl rfl rfl rfl; first | with_reducible assumption | (with_reducible refine fun h => ?_) | with_reducible apply State.refuse_kept | with_reducible apply State.complete_kept | with_reducible apply State.grantBase_kept | (with_reducible apply State.grantBase_keptE; · assumption) | with_reducible apply State.mapRegion_kept | with_reducible apply Kept.ite | with_reducible apply Kept.foldl | split)

theorem execMemMap_kept {a s : State} {x1} (h : Kept a s) : KeptR a (execMemMap x1 s) := by
  unfold execMemMap
  repeat' first
    | with_reducible assumption
    | (with_reducible refine fun h => ?_)
    | (lift_lets; intro v; first | (refine Kept.cut (s := v) ?_ (fun hv => ?_); rotate_left; clear_value v; rotate_right) | clear_value v)
    | with_reducible apply State.serloth_kept
    | with_reducible apply State.memMap_kept
    | with_reducible apply KeptR.next_
    | with_reducible apply KeptR.ite
    | with_reducible exact KeptR.fault
    | with_reducible apply Kept.ite
    | with_reducible apply Kept.foldl
    | split
    | (refine Kept.mk_ ?_ rfl rfl rfl rfl; assumption)

theorem State.memUnmap_kept {a s : State} {x1 x2 x3} (h : Kept a s) : Kept a (State.memUnmap s x1 x2 x3) := by
  unfold State.memUnmap
  repeat' first
    | with_reducible assumption
    | (with_reducible refine fun h => ?_)
    | (lift_lets; intro v; first | (refine Kept.cut (s := v) ?_ (fun hv => ?_); rotate_left; clear_value v; rotate_right) | clear_value v)
    | with_reducible apply State.refuse_kept
    | with_reducible apply State.complete_kept
    | with_reducible apply State.unmap_kept
    | with_reducible apply Kept.ite
    | with_reducible apply Kept.foldl
    | split
    | (refine Kept.mk_ ?_ rfl rfl rfl rfl; assumption)

theorem execMemUnmap_kept {a s : State} {x1} (h : Kept a s) : KeptR a (execMemUnmap x1 s) := by
  unfold execMemUnmap
  repeat' first
    | with_reducible assumption
    | (with_reducible refine fun h => ?_)
    | (lift_lets; intro v; first | (refine Kept.cut (s := v) ?_ (fun hv => ?_); rotate_left; clear_value v; rotate_right) | clear_value v)
    | with_reducible apply State.serloth_kept
    | with_reducible apply State.memUnmap_kept
    | with_reducible apply KeptR.next_
    | with_reducible apply KeptR.ite
    | with_reducible exact KeptR.fault
    | with_reducible apply Kept.ite
    | with_reducible apply Kept.foldl
    | split
    | (refine Kept.mk_ ?_ rfl rfl rfl rfl; assumption)

theorem execRegionZeroing_kept {a s : State} (h : Kept a s) : KeptR a (execRegionZeroing s) := by
  unfold execRegionZeroing
  repeat' first
    | with_reducible assumption
    | (with_reducible refine fun h => ?_)
    | (lift_lets; intro v; try (refine Kept.cut (s := v) ?_ (fun hv => ?_); rotate_left; clear_value v; rotate_right))
    | with_reducible apply KeptR.ok
    | with_reducible apply State.zeroRange_kept
    | with_reducible apply KeptR.next_
    | with_reducible apply KeptR.ite
    | with_reducible exact KeptR.fault
    | with_reducible apply Kept.ite
    | with_reducible apply Kept.foldl
    | split
    | (refine Kept.mk_ ?_ rfl rfl rfl rfl; assumption)

theorem State.memEvent_kept {a s : State} {x1 x2 x3} (h : Kept a s) : Kept a (State.memEvent s x1 x2 x3) := by
  unfold State.memEvent
  dsimp only
  repeat' first
    | with_reducible assumption
    | (with_reducible refine fun h => ?_)
    | with_reducible apply State.countWarn_kept
    | with_reducible apply State.uncorrectable_kept
    | with_reducible apply State.noteCause_kept
    | with_reducible apply State.fenceChan_kept
    | with_reducible apply State.addRec_kept
    | with_reducible apply Kept.ite
    | with_reducible apply Kept.foldl
    | with_reducible apply Kept.ite2
    | with_reducible apply Kept.ite3
    | with_reducible apply Kept.foldl2
    | with_reducible apply Kept.foldl3
    | split
    | (refine Kept.mk_ ?_ rfl rfl rfl rfl; assumption)

theorem State.memEvents_kept {a s : State} {x1 x2 x3} (h : Kept a s) : Kept a (State.memEvents s x1 x2 x3) := by
  unfold State.memEvents
  repeat' first
    | with_reducible assumption
    | (with_reducible refine fun h => ?_)
    | (lift_lets; intro v; first | (refine Kept.cut (s := v) ?_ (fun hv => ?_); rotate_left; clear_value v; rotate_right) | clear_value v)
    | with_reducible apply State.memEvent_kept
    | with_reducible apply Kept.ite
    | with_reducible apply Kept.foldl
    | split
    | (refine Kept.mk_ ?_ rfl rfl rfl rfl; assumption)

theorem State.poisonScan_kept {a s : State} {x1 x2 x3 x4} (h : Kept a s) : Kept a (State.poisonScan s x1 x2 x3 x4) := by
  unfold State.poisonScan
  repeat' first
    | with_reducible assumption
    | (with_reducible refine fun h => ?_)
    | (lift_lets; intro v; first | (refine Kept.cut (s := v) ?_ (fun hv => ?_); rotate_left; clear_value v; rotate_right) | clear_value v)
    | with_reducible apply State.complete_kept
    | with_reducible apply State.refuse_kept
    | with_reducible apply Kept.ite
    | with_reducible apply Kept.foldl
    | split
    | (refine Kept.mk_ ?_ rfl rfl rfl rfl; assumption)

theorem execMemPoisonScan_kept {a s : State} {x1} (h : Kept a s) : KeptR a (execMemPoisonScan x1 s) := by
  unfold execMemPoisonScan
  repeat' first
    | with_reducible assumption
    | (with_reducible refine fun h => ?_)
    | (lift_lets; intro v; first | (refine Kept.cut (s := v) ?_ (fun hv => ?_); rotate_left; clear_value v; rotate_right) | clear_value v)
    | with_reducible apply State.serlothMem_kept
    | with_reducible apply State.poisonScan_kept
    | with_reducible apply KeptR.next_
    | with_reducible apply KeptR.ite
    | with_reducible exact KeptR.fault
    | with_reducible apply Kept.ite
    | with_reducible apply Kept.foldl
    | split
    | (refine Kept.mk_ ?_ rfl rfl rfl rfl; assumption)

theorem State.spoil_kept {a s : State} {x1 x2} (h : Kept a s) : Kept a (State.spoil s x1 x2) := by
  unfold State.spoil
  repeat' first
    | with_reducible assumption
    | (with_reducible refine fun h => ?_)
    | (lift_lets; intro v; first | (refine Kept.cut (s := v) ?_ (fun hv => ?_); rotate_left; clear_value v; rotate_right) | clear_value v)
    | with_reducible apply State.holdPage_kept
    | with_reducible apply State.poisonRange_kept
    | with_reducible apply State.undefine_kept
    | with_reducible apply Kept.ite
    | with_reducible apply Kept.foldl
    | split
    | (refine Kept.mk_ ?_ rfl rfl rfl rfl; assumption)

theorem State.hostIn_kept {a s : State} {x1 x2 x3 x4} (h : Kept a s) : Kept a (State.hostIn s x1 x2 x3 x4) := by
  unfold State.hostIn
  repeat' first
    | with_reducible assumption
    | (with_reducible refine fun h => ?_)
    | (lift_lets; intro v; first | (refine Kept.cut (s := v) ?_ (fun hv => ?_); rotate_left; clear_value v; rotate_right) | clear_value v)
    | with_reducible apply State.memWriteP_kept
    | with_reducible apply Kept.ite
    | with_reducible apply Kept.foldl
    | split
    | (refine Kept.mk_ ?_ rfl rfl rfl rfl; assumption)

theorem State.hostOut_kept {a s : State} {x1 x2 x3} (h : Kept a s) : Kept a (State.hostOut s x1 x2 x3) := by
  unfold State.hostOut
  repeat' first
    | with_reducible assumption
    | (with_reducible refine fun h => ?_)
    | (lift_lets; intro v; first | (refine Kept.cut (s := v) ?_ (fun hv => ?_); rotate_left; clear_value v; rotate_right) | clear_value v)
    | with_reducible apply State.emit_kept
    | with_reducible apply Kept.ite
    | with_reducible apply Kept.foldl
    | split
    | (refine Kept.mk_ ?_ rfl rfl rfl rfl; assumption)

theorem State.hostCopy_kept {a s : State} {x1 x2 x3 x4 x5} (h : Kept a s) : Kept a (State.hostCopy s x1 x2 x3 x4 x5) := by
  unfold State.hostCopy
  repeat' first
    | with_reducible assumption
    | (with_reducible refine fun h => ?_)
    | (lift_lets; intro v; first | (refine Kept.cut (s := v) ?_ (fun hv => ?_); rotate_left; clear_value v; rotate_right) | clear_value v)
    | with_reducible apply State.hostOut_kept
    | with_reducible apply State.spoil_kept
    | with_reducible apply State.hostIn_kept
    | with_reducible apply State.addCtr_kept
    | with_reducible apply State.complete_kept
    | with_reducible apply Kept.ite
    | with_reducible apply Kept.foldl
    | split
    | (refine Kept.mk_ ?_ rfl rfl rfl rfl; assumption)

theorem execMemHostCopy_kept {a s : State} {x1 x2 x3 x4 x5} (h : Kept a s) : KeptR a (execMemHostCopy x1 x2 x3 x4 s x5) := by
  unfold execMemHostCopy
  repeat' first
    | with_reducible assumption
    | (with_reducible refine fun h => ?_)
    | (lift_lets; intro v; first | (refine Kept.cut (s := v) ?_ (fun hv => ?_); rotate_left; clear_value v; rotate_right) | clear_value v)
    | with_reducible apply State.serlothMem_kept
    | with_reducible apply State.refuse_kept
    | with_reducible apply State.complete_kept
    | with_reducible apply State.hostCopy_kept
    | with_reducible apply State.memEvents_kept
    | with_reducible apply KeptR.next_
    | with_reducible apply KeptR.ite
    | with_reducible exact KeptR.fault
    | with_reducible apply Kept.ite
    | with_reducible apply Kept.foldl
    | split
    | (refine Kept.mk_ ?_ rfl rfl rfl rfl; assumption)

theorem execPatrolScrub_kept {a s : State} {x1 x2} (h : Kept a s) : KeptR a (execPatrolScrub x1 x2 s) := by
  unfold execPatrolScrub
  repeat' first
    | with_reducible assumption
    | (with_reducible refine fun h => ?_)
    | (lift_lets; intro v; first | (refine Kept.cut (s := v) ?_ (fun hv => ?_); rotate_left; clear_value v; rotate_right) | clear_value v)
    | with_reducible apply KeptR.ok
    | with_reducible apply State.memEvent_kept
    | with_reducible apply KeptR.next_
    | with_reducible apply KeptR.ite
    | with_reducible exact KeptR.fault
    | with_reducible apply Kept.ite
    | with_reducible apply Kept.foldl
    | split
    | (refine Kept.mk_ ?_ rfl rfl rfl rfl; assumption)

theorem execStagingScrub_kept {a s : State} {x1 x2 x3} (h : Kept a s) : KeptR a (execStagingScrub x1 x2 x3 s) := by
  unfold execStagingScrub
  repeat' first
    | with_reducible assumption
    | (with_reducible refine fun h => ?_)
    | (lift_lets; intro v; first | (refine Kept.cut (s := v) ?_ (fun hv => ?_); rotate_left; clear_value v; rotate_right) | clear_value v)
    | with_reducible apply KeptR.ok
    | with_reducible apply State.countWarn_kept
    | with_reducible apply State.native_kept
    | with_reducible apply State.dropLine_kept
    | with_reducible apply State.uncorrectable_kept
    | with_reducible apply KeptR.next_
    | with_reducible apply KeptR.ite
    | with_reducible exact KeptR.fault
    | with_reducible apply Kept.ite
    | with_reducible apply Kept.foldl
    | split
    | (refine Kept.mk_ ?_ rfl rfl rfl rfl; assumption)

theorem execCorrectedErrorWarningClear_kept {a s : State} {x1} (h : Kept a s) : KeptR a (execCorrectedErrorWarningClear x1 s) := by
  unfold execCorrectedErrorWarningClear
  repeat' first
    | with_reducible assumption
    | (with_reducible refine fun h => ?_)
    | (lift_lets; intro v; first | (refine Kept.cut (s := v) ?_ (fun hv => ?_); rotate_left; clear_value v; rotate_right) | clear_value v)
    | with_reducible apply KeptR.ok
    | with_reducible apply State.setChan_kept
    | with_reducible apply KeptR.next_
    | with_reducible apply KeptR.ite
    | with_reducible exact KeptR.fault
    | with_reducible apply Kept.ite
    | with_reducible apply Kept.foldl
    | split
    | (refine Kept.mk_ ?_ rfl rfl rfl rfl; assumption)

end Sys2Proof.Machine
end

