-- ==== Sys2Proof/Laws/KeptEngines.lean ====
section
/-! SUPPORT. What the operations of Packet, Access, Stream, Array, Vector, Copy, Route, Optimizer, Complete keep: one lemma for each (Kept). -/

namespace Sys2Proof.Machine

/-! ## Packet -/

theorem State.touch_kept {a s : State} {x1 x2} (h : Kept a s) : Kept a (State.touch s x1 x2).2 := by
  unfold State.touch
  dsimp only
  repeat' first
    | with_reducible assumption
    | (with_reducible refine fun h => ?_)
    | with_reducible apply State.cacheRead_kept
    | (with_reducible apply State.cacheRead_keptE; · assumption)
    | with_reducible apply Kept.ite
    | with_reducible apply Kept.foldl
    | with_reducible apply Kept.ite2
    | with_reducible apply Kept.ite3
    | with_reducible apply Kept.foldl2
    | with_reducible apply Kept.foldl3
    | split
    | (refine Kept.mk_ ?_ rfl rfl rfl rfl; assumption)
    | (refine Kept.mk_ ?_ rfl rfl rfl rfl; first | with_reducible assumption | (with_reducible refine fun h => ?_) | with_reducible apply State.cacheRead_kept | (with_reducible apply State.cacheRead_keptE; · assumption) | with_reducible apply Kept.ite | with_reducible apply Kept.foldl | with_reducible apply Kept.ite2 | with_reducible apply Kept.ite3 | with_reducible apply Kept.foldl2 | with_reducible apply Kept.foldl3 | split)

theorem State.touch_keptE {a s : State} {x1 x2} {r t} (e : State.touch s x1 x2 = (r, t)) (h : Kept a s) : Kept a t := Kept.of_pair e (State.touch_kept h)

theorem State.readRaw_kept {a s : State} {x1 x2 x3 x4} (h : Kept a s) : Kept a (State.readRaw s x1 x2 x3 x4).2 := by
  unfold State.readRaw
  repeat' first
    | with_reducible assumption
    | (with_reducible refine fun h => ?_)
    | (lift_lets; intro v; first | (refine Kept.cut (s := v) ?_ (fun hv => ?_); rotate_left; clear_value v; rotate_right) | clear_value v)
    | with_reducible apply State.touch_kept
    | (with_reducible apply State.touch_keptE; · assumption)
    | with_reducible apply Kept.ite
    | with_reducible apply Kept.foldl
    | with_reducible apply Kept.ite2
    | with_reducible apply Kept.ite3
    | with_reducible apply Kept.foldl2
    | with_reducible apply Kept.foldl3
    | split
    | (refine Kept.mk_ ?_ rfl rfl rfl rfl; assumption)

theorem State.readRaw_keptE {a s : State} {x1 x2 x3 x4} {r t} (e : State.readRaw s x1 x2 x3 x4 = (r, t)) (h : Kept a s) : Kept a t := Kept.of_pair e (State.readRaw_kept h)

theorem State.readRow_kept {a s : State} {x1 x2 x3 x4} (h : Kept a s) : Kept a (State.readRow s x1 x2 x3 x4).2 := by
  unfold State.readRow
  repeat' first
    | with_reducible assumption
    | (with_reducible refine fun h => ?_)
    | (lift_lets; intro v; first | (refine Kept.cut (s := v) ?_ (fun hv => ?_); rotate_left; clear_value v; rotate_right) | clear_value v)
    | with_reducible apply State.readRaw_kept
    | (with_reducible apply State.readRaw_keptE; · assumption)
    | with_reducible apply Kept.ite
    | with_reducible apply Kept.foldl
    | with_reducible apply Kept.ite2
    | with_reducible apply Kept.ite3
    | with_reducible apply Kept.foldl2
    | with_reducible apply Kept.foldl3
    | split
    | (refine Kept.mk_ ?_ rfl rfl rfl rfl; assumption)

theorem State.readRow_keptE {a s : State} {x1 x2 x3 x4} {r t} (e : State.readRow s x1 x2 x3 x4 = (r, t)) (h : Kept a s) : Kept a t := Kept.of_pair e (State.readRow_kept h)

theorem State.observe_kept {a s : State} {x1 x2 x3 x4} (h : Kept a s) : Kept a (State.observe s x1 x2 x3 x4) := by
  unfold State.observe
  repeat' first
    | with_reducible assumption
    | (with_reducible refine fun h => ?_)
    | (lift_lets; intro v; first | (refine Kept.cut (s := v) ?_ (fun hv => ?_); rotate_left; clear_value v; rotate_right) | clear_value v)
    | with_reducible apply State.setSched_kept
    | with_reducible apply Kept.ite
    | with_reducible apply Kept.foldl
    | split
    | (refine Kept.mk_ ?_ rfl rfl rfl rfl; assumption)

theorem State.spareBits_kept {a s : State} {x1 x2 x3 x4 x5} (h : Kept a s) : Kept a (State.spareBits s x1 x2 x3 x4 x5).2 := by
  unfold State.spareBits
  repeat' first
    | with_reducible assumption
    | (with_reducible refine fun h => ?_)
    | (lift_lets; intro v; first | (refine Kept.cut (s := v) ?_ (fun hv => ?_); rotate_left; clear_value v; rotate_right) | clear_value v)
    | with_reducible apply State.fresh_kept
    | (with_reducible apply State.fresh_keptE; · assumption)
    | with_reducible apply Kept.ite
    | with_reducible apply Kept.foldl
    | with_reducible apply Kept.ite2
    | with_reducible apply Kept.ite3
    | with_reducible apply Kept.foldl2
    | with_reducible apply Kept.foldl3
    | split
    | (refine Kept.mk_ ?_ rfl rfl rfl rfl; assumption)

theorem State.spareBits_keptE {a s : State} {x1 x2 x3 x4 x5} {r t} (e : State.spareBits s x1 x2 x3 x4 x5 = (r, t)) (h : Kept a s) : Kept a t := Kept.of_pair e (State.spareBits_kept h)

theorem State.rowPieces_kept {a s : State} {x1 x2 x3 x4 x5 x6 x7} (h : Kept a s) : Kept a (State.rowPieces s x1 x2 x3 x4 x5 x6 x7).2 := by
  unfold State.rowPieces
  repeat' first
    | with_reducible assumption
    | (with_reducible refine fun h => ?_)
    | (lift_lets; intro v; first | (refine Kept.cut (s := v) ?_ (fun hv => ?_); rotate_left; clear_value v; rotate_right) | clear_value v)
    | with_reducible apply State.spareBits_kept
    | (with_reducible apply State.spareBits_keptE; · assumption)
    | with_reducible apply State.observe_kept
    | with_reducible apply Kept.ite
    | with_reducible apply Kept.foldl
    | with_reducible apply Kept.ite2
    | with_reducible apply Kept.ite3
    | with_reducible apply Kept.foldl2
    | with_reducible apply Kept.foldl3
    | split
    | (refine Kept.mk_ ?_ rfl rfl rfl rfl; assumption)

theorem State.rowPieces_keptE {a s : State} {x1 x2 x3 x4 x5 x6 x7} {r t} (e : State.rowPieces s x1 x2 x3 x4 x5 x6 x7 = (r, t)) (h : Kept a s) : Kept a t := Kept.of_pair e (State.rowPieces_kept h)

theorem State.putPieces_kept {a s : State} {x1 x2} (h : Kept a s) : Kept a (State.putPieces s x1 x2) := by
  unfold State.putPieces
  repeat' first
    | with_reducible assumption
    | (with_reducible refine fun h => ?_)
    | (lift_lets; intro v; first | (refine Kept.cut (s := v) ?_ (fun hv => ?_); rotate_left; clear_value v; rotate_right) | clear_value v)
    | with_reducible apply State.memWriteP_kept
    | with_reducible apply Kept.ite
    | with_reducible apply Kept.foldl
    | split
    | (refine Kept.mk_ ?_ rfl rfl rfl rfl; assumption)

theorem State.writeRow_kept {a s : State} {x1 x2 x3 x4 x5 x6} (h : Kept a s) : Kept a (State.writeRow s x1 x2 x3 x4 x5 x6).2 := by
  unfold State.writeRow
  repeat' first
    | with_reducible assumption
    | (with_reducible refine fun h => ?_)
    | (lift_lets; intro v; first | (refine Kept.cut (s := v) ?_ (fun hv => ?_); rotate_left; clear_value v; rotate_right) | clear_value v)
    | with_reducible apply State.rowPieces_kept
    | (with_reducible apply State.rowPieces_keptE; · assumption)
    | with_reducible apply State.putPieces_kept
    | with_reducible apply Kept.ite
    | with_reducible apply Kept.foldl
    | with_reducible apply Kept.ite2
    | with_reducible apply Kept.ite3
    | with_reducible apply Kept.foldl2
    | with_reducible apply Kept.foldl3
    | split
    | (refine Kept.mk_ ?_ rfl rfl rfl rfl; assumption)

theorem State.writeRow_keptE {a s : State} {x1 x2 x3 x4 x5 x6} {r t} (e : State.writeRow s x1 x2 x3 x4 x5 x6 = (r, t)) (h : Kept a s) : Kept a t := Kept.of_pair e (State.writeRow_kept h)

theorem State.readList_kept {a s : State} {x1 x2} (h : Kept a s) : Kept a (State.readList s x1 x2).2 := by
  unfold State.readList
  repeat' first
    | with_reducible assumption
    | (with_reducible refine fun h => ?_)
    | (lift_lets; intro v; first | (refine Kept.cut (s := v) ?_ (fun hv => ?_); rotate_left; clear_value v; rotate_right) | clear_value v)
    | with_reducible apply State.touch_kept
    | (with_reducible apply State.touch_keptE; · assumption)
    | with_reducible apply Kept.ite
    | with_reducible apply Kept.foldl
    | with_reducible apply Kept.ite2
    | with_reducible apply Kept.ite3
    | with_reducible apply Kept.foldl2
    | with_reducible apply Kept.foldl3
    | split
    | (refine Kept.mk_ ?_ rfl rfl rfl rfl; assumption)

theorem State.readList_keptE {a s : State} {x1 x2} {r t} (e : State.readList s x1 x2 = (r, t)) (h : Kept a s) : Kept a t := Kept.of_pair e (State.readList_kept h)

theorem State.poisonIncomplete_kept {a s : State} {x1 x2} (h : Kept a s) : Kept a (State.poisonIncomplete s x1 x2) := by
  unfold State.poisonIncomplete
  repeat' first
    | with_reducible assumption
    | (with_reducible refine fun h => ?_)
    | (lift_lets; intro v; first | (refine Kept.cut (s := v) ?_ (fun hv => ?_); rotate_left; clear_value v; rotate_right) | clear_value v)
    | with_reducible apply State.poisonRange_kept
    | with_reducible apply Kept.ite
    | with_reducible apply Kept.foldl
    | split
    | (refine Kept.mk_ ?_ rfl rfl rfl rfl; assumption)

/-! ## Access -/

theorem State.race_kept {a s : State} {x1 x2} (h : Kept a s) : Kept a (State.race s x1 x2) := by
  unfold State.race
  repeat' first
    | with_reducible assumption
    | (with_reducible refine fun h => ?_)
    | (lift_lets; intro v; first | (refine Kept.cut (s := v) ?_ (fun hv => ?_); rotate_left; clear_value v; rotate_right) | clear_value v)
    | with_reducible apply State.setEng_kept
    | with_reducible apply Kept.ite
    | with_reducible apply Kept.foldl
    | split
    | (refine Kept.mk_ ?_ rfl rfl rfl rfl; assumption)

theorem State.noteRaces_kept {a s : State} {x1 x2 x3} (h : Kept a s) : Kept a (State.noteRaces s x1 x2 x3) := by
  unfold State.noteRaces
  repeat' first
    | with_reducible assumption
    | (with_reducible refine fun h => ?_)
    | (lift_lets; intro v; first | (refine Kept.cut (s := v) ?_ (fun hv => ?_); rotate_left; clear_value v; rotate_right) | clear_value v)
    | with_reducible apply State.race_kept
    | with_reducible apply Kept.ite
    | with_reducible apply Kept.foldl
    | split
    | (refine Kept.mk_ ?_ rfl rfl rfl rfl; assumption)

theorem State.undefineRaced_kept {a s : State} {x1 x2} (h : Kept a s) : Kept a (State.undefineRaced s x1 x2) := by
  unfold State.undefineRaced
  repeat' first
    | with_reducible assumption
    | (with_reducible refine fun h => ?_)
    | (lift_lets; intro v; first | (refine Kept.cut (s := v) ?_ (fun hv => ?_); rotate_left; clear_value v; rotate_right) | clear_value v)
    | with_reducible apply State.undefine_kept
    | with_reducible apply Kept.ite
    | with_reducible apply Kept.foldl
    | split
    | (refine Kept.mk_ ?_ rfl rfl rfl rfl; assumption)

/-! ## Stream -/

theorem State.slip_kept {a s : State} {x1 x2} (h : Kept a s) : Kept a (State.slip s x1 x2) := by
  unfold State.slip
  repeat' first
    | with_reducible assumption
    | (with_reducible refine fun h => ?_)
    | (lift_lets; intro v; first | (refine Kept.cut (s := v) ?_ (fun hv => ?_); rotate_left; clear_value v; rotate_right) | clear_value v)
    | with_reducible apply State.setSched_kept
    | with_reducible apply Kept.ite
    | with_reducible apply Kept.foldl
    | split
    | (refine Kept.mk_ ?_ rfl rfl rfl rfl; assumption)

theorem State.deadlineSlip_kept {a s : State} {x1 x2 x3} (h : Kept a s) : Kept a (State.deadlineSlip s x1 x2 x3) := by
  unfold State.deadlineSlip
  repeat' first
    | with_reducible assumption
    | (with_reducible refine fun h => ?_)
    | (lift_lets; intro v; first | (refine Kept.cut (s := v) ?_ (fun hv => ?_); rotate_left; clear_value v; rotate_right) | clear_value v)
    | with_reducible apply State.slip_kept
    | with_reducible apply Kept.ite
    | with_reducible apply Kept.foldl
    | split
    | (refine Kept.mk_ ?_ rfl rfl rfl rfl; assumption)

theorem State.finishCancel_kept {a s : State} {x1} (h : Kept a s) : Kept a (State.finishCancel s x1) := by
  unfold State.finishCancel
  repeat' first
    | with_reducible assumption
    | (with_reducible refine fun h => ?_)
    | (lift_lets; intro v; first | (refine Kept.cut (s := v) ?_ (fun hv => ?_); rotate_left; clear_value v; rotate_right) | clear_value v)
    | with_reducible apply State.complete_kept
    | with_reducible apply State.runPendings_kept
    | with_reducible apply State.removeSched_kept
    | with_reducible apply Kept.ite
    | with_reducible apply Kept.foldl
    | split
    | (refine Kept.mk_ ?_ rfl rfl rfl rfl; assumption)

theorem State.writeSample_kept {a s : State} {x1 x2} (h : Kept a s) : Kept a (State.writeSample s x1 x2) := by
  unfold State.writeSample
  repeat' first
    | with_reducible assumption
    | (with_reducible refine fun h => ?_)
    | (lift_lets; intro v; first | (refine Kept.cut (s := v) ?_ (fun hv => ?_); rotate_left; clear_value v; rotate_right) | clear_value v)
    | with_reducible apply State.memWrite_kept
    | with_reducible apply Kept.ite
    | with_reducible apply Kept.foldl
    | split
    | (refine Kept.mk_ ?_ rfl rfl rfl rfl; assumption)

theorem State.streamDone_kept {a s : State} {x1 x2 x3} (h : Kept a s) : Kept a (State.streamDone s x1 x2 x3) := by
  unfold State.streamDone
  repeat' first
    | with_reducible assumption
    | (with_reducible refine fun h => ?_)
    | (lift_lets; intro v; first | (refine Kept.cut (s := v) ?_ (fun hv => ?_); rotate_left; clear_value v; rotate_right) | clear_value v)
    | with_reducible apply State.setSched_kept
    | with_reducible apply State.finishCancel_kept
    | with_reducible apply State.writeSample_kept
    | with_reducible apply State.deadlineSlip_kept
    | with_reducible apply Kept.ite
    | with_reducible apply Kept.foldl
    | split
    | (refine Kept.mk_ ?_ rfl rfl rfl rfl; assumption)

theorem State.sampleStatus_kept {a s : State} {x1 x2} (h : Kept a s) : Kept a (State.sampleStatus s x1 x2) := by
  unfold State.sampleStatus
  repeat' first
    | with_reducible assumption
    | (with_reducible refine fun h => ?_)
    | (lift_lets; intro v; first | (refine Kept.cut (s := v) ?_ (fun hv => ?_); rotate_left; clear_value v; rotate_right) | clear_value v)
    | with_reducible apply State.setSched_kept
    | with_reducible apply Kept.ite
    | with_reducible apply Kept.foldl
    | split
    | (refine Kept.mk_ ?_ rfl rfl rfl rfl; assumption)

theorem State.traceCmd_kept {a s : State} {x1 x2 x3 x4 x5} (h : Kept a s) : Kept a (State.traceCmd s x1 x2 x3 x4 x5) := by
  unfold State.traceCmd
  repeat' first
    | with_reducible assumption
    | (with_reducible refine fun h => ?_)
    | (lift_lets; intro v; first | (refine Kept.cut (s := v) ?_ (fun hv => ?_); rotate_left; clear_value v; rotate_right) | clear_value v)
    | with_reducible apply State.trace_kept
    | with_reducible apply Kept.ite
    | with_reducible apply Kept.foldl
    | split
    | (refine Kept.mk_ ?_ rfl rfl rfl rfl; assumption)

theorem State.writeRecord_kept {a s : State} {x1 x2 x3} (h : Kept a s) : Kept a (State.writeRecord s x1 x2 x3) := by
  unfold State.writeRecord
  repeat' first
    | with_reducible assumption
    | (with_reducible refine fun h => ?_)
    | (lift_lets; intro v; first | (refine Kept.cut (s := v) ?_ (fun hv => ?_); rotate_left; clear_value v; rotate_right) | clear_value v)
    | with_reducible apply State.memWrite_kept
    | with_reducible apply State.setSched_kept
    | with_reducible apply State.setCtx_kept
    | with_reducible apply State.addRec_kept
    | with_reducible apply State.sampleStatus_kept
    | with_reducible apply State.colFlag_kept
    | with_reducible apply State.traceCmd_kept
    | with_reducible apply Kept.ite
    | with_reducible apply Kept.foldl
    | split
    | (refine Kept.mk_ ?_ rfl rfl rfl rfl; assumption)

theorem State.sigEn_kept {a s : State} {x1 x2 x3} (h : Kept a s) : Kept a (State.sigEn s x1 x2 x3) := by
  unfold State.sigEn
  repeat' first
    | with_reducible assumption
    | (with_reducible refine fun h => ?_)
    | (lift_lets; intro v; first | (refine Kept.cut (s := v) ?_ (fun hv => ?_); rotate_left; clear_value v; rotate_right) | clear_value v)
    | with_reducible apply State.addCtr_kept
    | with_reducible apply Kept.ite
    | with_reducible apply Kept.foldl
    | split
    | (refine Kept.mk_ ?_ rfl rfl rfl rfl; assumption)

theorem State.abandonSent_kept {a s : State} {x1 x2 x3} (h : Kept a s) : Kept a (State.abandonSent s x1 x2 x3) := by
  unfold State.abandonSent
  repeat' first
    | with_reducible assumption
    | (with_reducible refine fun h => ?_)
    | (lift_lets; intro v; first | (refine Kept.cut (s := v) ?_ (fun hv => ?_); rotate_left; clear_value v; rotate_right) | clear_value v)
    | with_reducible apply State.emit_kept
    | with_reducible apply Kept.ite
    | with_reducible apply Kept.foldl
    | split
    | (refine Kept.mk_ ?_ rfl rfl rfl rfl; assumption)
    | (refine Kept.mk_ ?_ rfl rfl rfl rfl; first | with_reducible assumption | (with_reducible refine fun h => ?_) | with_reducible apply State.emit_kept | with_reducible apply Kept.ite | with_reducible apply Kept.foldl | split)

theorem State.closeEntry_kept {a s : State} {x1 x2 x3} (h : Kept a s) : Kept a (State.closeEntry s x1 x2 x3) := by
  unfold State.closeEntry
  repeat' first
    | with_reducible assumption
    | (with_reducible refine fun h => ?_)
    | (lift_lets; intro v; first | (refine Kept.cut (s := v) ?_ (fun hv => ?_); rotate_left; clear_value v; rotate_right) | clear_value v)
    | with_reducible apply State.setEng_kept
    | with_reducible apply Kept.ite
    | with_reducible apply Kept.foldl
    | split
    | (refine Kept.mk_ ?_ rfl rfl rfl rfl; assumption)

theorem State.killChain_kept {a s : State} {x1 x2} (h : Kept a s) : Kept a (State.killChain s x1 x2) := by
  unfold State.killChain
  repeat' first
    | with_reducible assumption
    | (with_reducible refine fun h => ?_)
    | (lift_lets; intro v; first | (refine Kept.cut (s := v) ?_ (fun hv => ?_); rotate_left; clear_value v; rotate_right) | clear_value v)
    | with_reducible apply State.setEng_kept
    | with_reducible apply Kept.ite
    | with_reducible apply Kept.foldl
    | split
    | (refine Kept.mk_ ?_ rfl rfl rfl rfl; assumption)

theorem State.endTurn_kept {a s : State} {x1 x2} (h : Kept a s) : Kept a (State.endTurn s x1 x2) := by
  unfold State.endTurn
  repeat' first
    | with_reducible assumption
    | (with_reducible refine fun h => ?_)
    | (lift_lets; intro v; first | (refine Kept.cut (s := v) ?_ (fun hv => ?_); rotate_left; clear_value v; rotate_right) | clear_value v)
    | with_reducible apply State.setEng_kept
    | with_reducible apply Kept.ite
    | with_reducible apply Kept.foldl
    | split
    | (refine Kept.mk_ ?_ rfl rfl rfl rfl; assumption)

theorem State.recordEntry_kept {a s : State} {x1 x2} (h : Kept a s) : Kept a (State.recordEntry s x1 x2) := by
  unfold State.recordEntry
  repeat' first
    | with_reducible assumption
    | (with_reducible refine fun h => ?_)
    | (lift_lets; intro v; first | (refine Kept.cut (s := v) ?_ (fun hv => ?_); rotate_left; clear_value v; rotate_right) | clear_value v)
    | with_reducible apply State.undefineRaced_kept
    | with_reducible apply State.endTurn_kept
    | with_reducible apply State.poisonIncomplete_kept
    | with_reducible apply State.abandonSent_kept
    | with_reducible apply State.writeRecord_kept
    | with_reducible apply State.sigEn_kept
    | with_reducible apply State.addRec_kept
    | with_reducible apply State.colFlag_kept
    | with_reducible apply State.killChain_kept
    | with_reducible apply State.streamDone_kept
    | with_reducible apply State.setEng_kept
    | with_reducible apply Kept.ite
    | with_reducible apply Kept.foldl
    | split
    | (refine Kept.mk_ ?_ rfl rfl rfl rfl; assumption)

theorem State.flushN_kept {a s : State} {n e} (h : Kept a s) : Kept a (State.flushN n s e) := by
  induction n generalizing s e with
  | zero => exact h
  | succ n ih =>
    unfold State.flushN
    refine Kept.foldl (State.setEng_kept h) fun s x h => ?_
    exact Kept.foldl (State.recordEntry_kept h) fun s x h => ih (State.closeEntry_kept h)

theorem State.flush_kept {a s : State} {x1} (h : Kept a s) : Kept a (State.flush s x1) := by
  unfold State.flush
  repeat' first
    | with_reducible assumption
    | (with_reducible refine fun h => ?_)
    | (lift_lets; intro v; first | (refine Kept.cut (s := v) ?_ (fun hv => ?_); rotate_left; clear_value v; rotate_right) | clear_value v)
    | with_reducible apply State.flushN_kept
    | with_reducible apply Kept.ite
    | with_reducible apply Kept.foldl
    | split
    | (refine Kept.mk_ ?_ rfl rfl rfl rfl; assumption)

theorem State.endEntry_kept {a s : State} {x1 x2 x3} (h : Kept a s) : Kept a (State.endEntry s x1 x2 x3) := by
  unfold State.endEntry
  repeat' first
    | with_reducible assumption
    | (with_reducible refine fun h => ?_)
    | (lift_lets; intro v; first | (refine Kept.cut (s := v) ?_ (fun hv => ?_); rotate_left; clear_value v; rotate_right) | clear_value v)
    | with_reducible apply State.flush_kept
    | with_reducible apply State.closeEntry_kept
    | with_reducible apply Kept.ite
    | with_reducible apply Kept.foldl
    | split
    | (refine Kept.mk_ ?_ rfl rfl rfl rfl; assumption)

theorem State.fillQueue_kept {a s : State} {x1} (h : Kept a s) : Kept a (State.fillQueue s x1) := by
  unfold State.fillQueue
  repeat' first
    | with_reducible assumption
    | (with_reducible refine fun h => ?_)
    | (lift_lets; intro v; first | (refine Kept.cut (s := v) ?_ (fun hv => ?_); rotate_left; clear_value v; rotate_right) | clear_value v)
    | with_reducible apply State.setEng_kept
    | with_reducible apply Kept.ite
    | with_reducible apply Kept.foldl
    | split
    | (refine Kept.mk_ ?_ rfl rfl rfl rfl; assumption)

theorem State.begin__kept {a s : State} {x1 x2 x3} (h : Kept a s) : Kept a (State.begin_ s x1 x2 x3) := by
  unfold State.begin_
  repeat' first
    | with_reducible assumption
    | (with_reducible refine fun h => ?_)
    | (lift_lets; intro v; first | (refine Kept.cut (s := v) ?_ (fun hv => ?_); rotate_left; clear_value v; rotate_right) | clear_value v)
    | with_reducible apply State.setEng_kept
    | with_reducible apply State.noteRaces_kept
    | with_reducible apply State.traceCmd_kept
    | with_reducible apply State.fillQueue_kept
    | with_reducible apply Kept.ite
    | with_reducible apply Kept.foldl
    | split
    | (refine Kept.mk_ ?_ rfl rfl rfl rfl; assumption)

theorem State.atOnce_kept {a s : State} {x1 x2 x3 x4 x5} (h : Kept a s) : Kept a (State.atOnce s x1 x2 x3 x4 x5) := by
  unfold State.atOnce
  repeat' first
    | with_reducible assumption
    | (with_reducible refine fun h => ?_)
    | (lift_lets; intro v; first | (refine Kept.cut (s := v) ?_ (fun hv => ?_); rotate_left; clear_value v; rotate_right) | clear_value v)
    | with_reducible apply State.endEntry_kept
    | with_reducible apply State.begin__kept
    | with_reducible apply Kept.ite
    | with_reducible apply Kept.foldl
    | split
    | (refine Kept.mk_ ?_ rfl rfl rfl rfl; assumption)

theorem State.packet_kept {a s : State} {e op ev f} (h : Kept a s) (hf : ∀ t g x b, Kept a t → KeptR a (f t g x b)) :
    KeptR a (State.packet s e op ev f) := by
  unfold State.packet
  split
  · split
    · exact KeptR.ok (State.setEng_kept (State.begin__kept h))
    · exact hf _ _ _ _ (State.memEvents_kept h)
  · exact KeptR.ok h

theorem State.updEntry_kept {a s : State} {x1 x2 x3} (h : Kept a s) : Kept a (State.updEntry s x1 x2 x3) := by
  unfold State.updEntry
  repeat' first
    | with_reducible assumption
    | (with_reducible refine fun h => ?_)
    | (lift_lets; intro v; first | (refine Kept.cut (s := v) ?_ (fun hv => ?_); rotate_left; clear_value v; rotate_right) | clear_value v)
    | with_reducible apply State.setEng_kept
    | with_reducible apply Kept.ite
    | with_reducible apply Kept.foldl
    | split
    | (refine Kept.mk_ ?_ rfl rfl rfl rfl; assumption)

theorem State.updChain_kept {a s : State} {x1 x2 x3} (h : Kept a s) : Kept a (State.updChain s x1 x2 x3) := by
  unfold State.updChain
  repeat' first
    | with_reducible assumption
    | (with_reducible refine fun h => ?_)
    | (lift_lets; intro v; first | (refine Kept.cut (s := v) ?_ (fun hv => ?_); rotate_left; clear_value v; rotate_right) | clear_value v)
    | with_reducible apply State.setEng_kept
    | with_reducible apply Kept.ite
    | with_reducible apply Kept.foldl
    | split
    | (refine Kept.mk_ ?_ rfl rfl rfl rfl; assumption)

theorem State.taken_kept {a s : State} {x1 x2 x3} (h : Kept a s) : Kept a (State.taken s x1 x2 x3) := by
  unfold State.taken
  repeat' first
    | with_reducible assumption
    | (with_reducible refine fun h => ?_)
    | (lift_lets; intro v; first | (refine Kept.cut (s := v) ?_ (fun hv => ?_); rotate_left; clear_value v; rotate_right) | clear_value v)
    | with_reducible apply State.updChain_kept
    | with_reducible apply Kept.ite
    | with_reducible apply Kept.foldl
    | split
    | (refine Kept.mk_ ?_ rfl rfl rfl rfl; assumption)

theorem State.unitMade_kept {a s : State} {x1 x2 x3} (h : Kept a s) : Kept a (State.unitMade s x1 x2 x3) := by
  unfold State.unitMade
  repeat' first
    | with_reducible assumption
    | (with_reducible refine fun h => ?_)
    | (lift_lets; intro v; first | (refine Kept.cut (s := v) ?_ (fun hv => ?_); rotate_left; clear_value v; rotate_right) | clear_value v)
    | with_reducible apply State.updEntry_kept
    | with_reducible apply State.updChain_kept
    | with_reducible apply Kept.ite
    | with_reducible apply Kept.foldl
    | split
    | (refine Kept.mk_ ?_ rfl rfl rfl rfl; assumption)

theorem State.unitDone_kept {a s : State} {x1 x2} (h : Kept a s) : Kept a (State.unitDone s x1 x2) := by
  unfold State.unitDone
  repeat' first
    | with_reducible assumption
    | (with_reducible refine fun h => ?_)
    | (lift_lets; intro v; first | (refine Kept.cut (s := v) ?_ (fun hv => ?_); rotate_left; clear_value v; rotate_right) | clear_value v)
    | with_reducible apply State.taken_kept
    | with_reducible apply State.unitMade_kept
    | with_reducible apply Kept.ite
    | with_reducible apply Kept.foldl
    | split
    | (refine Kept.mk_ ?_ rfl rfl rfl rfl; assumption)

theorem State.runUnits_kept {a s : State} {unit n e pos} (h : Kept a s) (hf : ∀ s e x t, Kept a s → Kept a (unit s e x t)) :
    Kept a (State.runUnits unit n s e pos) := by
  induction n generalizing s with
  | zero => exact h
  | succ n ih =>
    unfold State.runUnits
    split
    · exact Kept.ite (ih (hf _ _ _ _ h)) h
    · exact h

theorem State.chainBegin_kept {a s : State} {x1 x2 x3 x4 x5} (h : Kept a s) : Kept a (State.chainBegin s x1 x2 x3 x4 x5).2.2 := by
  unfold State.chainBegin
  repeat' first
    | with_reducible assumption
    | (with_reducible refine fun h => ?_)
    | (lift_lets; intro v; first | (refine Kept.cut (s := v) ?_ (fun hv => ?_); rotate_left; clear_value v; rotate_right) | clear_value v)
    | with_reducible apply State.setEng_kept
    | with_reducible apply Kept.ite
    | with_reducible apply Kept.foldl
    | with_reducible apply Kept.ite2
    | with_reducible apply Kept.ite3
    | with_reducible apply Kept.foldl2
    | with_reducible apply Kept.foldl3
    | split
    | (refine Kept.mk_ ?_ rfl rfl rfl rfl; assumption)

theorem State.chainBegin_keptE {a s : State} {x1 x2 x3 x4 x5} {q r t} (e : State.chainBegin s x1 x2 x3 x4 x5 = (q, r, t)) (h : Kept a s) : Kept a t := Kept.of_triple e (State.chainBegin_kept h)

theorem State.refuseCmd_kept {a s : State} {x1 x2 x3 x4 x5 x6} (h : Kept a s) : Kept a (State.refuseCmd s x1 x2 x3 x4 x5 x6) := by
  unfold State.refuseCmd
  repeat' first
    | with_reducible assumption
    | (with_reducible refine fun h => ?_)
    | (lift_lets; intro v; first | (refine Kept.cut (s := v) ?_ (fun hv => ?_); rotate_left; clear_value v; rotate_right) | clear_value v)
    | with_reducible apply State.chainBegin_kept
    | (with_reducible apply State.chainBegin_keptE; · assumption)
    | with_reducible apply State.killChain_kept
    | with_reducible apply State.endEntry_kept
    | with_reducible apply State.begin__kept
    | with_reducible apply Kept.ite
    | with_reducible apply Kept.foldl
    | split
    | (refine Kept.mk_ ?_ rfl rfl rfl rfl; assumption)

theorem State.loseCmd_kept {a s : State} {x1 x2 x3 x4 x5} (h : Kept a s) : Kept a (State.loseCmd s x1 x2 x3 x4 x5) := by
  unfold State.loseCmd
  repeat' first
    | with_reducible assumption
    | (with_reducible refine fun h => ?_)
    | (lift_lets; intro v; first | (refine Kept.cut (s := v) ?_ (fun hv => ?_); rotate_left; clear_value v; rotate_right) | clear_value v)
    | with_reducible apply State.chainBegin_kept
    | (with_reducible apply State.chainBegin_keptE; · assumption)
    | with_reducible apply State.updChain_kept
    | with_reducible apply State.endEntry_kept
    | with_reducible apply State.begin__kept
    | with_reducible apply Kept.ite
    | with_reducible apply Kept.foldl
    | split
    | (refine Kept.mk_ ?_ rfl rfl rfl rfl; assumption)

theorem State.checkPair_kept {a s : State} {x1 x2} (h : Kept a s) : Kept a (State.checkPair s x1 x2) := by
  unfold State.checkPair
  dsimp only
  repeat' first
    | with_reducible assumption
    | (with_reducible refine fun h => ?_)
    | with_reducible apply State.endEntry_kept
    | with_reducible apply State.closeEntry_kept
    | with_reducible apply State.flush_kept
    | with_reducible apply Kept.ite
    | with_reducible apply Kept.foldl
    | with_reducible apply Kept.ite2
    | with_reducible apply Kept.ite3
    | with_reducible apply Kept.foldl2
    | with_reducible apply Kept.foldl3
    | split
    | (refine Kept.mk_ ?_ rfl rfl rfl rfl; assumption)

theorem execNop_kept {a s : State} {x1} (h : Kept a s) : KeptR a (execNop x1 s) := by
  unfold execNop
  repeat' first
    | with_reducible assumption
    | (with_reducible refine fun h => ?_)
    | (lift_lets; intro v; first | (refine Kept.cut (s := v) ?_ (fun hv => ?_); rotate_left; clear_value v; rotate_right) | clear_value v)
    | with_reducible apply State.packet_kept
    | with_reducible apply KeptR.ok
    | with_reducible apply State.atOnce_kept
    | with_reducible apply KeptR.next_
    | with_reducible apply KeptR.ite
    | with_reducible exact KeptR.fault
    | with_reducible apply Kept.ite
    | with_reducible apply Kept.foldl
    | split
    | (refine Kept.mk_ ?_ rfl rfl rfl rfl; assumption)

theorem execEndPkt_kept {a s : State} {x1} (h : Kept a s) : KeptR a (execEndPkt x1 s) := by
  unfold execEndPkt
  repeat' first
    | with_reducible assumption
    | (with_reducible refine fun h => ?_)
    | (lift_lets; intro v; first | (refine Kept.cut (s := v) ?_ (fun hv => ?_); rotate_left; clear_value v; rotate_right) | clear_value v)
    | with_reducible apply State.packet_kept
    | with_reducible apply KeptR.ok
    | with_reducible apply State.atOnce_kept
    | with_reducible apply KeptR.next_
    | with_reducible apply KeptR.ite
    | with_reducible exact KeptR.fault
    | with_reducible apply Kept.ite
    | with_reducible apply Kept.foldl
    | split
    | (refine Kept.mk_ ?_ rfl rfl rfl rfl; assumption)

theorem execWait_kept {a s : State} {x1} (h : Kept a s) : KeptR a (execWait x1 s) := by
  unfold execWait
  repeat' first
    | with_reducible assumption
    | (with_reducible refine fun h => ?_)
    | (lift_lets; intro v; first | (refine Kept.cut (s := v) ?_ (fun hv => ?_); rotate_left; clear_value v; rotate_right) | clear_value v)
    | with_reducible apply State.packet_kept
    | with_reducible apply KeptR.ok
    | with_reducible apply State.atOnce_kept
    | with_reducible apply State.begin__kept
    | with_reducible apply KeptR.next_
    | with_reducible apply KeptR.ite
    | with_reducible exact KeptR.fault
    | with_reducible apply Kept.ite
    | with_reducible apply Kept.foldl
    | split
    | (refine Kept.mk_ ?_ rfl rfl rfl rfl; assumption)

theorem execWaitSatisfied_kept {a s : State} {x1} (h : Kept a s) : KeptR a (execWaitSatisfied x1 s) := by
  unfold execWaitSatisfied
  repeat' first
    | with_reducible assumption
    | (with_reducible refine fun h => ?_)
    | (lift_lets; intro v; first | (refine Kept.cut (s := v) ?_ (fun hv => ?_); rotate_left; clear_value v; rotate_right) | clear_value v)
    | with_reducible apply KeptR.ok
    | with_reducible apply State.setCtr_kept
    | with_reducible apply State.setEng_kept
    | with_reducible apply State.endEntry_kept
    | with_reducible apply State.traceCmd_kept
    | with_reducible apply KeptR.next_
    | with_reducible apply KeptR.ite
    | with_reducible exact KeptR.fault
    | with_reducible apply Kept.ite
    | with_reducible apply Kept.foldl
    | split
    | (refine Kept.mk_ ?_ rfl rfl rfl rfl; assumption)

theorem execSignal_kept {a s : State} {x1} (h : Kept a s) : KeptR a (execSignal x1 s) := by
  unfold execSignal
  repeat' first
    | with_reducible assumption
    | (with_reducible refine fun h => ?_)
    | (lift_lets; intro v; try (refine Kept.cut (s := v) ?_ (fun hv => ?_); rotate_left; clear_value v; rotate_right))
    | with_reducible apply State.packet_kept
    | with_reducible apply KeptR.ok
    | with_reducible apply State.atOnce_kept
    | with_reducible apply State.addCtr_kept
    | with_reducible apply State.traceCmd_kept
    | with_reducible apply State.countIssue_kept
    | with_reducible apply State.endEntry_kept
    | with_reducible apply State.begin__kept
    | with_reducible apply State.emit_kept
    | with_reducible apply KeptR.next_
    | with_reducible apply KeptR.ite
    | with_reducible exact KeptR.fault
    | with_reducible apply Kept.ite
    | with_reducible apply Kept.foldl
    | split
    | (refine Kept.mk_ ?_ rfl rfl rfl rfl; assumption)
    | (refine Kept.mk_ ?_ rfl rfl rfl rfl; first | with_reducible assumption | (with_reducible refine fun h => ?_) | with_reducible apply State.packet_kept | with_reducible apply KeptR.ok | with_reducible apply State.atOnce_kept | with_reducible apply State.addCtr_kept | with_reducible apply State.traceCmd_kept | with_reducible apply State.countIssue_kept | with_reducible apply State.endEntry_kept | with_reducible apply State.begin__kept | with_reducible apply State.emit_kept | with_reducible apply KeptR.next_ | with_reducible apply KeptR.ite | with_reducible exact KeptR.fault | with_reducible apply Kept.ite | with_reducible apply Kept.foldl | split)

theorem execRemoteSignalAck_kept {a s : State} {x1 x2} (h : Kept a s) : KeptR a (execRemoteSignalAck x1 x2 s) := by
  unfold execRemoteSignalAck
  repeat' first
    | with_reducible assumption
    | (with_reducible refine fun h => ?_)
    | (lift_lets; intro v; try (refine Kept.cut (s := v) ?_ (fun hv => ?_); rotate_left; clear_value v; rotate_right))
    | with_reducible apply KeptR.ok
    | with_reducible apply State.setEng_kept
    | with_reducible apply State.endEntry_kept
    | with_reducible apply KeptR.next_
    | with_reducible apply KeptR.ite
    | with_reducible exact KeptR.fault
    | with_reducible apply Kept.ite
    | with_reducible apply Kept.foldl
    | split
    | (refine Kept.mk_ ?_ rfl rfl rfl rfl; assumption)
    | (refine Kept.mk_ ?_ rfl rfl rfl rfl; first | with_reducible assumption | (with_reducible refine fun h => ?_) | with_reducible apply KeptR.ok | with_reducible apply State.setEng_kept | with_reducible apply State.endEntry_kept | with_reducible apply KeptR.next_ | with_reducible apply KeptR.ite | with_reducible exact KeptR.fault | with_reducible apply Kept.ite | with_reducible apply Kept.foldl | split)

theorem execLoop_kept {a s : State} {x1 x2} (h : Kept a s) : KeptR a (execLoop x1 s x2) := by
  unfold execLoop
  repeat' first
    | with_reducible assumption
    | (with_reducible refine fun h => ?_)
    | (lift_lets; intro v; first | (refine Kept.cut (s := v) ?_ (fun hv => ?_); rotate_left; clear_value v; rotate_right) | clear_value v)
    | with_reducible apply State.packet_kept
    | with_reducible apply KeptR.ok
    | with_reducible apply State.touch_kept
    | (with_reducible apply State.touch_keptE; · assumption)
    | with_reducible apply State.atOnce_kept
    | with_reducible apply State.setEng_kept
    | with_reducible apply KeptR.next_
    | with_reducible apply KeptR.ite
    | with_reducible exact KeptR.fault
    | with_reducible apply Kept.ite
    | with_reducible apply Kept.foldl
    | split
    | (refine Kept.mk_ ?_ rfl rfl rfl rfl; assumption)

theorem execEndloop_kept {a s : State} {x1} (h : Kept a s) : KeptR a (execEndloop x1 s) := by
  unfold execEndloop
  repeat' first
    | with_reducible assumption
    | (with_reducible refine fun h => ?_)
    | (lift_lets; intro v; first | (refine Kept.cut (s := v) ?_ (fun hv => ?_); rotate_left; clear_value v; rotate_right) | clear_value v)
    | with_reducible apply State.packet_kept
    | with_reducible apply KeptR.ok
    | with_reducible apply State.atOnce_kept
    | with_reducible apply State.setEng_kept
    | with_reducible apply KeptR.next_
    | with_reducible apply KeptR.ite
    | with_reducible exact KeptR.fault
    | with_reducible apply Kept.ite
    | with_reducible apply Kept.foldl
    | split
    | (refine Kept.mk_ ?_ rfl rfl rfl rfl; assumption)

theorem execSetreg_kept {a s : State} {x1} (h : Kept a s) : KeptR a (execSetreg x1 s) := by
  unfold execSetreg
  repeat' first
    | with_reducible assumption
    | (with_reducible refine fun h => ?_)
    | (lift_lets; intro v; try (refine Kept.cut (s := v) ?_ (fun hv => ?_); rotate_left; clear_value v; rotate_right))
    | with_reducible apply State.packet_kept
    | with_reducible apply State.atOnce_kept
    | with_reducible apply KeptR.ok
    | with_reducible apply State.setEng_kept
    | with_reducible apply KeptR.next_
    | with_reducible apply KeptR.ite
    | with_reducible exact KeptR.fault
    | with_reducible apply Kept.ite
    | with_reducible apply Kept.foldl
    | split
    | (refine Kept.mk_ ?_ rfl rfl rfl rfl; assumption)

/-! ## Array -/

theorem State.elem_kept {a s : State} {x1 x2 x3 x4 x5} (h : Kept a s) : Kept a (State.elem s x1 x2 x3 x4 x5).2.2.2 := by
  unfold State.elem
  dsimp only
  repeat' first
    | with_reducible assumption
    | (with_reducible refine fun h => ?_)
    | with_reducible apply State.touch_kept
    | (with_reducible apply State.touch_keptE; · assumption)
    | with_reducible apply Kept.ite
    | with_reducible apply Kept.foldl
    | with_reducible apply Kept.ite2
    | with_reducible apply Kept.ite3
    | with_reducible apply Kept.foldl2
    | with_reducible apply Kept.foldl3
    | split
    | (refine Kept.mk_ ?_ rfl rfl rfl rfl; assumption)

theorem State.elem_keptE {a s : State} {x1 x2 x3 x4 x5} {p q r t} (e : State.elem s x1 x2 x3 x4 x5 = (p, q, r, t)) (h : Kept a s) : Kept a t := Kept.of_quad e (State.elem_kept h)

theorem State.tileElem_kept {a s : State} {x1 x2 x3 x4 x5 x6} (h : Kept a s) : Kept a (State.tileElem s x1 x2 x3 x4 x5 x6).2.2.2 := by
  unfold State.tileElem
  repeat' first
    | with_reducible assumption
    | (with_reducible refine fun h => ?_)
    | (lift_lets; intro v; first | (refine Kept.cut (s := v) ?_ (fun hv => ?_); rotate_left; clear_value v; rotate_right) | clear_value v)
    | with_reducible apply State.elem_kept
    | (with_reducible apply State.elem_keptE; · assumption)
    | with_reducible apply Kept.ite
    | with_reducible apply Kept.foldl
    | with_reducible apply Kept.ite2
    | with_reducible apply Kept.ite3
    | with_reducible apply Kept.foldl2
    | with_reducible apply Kept.foldl3
    | split
    | (refine Kept.mk_ ?_ rfl rfl rfl rfl; assumption)

theorem State.tileElem_keptE {a s : State} {x1 x2 x3 x4 x5 x6} {p q r t} (e : State.tileElem s x1 x2 x3 x4 x5 x6 = (p, q, r, t)) (h : Kept a s) : Kept a t := Kept.of_quad e (State.tileElem_kept h)

theorem State.keptVals_kept {a s : State} {x1 x2 x3 x4 x5} (h : Kept a s) : Kept a (State.keptVals s x1 x2 x3 x4 x5).2 := by
  unfold State.keptVals
  repeat' first
    | with_reducible assumption
    | (with_reducible refine fun h => ?_)
    | (lift_lets; intro v; first | (refine Kept.cut (s := v) ?_ (fun hv => ?_); rotate_left; clear_value v; rotate_right) | clear_value v)
    | with_reducible apply State.elem_kept
    | (with_reducible apply State.elem_keptE; · assumption)
    | with_reducible apply Kept.ite
    | with_reducible apply Kept.foldl
    | with_reducible apply Kept.ite2
    | with_reducible apply Kept.ite3
    | with_reducible apply Kept.foldl2
    | with_reducible apply Kept.foldl3
    | split
    | (refine Kept.mk_ ?_ rfl rfl rfl rfl; assumption)

theorem State.keptVals_keptE {a s : State} {x1 x2 x3 x4 x5} {r t} (e : State.keptVals s x1 x2 x3 x4 x5 = (r, t)) (h : Kept a s) : Kept a t := Kept.of_pair e (State.keptVals_kept h)

theorem State.loadCell_kept {a s : State} {x1 x2 x3 x4 x5 x6} (h : Kept a s) : Kept a (State.loadCell s x1 x2 x3 x4 x5 x6).2.2 := by
  unfold State.loadCell
  repeat' first
    | with_reducible assumption
    | (with_reducible refine fun h => ?_)
    | (lift_lets; intro v; first | (refine Kept.cut (s := v) ?_ (fun hv => ?_); rotate_left; clear_value v; rotate_right) | clear_value v)
    | with_reducible apply State.tileElem_kept
    | (with_reducible apply State.tileElem_keptE; · assumption)
    | with_reducible apply State.keptVals_kept
    | (with_reducible apply State.keptVals_keptE; · assumption)
    | with_reducible apply Kept.ite
    | with_reducible apply Kept.foldl
    | with_reducible apply Kept.ite2
    | with_reducible apply Kept.ite3
    | with_reducible apply Kept.foldl2
    | with_reducible apply Kept.foldl3
    | split
    | (refine Kept.mk_ ?_ rfl rfl rfl rfl; assumption)

theorem State.loadCell_keptE {a s : State} {x1 x2 x3 x4 x5 x6} {q r t} (e : State.loadCell s x1 x2 x3 x4 x5 x6 = (q, r, t)) (h : Kept a s) : Kept a t := Kept.of_triple e (State.loadCell_kept h)

theorem State.readTile_kept {a s : State} {x1 x2 x3 x4 f} (h : Kept a s) (hf : ∀ t r c, Kept a t → Kept a (f t r c).2.2) :
    Kept a (State.readTile s x1 x2 x3 x4 f).2 := by
  unfold State.readTile
  exact Kept.foldl2 h fun _ _ _ h => Kept.foldl2 h fun _ _ _ h => hf _ _ _ h
theorem State.readTile_keptE {a s : State} {x1 x2 x3 x4 f} {r t} (e : State.readTile s x1 x2 x3 x4 f = (r, t)) (h : Kept a s)
    (hf : ∀ t r c, Kept a t → Kept a (f t r c).2.2) : Kept a t := Kept.of_pair e (State.readTile_kept h hf)

theorem State.foldTile_kept {a s : State} {x1 x2 x3 x4 x5 f} (h : Kept a s) (hf : ∀ t r c, Kept a t → Kept a (f t r c).2.2) :
    Kept a (State.foldTile s x1 x2 x3 x4 x5 f).2.2 := by
  unfold State.foldTile
  split
  · exact h
  · exact State.setEng_kept (State.readTile_kept h hf)
theorem State.foldTile_keptE {a s : State} {x1 x2 x3 x4 x5 f} {q r t} (e : State.foldTile s x1 x2 x3 x4 x5 f = (q, r, t)) (h : Kept a s)
    (hf : ∀ t r c, Kept a t → Kept a (f t r c).2.2) : Kept a t := Kept.of_triple e (State.foldTile_kept h hf)

theorem State.loadRow_kept {a s : State} {x1 x2 x3 x4 x5 x6} (h : Kept a s) : Kept a (State.loadRow s x1 x2 x3 x4 x5 x6).2.2 := by
  unfold State.loadRow
  repeat' first
    | with_reducible assumption
    | (with_reducible refine fun h => ?_)
    | (lift_lets; intro v; try (refine Kept.cut (s := v) ?_ (fun hv => ?_); rotate_left; clear_value v; rotate_right))
    | with_reducible apply State.foldTile_kept
    | (with_reducible apply State.foldTile_keptE; · assumption)
    | with_reducible apply State.loadCell_kept
    | (with_reducible apply State.loadCell_keptE; · assumption)
    | with_reducible apply Kept.ite
    | with_reducible apply Kept.foldl
    | with_reducible apply Kept.ite2
    | with_reducible apply Kept.ite3
    | with_reducible apply Kept.foldl2
    | with_reducible apply Kept.foldl3
    | split
    | (refine Kept.mk_ ?_ rfl rfl rfl rfl; assumption)
    | (refine Kept.mk_ ?_ rfl rfl rfl rfl; first | with_reducible assumption | (with_reducible refine fun h => ?_) | with_reducible apply State.foldTile_kept | (with_reducible apply State.foldTile_keptE; · assumption) | with_reducible apply State.loadCell_kept | (with_reducible apply State.loadCell_keptE; · assumption) | with_reducible apply Kept.ite | with_reducible apply Kept.foldl | with_reducible apply Kept.ite2 | with_reducible apply Kept.ite3 | with_reducible apply Kept.foldl2 | with_reducible apply Kept.foldl3 | split)

theorem State.loadRow_keptE {a s : State} {x1 x2 x3 x4 x5 x6} {q r t} (e : State.loadRow s x1 x2 x3 x4 x5 x6 = (q, r, t)) (h : Kept a s) : Kept a t := Kept.of_triple e (State.loadRow_kept h)

theorem State.leafUnit_kept {a s : State} {x1 x2 x3} (h : Kept a s) : Kept a (State.leafUnit s x1 x2 x3) := by
  unfold State.leafUnit
  repeat' first
    | with_reducible assumption
    | (with_reducible refine fun h => ?_)
    | (lift_lets; intro v; first | (refine Kept.cut (s := v) ?_ (fun hv => ?_); rotate_left; clear_value v; rotate_right) | clear_value v)
    | with_reducible apply State.loadRow_kept
    | (with_reducible apply State.loadRow_keptE; · assumption)
    | with_reducible apply State.setEng_kept
    | with_reducible apply State.updEntry_kept
    | with_reducible apply State.unitDone_kept
    | with_reducible apply Kept.ite
    | with_reducible apply Kept.foldl
    | split
    | (refine Kept.mk_ ?_ rfl rfl rfl rfl; assumption)

theorem State.openBack_kept {a s : State} {x1 x2 x3} (h : Kept a s) : Kept a (State.openBack s x1 x2 x3) := by
  unfold State.openBack
  repeat' first
    | with_reducible assumption
    | (with_reducible refine fun h => ?_)
    | (lift_lets; intro v; first | (refine Kept.cut (s := v) ?_ (fun hv => ?_); rotate_left; clear_value v; rotate_right) | clear_value v)
    | with_reducible apply State.setEng_kept
    | with_reducible apply Kept.ite
    | with_reducible apply Kept.foldl
    | split
    | (refine Kept.mk_ ?_ rfl rfl rfl rfl; assumption)

theorem State.leafBegin_kept {a s : State} {x1 x2 x3 x4 x5} (h : Kept a s) : Kept a (State.leafBegin s x1 x2 x3 x4 x5) := by
  unfold State.leafBegin
  repeat' first
    | with_reducible assumption
    | (with_reducible refine fun h => ?_)
    | (lift_lets; intro v; first | (refine Kept.cut (s := v) ?_ (fun hv => ?_); rotate_left; clear_value v; rotate_right) | clear_value v)
    | with_reducible apply State.begin__kept
    | with_reducible apply State.openBack_kept
    | with_reducible apply State.runUnits_kept
    | with_reducible apply State.leafUnit_kept
    | with_reducible apply Kept.ite
    | with_reducible apply Kept.foldl
    | split
    | (refine Kept.mk_ ?_ rfl rfl rfl rfl; assumption)

theorem execLeafLoad_kept {a s : State} {x1 x2 x3} (h : Kept a s) : KeptR a (execLeafLoad x1 x2 s x3) := by
  unfold execLeafLoad
  repeat' first
    | with_reducible assumption
    | (with_reducible refine fun h => ?_)
    | (lift_lets; intro v; try (refine Kept.cut (s := v) ?_ (fun hv => ?_); rotate_left; clear_value v; rotate_right))
    | with_reducible apply State.packet_kept
    | with_reducible apply KeptR.ok
    | with_reducible apply State.refuseCmd_kept
    | with_reducible apply State.leafBegin_kept
    | with_reducible apply State.readList_kept
    | (with_reducible apply State.readList_keptE; · assumption)
    | with_reducible apply State.openBack_kept
    | with_reducible apply State.endEntry_kept
    | with_reducible apply State.begin__kept
    | with_reducible apply KeptR.next_
    | with_reducible apply KeptR.ite
    | with_reducible exact KeptR.fault
    | with_reducible apply Kept.ite
    | with_reducible apply Kept.foldl
    | split
    | (refine Kept.mk_ ?_ rfl rfl rfl rfl; assumption)

theorem State.turnLeaf_kept {a s : State} {x1 x2 x3} (h : Kept a s) : Kept a (State.turnLeaf s x1 x2 x3) := by
  unfold State.turnLeaf
  repeat' first
    | with_reducible assumption
    | (with_reducible refine fun h => ?_)
    | (lift_lets; intro v; first | (refine Kept.cut (s := v) ?_ (fun hv => ?_); rotate_left; clear_value v; rotate_right) | clear_value v)
    | with_reducible apply State.setEng_kept
    | with_reducible apply State.updEntry_kept
    | with_reducible apply State.traceCmd_kept
    | with_reducible apply Kept.ite
    | with_reducible apply Kept.foldl
    | split
    | (refine Kept.mk_ ?_ rfl rfl rfl rfl; assumption)

theorem State.foldRead_kept {a s : State} {x1 x2 x3 x4 x5} (h : Kept a s) : Kept a (State.foldRead s x1 x2 x3 x4 x5).2.2 := by
  unfold State.foldRead
  repeat' first
    | with_reducible assumption
    | (with_reducible refine fun h => ?_)
    | (lift_lets; intro v; try (refine Kept.cut (s := v) ?_ (fun hv => ?_); rotate_left; clear_value v; rotate_right))
    | with_reducible apply State.foldTile_kept
    | (with_reducible apply State.foldTile_keptE; · assumption)
    | with_reducible apply State.elem_kept
    | (with_reducible apply State.elem_keptE; · assumption)
    | with_reducible apply Kept.ite
    | with_reducible apply Kept.foldl
    | with_reducible apply Kept.ite2
    | with_reducible apply Kept.ite3
    | with_reducible apply Kept.foldl2
    | with_reducible apply Kept.foldl3
    | split
    | (refine Kept.mk_ ?_ rfl rfl rfl rfl; assumption)

theorem State.foldRead_keptE {a s : State} {x1 x2 x3 x4 x5} {q r t} (e : State.foldRead s x1 x2 x3 x4 x5 = (q, r, t)) (h : Kept a s) : Kept a t := Kept.of_triple e (State.foldRead_kept h)

theorem State.streamRow_kept {a s : State} {x1 x2 x3 x4 x5 x6} (h : Kept a s) : Kept a (State.streamRow s x1 x2 x3 x4 x5 x6).2 := by
  unfold State.streamRow
  repeat' first
    | with_reducible assumption
    | (with_reducible refine fun h => ?_)
    | (lift_lets; intro v; try (refine Kept.cut (s := v) ?_ (fun hv => ?_); rotate_left; clear_value v; rotate_right))
    | with_reducible apply State.readRaw_kept
    | (with_reducible apply State.readRaw_keptE; · assumption)
    | with_reducible apply State.foldRead_kept
    | (with_reducible apply State.foldRead_keptE; · assumption)
    | with_reducible apply Kept.ite
    | with_reducible apply Kept.foldl
    | with_reducible apply Kept.ite2
    | with_reducible apply Kept.ite3
    | with_reducible apply Kept.foldl2
    | with_reducible apply Kept.foldl3
    | split
    | (refine Kept.mk_ ?_ rfl rfl rfl rfl; assumption)

theorem State.streamRow_keptE {a s : State} {x1 x2 x3 x4 x5 x6} {r t} (e : State.streamRow s x1 x2 x3 x4 x5 x6 = (r, t)) (h : Kept a s) : Kept a t := Kept.of_pair e (State.streamRow_kept h)

theorem State.feed__kept {a s : State} {x1 x2 x3 x4} (h : Kept a s) : Kept a (State.feed_ s x1 x2 x3 x4) := by
  unfold State.feed_
  repeat' first
    | with_reducible assumption
    | (with_reducible refine fun h => ?_)
    | (lift_lets; intro v; first | (refine Kept.cut (s := v) ?_ (fun hv => ?_); rotate_left; clear_value v; rotate_right) | clear_value v)
    | with_reducible apply State.streamRow_kept
    | (with_reducible apply State.streamRow_keptE; · assumption)
    | with_reducible apply State.setEng_kept
    | with_reducible apply State.taken_kept
    | with_reducible apply State.updEntry_kept
    | with_reducible apply Kept.ite
    | with_reducible apply Kept.foldl
    | split
    | (refine Kept.mk_ ?_ rfl rfl rfl rfl; assumption)

theorem State.arithError_kept {a s : State} {x1} (h : Kept a s) : Kept a (State.arithError s x1) := by
  unfold State.arithError
  dsimp only
  repeat' first
    | with_reducible assumption
    | (with_reducible refine fun h => ?_)
    | with_reducible apply State.setSched_kept
    | with_reducible apply Kept.ite
    | with_reducible apply Kept.foldl
    | with_reducible apply Kept.ite2
    | with_reducible apply Kept.ite3
    | with_reducible apply Kept.foldl2
    | with_reducible apply Kept.foldl3
    | split
    | (refine Kept.mk_ ?_ rfl rfl rfl rfl; assumption)
    | (refine Kept.mk_ ?_ rfl rfl rfl rfl; first | with_reducible assumption | (with_reducible refine fun h => ?_) | with_reducible apply State.setSched_kept | with_reducible apply Kept.ite | with_reducible apply Kept.foldl | with_reducible apply Kept.ite2 | with_reducible apply Kept.ite3 | with_reducible apply Kept.foldl2 | with_reducible apply Kept.foldl3 | split)

theorem State.flipProduct_kept {a s : State} {x1 x2 x3} (h : Kept a s) : Kept a (State.flipProduct s x1 x2 x3).2.2 := by
  unfold State.flipProduct
  repeat' first
    | with_reducible assumption
    | (with_reducible refine fun h => ?_)
    | (lift_lets; intro v; first | (refine Kept.cut (s := v) ?_ (fun hv => ?_); rotate_left; clear_value v; rotate_right) | clear_value v)
    | (with_reducible apply State.meet_keptE; · assumption)
    | with_reducible apply State.fresh_kept
    | (with_reducible apply State.fresh_keptE; · assumption)
    | with_reducible apply Kept.ite
    | with_reducible apply Kept.foldl
    | with_reducible apply Kept.ite2
    | with_reducible apply Kept.ite3
    | with_reducible apply Kept.foldl2
    | with_reducible apply Kept.foldl3
    | split
    | (refine Kept.mk_ ?_ rfl rfl rfl rfl; assumption)
    | (refine Kept.mk_ ?_ rfl rfl rfl rfl; first | with_reducible assumption | (with_reducible refine fun h => ?_) | (with_reducible apply State.meet_keptE; · assumption) | with_reducible apply State.fresh_kept | (with_reducible apply State.fresh_keptE; · assumption) | with_reducible apply Kept.ite | with_reducible apply Kept.foldl | with_reducible apply Kept.ite2 | with_reducible apply Kept.ite3 | with_reducible apply Kept.foldl2 | with_reducible apply Kept.foldl3 | split)

theorem State.flipProduct_keptE {a s : State} {x1 x2 x3} {q r t} (e : State.flipProduct s x1 x2 x3 = (q, r, t)) (h : Kept a s) : Kept a t := Kept.of_triple e (State.flipProduct_kept h)

theorem State.checkRow_kept {a s : State} {x1 x2 x3 x4 x5} (h : Kept a s) : Kept a (State.checkRow s x1 x2 x3 x4 x5) := by
  unfold State.checkRow
  repeat' first
    | with_reducible assumption
    | (with_reducible refine fun h => ?_)
    | (lift_lets; intro v; first | (refine Kept.cut (s := v) ?_ (fun hv => ?_); rotate_left; clear_value v; rotate_right) | clear_value v)
    | with_reducible apply State.addRec_kept
    | with_reducible apply State.sampleStatus_kept
    | with_reducible apply State.colFlag_kept
    | with_reducible apply State.arithError_kept
    | with_reducible apply Kept.ite
    | with_reducible apply Kept.foldl
    | split
    | (refine Kept.mk_ ?_ rfl rfl rfl rfl; assumption)

theorem State.outRow_kept {a s : State} {x1 x2 x3 x4 x5 x6 x7 x8} (h : Kept a s) : Kept a (State.outRow s x1 x2 x3 x4 x5 x6 x7 x8) := by
  unfold State.outRow
  repeat' first
    | with_reducible assumption
    | (with_reducible refine fun h => ?_)
    | (lift_lets; intro v; first | (refine Kept.cut (s := v) ?_ (fun hv => ?_); rotate_left; clear_value v; rotate_right) | clear_value v)
    | with_reducible apply State.writeRow_kept
    | (with_reducible apply State.writeRow_keptE; · assumption)
    | with_reducible apply State.updEntry_kept
    | with_reducible apply State.unitMade_kept
    | with_reducible apply Kept.ite
    | with_reducible apply Kept.foldl
    | split
    | (refine Kept.mk_ ?_ rfl rfl rfl rfl; assumption)

theorem State.popRow_kept {a s : State} {x1} (h : Kept a s) : Kept a (State.popRow s x1) := by
  unfold State.popRow
  repeat' first
    | with_reducible assumption
    | (with_reducible refine fun h => ?_)
    | (lift_lets; intro v; first | (refine Kept.cut (s := v) ?_ (fun hv => ?_); rotate_left; clear_value v; rotate_right) | clear_value v)
    | with_reducible apply State.setEng_kept
    | with_reducible apply Kept.ite
    | with_reducible apply Kept.foldl
    | split
    | (refine Kept.mk_ ?_ rfl rfl rfl rfl; assumption)

theorem State.rowThrough_kept {a s : State} {x1 x2 x3 x4 x5 x6 x7} (h : Kept a s) : Kept a (State.rowThrough s x1 x2 x3 x4 x5 x6 x7) := by
  unfold State.rowThrough
  repeat' first
    | with_reducible assumption
    | (with_reducible refine fun h => ?_)
    | (lift_lets; intro v; first | (refine Kept.cut (s := v) ?_ (fun hv => ?_); rotate_left; clear_value v; rotate_right) | clear_value v)
    | with_reducible apply State.readRow_kept
    | (with_reducible apply State.readRow_keptE; · assumption)
    | with_reducible apply State.flipProduct_kept
    | (with_reducible apply State.flipProduct_keptE; · assumption)
    | with_reducible apply State.checkRow_kept
    | with_reducible apply State.outRow_kept
    | with_reducible apply Kept.ite
    | with_reducible apply Kept.foldl
    | split
    | (refine Kept.mk_ ?_ rfl rfl rfl rfl; assumption)

theorem State.streamUnit_kept {a s : State} {x1 x2 x3} (h : Kept a s) : Kept a (State.streamUnit s x1 x2 x3) := by
  unfold State.streamUnit
  dsimp only
  repeat' first
    | with_reducible assumption
    | (with_reducible refine fun h => ?_)
    | with_reducible apply State.turnLeaf_kept
    | with_reducible apply State.feed__kept
    | with_reducible apply State.rowThrough_kept
    | with_reducible apply State.popRow_kept
    | with_reducible apply Kept.ite
    | with_reducible apply Kept.foldl
    | with_reducible apply Kept.ite2
    | with_reducible apply Kept.ite3
    | with_reducible apply Kept.foldl2
    | with_reducible apply Kept.foldl3
    | split
    | (refine Kept.mk_ ?_ rfl rfl rfl rfl; assumption)

theorem State.streamBegin_kept {a s : State} {x1 x2 x3 x4 x5 x6 x7 x8} (h : Kept a s) : Kept a (State.streamBegin s x1 x2 x3 x4 x5 x6 x7 x8) := by
  unfold State.streamBegin
  repeat' first
    | with_reducible assumption
    | (with_reducible refine fun h => ?_)
    | (lift_lets; intro v; first | (refine Kept.cut (s := v) ?_ (fun hv => ?_); rotate_left; clear_value v; rotate_right) | clear_value v)
    | with_reducible apply State.chainBegin_kept
    | (with_reducible apply State.chainBegin_keptE; · assumption)
    | with_reducible apply State.begin__kept
    | with_reducible apply State.checkPair_kept
    | with_reducible apply State.endEntry_kept
    | with_reducible apply State.runUnits_kept
    | with_reducible apply State.streamUnit_kept
    | with_reducible apply Kept.ite
    | with_reducible apply Kept.foldl
    | split
    | (refine Kept.mk_ ?_ rfl rfl rfl rfl; assumption)

theorem State.streamRows_kept {a s : State} {x1 x2 x3 x4 x5 x6 x7 x8 x9 x10} (h : Kept a s) : KeptR a (State.streamRows s x1 x2 x3 x4 x5 x6 x7 x8 x9 x10) := by
  unfold State.streamRows
  repeat' first
    | with_reducible assumption
    | (with_reducible refine fun h => ?_)
    | (lift_lets; intro v; first | (refine Kept.cut (s := v) ?_ (fun hv => ?_); rotate_left; clear_value v; rotate_right) | clear_value v)
    | with_reducible apply KeptR.ok
    | with_reducible apply State.streamBegin_kept
    | with_reducible apply State.refuseCmd_kept
    | with_reducible apply KeptR.next_
    | with_reducible apply KeptR.ite
    | with_reducible exact KeptR.fault
    | with_reducible apply Kept.ite
    | with_reducible apply Kept.foldl
    | split
    | (refine Kept.mk_ ?_ rfl rfl rfl rfl; assumption)

theorem execStreamRows_kept {a s : State} {x1 x2 x3} (h : Kept a s) : KeptR a (execStreamRows x1 x2 x3 s) := by
  unfold execStreamRows
  dsimp only
  repeat' first
    | with_reducible assumption
    | (with_reducible refine fun h => ?_)
    | with_reducible apply State.packet_kept
    | with_reducible apply KeptR.ok
    | with_reducible apply State.readList_kept
    | (with_reducible apply State.readList_keptE; · assumption)
    | with_reducible apply State.refuseCmd_kept
    | with_reducible apply State.poisonRange_kept
    | with_reducible apply State.loseCmd_kept
    | with_reducible apply State.streamRows_kept
    | with_reducible apply KeptR.next_
    | with_reducible apply KeptR.ite
    | with_reducible exact KeptR.fault
    | with_reducible apply Kept.ite
    | with_reducible apply Kept.foldl
    | with_reducible apply Kept.ite2
    | with_reducible apply Kept.ite3
    | with_reducible apply Kept.foldl2
    | with_reducible apply Kept.foldl3
    | split
    | (refine Kept.mk_ ?_ rfl rfl rfl rfl; assumption)

/-! ## Vector -/

theorem State.vxRead_kept {a s : State} {x1 x2 x3 x4 x5 x6} (h : Kept a s) : Kept a (State.vxRead s x1 x2 x3 x4 x5 x6).2 := by
  unfold State.vxRead
  repeat' first
    | with_reducible assumption
    | (with_reducible refine fun h => ?_)
    | (lift_lets; intro v; first | (refine Kept.cut (s := v) ?_ (fun hv => ?_); rotate_left; clear_value v; rotate_right) | clear_value v)
    | with_reducible apply State.readRow_kept
    | (with_reducible apply State.readRow_keptE; · assumption)
    | with_reducible apply Kept.ite
    | with_reducible apply Kept.foldl
    | with_reducible apply Kept.ite2
    | with_reducible apply Kept.ite3
    | with_reducible apply Kept.foldl2
    | with_reducible apply Kept.foldl3
    | split
    | (refine Kept.mk_ ?_ rfl rfl rfl rfl; assumption)

theorem State.vxRead_keptE {a s : State} {x1 x2 x3 x4 x5 x6} {r t} (e : State.vxRead s x1 x2 x3 x4 x5 x6 = (r, t)) (h : Kept a s) : Kept a t := Kept.of_pair e (State.vxRead_kept h)

theorem State.writeSums_kept {a s : State} {x1 x2 x3} (h : Kept a s) : Kept a (State.writeSums s x1 x2 x3).2 := by
  unfold State.writeSums
  repeat' first
    | with_reducible assumption
    | (with_reducible refine fun h => ?_)
    | (lift_lets; intro v; try (refine Kept.cut (s := v) ?_ (fun hv => ?_); rotate_left; clear_value v; rotate_right))
    | with_reducible apply State.writeRow_kept
    | (with_reducible apply State.writeRow_keptE; · assumption)
    | with_reducible apply Kept.ite
    | with_reducible apply Kept.foldl
    | with_reducible apply Kept.ite2
    | with_reducible apply Kept.ite3
    | with_reducible apply Kept.foldl2
    | with_reducible apply Kept.foldl3
    | split
    | (refine Kept.mk_ ?_ rfl rfl rfl rfl; assumption)

theorem State.writeSums_keptE {a s : State} {x1 x2 x3} {r t} (e : State.writeSums s x1 x2 x3 = (r, t)) (h : Kept a s) : Kept a t := Kept.of_pair e (State.writeSums_kept h)

theorem State.vecUnit_kept {a s : State} {x1 x2 x3} (h : Kept a s) : Kept a (State.vecUnit s x1 x2 x3) := by
  unfold State.vecUnit
  dsimp only
  repeat' first
    | with_reducible assumption
    | (with_reducible refine fun h => ?_)
    | with_reducible apply State.vxRead_kept
    | (with_reducible apply State.vxRead_keptE; · assumption)
    | with_reducible apply State.unitDone_kept
    | with_reducible apply State.updEntry_kept
    | with_reducible apply State.writeRow_kept
    | (with_reducible apply State.writeRow_keptE; · assumption)
    | with_reducible apply Kept.ite
    | with_reducible apply Kept.foldl
    | with_reducible apply Kept.ite2
    | with_reducible apply Kept.ite3
    | with_reducible apply Kept.foldl2
    | with_reducible apply Kept.foldl3
    | split
    | (refine Kept.mk_ ?_ rfl rfl rfl rfl; assumption)
    | (refine Kept.mk_ ?_ rfl rfl rfl rfl; first | with_reducible assumption | (with_reducible refine fun h => ?_) | with_reducible apply State.vxRead_kept | (with_reducible apply State.vxRead_keptE; · assumption) | with_reducible apply State.unitDone_kept | with_reducible apply State.updEntry_kept | with_reducible apply State.writeRow_kept | (with_reducible apply State.writeRow_keptE; · assumption) | with_reducible apply Kept.ite | with_reducible apply Kept.foldl | with_reducible apply Kept.ite2 | with_reducible apply Kept.ite3 | with_reducible apply Kept.foldl2 | with_reducible apply Kept.foldl3 | split)

theorem State.vecClose_kept {a s : State} {x1 x2 x3} (h : Kept a s) : Kept a (State.vecClose s x1 x2 x3) := by
  unfold State.vecClose
  repeat' first
    | with_reducible assumption
    | (with_reducible refine fun h => ?_)
    | (lift_lets; intro v; first | (refine Kept.cut (s := v) ?_ (fun hv => ?_); rotate_left; clear_value v; rotate_right) | clear_value v)
    | with_reducible apply State.writeSums_kept
    | (with_reducible apply State.writeSums_keptE; · assumption)
    | with_reducible apply State.updEntry_kept
    | with_reducible apply Kept.ite
    | with_reducible apply Kept.foldl
    | split
    | (refine Kept.mk_ ?_ rfl rfl rfl rfl; assumption)

theorem State.accIn_kept {a s : State} {x1 x2 x3 x4} (h : Kept a s) : Kept a (State.accIn s x1 x2 x3 x4).2.2 := by
  unfold State.accIn
  repeat' first
    | with_reducible assumption
    | (with_reducible refine fun h => ?_)
    | (lift_lets; intro v; try (refine Kept.cut (s := v) ?_ (fun hv => ?_); rotate_left; clear_value v; rotate_right))
    | with_reducible apply State.vxRead_kept
    | (with_reducible apply State.vxRead_keptE; · assumption)
    | with_reducible apply Kept.ite
    | with_reducible apply Kept.foldl
    | with_reducible apply Kept.ite2
    | with_reducible apply Kept.ite3
    | with_reducible apply Kept.foldl2
    | with_reducible apply Kept.foldl3
    | split
    | (refine Kept.mk_ ?_ rfl rfl rfl rfl; assumption)
    | (refine Kept.mk_ ?_ rfl rfl rfl rfl; first | with_reducible assumption | (with_reducible refine fun h => ?_) | with_reducible apply State.vxRead_kept | (with_reducible apply State.vxRead_keptE; · assumption) | with_reducible apply Kept.ite | with_reducible apply Kept.foldl | with_reducible apply Kept.ite2 | with_reducible apply Kept.ite3 | with_reducible apply Kept.foldl2 | with_reducible apply Kept.foldl3 | split)

theorem State.accIn_keptE {a s : State} {x1 x2 x3 x4} {q r t} (e : State.accIn s x1 x2 x3 x4 = (q, r, t)) (h : Kept a s) : Kept a t := Kept.of_triple e (State.accIn_kept h)

theorem State.vecOp_kept {a s : State} {x1 x2 x3 x4} (h : Kept a s) : KeptR a (State.vecOp s x1 x2 x3 x4) := by
  unfold State.vecOp
  dsimp only
  repeat' first
    | with_reducible assumption
    | (with_reducible refine fun h => ?_)
    | with_reducible apply KeptR.ok
    | with_reducible apply State.packet_kept
    | with_reducible apply State.refuseCmd_kept
    | with_reducible apply State.chainBegin_kept
    | (with_reducible apply State.chainBegin_keptE; · assumption)
    | with_reducible apply State.accIn_kept
    | (with_reducible apply State.accIn_keptE; · assumption)
    | with_reducible apply State.begin__kept
    | with_reducible apply State.checkPair_kept
    | with_reducible apply State.endEntry_kept
    | with_reducible apply State.vecClose_kept
    | with_reducible apply State.runUnits_kept
    | with_reducible apply State.vecUnit_kept
    | with_reducible apply KeptR.next_
    | with_reducible apply KeptR.ite
    | with_reducible exact KeptR.fault
    | with_reducible apply Kept.ite
    | with_reducible apply Kept.foldl
    | with_reducible apply Kept.ite2
    | with_reducible apply Kept.ite3
    | with_reducible apply Kept.foldl2
    | with_reducible apply Kept.foldl3
    | split
    | (refine Kept.mk_ ?_ rfl rfl rfl rfl; assumption)

theorem execAdd_kept {a s : State} {x1 x2 x3} (h : Kept a s) : KeptR a (execAdd x1 x2 s x3) := by
  unfold execAdd
  repeat' first
    | with_reducible assumption
    | (with_reducible refine fun h => ?_)
    | (lift_lets; intro v; first | (refine Kept.cut (s := v) ?_ (fun hv => ?_); rotate_left; clear_value v; rotate_right) | clear_value v)
    | with_reducible apply State.vecOp_kept
    | with_reducible apply KeptR.next_
    | with_reducible apply KeptR.ite
    | with_reducible exact KeptR.fault
    | with_reducible apply Kept.ite
    | with_reducible apply Kept.foldl
    | split
    | (refine Kept.mk_ ?_ rfl rfl rfl rfl; assumption)

theorem execSub_kept {a s : State} {x1 x2 x3} (h : Kept a s) : KeptR a (execSub x1 x2 s x3) := by
  unfold execSub
  repeat' first
    | with_reducible assumption
    | (with_reducible refine fun h => ?_)
    | (lift_lets; intro v; first | (refine Kept.cut (s := v) ?_ (fun hv => ?_); rotate_left; clear_value v; rotate_right) | clear_value v)
    | with_reducible apply State.vecOp_kept
    | with_reducible apply KeptR.next_
    | with_reducible apply KeptR.ite
    | with_reducible exact KeptR.fault
    | with_reducible apply Kept.ite
    | with_reducible apply Kept.foldl
    | split
    | (refine Kept.mk_ ?_ rfl rfl rfl rfl; assumption)

theorem execMul_kept {a s : State} {x1 x2 x3} (h : Kept a s) : KeptR a (execMul x1 x2 s x3) := by
  unfold execMul
  repeat' first
    | with_reducible assumption
    | (with_reducible refine fun h => ?_)
    | (lift_lets; intro v; first | (refine Kept.cut (s := v) ?_ (fun hv => ?_); rotate_left; clear_value v; rotate_right) | clear_value v)
    | with_reducible apply State.vecOp_kept
    | with_reducible apply KeptR.next_
    | with_reducible apply KeptR.ite
    | with_reducible exact KeptR.fault
    | with_reducible apply Kept.ite
    | with_reducible apply Kept.foldl
    | split
    | (refine Kept.mk_ ?_ rfl rfl rfl rfl; assumption)

theorem execFma_kept {a s : State} {x1 x2 x3} (h : Kept a s) : KeptR a (execFma x1 x2 s x3) := by
  unfold execFma
  repeat' first
    | with_reducible assumption
    | (with_reducible refine fun h => ?_)
    | (lift_lets; intro v; first | (refine Kept.cut (s := v) ?_ (fun hv => ?_); rotate_left; clear_value v; rotate_right) | clear_value v)
    | with_reducible apply State.vecOp_kept
    | with_reducible apply KeptR.next_
    | with_reducible apply KeptR.ite
    | with_reducible exact KeptR.fault
    | with_reducible apply Kept.ite
    | with_reducible apply Kept.foldl
    | split
    | (refine Kept.mk_ ?_ rfl rfl rfl rfl; assumption)

theorem execMax_kept {a s : State} {x1 x2 x3} (h : Kept a s) : KeptR a (execMax x1 x2 s x3) := by
  unfold execMax
  repeat' first
    | with_reducible assumption
    | (with_reducible refine fun h => ?_)
    | (lift_lets; intro v; first | (refine Kept.cut (s := v) ?_ (fun hv => ?_); rotate_left; clear_value v; rotate_right) | clear_value v)
    | with_reducible apply State.vecOp_kept
    | with_reducible apply KeptR.next_
    | with_reducible apply KeptR.ite
    | with_reducible exact KeptR.fault
    | with_reducible apply Kept.ite
    | with_reducible apply Kept.foldl
    | split
    | (refine Kept.mk_ ?_ rfl rfl rfl rfl; assumption)

theorem execMin_kept {a s : State} {x1 x2 x3} (h : Kept a s) : KeptR a (execMin x1 x2 s x3) := by
  unfold execMin
  repeat' first
    | with_reducible assumption
    | (with_reducible refine fun h => ?_)
    | (lift_lets; intro v; first | (refine Kept.cut (s := v) ?_ (fun hv => ?_); rotate_left; clear_value v; rotate_right) | clear_value v)
    | with_reducible apply State.vecOp_kept
    | with_reducible apply KeptR.next_
    | with_reducible apply KeptR.ite
    | with_reducible exact KeptR.fault
    | with_reducible apply Kept.ite
    | with_reducible apply Kept.foldl
    | split
    | (refine Kept.mk_ ?_ rfl rfl rfl rfl; assumption)

theorem execAbs_kept {a s : State} {x1 x2 x3} (h : Kept a s) : KeptR a (execAbs x1 x2 s x3) := by
  unfold execAbs
  repeat' first
    | with_reducible assumption
    | (with_reducible refine fun h => ?_)
    | (lift_lets; intro v; first | (refine Kept.cut (s := v) ?_ (fun hv => ?_); rotate_left; clear_value v; rotate_right) | clear_value v)
    | with_reducible apply State.vecOp_kept
    | with_reducible apply KeptR.next_
    | with_reducible apply KeptR.ite
    | with_reducible exact KeptR.fault
    | with_reducible apply Kept.ite
    | with_reducible apply Kept.foldl
    | split
    | (refine Kept.mk_ ?_ rfl rfl rfl rfl; assumption)

theorem execNeg_kept {a s : State} {x1 x2 x3} (h : Kept a s) : KeptR a (execNeg x1 x2 s x3) := by
  unfold execNeg
  repeat' first
    | with_reducible assumption
    | (with_reducible refine fun h => ?_)
    | (lift_lets; intro v; first | (refine Kept.cut (s := v) ?_ (fun hv => ?_); rotate_left; clear_value v; rotate_right) | clear_value v)
    | with_reducible apply State.vecOp_kept
    | with_reducible apply KeptR.next_
    | with_reducible apply KeptR.ite
    | with_reducible exact KeptR.fault
    | with_reducible apply Kept.ite
    | with_reducible apply Kept.foldl
    | split
    | (refine Kept.mk_ ?_ rfl rfl rfl rfl; assumption)

theorem execCvt_kept {a s : State} {x1 x2 x3} (h : Kept a s) : KeptR a (execCvt x1 x2 s x3) := by
  unfold execCvt
  repeat' first
    | with_reducible assumption
    | (with_reducible refine fun h => ?_)
    | (lift_lets; intro v; first | (refine Kept.cut (s := v) ?_ (fun hv => ?_); rotate_left; clear_value v; rotate_right) | clear_value v)
    | with_reducible apply State.vecOp_kept
    | with_reducible apply KeptR.next_
    | with_reducible apply KeptR.ite
    | with_reducible exact KeptR.fault
    | with_reducible apply Kept.ite
    | with_reducible apply Kept.foldl
    | split
    | (refine Kept.mk_ ?_ rfl rfl rfl rfl; assumption)

theorem execScale_kept {a s : State} {x1 x2 x3} (h : Kept a s) : KeptR a (execScale x1 x2 s x3) := by
  unfold execScale
  repeat' first
    | with_reducible assumption
    | (with_reducible refine fun h => ?_)
    | (lift_lets; intro v; first | (refine Kept.cut (s := v) ?_ (fun hv => ?_); rotate_left; clear_value v; rotate_right) | clear_value v)
    | with_reducible apply State.vecOp_kept
    | with_reducible apply KeptR.next_
    | with_reducible apply KeptR.ite
    | with_reducible exact KeptR.fault
    | with_reducible apply Kept.ite
    | with_reducible apply Kept.foldl
    | split
    | (refine Kept.mk_ ?_ rfl rfl rfl rfl; assumption)

theorem execSelect_kept {a s : State} {x1 x2 x3} (h : Kept a s) : KeptR a (execSelect x1 x2 s x3) := by
  unfold execSelect
  repeat' first
    | with_reducible assumption
    | (with_reducible refine fun h => ?_)
    | (lift_lets; intro v; first | (refine Kept.cut (s := v) ?_ (fun hv => ?_); rotate_left; clear_value v; rotate_right) | clear_value v)
    | with_reducible apply State.vecOp_kept
    | with_reducible apply KeptR.next_
    | with_reducible apply KeptR.ite
    | with_reducible exact KeptR.fault
    | with_reducible apply Kept.ite
    | with_reducible apply Kept.foldl
    | split
    | (refine Kept.mk_ ?_ rfl rfl rfl rfl; assumption)

theorem execCmp_kept {a s : State} {x1 x2 x3} (h : Kept a s) : KeptR a (execCmp x1 x2 s x3) := by
  unfold execCmp
  repeat' first
    | with_reducible assumption
    | (with_reducible refine fun h => ?_)
    | (lift_lets; intro v; first | (refine Kept.cut (s := v) ?_ (fun hv => ?_); rotate_left; clear_value v; rotate_right) | clear_value v)
    | with_reducible apply State.vecOp_kept
    | with_reducible apply KeptR.next_
    | with_reducible apply KeptR.ite
    | with_reducible exact KeptR.fault
    | with_reducible apply Kept.ite
    | with_reducible apply Kept.foldl
    | split
    | (refine Kept.mk_ ?_ rfl rfl rfl rfl; assumption)

theorem execExp_kept {a s : State} {x1 x2 x3} (h : Kept a s) : KeptR a (execExp x1 x2 s x3) := by
  unfold execExp
  repeat' first
    | with_reducible assumption
    | (with_reducible refine fun h => ?_)
    | (lift_lets; intro v; first | (refine Kept.cut (s := v) ?_ (fun hv => ?_); rotate_left; clear_value v; rotate_right) | clear_value v)
    | with_reducible apply State.vecOp_kept
    | with_reducible apply KeptR.next_
    | with_reducible apply KeptR.ite
    | with_reducible exact KeptR.fault
    | with_reducible apply Kept.ite
    | with_reducible apply Kept.foldl
    | split
    | (refine Kept.mk_ ?_ rfl rfl rfl rfl; assumption)

theorem execLog_kept {a s : State} {x1 x2 x3} (h : Kept a s) : KeptR a (execLog x1 x2 s x3) := by
  unfold execLog
  repeat' first
    | with_reducible assumption
    | (with_reducible refine fun h => ?_)
    | (lift_lets; intro v; first | (refine Kept.cut (s := v) ?_ (fun hv => ?_); rotate_left; clear_value v; rotate_right) | clear_value v)
    | with_reducible apply State.vecOp_kept
    | with_reducible apply KeptR.next_
    | with_reducible apply KeptR.ite
    | with_reducible exact KeptR.fault
    | with_reducible apply Kept.ite
    | with_reducible apply Kept.foldl
    | split
    | (refine Kept.mk_ ?_ rfl rfl rfl rfl; assumption)

theorem execSqrt_kept {a s : State} {x1 x2 x3} (h : Kept a s) : KeptR a (execSqrt x1 x2 s x3) := by
  unfold execSqrt
  repeat' first
    | with_reducible assumption
    | (with_reducible refine fun h => ?_)
    | (lift_lets; intro v; first | (refine Kept.cut (s := v) ?_ (fun hv => ?_); rotate_left; clear_value v; rotate_right) | clear_value v)
    | with_reducible apply State.vecOp_kept
    | with_reducible apply KeptR.next_
    | with_reducible apply KeptR.ite
    | with_reducible exact KeptR.fault
    | with_reducible apply Kept.ite
    | with_reducible apply Kept.foldl
    | split
    | (refine Kept.mk_ ?_ rfl rfl rfl rfl; assumption)

theorem execRsqrt_kept {a s : State} {x1 x2 x3} (h : Kept a s) : KeptR a (execRsqrt x1 x2 s x3) := by
  unfold execRsqrt
  repeat' first
    | with_reducible assumption
    | (with_reducible refine fun h => ?_)
    | (lift_lets; intro v; first | (refine Kept.cut (s := v) ?_ (fun hv => ?_); rotate_left; clear_value v; rotate_right) | clear_value v)
    | with_reducible apply State.vecOp_kept
    | with_reducible apply KeptR.next_
    | with_reducible apply KeptR.ite
    | with_reducible exact KeptR.fault
    | with_reducible apply Kept.ite
    | with_reducible apply Kept.foldl
    | split
    | (refine Kept.mk_ ?_ rfl rfl rfl rfl; assumption)

theorem execRecip_kept {a s : State} {x1 x2 x3} (h : Kept a s) : KeptR a (execRecip x1 x2 s x3) := by
  unfold execRecip
  repeat' first
    | with_reducible assumption
    | (with_reducible refine fun h => ?_)
    | (lift_lets; intro v; first | (refine Kept.cut (s := v) ?_ (fun hv => ?_); rotate_left; clear_value v; rotate_right) | clear_value v)
    | with_reducible apply State.vecOp_kept
    | with_reducible apply KeptR.next_
    | with_reducible apply KeptR.ite
    | with_reducible exact KeptR.fault
    | with_reducible apply Kept.ite
    | with_reducible apply Kept.foldl
    | split
    | (refine Kept.mk_ ?_ rfl rfl rfl rfl; assumption)

theorem execDiv_kept {a s : State} {x1 x2 x3} (h : Kept a s) : KeptR a (execDiv x1 x2 s x3) := by
  unfold execDiv
  repeat' first
    | with_reducible assumption
    | (with_reducible refine fun h => ?_)
    | (lift_lets; intro v; first | (refine Kept.cut (s := v) ?_ (fun hv => ?_); rotate_left; clear_value v; rotate_right) | clear_value v)
    | with_reducible apply State.vecOp_kept
    | with_reducible apply KeptR.next_
    | with_reducible apply KeptR.ite
    | with_reducible exact KeptR.fault
    | with_reducible apply Kept.ite
    | with_reducible apply Kept.foldl
    | split
    | (refine Kept.mk_ ?_ rfl rfl rfl rfl; assumption)

theorem execTanh_kept {a s : State} {x1 x2 x3} (h : Kept a s) : KeptR a (execTanh x1 x2 s x3) := by
  unfold execTanh
  repeat' first
    | with_reducible assumption
    | (with_reducible refine fun h => ?_)
    | (lift_lets; intro v; first | (refine Kept.cut (s := v) ?_ (fun hv => ?_); rotate_left; clear_value v; rotate_right) | clear_value v)
    | with_reducible apply State.vecOp_kept
    | with_reducible apply KeptR.next_
    | with_reducible apply KeptR.ite
    | with_reducible exact KeptR.fault
    | with_reducible apply Kept.ite
    | with_reducible apply Kept.foldl
    | split
    | (refine Kept.mk_ ?_ rfl rfl rfl rfl; assumption)

theorem execSigmoid_kept {a s : State} {x1 x2 x3} (h : Kept a s) : KeptR a (execSigmoid x1 x2 s x3) := by
  unfold execSigmoid
  repeat' first
    | with_reducible assumption
    | (with_reducible refine fun h => ?_)
    | (lift_lets; intro v; first | (refine Kept.cut (s := v) ?_ (fun hv => ?_); rotate_left; clear_value v; rotate_right) | clear_value v)
    | with_reducible apply State.vecOp_kept
    | with_reducible apply KeptR.next_
    | with_reducible apply KeptR.ite
    | with_reducible exact KeptR.fault
    | with_reducible apply Kept.ite
    | with_reducible apply Kept.foldl
    | split
    | (refine Kept.mk_ ?_ rfl rfl rfl rfl; assumption)

theorem execErf_kept {a s : State} {x1 x2 x3} (h : Kept a s) : KeptR a (execErf x1 x2 s x3) := by
  unfold execErf
  repeat' first
    | with_reducible assumption
    | (with_reducible refine fun h => ?_)
    | (lift_lets; intro v; first | (refine Kept.cut (s := v) ?_ (fun hv => ?_); rotate_left; clear_value v; rotate_right) | clear_value v)
    | with_reducible apply State.vecOp_kept
    | with_reducible apply KeptR.next_
    | with_reducible apply KeptR.ite
    | with_reducible exact KeptR.fault
    | with_reducible apply Kept.ite
    | with_reducible apply Kept.foldl
    | split
    | (refine Kept.mk_ ?_ rfl rfl rfl rfl; assumption)

theorem execGelu_kept {a s : State} {x1 x2 x3} (h : Kept a s) : KeptR a (execGelu x1 x2 s x3) := by
  unfold execGelu
  repeat' first
    | with_reducible assumption
    | (with_reducible refine fun h => ?_)
    | (lift_lets; intro v; first | (refine Kept.cut (s := v) ?_ (fun hv => ?_); rotate_left; clear_value v; rotate_right) | clear_value v)
    | with_reducible apply State.vecOp_kept
    | with_reducible apply KeptR.next_
    | with_reducible apply KeptR.ite
    | with_reducible exact KeptR.fault
    | with_reducible apply Kept.ite
    | with_reducible apply Kept.foldl
    | split
    | (refine Kept.mk_ ?_ rfl rfl rfl rfl; assumption)

theorem execSilu_kept {a s : State} {x1 x2 x3} (h : Kept a s) : KeptR a (execSilu x1 x2 s x3) := by
  unfold execSilu
  repeat' first
    | with_reducible assumption
    | (with_reducible refine fun h => ?_)
    | (lift_lets; intro v; first | (refine Kept.cut (s := v) ?_ (fun hv => ?_); rotate_left; clear_value v; rotate_right) | clear_value v)
    | with_reducible apply State.vecOp_kept
    | with_reducible apply KeptR.next_
    | with_reducible apply KeptR.ite
    | with_reducible exact KeptR.fault
    | with_reducible apply Kept.ite
    | with_reducible apply Kept.foldl
    | split
    | (refine Kept.mk_ ?_ rfl rfl rfl rfl; assumption)

theorem execRsum_kept {a s : State} {x1 x2 x3} (h : Kept a s) : KeptR a (execRsum x1 x2 s x3) := by
  unfold execRsum
  repeat' first
    | with_reducible assumption
    | (with_reducible refine fun h => ?_)
    | (lift_lets; intro v; first | (refine Kept.cut (s := v) ?_ (fun hv => ?_); rotate_left; clear_value v; rotate_right) | clear_value v)
    | with_reducible apply State.vecOp_kept
    | with_reducible apply KeptR.next_
    | with_reducible apply KeptR.ite
    | with_reducible exact KeptR.fault
    | with_reducible apply Kept.ite
    | with_reducible apply Kept.foldl
    | split
    | (refine Kept.mk_ ?_ rfl rfl rfl rfl; assumption)

theorem execRsumsq_kept {a s : State} {x1 x2 x3} (h : Kept a s) : KeptR a (execRsumsq x1 x2 s x3) := by
  unfold execRsumsq
  repeat' first
    | with_reducible assumption
    | (with_reducible refine fun h => ?_)
    | (lift_lets; intro v; first | (refine Kept.cut (s := v) ?_ (fun hv => ?_); rotate_left; clear_value v; rotate_right) | clear_value v)
    | with_reducible apply State.vecOp_kept
    | with_reducible apply KeptR.next_
    | with_reducible apply KeptR.ite
    | with_reducible exact KeptR.fault
    | with_reducible apply Kept.ite
    | with_reducible apply Kept.foldl
    | split
    | (refine Kept.mk_ ?_ rfl rfl rfl rfl; assumption)

theorem execRmax_kept {a s : State} {x1 x2 x3} (h : Kept a s) : KeptR a (execRmax x1 x2 s x3) := by
  unfold execRmax
  repeat' first
    | with_reducible assumption
    | (with_reducible refine fun h => ?_)
    | (lift_lets; intro v; first | (refine Kept.cut (s := v) ?_ (fun hv => ?_); rotate_left; clear_value v; rotate_right) | clear_value v)
    | with_reducible apply State.vecOp_kept
    | with_reducible apply KeptR.next_
    | with_reducible apply KeptR.ite
    | with_reducible exact KeptR.fault
    | with_reducible apply Kept.ite
    | with_reducible apply Kept.foldl
    | split
    | (refine Kept.mk_ ?_ rfl rfl rfl rfl; assumption)

theorem execRmin_kept {a s : State} {x1 x2 x3} (h : Kept a s) : KeptR a (execRmin x1 x2 s x3) := by
  unfold execRmin
  repeat' first
    | with_reducible assumption
    | (with_reducible refine fun h => ?_)
    | (lift_lets; intro v; first | (refine Kept.cut (s := v) ?_ (fun hv => ?_); rotate_left; clear_value v; rotate_right) | clear_value v)
    | with_reducible apply State.vecOp_kept
    | with_reducible apply KeptR.next_
    | with_reducible apply KeptR.ite
    | with_reducible exact KeptR.fault
    | with_reducible apply Kept.ite
    | with_reducible apply Kept.foldl
    | split
    | (refine Kept.mk_ ?_ rfl rfl rfl rfl; assumption)

theorem execRamax_kept {a s : State} {x1 x2 x3} (h : Kept a s) : KeptR a (execRamax x1 x2 s x3) := by
  unfold execRamax
  repeat' first
    | with_reducible assumption
    | (with_reducible refine fun h => ?_)
    | (lift_lets; intro v; first | (refine Kept.cut (s := v) ?_ (fun hv => ?_); rotate_left; clear_value v; rotate_right) | clear_value v)
    | with_reducible apply State.vecOp_kept
    | with_reducible apply KeptR.next_
    | with_reducible apply KeptR.ite
    | with_reducible exact KeptR.fault
    | with_reducible apply Kept.ite
    | with_reducible apply Kept.foldl
    | split
    | (refine Kept.mk_ ?_ rfl rfl rfl rfl; assumption)

theorem execRdot_kept {a s : State} {x1 x2 x3} (h : Kept a s) : KeptR a (execRdot x1 x2 s x3) := by
  unfold execRdot
  repeat' first
    | with_reducible assumption
    | (with_reducible refine fun h => ?_)
    | (lift_lets; intro v; first | (refine Kept.cut (s := v) ?_ (fun hv => ?_); rotate_left; clear_value v; rotate_right) | clear_value v)
    | with_reducible apply State.vecOp_kept
    | with_reducible apply KeptR.next_
    | with_reducible apply KeptR.ite
    | with_reducible exact KeptR.fault
    | with_reducible apply Kept.ite
    | with_reducible apply Kept.foldl
    | split
    | (refine Kept.mk_ ?_ rfl rfl rfl rfl; assumption)

theorem execSoftmax_kept {a s : State} {x1 x2 x3} (h : Kept a s) : KeptR a (execSoftmax x1 x2 s x3) := by
  unfold execSoftmax
  repeat' first
    | with_reducible assumption
    | (with_reducible refine fun h => ?_)
    | (lift_lets; intro v; first | (refine Kept.cut (s := v) ?_ (fun hv => ?_); rotate_left; clear_value v; rotate_right) | clear_value v)
    | with_reducible apply State.vecOp_kept
    | with_reducible apply KeptR.next_
    | with_reducible apply KeptR.ite
    | with_reducible exact KeptR.fault
    | with_reducible apply Kept.ite
    | with_reducible apply Kept.foldl
    | split
    | (refine Kept.mk_ ?_ rfl rfl rfl rfl; assumption)

theorem execSoftmaxBwd_kept {a s : State} {x1 x2 x3} (h : Kept a s) : KeptR a (execSoftmaxBwd x1 x2 s x3) := by
  unfold execSoftmaxBwd
  repeat' first
    | with_reducible assumption
    | (with_reducible refine fun h => ?_)
    | (lift_lets; intro v; first | (refine Kept.cut (s := v) ?_ (fun hv => ?_); rotate_left; clear_value v; rotate_right) | clear_value v)
    | with_reducible apply State.vecOp_kept
    | with_reducible apply KeptR.next_
    | with_reducible apply KeptR.ite
    | with_reducible exact KeptR.fault
    | with_reducible apply Kept.ite
    | with_reducible apply Kept.foldl
    | split
    | (refine Kept.mk_ ?_ rfl rfl rfl rfl; assumption)

theorem execLnorm_kept {a s : State} {x1 x2 x3} (h : Kept a s) : KeptR a (execLnorm x1 x2 s x3) := by
  unfold execLnorm
  repeat' first
    | with_reducible assumption
    | (with_reducible refine fun h => ?_)
    | (lift_lets; intro v; first | (refine Kept.cut (s := v) ?_ (fun hv => ?_); rotate_left; clear_value v; rotate_right) | clear_value v)
    | with_reducible apply State.vecOp_kept
    | with_reducible apply KeptR.next_
    | with_reducible apply KeptR.ite
    | with_reducible exact KeptR.fault
    | with_reducible apply Kept.ite
    | with_reducible apply Kept.foldl
    | split
    | (refine Kept.mk_ ?_ rfl rfl rfl rfl; assumption)

theorem execRmsnorm_kept {a s : State} {x1 x2 x3} (h : Kept a s) : KeptR a (execRmsnorm x1 x2 s x3) := by
  unfold execRmsnorm
  repeat' first
    | with_reducible assumption
    | (with_reducible refine fun h => ?_)
    | (lift_lets; intro v; first | (refine Kept.cut (s := v) ?_ (fun hv => ?_); rotate_left; clear_value v; rotate_right) | clear_value v)
    | with_reducible apply State.vecOp_kept
    | with_reducible apply KeptR.next_
    | with_reducible apply KeptR.ite
    | with_reducible exact KeptR.fault
    | with_reducible apply Kept.ite
    | with_reducible apply Kept.foldl
    | split
    | (refine Kept.mk_ ?_ rfl rfl rfl rfl; assumption)

theorem execLnormBwd_kept {a s : State} {x1 x2 x3} (h : Kept a s) : KeptR a (execLnormBwd x1 x2 s x3) := by
  unfold execLnormBwd
  repeat' first
    | with_reducible assumption
    | (with_reducible refine fun h => ?_)
    | (lift_lets; intro v; first | (refine Kept.cut (s := v) ?_ (fun hv => ?_); rotate_left; clear_value v; rotate_right) | clear_value v)
    | with_reducible apply State.vecOp_kept
    | with_reducible apply KeptR.next_
    | with_reducible apply KeptR.ite
    | with_reducible exact KeptR.fault
    | with_reducible apply Kept.ite
    | with_reducible apply Kept.foldl
    | split
    | (refine Kept.mk_ ?_ rfl rfl rfl rfl; assumption)

theorem execRmsnormBwd_kept {a s : State} {x1 x2 x3} (h : Kept a s) : KeptR a (execRmsnormBwd x1 x2 s x3) := by
  unfold execRmsnormBwd
  repeat' first
    | with_reducible assumption
    | (with_reducible refine fun h => ?_)
    | (lift_lets; intro v; first | (refine Kept.cut (s := v) ?_ (fun hv => ?_); rotate_left; clear_value v; rotate_right) | clear_value v)
    | with_reducible apply State.vecOp_kept
    | with_reducible apply KeptR.next_
    | with_reducible apply KeptR.ite
    | with_reducible exact KeptR.fault
    | with_reducible apply Kept.ite
    | with_reducible apply Kept.foldl
    | split
    | (refine Kept.mk_ ?_ rfl rfl rfl rfl; assumption)

theorem execCsum_kept {a s : State} {x1 x2 x3} (h : Kept a s) : KeptR a (execCsum x1 x2 s x3) := by
  unfold execCsum
  repeat' first
    | with_reducible assumption
    | (with_reducible refine fun h => ?_)
    | (lift_lets; intro v; first | (refine Kept.cut (s := v) ?_ (fun hv => ?_); rotate_left; clear_value v; rotate_right) | clear_value v)
    | with_reducible apply State.vecOp_kept
    | with_reducible apply KeptR.next_
    | with_reducible apply KeptR.ite
    | with_reducible exact KeptR.fault
    | with_reducible apply Kept.ite
    | with_reducible apply Kept.foldl
    | split
    | (refine Kept.mk_ ?_ rfl rfl rfl rfl; assumption)

theorem execRfold_kept {a s : State} {x1 x2 x3} (h : Kept a s) : KeptR a (execRfold x1 x2 s x3) := by
  unfold execRfold
  repeat' first
    | with_reducible assumption
    | (with_reducible refine fun h => ?_)
    | (lift_lets; intro v; first | (refine Kept.cut (s := v) ?_ (fun hv => ?_); rotate_left; clear_value v; rotate_right) | clear_value v)
    | with_reducible apply State.vecOp_kept
    | with_reducible apply KeptR.next_
    | with_reducible apply KeptR.ite
    | with_reducible exact KeptR.fault
    | with_reducible apply Kept.ite
    | with_reducible apply Kept.foldl
    | split
    | (refine Kept.mk_ ?_ rfl rfl rfl rfl; assumption)

/-! ## Copy -/

theorem State.convRow_kept {a s : State} {x1 x2 x3 x4 x5 x6 x7 x8 x9 x10 x11} (h : Kept a s) : Kept a (State.convRow s x1 x2 x3 x4 x5 x6 x7 x8 x9 x10 x11).2.2 := by
  unfold State.convRow
  repeat' first
    | with_reducible assumption
    | (with_reducible refine fun h => ?_)
    | (lift_lets; intro v; first | (refine Kept.cut (s := v) ?_ (fun hv => ?_); rotate_left; clear_value v; rotate_right) | clear_value v)
    | with_reducible apply State.readRaw_kept
    | (with_reducible apply State.readRaw_keptE; · assumption)
    | with_reducible apply State.spareBits_kept
    | (with_reducible apply State.spareBits_keptE; · assumption)
    | with_reducible apply State.readRow_kept
    | (with_reducible apply State.readRow_keptE; · assumption)
    | with_reducible apply State.rowPieces_kept
    | (with_reducible apply State.rowPieces_keptE; · assumption)
    | with_reducible apply Kept.ite
    | with_reducible apply Kept.foldl
    | with_reducible apply Kept.ite2
    | with_reducible apply Kept.ite3
    | with_reducible apply Kept.foldl2
    | with_reducible apply Kept.foldl3
    | split
    | (refine Kept.mk_ ?_ rfl rfl rfl rfl; assumption)

theorem State.convRow_keptE {a s : State} {x1 x2 x3 x4 x5 x6 x7 x8 x9 x10 x11} {q r t} (e : State.convRow s x1 x2 x3 x4 x5 x6 x7 x8 x9 x10 x11 = (q, r, t)) (h : Kept a s) : Kept a t := Kept.of_triple e (State.convRow_kept h)

theorem State.itemWrites_kept {a s : State} {x1 x2 x3 x4} (h : Kept a s) : Kept a (State.itemWrites s x1 x2 x3 x4).2.2 := by
  unfold State.itemWrites
  dsimp only
  repeat' first
    | with_reducible assumption
    | (with_reducible refine fun h => ?_)
    | with_reducible apply State.convRow_kept
    | (with_reducible apply State.convRow_keptE; · assumption)
    | with_reducible apply State.rowPieces_kept
    | (with_reducible apply State.rowPieces_keptE; · assumption)
    | with_reducible apply Kept.ite
    | with_reducible apply Kept.foldl
    | with_reducible apply Kept.ite2
    | with_reducible apply Kept.ite3
    | with_reducible apply Kept.foldl2
    | with_reducible apply Kept.foldl3
    | split
    | (refine Kept.mk_ ?_ rfl rfl rfl rfl; assumption)
    | (refine Kept.mk_ ?_ rfl rfl rfl rfl; first | with_reducible assumption | (with_reducible refine fun h => ?_) | with_reducible apply State.convRow_kept | (with_reducible apply State.convRow_keptE; · assumption) | with_reducible apply State.rowPieces_kept | (with_reducible apply State.rowPieces_keptE; · assumption) | with_reducible apply Kept.ite | with_reducible apply Kept.foldl | with_reducible apply Kept.ite2 | with_reducible apply Kept.ite3 | with_reducible apply Kept.foldl2 | with_reducible apply Kept.foldl3 | split)

theorem State.itemWrites_keptE {a s : State} {x1 x2 x3 x4} {q r t} (e : State.itemWrites s x1 x2 x3 x4 = (q, r, t)) (h : Kept a s) : Kept a t := Kept.of_triple e (State.itemWrites_kept h)

theorem State.partWrites_kept {a s : State} {x1 x2 x3 x4} (h : Kept a s) : Kept a (State.partWrites s x1 x2 x3 x4).2.2 := by
  unfold State.partWrites
  repeat' first
    | with_reducible assumption
    | (with_reducible refine fun h => ?_)
    | (lift_lets; intro v; try (refine Kept.cut (s := v) ?_ (fun hv => ?_); rotate_left; clear_value v; rotate_right))
    | with_reducible apply State.itemWrites_kept
    | (with_reducible apply State.itemWrites_keptE; · assumption)
    | with_reducible apply Kept.ite
    | with_reducible apply Kept.foldl
    | with_reducible apply Kept.ite2
    | with_reducible apply Kept.ite3
    | with_reducible apply Kept.foldl2
    | with_reducible apply Kept.foldl3
    | split
    | (refine Kept.mk_ ?_ rfl rfl rfl rfl; assumption)
    | (refine Kept.mk_ ?_ rfl rfl rfl rfl; first | with_reducible assumption | (with_reducible refine fun h => ?_) | with_reducible apply State.itemWrites_kept | (with_reducible apply State.itemWrites_keptE; · assumption) | with_reducible apply Kept.ite | with_reducible apply Kept.foldl | with_reducible apply Kept.ite2 | with_reducible apply Kept.ite3 | with_reducible apply Kept.foldl2 | with_reducible apply Kept.foldl3 | split)

theorem State.partWrites_keptE {a s : State} {x1 x2 x3 x4} {q r t} (e : State.partWrites s x1 x2 x3 x4 = (q, r, t)) (h : Kept a s) : Kept a t := Kept.of_triple e (State.partWrites_kept h)

theorem State.partBits_kept {a s : State} {x1 x2 x3 x4 x5} (h : Kept a s) : Kept a (State.partBits s x1 x2 x3 x4 x5).2.2 := by
  unfold State.partBits
  repeat' first
    | with_reducible assumption
    | (with_reducible refine fun h => ?_)
    | (lift_lets; intro v; first | (refine Kept.cut (s := v) ?_ (fun hv => ?_); rotate_left; clear_value v; rotate_right) | clear_value v)
    | with_reducible apply State.partWrites_kept
    | (with_reducible apply State.partWrites_keptE; · assumption)
    | with_reducible apply State.updEntry_kept
    | with_reducible apply Kept.ite
    | with_reducible apply Kept.foldl
    | with_reducible apply Kept.ite2
    | with_reducible apply Kept.ite3
    | with_reducible apply Kept.foldl2
    | with_reducible apply Kept.foldl3
    | split
    | (refine Kept.mk_ ?_ rfl rfl rfl rfl; assumption)

theorem State.partBits_keptE {a s : State} {x1 x2 x3 x4 x5} {q r t} (e : State.partBits s x1 x2 x3 x4 x5 = (q, r, t)) (h : Kept a s) : Kept a t := Kept.of_triple e (State.partBits_kept h)

theorem State.copyUnit_kept {a s : State} {x1 x2 x3} (h : Kept a s) : Kept a (State.copyUnit s x1 x2 x3) := by
  unfold State.copyUnit
  repeat' first
    | with_reducible assumption
    | (with_reducible refine fun h => ?_)
    | (lift_lets; intro v; first | (refine Kept.cut (s := v) ?_ (fun hv => ?_); rotate_left; clear_value v; rotate_right) | clear_value v)
    | with_reducible apply State.partBits_kept
    | (with_reducible apply State.partBits_keptE; · assumption)
    | with_reducible apply State.updEntry_kept
    | with_reducible apply State.putPieces_kept
    | with_reducible apply State.feed_kept
    | with_reducible apply State.undefine_kept
    | with_reducible apply State.unitMade_kept
    | with_reducible apply State.emit_kept
    | with_reducible apply Kept.ite
    | with_reducible apply Kept.foldl
    | split
    | (refine Kept.mk_ ?_ rfl rfl rfl rfl; assumption)

theorem State.openCopies_kept {a s : State} {x1 x2 x3 x4} (h : Kept a s) : Kept a (State.openCopies s x1 x2 x3 x4) := by
  unfold State.openCopies
  repeat' first
    | with_reducible assumption
    | (with_reducible refine fun h => ?_)
    | (lift_lets; intro v; first | (refine Kept.cut (s := v) ?_ (fun hv => ?_); rotate_left; clear_value v; rotate_right) | clear_value v)
    | with_reducible apply State.emit_kept
    | with_reducible apply Kept.ite
    | with_reducible apply Kept.foldl
    | split
    | (refine Kept.mk_ ?_ rfl rfl rfl rfl; assumption)
    | (refine Kept.mk_ ?_ rfl rfl rfl rfl; first | with_reducible assumption | (with_reducible refine fun h => ?_) | with_reducible apply State.emit_kept | with_reducible apply Kept.ite | with_reducible apply Kept.foldl | split)

theorem State.markRemote_kept {a s : State} {x1 x2 x3} (h : Kept a s) : Kept a (State.markRemote s x1 x2 x3) := by
  unfold State.markRemote
  repeat' first
    | with_reducible assumption
    | (with_reducible refine fun h => ?_)
    | (lift_lets; intro v; first | (refine Kept.cut (s := v) ?_ (fun hv => ?_); rotate_left; clear_value v; rotate_right) | clear_value v)
    | with_reducible apply State.emit_kept
    | with_reducible apply Kept.ite
    | with_reducible apply Kept.foldl
    | split
    | (refine Kept.mk_ ?_ rfl rfl rfl rfl; assumption)

theorem State.copyBegin_kept {a s : State} {x1 x2 x3 x4 x5 x6} (h : Kept a s) : Kept a (State.copyBegin s x1 x2 x3 x4 x5 x6) := by
  unfold State.copyBegin
  repeat' first
    | with_reducible assumption
    | (with_reducible refine fun h => ?_)
    | (lift_lets; intro v; first | (refine Kept.cut (s := v) ?_ (fun hv => ?_); rotate_left; clear_value v; rotate_right) | clear_value v)
    | with_reducible apply State.countIssue_kept
    | with_reducible apply State.chainBegin_kept
    | (with_reducible apply State.chainBegin_keptE; · assumption)
    | with_reducible apply State.begin__kept
    | with_reducible apply State.endEntry_kept
    | with_reducible apply State.checkPair_kept
    | with_reducible apply State.runUnits_kept
    | with_reducible apply State.copyUnit_kept
    | with_reducible apply State.openCopies_kept
    | with_reducible apply Kept.ite
    | with_reducible apply Kept.foldl
    | split
    | (refine Kept.mk_ ?_ rfl rfl rfl rfl; assumption)

theorem State.copyEmpty_kept {a s : State} {x1 x2 x3 x4} (h : Kept a s) : Kept a (State.copyEmpty s x1 x2 x3 x4) := by
  unfold State.copyEmpty
  repeat' first
    | with_reducible assumption
    | (with_reducible refine fun h => ?_)
    | (lift_lets; intro v; first | (refine Kept.cut (s := v) ?_ (fun hv => ?_); rotate_left; clear_value v; rotate_right) | clear_value v)
    | with_reducible apply State.chainBegin_kept
    | (with_reducible apply State.chainBegin_keptE; · assumption)
    | with_reducible apply State.endEntry_kept
    | with_reducible apply State.checkPair_kept
    | with_reducible apply State.begin__kept
    | with_reducible apply Kept.ite
    | with_reducible apply Kept.foldl
    | split
    | (refine Kept.mk_ ?_ rfl rfl rfl rfl; assumption)

theorem execCopy_kept {a s : State} {x1 x2 x3} (h : Kept a s) : KeptR a (execCopy x1 x2 x3 s) := by
  unfold execCopy
  repeat' first
    | with_reducible assumption
    | (with_reducible refine fun h => ?_)
    | (lift_lets; intro v; first | (refine Kept.cut (s := v) ?_ (fun hv => ?_); rotate_left; clear_value v; rotate_right) | clear_value v)
    | with_reducible apply State.packet_kept
    | with_reducible apply KeptR.ok
    | with_reducible apply State.copyEmpty_kept
    | with_reducible apply State.copyBegin_kept
    | with_reducible apply State.refuseCmd_kept
    | with_reducible apply KeptR.next_
    | with_reducible apply KeptR.ite
    | with_reducible exact KeptR.fault
    | with_reducible apply Kept.ite
    | with_reducible apply Kept.foldl
    | split
    | (refine Kept.mk_ ?_ rfl rfl rfl rfl; assumption)

theorem execCopyList_kept {a s : State} {x1 x2 x3} (h : Kept a s) : KeptR a (execCopyList x1 x2 s x3) := by
  unfold execCopyList
  repeat' first
    | with_reducible assumption
    | (with_reducible refine fun h => ?_)
    | (lift_lets; intro v; try (refine Kept.cut (s := v) ?_ (fun hv => ?_); rotate_left; clear_value v; rotate_right))
    | with_reducible apply State.packet_kept
    | with_reducible apply KeptR.ok
    | with_reducible apply State.copyEmpty_kept
    | with_reducible apply State.readList_kept
    | (with_reducible apply State.readList_keptE; · assumption)
    | with_reducible apply State.refuseCmd_kept
    | with_reducible apply State.poisonRange_kept
    | with_reducible apply State.markRemote_kept
    | with_reducible apply State.loseCmd_kept
    | with_reducible apply State.copyBegin_kept
    | with_reducible apply KeptR.next_
    | with_reducible apply KeptR.ite
    | with_reducible exact KeptR.fault
    | with_reducible apply Kept.ite
    | with_reducible apply Kept.foldl
    | split
    | (refine Kept.mk_ ?_ rfl rfl rfl rfl; assumption)

theorem execTip_kept {a s : State} {x1 x2 x3} (h : Kept a s) : KeptR a (execTip x1 x2 s x3) := by
  unfold execTip
  repeat' first
    | with_reducible assumption
    | (with_reducible refine fun h => ?_)
    | (lift_lets; intro v; first | (refine Kept.cut (s := v) ?_ (fun hv => ?_); rotate_left; clear_value v; rotate_right) | clear_value v)
    | with_reducible apply State.packet_kept
    | with_reducible apply KeptR.ok
    | with_reducible apply State.atOnce_kept
    | with_reducible apply State.copyBegin_kept
    | with_reducible apply KeptR.next_
    | with_reducible apply KeptR.ite
    | with_reducible exact KeptR.fault
    | with_reducible apply Kept.ite
    | with_reducible apply Kept.foldl
    | split
    | (refine Kept.mk_ ?_ rfl rfl rfl rfl; assumption)

theorem State.deliverPart_kept {a s : State} {x1 x2} (h : Kept a s) : Kept a (State.deliverPart s x1 x2) := by
  unfold State.deliverPart
  repeat' first
    | with_reducible assumption
    | (with_reducible refine fun h => ?_)
    | (lift_lets; intro v; first | (refine Kept.cut (s := v) ?_ (fun hv => ?_); rotate_left; clear_value v; rotate_right) | clear_value v)
    | with_reducible apply State.malformed_kept
    | with_reducible apply State.emit_kept
    | with_reducible apply State.putPieces_kept
    | with_reducible apply State.logItem_kept
    | with_reducible apply Kept.ite
    | with_reducible apply Kept.foldl
    | split
    | (refine Kept.mk_ ?_ rfl rfl rfl rfl; assumption)

theorem State.deliverDeclare_kept {a s : State} {x1 x2} (h : Kept a s) : Kept a (State.deliverDeclare s x1 x2) := by
  unfold State.deliverDeclare
  repeat' first
    | with_reducible assumption
    | (with_reducible refine fun h => ?_)
    | (lift_lets; intro v; first | (refine Kept.cut (s := v) ?_ (fun hv => ?_); rotate_left; clear_value v; rotate_right) | clear_value v)
    | with_reducible apply State.malformed_kept
    | with_reducible apply Kept.ite
    | with_reducible apply Kept.foldl
    | split
    | (refine Kept.mk_ ?_ rfl rfl rfl rfl; assumption)

theorem State.deliverAbandon_kept {a s : State} {x1 x2 x3} (h : Kept a s) : Kept a (State.deliverAbandon s x1 x2 x3) := by
  unfold State.deliverAbandon
  repeat' first
    | with_reducible assumption
    | (with_reducible refine fun h => ?_)
    | (lift_lets; intro v; first | (refine Kept.cut (s := v) ?_ (fun hv => ?_); rotate_left; clear_value v; rotate_right) | clear_value v)
    | with_reducible apply State.malformed_kept
    | with_reducible apply State.abandonRecv_kept
    | with_reducible apply Kept.ite
    | with_reducible apply Kept.foldl
    | split
    | (refine Kept.mk_ ?_ rfl rfl rfl rfl; assumption)

theorem State.deliverToken_kept {a s : State} {x1 x2} (h : Kept a s) : Kept a (State.deliverToken s x1 x2) := by
  unfold State.deliverToken
  repeat' first
    | with_reducible assumption
    | (with_reducible refine fun h => ?_)
    | (lift_lets; intro v; first | (refine Kept.cut (s := v) ?_ (fun hv => ?_); rotate_left; clear_value v; rotate_right) | clear_value v)
    | with_reducible apply State.malformed_kept
    | with_reducible apply State.emit_kept
    | with_reducible apply State.noteCause_kept
    | with_reducible apply State.addCtr_kept
    | with_reducible apply State.logItem_kept
    | with_reducible apply Kept.ite
    | with_reducible apply Kept.foldl
    | split
    | (refine Kept.mk_ ?_ rfl rfl rfl rfl; assumption)

theorem execDataPartReceive_kept {a s : State} {x1 x2} (h : Kept a s) : KeptR a (execDataPartReceive x1 x2 s) := by
  unfold execDataPartReceive
  repeat' first
    | with_reducible assumption
    | (with_reducible refine fun h => ?_)
    | (lift_lets; intro v; first | (refine Kept.cut (s := v) ?_ (fun hv => ?_); rotate_left; clear_value v; rotate_right) | clear_value v)
    | with_reducible apply KeptR.ok
    | with_reducible apply State.deliverPart_kept
    | with_reducible apply KeptR.next_
    | with_reducible apply KeptR.ite
    | with_reducible exact KeptR.fault
    | with_reducible apply Kept.ite
    | with_reducible apply Kept.foldl
    | split
    | (refine Kept.mk_ ?_ rfl rfl rfl rfl; assumption)

theorem execRemoteCopyDeclare_kept {a s : State} {x1 x2} (h : Kept a s) : KeptR a (execRemoteCopyDeclare x1 x2 s) := by
  unfold execRemoteCopyDeclare
  repeat' first
    | with_reducible assumption
    | (with_reducible refine fun h => ?_)
    | (lift_lets; intro v; first | (refine Kept.cut (s := v) ?_ (fun hv => ?_); rotate_left; clear_value v; rotate_right) | clear_value v)
    | with_reducible apply KeptR.ok
    | with_reducible apply State.deliverDeclare_kept
    | with_reducible apply KeptR.next_
    | with_reducible apply KeptR.ite
    | with_reducible exact KeptR.fault
    | with_reducible apply Kept.ite
    | with_reducible apply Kept.foldl
    | split
    | (refine Kept.mk_ ?_ rfl rfl rfl rfl; assumption)

theorem execCopyAbandon_kept {a s : State} {x1 x2 x3} (h : Kept a s) : KeptR a (execCopyAbandon x1 x2 x3 s) := by
  unfold execCopyAbandon
  repeat' first
    | with_reducible assumption
    | (with_reducible refine fun h => ?_)
    | (lift_lets; intro v; first | (refine Kept.cut (s := v) ?_ (fun hv => ?_); rotate_left; clear_value v; rotate_right) | clear_value v)
    | with_reducible apply KeptR.ok
    | with_reducible apply State.deliverAbandon_kept
    | with_reducible apply KeptR.next_
    | with_reducible apply KeptR.ite
    | with_reducible exact KeptR.fault
    | with_reducible apply Kept.ite
    | with_reducible apply Kept.foldl
    | split
    | (refine Kept.mk_ ?_ rfl rfl rfl rfl; assumption)

theorem execTokenMessageReceive_kept {a s : State} {x1 x2} (h : Kept a s) : KeptR a (execTokenMessageReceive x1 x2 s) := by
  unfold execTokenMessageReceive
  repeat' first
    | with_reducible assumption
    | (with_reducible refine fun h => ?_)
    | (lift_lets; intro v; first | (refine Kept.cut (s := v) ?_ (fun hv => ?_); rotate_left; clear_value v; rotate_right) | clear_value v)
    | with_reducible apply KeptR.ok
    | with_reducible apply State.deliverToken_kept
    | with_reducible apply KeptR.next_
    | with_reducible apply KeptR.ite
    | with_reducible exact KeptR.fault
    | with_reducible apply Kept.ite
    | with_reducible apply Kept.foldl
    | split
    | (refine Kept.mk_ ?_ rfl rfl rfl rfl; assumption)

theorem execPartAcknowledge_kept {a s : State} {x1 x2 x3} (h : Kept a s) : KeptR a (execPartAcknowledge x1 x2 x3 s) := by
  unfold execPartAcknowledge
  repeat' first
    | with_reducible assumption
    | (with_reducible refine fun h => ?_)
    | (lift_lets; intro v; first | (refine Kept.cut (s := v) ?_ (fun hv => ?_); rotate_left; clear_value v; rotate_right) | clear_value v)
    | with_reducible apply KeptR.ok
    | with_reducible apply State.updEntry_kept
    | with_reducible apply KeptR.next_
    | with_reducible apply KeptR.ite
    | with_reducible exact KeptR.fault
    | with_reducible apply Kept.ite
    | with_reducible apply Kept.foldl
    | split
    | (refine Kept.mk_ ?_ rfl rfl rfl rfl; assumption)

/-! ## Route -/

theorem State.scores_kept {a s : State} {x1 x2} (h : Kept a s) : Kept a (State.scores s x1 x2).2 := by
  unfold State.scores
  repeat' first
    | with_reducible assumption
    | (with_reducible refine fun h => ?_)
    | (lift_lets; intro v; try (refine Kept.cut (s := v) ?_ (fun hv => ?_); rotate_left; clear_value v; rotate_right))
    | with_reducible apply State.readRaw_kept
    | (with_reducible apply State.readRaw_keptE; · assumption)
    | with_reducible apply Kept.ite
    | with_reducible apply Kept.foldl
    | with_reducible apply Kept.ite2
    | with_reducible apply Kept.ite3
    | with_reducible apply Kept.foldl2
    | with_reducible apply Kept.foldl3
    | split
    | (refine Kept.mk_ ?_ rfl rfl rfl rfl; assumption)

theorem State.scores_keptE {a s : State} {x1 x2} {r t} (e : State.scores s x1 x2 = (r, t)) (h : Kept a s) : Kept a t := Kept.of_pair e (State.scores_kept h)

theorem State.routeUnit_kept {a s : State} {x1 x2 x3} (h : Kept a s) : Kept a (State.routeUnit s x1 x2 x3) := by
  unfold State.routeUnit
  dsimp only
  repeat' first
    | with_reducible assumption
    | (with_reducible refine fun h => ?_)
    | with_reducible apply State.scores_kept
    | (with_reducible apply State.scores_keptE; · assumption)
    | with_reducible apply State.memWrite_kept
    | with_reducible apply State.unitDone_kept
    | with_reducible apply State.updEntry_kept
    | with_reducible apply Kept.ite
    | with_reducible apply Kept.foldl
    | with_reducible apply Kept.ite2
    | with_reducible apply Kept.ite3
    | with_reducible apply Kept.foldl2
    | with_reducible apply Kept.foldl3
    | split
    | (refine Kept.mk_ ?_ rfl rfl rfl rfl; assumption)

theorem State.routeClose_kept {a s : State} {x1 x2 x3} (h : Kept a s) : Kept a (State.routeClose s x1 x2 x3) := by
  unfold State.routeClose
  repeat' first
    | with_reducible assumption
    | (with_reducible refine fun h => ?_)
    | (lift_lets; intro v; first | (refine Kept.cut (s := v) ?_ (fun hv => ?_); rotate_left; clear_value v; rotate_right) | clear_value v)
    | with_reducible apply State.scores_kept
    | (with_reducible apply State.scores_keptE; · assumption)
    | with_reducible apply State.memWrite_kept
    | with_reducible apply Kept.ite
    | with_reducible apply Kept.foldl
    | split
    | (refine Kept.mk_ ?_ rfl rfl rfl rfl; assumption)

theorem execRoute_kept {a s : State} {x1 x2 x3} (h : Kept a s) : KeptR a (execRoute x1 x2 s x3) := by
  unfold execRoute
  dsimp only
  repeat' first
    | with_reducible assumption
    | (with_reducible refine fun h => ?_)
    | with_reducible apply State.packet_kept
    | with_reducible apply State.scores_kept
    | (with_reducible apply State.scores_keptE; · assumption)
    | with_reducible apply State.poisonRange_kept
    | with_reducible apply KeptR.ok
    | with_reducible apply State.refuseCmd_kept
    | with_reducible apply State.runUnits_kept
    | with_reducible apply State.routeUnit_kept
    | with_reducible apply State.begin__kept
    | with_reducible apply KeptR.next_
    | with_reducible apply KeptR.ite
    | with_reducible exact KeptR.fault
    | with_reducible apply Kept.ite
    | with_reducible apply Kept.foldl
    | with_reducible apply Kept.ite2
    | with_reducible apply Kept.ite3
    | with_reducible apply Kept.foldl2
    | with_reducible apply Kept.foldl3
    | split
    | (refine Kept.mk_ ?_ rfl rfl rfl rfl; assumption)

/-! ## Optimizer -/

theorem State.setHalf_kept {a s : State} {x1 x2} (h : Kept a s) : Kept a (State.setHalf s x1 x2) := by
  unfold State.setHalf
  repeat' first
    | with_reducible assumption
    | (with_reducible refine fun h => ?_)
    | (lift_lets; intro v; first | (refine Kept.cut (s := v) ?_ (fun hv => ?_); rotate_left; clear_value v; rotate_right) | clear_value v)
    | with_reducible apply Kept.ite
    | with_reducible apply Kept.foldl
    | split
    | (refine Kept.mk_ ?_ rfl rfl rfl rfl; assumption)

theorem State.put32_kept {a s : State} {x1 x2} (h : Kept a s) : Kept a (State.put32 s x1 x2) := by
  unfold State.put32
  repeat' first
    | with_reducible assumption
    | (with_reducible refine fun h => ?_)
    | (lift_lets; intro v; first | (refine Kept.cut (s := v) ?_ (fun hv => ?_); rotate_left; clear_value v; rotate_right) | clear_value v)
    | with_reducible apply State.memWriteP_kept
    | with_reducible apply Kept.ite
    | with_reducible apply Kept.foldl
    | split
    | (refine Kept.mk_ ?_ rfl rfl rfl rfl; assumption)

theorem State.putWork_kept {a s : State} {x1 x2 x3 x4} (h : Kept a s) : Kept a (State.putWork s x1 x2 x3 x4).2 := by
  unfold State.putWork
  repeat' first
    | with_reducible assumption
    | (with_reducible refine fun h => ?_)
    | (lift_lets; intro v; first | (refine Kept.cut (s := v) ?_ (fun hv => ?_); rotate_left; clear_value v; rotate_right) | clear_value v)
    | with_reducible apply State.memWriteP_kept
    | with_reducible apply Kept.ite
    | with_reducible apply Kept.foldl
    | with_reducible apply Kept.ite2
    | with_reducible apply Kept.ite3
    | with_reducible apply Kept.foldl2
    | with_reducible apply Kept.foldl3
    | split
    | (refine Kept.mk_ ?_ rfl rfl rfl rfl; assumption)

theorem State.putWork_keptE {a s : State} {x1 x2 x3 x4} {r t} (e : State.putWork s x1 x2 x3 x4 = (r, t)) (h : Kept a s) : Kept a t := Kept.of_pair e (State.putWork_kept h)

theorem State.flipMaster_kept {a s : State} {x1 x2 x3 x4 x5} (h : Kept a s) : Kept a (State.flipMaster s x1 x2 x3 x4 x5) := by
  unfold State.flipMaster
  repeat' first
    | with_reducible assumption
    | (with_reducible refine fun h => ?_)
    | (lift_lets; intro v; first | (refine Kept.cut (s := v) ?_ (fun hv => ?_); rotate_left; clear_value v; rotate_right) | clear_value v)
    | (with_reducible apply State.meet_keptE; · assumption)
    | with_reducible apply State.memWriteP_kept
    | with_reducible apply Kept.ite
    | with_reducible apply Kept.foldl
    | split
    | (refine Kept.mk_ ?_ rfl rfl rfl rfl; assumption)
    | (refine Kept.mk_ ?_ rfl rfl rfl rfl; first | with_reducible assumption | (with_reducible refine fun h => ?_) | (with_reducible apply State.meet_keptE; · assumption) | with_reducible apply State.memWriteP_kept | with_reducible apply Kept.ite | with_reducible apply Kept.foldl | split)

theorem State.updateShare_kept {a s : State} {x1 x2 x3 x4 x5 x6} (h : Kept a s) : Kept a (State.updateShare s x1 x2 x3 x4 x5 x6).2.2 := by
  unfold State.updateShare
  repeat' first
    | with_reducible assumption
    | (with_reducible refine fun h => ?_)
    | (lift_lets; intro v; first | (refine Kept.cut (s := v) ?_ (fun hv => ?_); rotate_left; clear_value v; rotate_right) | clear_value v)
    | with_reducible apply State.memWriteP_kept
    | with_reducible apply State.put32_kept
    | with_reducible apply State.flipMaster_kept
    | with_reducible apply State.putWork_kept
    | (with_reducible apply State.putWork_keptE; · assumption)
    | with_reducible apply Kept.ite
    | with_reducible apply Kept.foldl
    | with_reducible apply Kept.ite2
    | with_reducible apply Kept.ite3
    | with_reducible apply Kept.foldl2
    | with_reducible apply Kept.foldl3
    | split
    | (refine Kept.mk_ ?_ rfl rfl rfl rfl; assumption)

theorem State.updateShare_keptE {a s : State} {x1 x2 x3 x4 x5 x6} {q r t} (e : State.updateShare s x1 x2 x3 x4 x5 x6 = (q, r, t)) (h : Kept a s) : Kept a t := Kept.of_triple e (State.updateShare_kept h)

theorem State.shareDone_kept {a s : State} {x1 x2 x3 x4} (h : Kept a s) : Kept a (State.shareDone s x1 x2 x3 x4) := by
  unfold State.shareDone
  repeat' first
    | with_reducible assumption
    | (with_reducible refine fun h => ?_)
    | (lift_lets; intro v; first | (refine Kept.cut (s := v) ?_ (fun hv => ?_); rotate_left; clear_value v; rotate_right) | clear_value v)
    | with_reducible apply State.setSched_kept
    | with_reducible apply Kept.ite
    | with_reducible apply Kept.foldl
    | split
    | (refine Kept.mk_ ?_ rfl rfl rfl rfl; assumption)

theorem State.updateDone_kept {a s : State} {x1 x2 x3 x4 x5 x6} (h : Kept a s) : Kept a (State.updateDone s x1 x2 x3 x4 x5 x6) := by
  unfold State.updateDone
  repeat' first
    | with_reducible assumption
    | (with_reducible refine fun h => ?_)
    | (lift_lets; intro v; first | (refine Kept.cut (s := v) ?_ (fun hv => ?_); rotate_left; clear_value v; rotate_right) | clear_value v)
    | with_reducible apply State.updEntry_kept
    | with_reducible apply State.shareDone_kept
    | with_reducible apply Kept.ite
    | with_reducible apply Kept.foldl
    | split
    | (refine Kept.mk_ ?_ rfl rfl rfl rfl; assumption)

theorem State.opeWrite_kept {a s : State} {x1 x2 x3 x4 x5 x6 x7} (h : Kept a s) : Kept a (State.opeWrite s x1 x2 x3 x4 x5 x6 x7) := by
  unfold State.opeWrite
  repeat' first
    | with_reducible assumption
    | (with_reducible refine fun h => ?_)
    | (lift_lets; intro v; first | (refine Kept.cut (s := v) ?_ (fun hv => ?_); rotate_left; clear_value v; rotate_right) | clear_value v)
    | with_reducible apply State.updateShare_kept
    | (with_reducible apply State.updateShare_keptE; · assumption)
    | with_reducible apply State.updEntry_kept
    | with_reducible apply State.setSched_kept
    | with_reducible apply State.updateDone_kept
    | with_reducible apply Kept.ite
    | with_reducible apply Kept.foldl
    | split
    | (refine Kept.mk_ ?_ rfl rfl rfl rfl; assumption)

theorem State.opeWork_kept {a s : State} {x1 x2} (h : Kept a s) : Kept a (State.opeWork s x1 x2) := by
  unfold State.opeWork
  repeat' first
    | with_reducible assumption
    | (with_reducible refine fun h => ?_)
    | (lift_lets; intro v; try (refine Kept.cut (s := v) ?_ (fun hv => ?_); rotate_left; clear_value v; rotate_right))
    | with_reducible apply State.updEntry_kept
    | with_reducible apply State.shareDone_kept
    | with_reducible apply State.updateShare_kept
    | (with_reducible apply State.updateShare_keptE; · assumption)
    | with_reducible apply State.setHalf_kept
    | with_reducible apply State.noteCause_kept
    | with_reducible apply State.opeWrite_kept
    | with_reducible apply Kept.ite
    | with_reducible apply Kept.foldl
    | split
    | (refine Kept.mk_ ?_ rfl rfl rfl rfl; assumption)

theorem State.opeAll_kept {a s : State} (h : Kept a s) : Kept a (State.opeAll s) := by
  unfold State.opeAll
  repeat' first
    | with_reducible assumption
    | (with_reducible refine fun h => ?_)
    | (lift_lets; intro v; first | (refine Kept.cut (s := v) ?_ (fun hv => ?_); rotate_left; clear_value v; rotate_right) | clear_value v)
    | with_reducible apply State.opeWork_kept
    | with_reducible apply Kept.ite
    | with_reducible apply Kept.foldl
    | split
    | (refine Kept.mk_ ?_ rfl rfl rfl rfl; assumption)

theorem State.skipStep_kept {a s : State} {x1} (h : Kept a s) : Kept a (State.skipStep s x1) := by
  unfold State.skipStep
  repeat' first
    | with_reducible assumption
    | (with_reducible refine fun h => ?_)
    | (lift_lets; intro v; first | (refine Kept.cut (s := v) ?_ (fun hv => ?_); rotate_left; clear_value v; rotate_right) | clear_value v)
    | with_reducible apply State.setSched_kept
    | with_reducible apply Kept.ite
    | with_reducible apply Kept.foldl
    | split
    | (refine Kept.mk_ ?_ rfl rfl rfl rfl; assumption)

theorem State.decideVote_kept {a s : State} {x1 x2 x3} (h : Kept a s) : Kept a (State.decideVote s x1 x2 x3) := by
  unfold State.decideVote
  repeat' first
    | with_reducible assumption
    | (with_reducible refine fun h => ?_)
    | (lift_lets; intro v; first | (refine Kept.cut (s := v) ?_ (fun hv => ?_); rotate_left; clear_value v; rotate_right) | clear_value v)
    | with_reducible apply State.noteCause_kept
    | with_reducible apply State.setSched_kept
    | with_reducible apply State.skipStep_kept
    | with_reducible apply State.feed_kept
    | with_reducible apply State.emit_kept
    | with_reducible apply State.opeAll_kept
    | with_reducible apply Kept.ite
    | with_reducible apply Kept.foldl
    | split
    | (refine Kept.mk_ ?_ rfl rfl rfl rfl; assumption)
    | (refine Kept.mk_ ?_ rfl rfl rfl rfl; first | with_reducible assumption | (with_reducible refine fun h => ?_) | with_reducible apply State.noteCause_kept | with_reducible apply State.setSched_kept | with_reducible apply State.skipStep_kept | with_reducible apply State.feed_kept | with_reducible apply State.emit_kept | with_reducible apply State.opeAll_kept | with_reducible apply Kept.ite | with_reducible apply Kept.foldl | split)

theorem State.castUp_kept {a s : State} {x1 x2} (h : Kept a s) : Kept a (State.castUp s x1 x2) := by
  unfold State.castUp
  repeat' first
    | with_reducible assumption
    | (with_reducible refine fun h => ?_)
    | (lift_lets; intro v; first | (refine Kept.cut (s := v) ?_ (fun hv => ?_); rotate_left; clear_value v; rotate_right) | clear_value v)
    | with_reducible apply State.setSched_kept
    | with_reducible apply State.emit_kept
    | with_reducible apply State.decideVote_kept
    | with_reducible apply Kept.ite
    | with_reducible apply Kept.foldl
    | split
    | (refine Kept.mk_ ?_ rfl rfl rfl rfl; assumption)

theorem State.castVote_kept {a s : State} {x1 x2} (h : Kept a s) : Kept a (State.castVote s x1 x2) := by
  unfold State.castVote
  repeat' first
    | with_reducible assumption
    | (with_reducible refine fun h => ?_)
    | (lift_lets; intro v; first | (refine Kept.cut (s := v) ?_ (fun hv => ?_); rotate_left; clear_value v; rotate_right) | clear_value v)
    | with_reducible apply State.setSched_kept
    | with_reducible apply State.castUp_kept
    | with_reducible apply Kept.ite
    | with_reducible apply Kept.foldl
    | split
    | (refine Kept.mk_ ?_ rfl rfl rfl rfl; assumption)

theorem execUpdate_kept {a s : State} {x1 x2 x3} (h : Kept a s) : KeptR a (execUpdate x1 x2 s x3) := by
  unfold execUpdate
  dsimp only
  repeat' first
    | with_reducible assumption
    | (with_reducible refine fun h => ?_)
    | with_reducible apply State.packet_kept
    | with_reducible apply KeptR.ok
    | with_reducible apply State.refuseCmd_kept
    | with_reducible apply State.setSched_kept
    | with_reducible apply State.begin__kept
    | with_reducible apply State.opeWork_kept
    | with_reducible apply State.castVote_kept
    | with_reducible apply KeptR.next_
    | with_reducible apply KeptR.ite
    | with_reducible exact KeptR.fault
    | with_reducible apply Kept.ite
    | with_reducible apply Kept.foldl
    | with_reducible apply Kept.ite2
    | with_reducible apply Kept.ite3
    | with_reducible apply Kept.foldl2
    | with_reducible apply Kept.foldl3
    | split
    | (refine Kept.mk_ ?_ rfl rfl rfl rfl; assumption)

theorem execVoteReceive_kept {a s : State} {x1 x2} (h : Kept a s) : KeptR a (execVoteReceive x1 x2 s) := by
  unfold execVoteReceive
  repeat' first
    | with_reducible assumption
    | (with_reducible refine fun h => ?_)
    | (lift_lets; intro v; first | (refine Kept.cut (s := v) ?_ (fun hv => ?_); rotate_left; clear_value v; rotate_right) | clear_value v)
    | with_reducible apply KeptR.ok
    | with_reducible apply State.malformed_kept
    | with_reducible apply State.decideVote_kept
    | with_reducible apply State.setSched_kept
    | with_reducible apply State.castUp_kept
    | with_reducible apply KeptR.next_
    | with_reducible apply KeptR.ite
    | with_reducible exact KeptR.fault
    | with_reducible apply Kept.ite
    | with_reducible apply Kept.foldl
    | split
    | (refine Kept.mk_ ?_ rfl rfl rfl rfl; assumption)

/-! ## Complete -/

theorem State.runAll_kept {a s : State} {x1 x2} (h : Kept a s) : Kept a (State.runAll s x1 x2) := by
  unfold State.runAll
  repeat' first
    | with_reducible assumption
    | (with_reducible refine fun h => ?_)
    | (lift_lets; intro v; first | (refine Kept.cut (s := v) ?_ (fun hv => ?_); rotate_left; clear_value v; rotate_right) | clear_value v)
    | with_reducible apply State.runUnits_kept
    | with_reducible apply State.leafUnit_kept
    | with_reducible apply State.streamUnit_kept
    | with_reducible apply State.vecUnit_kept
    | with_reducible apply State.copyUnit_kept
    | with_reducible apply State.opeWork_kept
    | with_reducible apply State.routeUnit_kept
    | with_reducible apply Kept.ite
    | with_reducible apply Kept.foldl
    | split
    | (refine Kept.mk_ ?_ rfl rfl rfl rfl; assumption)

theorem State.closeWork_kept {a s : State} {x1 x2} (h : Kept a s) : Kept a (State.closeWork s x1 x2) := by
  unfold State.closeWork
  repeat' first
    | with_reducible assumption
    | (with_reducible refine fun h => ?_)
    | (lift_lets; intro v; first | (refine Kept.cut (s := v) ?_ (fun hv => ?_); rotate_left; clear_value v; rotate_right) | clear_value v)
    | with_reducible apply State.vecClose_kept
    | with_reducible apply State.routeClose_kept
    | with_reducible apply Kept.ite
    | with_reducible apply Kept.foldl
    | split
    | (refine Kept.mk_ ?_ rfl rfl rfl rfl; assumption)

theorem execEngineCommandComplete_kept {a s : State} {x1 x2 x3} (h : Kept a s) : KeptR a (execEngineCommandComplete x1 x2 s x3) := by
  unfold execEngineCommandComplete
  repeat' first
    | with_reducible assumption
    | (with_reducible refine fun h => ?_)
    | (lift_lets; intro v; try (refine Kept.cut (s := v) ?_ (fun hv => ?_); rotate_left; clear_value v; rotate_right))
    | with_reducible apply KeptR.ok
    | with_reducible apply State.runAll_kept
    | with_reducible apply State.memEvents_kept
    | with_reducible apply State.endEntry_kept
    | with_reducible apply State.closeWork_kept
    | with_reducible apply KeptR.next_
    | with_reducible apply KeptR.ite
    | with_reducible exact KeptR.fault
    | with_reducible apply Kept.ite
    | with_reducible apply Kept.foldl
    | split
    | (refine Kept.mk_ ?_ rfl rfl rfl rfl; assumption)

theorem State.sendStop_kept {a s : State} {x1 x2 x3} (h : Kept a s) : Kept a (State.sendStop s x1 x2 x3) := by
  unfold State.sendStop
  repeat' first
    | with_reducible assumption
    | (with_reducible refine fun h => ?_)
    | (lift_lets; intro v; first | (refine Kept.cut (s := v) ?_ (fun hv => ?_); rotate_left; clear_value v; rotate_right) | clear_value v)
    | with_reducible apply State.setEng_kept
    | with_reducible apply State.traceCmd_kept
    | with_reducible apply Kept.ite
    | with_reducible apply Kept.foldl
    | split
    | (refine Kept.mk_ ?_ rfl rfl rfl rfl; assumption)

theorem execCommandTimeout_kept {a s : State} {x1} (h : Kept a s) : KeptR a (execCommandTimeout x1 s) := by
  unfold execCommandTimeout
  repeat' first
    | with_reducible assumption
    | (with_reducible refine fun h => ?_)
    | (lift_lets; intro v; first | (refine Kept.cut (s := v) ?_ (fun hv => ?_); rotate_left; clear_value v; rotate_right) | clear_value v)
    | with_reducible apply KeptR.ok
    | with_reducible apply State.sendStop_kept
    | with_reducible apply KeptR.next_
    | with_reducible apply KeptR.ite
    | with_reducible exact KeptR.fault
    | with_reducible apply Kept.ite
    | with_reducible apply Kept.foldl
    | split
    | (refine Kept.mk_ ?_ rfl rfl rfl rfl; assumption)

theorem State.dropLoad_kept {a s : State} {x1 x2} (h : Kept a s) : Kept a (State.dropLoad s x1 x2) := by
  unfold State.dropLoad
  repeat' first
    | with_reducible assumption
    | (with_reducible refine fun h => ?_)
    | (lift_lets; intro v; first | (refine Kept.cut (s := v) ?_ (fun hv => ?_); rotate_left; clear_value v; rotate_right) | clear_value v)
    | with_reducible apply State.setEng_kept
    | with_reducible apply Kept.ite
    | with_reducible apply Kept.foldl
    | split
    | (refine Kept.mk_ ?_ rfl rfl rfl rfl; assumption)

theorem execStopAcknowledge_kept {a s : State} {x1} (h : Kept a s) : KeptR a (execStopAcknowledge x1 s) := by
  unfold execStopAcknowledge
  repeat' first
    | with_reducible assumption
    | (with_reducible refine fun h => ?_)
    | (lift_lets; intro v; first | (refine Kept.cut (s := v) ?_ (fun hv => ?_); rotate_left; clear_value v; rotate_right) | clear_value v)
    | with_reducible apply KeptR.ok
    | with_reducible apply State.setEng_kept
    | with_reducible apply State.closeEntry_kept
    | with_reducible apply State.dropLoad_kept
    | with_reducible apply State.flush_kept
    | with_reducible apply KeptR.next_
    | with_reducible apply KeptR.ite
    | with_reducible exact KeptR.fault
    | with_reducible apply Kept.ite
    | with_reducible apply Kept.foldl
    | split
    | (refine Kept.mk_ ?_ rfl rfl rfl rfl; assumption)

theorem execUnitWedged_kept {a s : State} {x1} (h : Kept a s) : KeptR a (execUnitWedged x1 s) := by
  unfold execUnitWedged
  repeat' first
    | with_reducible assumption
    | (with_reducible refine fun h => ?_)
    | (lift_lets; intro v; first | (refine Kept.cut (s := v) ?_ (fun hv => ?_); rotate_left; clear_value v; rotate_right) | clear_value v)
    | with_reducible apply KeptR.ok
    | with_reducible apply State.addRec_kept
    | with_reducible apply State.setEng_kept
    | with_reducible apply State.askPartition_kept
    | with_reducible apply KeptR.next_
    | with_reducible apply KeptR.ite
    | with_reducible exact KeptR.fault
    | with_reducible apply Kept.ite
    | with_reducible apply Kept.foldl
    | split
    | (refine Kept.mk_ ?_ rfl rfl rfl rfl; assumption)

end Sys2Proof.Machine
end

