-- ==== Sys2Proof/Laws/KeptSteps.lean ====
section
/-! SUPPORT. What the operations of Numerics, Steps, Collate, Load, Admit, Sched keep: one lemma for each (Kept). -/

namespace Sys2Proof.Machine

/-! ## Numerics -/

theorem State.rewriteScale_kept {a s : State} {x1 x2 x3} (h : Kept a s) : Kept a (State.rewriteScale s x1 x2 x3) := by
  unfold State.rewriteScale
  repeat' first
    | with_reducible assumption
    | (with_reducible refine fun h => ?_)
    | (lift_lets; intro v; first | (refine Kept.cut (s := v) ?_ (fun hv => ?_); rotate_left; clear_value v; rotate_right) | clear_value v)
    | with_reducible apply State.memWrite_kept
    | with_reducible apply Kept.ite
    | with_reducible apply Kept.foldl
    | split
    | (refine Kept.mk_ ?_ rfl rfl rfl rfl; assumption)

theorem State.scaleUpdate_kept {a s : State} {x1 x2} (h : Kept a s) : Kept a (State.scaleUpdate s x1 x2) := by
  unfold State.scaleUpdate
  repeat' first
    | with_reducible assumption
    | (with_reducible refine fun h => ?_)
    | (lift_lets; intro v; first | (refine Kept.cut (s := v) ?_ (fun hv => ?_); rotate_left; clear_value v; rotate_right) | clear_value v)
    | with_reducible apply State.rewriteScale_kept
    | with_reducible apply Kept.ite
    | with_reducible apply Kept.foldl
    | split
    | (refine Kept.mk_ ?_ rfl rfl rfl rfl; assumption)

theorem State.scaleSettle_kept {a s : State} {x1 x2} (h : Kept a s) : Kept a (State.scaleSettle s x1 x2) := by
  unfold State.scaleSettle
  repeat' first
    | with_reducible assumption
    | (with_reducible refine fun h => ?_)
    | (lift_lets; intro v; first | (refine Kept.cut (s := v) ?_ (fun hv => ?_); rotate_left; clear_value v; rotate_right) | clear_value v)
    | with_reducible apply State.rewriteScale_kept
    | with_reducible apply Kept.ite
    | with_reducible apply Kept.foldl
    | split
    | (refine Kept.mk_ ?_ rfl rfl rfl rfl; assumption)

theorem State.alarm_kept {a s : State} {x1 x2 x3 x4 x5} (h : Kept a s) : Kept a (State.alarm s x1 x2 x3 x4 x5) := by
  unfold State.alarm
  repeat' first
    | with_reducible assumption
    | (with_reducible refine fun h => ?_)
    | (lift_lets; intro v; first | (refine Kept.cut (s := v) ?_ (fun hv => ?_); rotate_left; clear_value v; rotate_right) | clear_value v)
    | with_reducible apply State.addRec_kept
    | with_reducible apply Kept.ite
    | with_reducible apply Kept.foldl
    | split
    | (refine Kept.mk_ ?_ rfl rfl rfl rfl; assumption)

theorem State.monitor_kept {a s : State} {x1 x2 x3 x4} (h : Kept a s) : Kept a (State.monitor s x1 x2 x3 x4) := by
  unfold State.monitor
  repeat' first
    | with_reducible assumption
    | (with_reducible refine fun h => ?_)
    | (lift_lets; intro v; first | (refine Kept.cut (s := v) ?_ (fun hv => ?_); rotate_left; clear_value v; rotate_right) | clear_value v)
    | with_reducible apply State.memWrite_kept
    | with_reducible apply State.alarm_kept
    | with_reducible apply Kept.ite
    | with_reducible apply Kept.foldl
    | split
    | (refine Kept.mk_ ?_ rfl rfl rfl rfl; assumption)

theorem State.numCollate_kept {a s : State} {x1 x2} (h : Kept a s) : Kept a (State.numCollate s x1 x2) := by
  unfold State.numCollate
  repeat' first
    | with_reducible assumption
    | (with_reducible refine fun h => ?_)
    | (lift_lets; intro v; first | (refine Kept.cut (s := v) ?_ (fun hv => ?_); rotate_left; clear_value v; rotate_right) | clear_value v)
    | with_reducible apply State.alarm_kept
    | with_reducible apply State.scaleUpdate_kept
    | with_reducible apply State.monitor_kept
    | with_reducible apply Kept.ite
    | with_reducible apply Kept.foldl
    | split
    | (refine Kept.mk_ ?_ rfl rfl rfl rfl; assumption)

theorem execNumScalesRead_kept {a s : State} {x1} (h : Kept a s) : KeptR a (execNumScalesRead x1 s) := by
  unfold execNumScalesRead
  repeat' first
    | with_reducible assumption
    | (with_reducible refine fun h => ?_)
    | (lift_lets; intro v; first | (refine Kept.cut (s := v) ?_ (fun hv => ?_); rotate_left; clear_value v; rotate_right) | clear_value v)
    | with_reducible apply KeptR.ok
    | with_reducible apply State.serlothMem_kept
    | with_reducible apply State.complete_kept
    | with_reducible apply KeptR.next_
    | with_reducible apply KeptR.ite
    | with_reducible exact KeptR.fault
    | with_reducible apply Kept.ite
    | with_reducible apply Kept.foldl
    | split
    | (refine Kept.mk_ ?_ rfl rfl rfl rfl; assumption)

theorem execNumScalesWrite_kept {a s : State} {x1} (h : Kept a s) : KeptR a (execNumScalesWrite x1 s) := by
  unfold execNumScalesWrite
  repeat' first
    | with_reducible assumption
    | (with_reducible refine fun h => ?_)
    | (lift_lets; intro v; first | (refine Kept.cut (s := v) ?_ (fun hv => ?_); rotate_left; clear_value v; rotate_right) | clear_value v)
    | with_reducible apply KeptR.ok
    | with_reducible apply State.serlothMem_kept
    | with_reducible apply State.complete_kept
    | with_reducible apply State.refuse_kept
    | with_reducible apply State.memWrite_kept
    | with_reducible apply KeptR.next_
    | with_reducible apply KeptR.ite
    | with_reducible exact KeptR.fault
    | with_reducible apply Kept.ite
    | with_reducible apply Kept.foldl
    | split
    | (refine Kept.mk_ ?_ rfl rfl rfl rfl; assumption)

theorem execNumMonitor_kept {a s : State} {x1} (h : Kept a s) : KeptR a (execNumMonitor x1 s) := by
  unfold execNumMonitor
  repeat' first
    | with_reducible assumption
    | (with_reducible refine fun h => ?_)
    | (lift_lets; intro v; first | (refine Kept.cut (s := v) ?_ (fun hv => ?_); rotate_left; clear_value v; rotate_right) | clear_value v)
    | with_reducible apply State.serloth_kept
    | with_reducible apply State.setCtx_kept
    | with_reducible apply State.complete_kept
    | with_reducible apply KeptR.next_
    | with_reducible apply KeptR.ite
    | with_reducible exact KeptR.fault
    | with_reducible apply Kept.ite
    | with_reducible apply Kept.foldl
    | split
    | (refine Kept.mk_ ?_ rfl rfl rfl rfl; assumption)

/-! ## Steps -/

theorem State.stopRun_kept {a s : State} {x1 x2} (h : Kept a s) : Kept a (State.stopRun s x1 x2) := by
  unfold State.stopRun
  repeat' first
    | with_reducible assumption
    | (with_reducible refine fun h => ?_)
    | (lift_lets; intro v; first | (refine Kept.cut (s := v) ?_ (fun hv => ?_); rotate_left; clear_value v; rotate_right) | clear_value v)
    | with_reducible apply State.deadlineSlip_kept
    | with_reducible apply State.setEng_kept
    | with_reducible apply State.setSched_kept
    | with_reducible apply Kept.ite
    | with_reducible apply Kept.foldl
    | split
    | (refine Kept.mk_ ?_ rfl rfl rfl rfl; assumption)

theorem State.settle_kept {a s : State} {x1} (h : Kept a s) : Kept a (State.settle s x1) := by
  unfold State.settle
  repeat' first
    | with_reducible assumption
    | (with_reducible refine fun h => ?_)
    | (lift_lets; intro v; first | (refine Kept.cut (s := v) ?_ (fun hv => ?_); rotate_left; clear_value v; rotate_right) | clear_value v)
    | with_reducible apply State.finishCancel_kept
    | with_reducible apply State.stopRun_kept
    | with_reducible apply Kept.ite
    | with_reducible apply Kept.foldl
    | split
    | (refine Kept.mk_ ?_ rfl rfl rfl rfl; assumption)

theorem State.controlWrite_kept {a s : State} {x1 x2 x3} (h : Kept a s) : Kept a (State.controlWrite s x1 x2 x3) := by
  unfold State.controlWrite
  repeat' first
    | with_reducible assumption
    | (with_reducible refine fun h => ?_)
    | (lift_lets; intro v; first | (refine Kept.cut (s := v) ?_ (fun hv => ?_); rotate_left; clear_value v; rotate_right) | clear_value v)
    | with_reducible apply State.feed_kept
    | with_reducible apply State.memWrite_kept
    | with_reducible apply Kept.ite
    | with_reducible apply Kept.foldl
    | split
    | (refine Kept.mk_ ?_ rfl rfl rfl rfl; assumption)

theorem State.copyScales_kept {a s : State} {x1} (h : Kept a s) : Kept a (State.copyScales s x1) := by
  unfold State.copyScales
  repeat' first
    | with_reducible assumption
    | (with_reducible refine fun h => ?_)
    | (lift_lets; intro v; first | (refine Kept.cut (s := v) ?_ (fun hv => ?_); rotate_left; clear_value v; rotate_right) | clear_value v)
    | with_reducible apply State.controlWrite_kept
    | with_reducible apply Kept.ite
    | with_reducible apply Kept.foldl
    | split
    | (refine Kept.mk_ ?_ rfl rfl rfl rfl; assumption)

theorem State.openLedger_kept {a s : State} {x1 x2} (h : Kept a s) : Kept a (State.openLedger s x1 x2) := by
  unfold State.openLedger
  repeat' first
    | with_reducible assumption
    | (with_reducible refine fun h => ?_)
    | (lift_lets; intro v; first | (refine Kept.cut (s := v) ?_ (fun hv => ?_); rotate_left; clear_value v; rotate_right) | clear_value v)
    | with_reducible apply State.controlWrite_kept
    | with_reducible apply State.copyScales_kept
    | with_reducible apply Kept.ite
    | with_reducible apply Kept.foldl
    | split
    | (refine Kept.mk_ ?_ rfl rfl rfl rfl; assumption)

theorem State.clearIssue_kept {a s : State} {x1} (h : Kept a s) : Kept a (State.clearIssue s x1) := by
  unfold State.clearIssue
  repeat' first
    | with_reducible assumption
    | (with_reducible refine fun h => ?_)
    | (lift_lets; intro v; first | (refine Kept.cut (s := v) ?_ (fun hv => ?_); rotate_left; clear_value v; rotate_right) | clear_value v)
    | with_reducible apply Kept.ite
    | with_reducible apply Kept.foldl
    | split
    | (refine Kept.mk_ ?_ rfl rfl rfl rfl; assumption)

theorem State.firstLaunch_kept {a s : State} {x1 x2} (h : Kept a s) : Kept a (State.firstLaunch s x1 x2) := by
  unfold State.firstLaunch
  repeat' first
    | with_reducible assumption
    | (with_reducible refine fun h => ?_)
    | (lift_lets; intro v; first | (refine Kept.cut (s := v) ?_ (fun hv => ?_); rotate_left; clear_value v; rotate_right) | clear_value v)
    | with_reducible apply State.clearIssue_kept
    | with_reducible apply State.openLedger_kept
    | with_reducible apply State.setSched_kept
    | with_reducible apply Kept.ite
    | with_reducible apply Kept.foldl
    | split
    | (refine Kept.mk_ ?_ rfl rfl rfl rfl; assumption)

theorem State.startStream_kept {a s : State} {x1 x2 x3 x4 x5} (h : Kept a s) : Kept a (State.startStream s x1 x2 x3 x4 x5) := by
  unfold State.startStream
  repeat' first
    | with_reducible assumption
    | (with_reducible refine fun h => ?_)
    | (lift_lets; intro v; first | (refine Kept.cut (s := v) ?_ (fun hv => ?_); rotate_left; clear_value v; rotate_right) | clear_value v)
    | with_reducible apply State.setEng_kept
    | with_reducible apply State.trace_kept
    | with_reducible apply State.fillQueue_kept
    | with_reducible apply Kept.ite
    | with_reducible apply Kept.foldl
    | split
    | (refine Kept.mk_ ?_ rfl rfl rfl rfl; assumption)

theorem State.loadArbiters_kept {a s : State} {x1 x2} (h : Kept a s) : Kept a (State.loadArbiters s x1 x2) := by
  unfold State.loadArbiters
  repeat' first
    | with_reducible assumption
    | (with_reducible refine fun h => ?_)
    | (lift_lets; intro v; first | (refine Kept.cut (s := v) ?_ (fun hv => ?_); rotate_left; clear_value v; rotate_right) | clear_value v)
    | with_reducible apply Kept.ite
    | with_reducible apply Kept.foldl
    | split
    | (refine Kept.mk_ ?_ rfl rfl rfl rfl; assumption)

theorem State.launch_kept {a s : State} {x1 x2 x3} (h : Kept a s) : Kept a (State.launch s x1 x2 x3) := by
  unfold State.launch
  repeat' first
    | with_reducible assumption
    | (with_reducible refine fun h => ?_)
    | (lift_lets; intro v; first | (refine Kept.cut (s := v) ?_ (fun hv => ?_); rotate_left; clear_value v; rotate_right) | clear_value v)
    | with_reducible apply State.slip_kept
    | with_reducible apply State.setSched_kept
    | with_reducible apply State.loadArbiters_kept
    | with_reducible apply State.startStream_kept
    | with_reducible apply Kept.ite
    | with_reducible apply Kept.foldl
    | split
    | (refine Kept.mk_ ?_ rfl rfl rfl rfl; assumption)

theorem execPhaseLaunch_kept {a s : State} {x1 x2} (h : Kept a s) : KeptR a (execPhaseLaunch x1 x2 s) := by
  unfold execPhaseLaunch
  dsimp only
  repeat' first
    | with_reducible assumption
    | (with_reducible refine fun h => ?_)
    | with_reducible apply State.settle_kept
    | with_reducible apply KeptR.ok
    | with_reducible apply State.firstLaunch_kept
    | with_reducible apply State.launch_kept
    | with_reducible apply KeptR.next_
    | with_reducible apply KeptR.ite
    | with_reducible exact KeptR.fault
    | with_reducible apply Kept.ite
    | with_reducible apply Kept.foldl
    | with_reducible apply Kept.ite2
    | with_reducible apply Kept.ite3
    | with_reducible apply Kept.foldl2
    | with_reducible apply Kept.foldl3
    | split
    | (refine Kept.mk_ ?_ rfl rfl rfl rfl; assumption)

theorem execBackgroundWindow_kept {a s : State} {x1 x2} (h : Kept a s) : KeptR a (execBackgroundWindow x1 x2 s) := by
  unfold execBackgroundWindow
  repeat' first
    | with_reducible assumption
    | (with_reducible refine fun h => ?_)
    | (lift_lets; intro v; first | (refine Kept.cut (s := v) ?_ (fun hv => ?_); rotate_left; clear_value v; rotate_right) | clear_value v)
    | with_reducible apply KeptR.ok
    | with_reducible apply State.setSched_kept
    | with_reducible apply KeptR.next_
    | with_reducible apply KeptR.ite
    | with_reducible exact KeptR.fault
    | with_reducible apply Kept.ite
    | with_reducible apply Kept.foldl
    | split
    | (refine Kept.mk_ ?_ rfl rfl rfl rfl; assumption)

/-! ## Collate -/

theorem State.holdSched_kept {a s : State} {x1} (h : Kept a s) : Kept a (State.holdSched s x1) := by
  unfold State.holdSched
  repeat' first
    | with_reducible assumption
    | (with_reducible refine fun h => ?_)
    | (lift_lets; intro v; first | (refine Kept.cut (s := v) ?_ (fun hv => ?_); rotate_left; clear_value v; rotate_right) | clear_value v)
    | with_reducible apply State.cutCheck_kept
    | with_reducible apply State.setSched_kept
    | with_reducible apply Kept.ite
    | with_reducible apply Kept.foldl
    | split
    | (refine Kept.mk_ ?_ rfl rfl rfl rfl; assumption)

theorem State.escalate_kept {a s : State} {x1 x2} (h : Kept a s) : Kept a (State.escalate s x1 x2) := by
  unfold State.escalate
  repeat' first
    | with_reducible assumption
    | (with_reducible refine fun h => ?_)
    | (lift_lets; intro v; first | (refine Kept.cut (s := v) ?_ (fun hv => ?_); rotate_left; clear_value v; rotate_right) | clear_value v)
    | with_reducible apply State.setSched_kept
    | with_reducible apply State.cutCheck_kept
    | with_reducible apply State.emit_kept
    | with_reducible apply State.nativeE_kept
    | with_reducible apply Kept.ite
    | with_reducible apply Kept.foldl
    | split
    | (refine Kept.mk_ ?_ rfl rfl rfl rfl; assumption)

theorem State.wantTake_kept {a s : State} {x1 x2 x3} (h : Kept a s) : Kept a (State.wantTake s x1 x2 x3) := by
  unfold State.wantTake
  repeat' first
    | with_reducible assumption
    | (with_reducible refine fun h => ?_)
    | (lift_lets; intro v; first | (refine Kept.cut (s := v) ?_ (fun hv => ?_); rotate_left; clear_value v; rotate_right) | clear_value v)
    | with_reducible apply State.setSched_kept
    | with_reducible apply State.escalate_kept
    | with_reducible apply Kept.ite
    | with_reducible apply Kept.foldl
    | split
    | (refine Kept.mk_ ?_ rfl rfl rfl rfl; assumption)

theorem State.moveFolio_kept {a s : State} {x1 x2 x3} (h : Kept a s) : Kept a (State.moveFolio s x1 x2 x3) := by
  unfold State.moveFolio
  dsimp only
  repeat' first
    | with_reducible assumption
    | (with_reducible refine fun h => ?_)
    | with_reducible apply State.setEng_kept
    | with_reducible apply State.native_kept
    | with_reducible apply State.measure9_kept
    | with_reducible apply Kept.ite
    | with_reducible apply Kept.foldl
    | with_reducible apply Kept.ite2
    | with_reducible apply Kept.ite3
    | with_reducible apply Kept.foldl2
    | with_reducible apply Kept.foldl3
    | split
    | (refine Kept.mk_ ?_ rfl rfl rfl rfl; assumption)
    | (refine Kept.mk_ ?_ rfl rfl rfl rfl; first | with_reducible assumption | (with_reducible refine fun h => ?_) | with_reducible apply State.setEng_kept | with_reducible apply State.native_kept | with_reducible apply State.measure9_kept | with_reducible apply Kept.ite | with_reducible apply Kept.foldl | with_reducible apply Kept.ite2 | with_reducible apply Kept.ite3 | with_reducible apply Kept.foldl2 | with_reducible apply Kept.foldl3 | split)

theorem State.snapCounters_kept {a s : State} {x1} (h : Kept a s) : Kept a (State.snapCounters s x1) := by
  unfold State.snapCounters
  repeat' first
    | with_reducible assumption
    | (with_reducible refine fun h => ?_)
    | (lift_lets; intro v; first | (refine Kept.cut (s := v) ?_ (fun hv => ?_); rotate_left; clear_value v; rotate_right) | clear_value v)
    | with_reducible apply State.setCtr_kept
    | with_reducible apply Kept.ite
    | with_reducible apply Kept.foldl
    | split
    | (refine Kept.mk_ ?_ rfl rfl rfl rfl; assumption)

theorem State.askRepair_kept {a s : State} {x1} (h : Kept a s) : Kept a (State.askRepair s x1) := by
  unfold State.askRepair
  repeat' first
    | with_reducible assumption
    | (with_reducible refine fun h => ?_)
    | (lift_lets; intro v; first | (refine Kept.cut (s := v) ?_ (fun hv => ?_); rotate_left; clear_value v; rotate_right) | clear_value v)
    | with_reducible apply State.emit_kept
    | with_reducible apply Kept.ite
    | with_reducible apply Kept.foldl
    | split
    | (refine Kept.mk_ ?_ rfl rfl rfl rfl; assumption)

theorem State.enterReplay_kept {a s : State} {x1 x2} (h : Kept a s) : Kept a (State.enterReplay s x1 x2) := by
  unfold State.enterReplay
  repeat' first
    | with_reducible assumption
    | (with_reducible refine fun h => ?_)
    | (lift_lets; intro v; first | (refine Kept.cut (s := v) ?_ (fun hv => ?_); rotate_left; clear_value v; rotate_right) | clear_value v)
    | with_reducible apply State.setSched_kept
    | with_reducible apply State.askRepair_kept
    | with_reducible apply Kept.ite
    | with_reducible apply Kept.foldl
    | split
    | (refine Kept.mk_ ?_ rfl rfl rfl rfl; assumption)

theorem State.endArbitration_kept {a s : State} {x1} (h : Kept a s) : Kept a (State.endArbitration s x1) := by
  unfold State.endArbitration
  repeat' first
    | with_reducible assumption
    | (with_reducible refine fun h => ?_)
    | (lift_lets; intro v; first | (refine Kept.cut (s := v) ?_ (fun hv => ?_); rotate_left; clear_value v; rotate_right) | clear_value v)
    | with_reducible apply State.enterReplay_kept
    | with_reducible apply State.fresh_kept
    | (with_reducible apply State.fresh_keptE; · assumption)
    | with_reducible apply State.escalate_kept
    | with_reducible apply Kept.ite
    | with_reducible apply Kept.foldl
    | split
    | (refine Kept.mk_ ?_ rfl rfl rfl rfl; assumption)

theorem State.takeover_kept {a s : State} {x1 x2} (h : Kept a s) : Kept a (State.takeover s x1 x2) := by
  unfold State.takeover
  repeat' first
    | with_reducible assumption
    | (with_reducible refine fun h => ?_)
    | (lift_lets; intro v; first | (refine Kept.cut (s := v) ?_ (fun hv => ?_); rotate_left; clear_value v; rotate_right) | clear_value v)
    | with_reducible apply State.escalate_kept
    | with_reducible apply State.setSched_kept
    | with_reducible apply State.moveFolio_kept
    | with_reducible apply State.snapCounters_kept
    | with_reducible apply State.endArbitration_kept
    | with_reducible apply Kept.ite
    | with_reducible apply Kept.foldl
    | split
    | (refine Kept.mk_ ?_ rfl rfl rfl rfl; assumption)

theorem State.katForReplay_kept {a s : State} {x1 x2} (h : Kept a s) : Kept a (State.katForReplay s x1 x2) := by
  unfold State.katForReplay
  repeat' first
    | with_reducible assumption
    | (with_reducible refine fun h => ?_)
    | (lift_lets; intro v; first | (refine Kept.cut (s := v) ?_ (fun hv => ?_); rotate_left; clear_value v; rotate_right) | clear_value v)
    | with_reducible apply State.setSched_kept
    | with_reducible apply State.wantTake_kept
    | with_reducible apply State.endArbitration_kept
    | with_reducible apply Kept.ite
    | with_reducible apply Kept.foldl
    | split
    | (refine Kept.mk_ ?_ rfl rfl rfl rfl; assumption)

theorem State.katForStep_kept {a s : State} {x1 x2} (h : Kept a s) : Kept a (State.katForStep s x1 x2) := by
  unfold State.katForStep
  repeat' first
    | with_reducible assumption
    | (with_reducible refine fun h => ?_)
    | (lift_lets; intro v; first | (refine Kept.cut (s := v) ?_ (fun hv => ?_); rotate_left; clear_value v; rotate_right) | clear_value v)
    | with_reducible apply State.colFlag_kept
    | with_reducible apply Kept.ite
    | with_reducible apply Kept.foldl
    | split
    | (refine Kept.mk_ ?_ rfl rfl rfl rfl; assumption)

theorem State.katForCommand_kept {a s : State} {x1 x2} (h : Kept a s) : Kept a (State.katForCommand s x1 x2) := by
  unfold State.katForCommand
  dsimp only
  repeat' first
    | with_reducible assumption
    | (with_reducible refine fun h => ?_)
    | with_reducible apply State.hold_kept
    | with_reducible apply State.complete_kept
    | with_reducible apply Kept.ite
    | with_reducible apply Kept.foldl
    | with_reducible apply Kept.ite2
    | with_reducible apply Kept.ite3
    | with_reducible apply Kept.foldl2
    | with_reducible apply Kept.foldl3
    | split
    | (refine Kept.mk_ ?_ rfl rfl rfl rfl; assumption)

theorem State.katRecord_kept {a s : State} {x1 x2 x3 x4} (h : Kept a s) : Kept a (State.katRecord s x1 x2 x3 x4) := by
  unfold State.katRecord
  repeat' first
    | with_reducible assumption
    | (with_reducible refine fun h => ?_)
    | (lift_lets; intro v; first | (refine Kept.cut (s := v) ?_ (fun hv => ?_); rotate_left; clear_value v; rotate_right) | clear_value v)
    | with_reducible apply State.addRecAt_kept
    | with_reducible apply Kept.ite
    | with_reducible apply Kept.foldl
    | split
    | (refine Kept.mk_ ?_ rfl rfl rfl rfl; assumption)

theorem State.katInjected_kept {a s : State} {x1} (h : Kept a s) : Kept a (State.katInjected s x1).2 := by
  unfold State.katInjected
  repeat' first
    | with_reducible assumption
    | (with_reducible refine fun h => ?_)
    | (lift_lets; intro v; first | (refine Kept.cut (s := v) ?_ (fun hv => ?_); rotate_left; clear_value v; rotate_right) | clear_value v)
    | (with_reducible apply State.meet_keptE; · assumption)
    | with_reducible apply Kept.ite
    | with_reducible apply Kept.foldl
    | with_reducible apply Kept.ite2
    | with_reducible apply Kept.ite3
    | with_reducible apply Kept.foldl2
    | with_reducible apply Kept.foldl3
    | split
    | (refine Kept.mk_ ?_ rfl rfl rfl rfl; assumption)
    | (refine Kept.mk_ ?_ rfl rfl rfl rfl; first | with_reducible assumption | (with_reducible refine fun h => ?_) | (with_reducible apply State.meet_keptE; · assumption) | with_reducible apply Kept.ite | with_reducible apply Kept.foldl | with_reducible apply Kept.ite2 | with_reducible apply Kept.ite3 | with_reducible apply Kept.foldl2 | with_reducible apply Kept.foldl3 | split)

theorem State.katInjected_keptE {a s : State} {x1} {r t} (e : State.katInjected s x1 = (r, t)) (h : Kept a s) : Kept a t := Kept.of_pair e (State.katInjected_kept h)

theorem State.katPass_kept {a s : State} {x1} (h : Kept a s) : Kept a (State.katPass s x1) := by
  unfold State.katPass
  repeat' first
    | with_reducible assumption
    | (with_reducible refine fun h => ?_)
    | (lift_lets; intro v; first | (refine Kept.cut (s := v) ?_ (fun hv => ?_); rotate_left; clear_value v; rotate_right) | clear_value v)
    | with_reducible apply State.setSched_kept
    | with_reducible apply Kept.ite
    | with_reducible apply Kept.foldl
    | split
    | (refine Kept.mk_ ?_ rfl rfl rfl rfl; assumption)

theorem State.katRun_kept {a s : State} {x1 x2} (h : Kept a s) : Kept a (State.katRun s x1 x2).2 := by
  unfold State.katRun
  repeat' first
    | with_reducible assumption
    | (with_reducible refine fun h => ?_)
    | (lift_lets; intro v; first | (refine Kept.cut (s := v) ?_ (fun hv => ?_); rotate_left; clear_value v; rotate_right) | clear_value v)
    | with_reducible apply State.katInjected_kept
    | (with_reducible apply State.katInjected_keptE; · assumption)
    | with_reducible apply State.katPass_kept
    | with_reducible apply State.katRecord_kept
    | with_reducible apply Kept.ite
    | with_reducible apply Kept.foldl
    | with_reducible apply Kept.ite2
    | with_reducible apply Kept.ite3
    | with_reducible apply Kept.foldl2
    | with_reducible apply Kept.foldl3
    | split
    | (refine Kept.mk_ ?_ rfl rfl rfl rfl; assumption)
    | (refine Kept.mk_ ?_ rfl rfl rfl rfl; first | with_reducible assumption | (with_reducible refine fun h => ?_) | with_reducible apply State.katInjected_kept | (with_reducible apply State.katInjected_keptE; · assumption) | with_reducible apply State.katPass_kept | with_reducible apply State.katRecord_kept | with_reducible apply Kept.ite | with_reducible apply Kept.foldl | with_reducible apply Kept.ite2 | with_reducible apply Kept.ite3 | with_reducible apply Kept.foldl2 | with_reducible apply Kept.foldl3 | split)

theorem State.katRun_keptE {a s : State} {x1 x2} {r t} (e : State.katRun s x1 x2 = (r, t)) (h : Kept a s) : Kept a t := Kept.of_pair e (State.katRun_kept h)

theorem execKnownAnswerRun_kept {a s : State} {x1 x2 x3} (h : Kept a s) : KeptR a (execKnownAnswerRun x1 x2 x3 s) := by
  unfold execKnownAnswerRun
  repeat' first
    | with_reducible assumption
    | (with_reducible refine fun h => ?_)
    | (lift_lets; intro v; first | (refine Kept.cut (s := v) ?_ (fun hv => ?_); rotate_left; clear_value v; rotate_right) | clear_value v)
    | with_reducible apply KeptR.ok
    | with_reducible apply State.katRun_kept
    | (with_reducible apply State.katRun_keptE; · assumption)
    | with_reducible apply State.raiseSupply_kept
    | with_reducible apply State.takeover_kept
    | with_reducible apply State.katForCommand_kept
    | with_reducible apply State.katForStep_kept
    | with_reducible apply State.katForReplay_kept
    | with_reducible apply KeptR.next_
    | with_reducible apply KeptR.ite
    | with_reducible exact KeptR.fault
    | with_reducible apply Kept.ite
    | with_reducible apply Kept.foldl
    | split
    | (refine Kept.mk_ ?_ rfl rfl rfl rfl; assumption)

theorem execColKat_kept {a s : State} {x1} (h : Kept a s) : KeptR a (execColKat x1 s) := by
  unfold execColKat
  repeat' first
    | with_reducible assumption
    | (with_reducible refine fun h => ?_)
    | (lift_lets; intro v; first | (refine Kept.cut (s := v) ?_ (fun hv => ?_); rotate_left; clear_value v; rotate_right) | clear_value v)
    | with_reducible apply State.serloth_kept
    | with_reducible apply State.complete_kept
    | with_reducible apply State.hold_kept
    | with_reducible apply State.raiseSupply_kept
    | with_reducible apply KeptR.next_
    | with_reducible apply KeptR.ite
    | with_reducible exact KeptR.fault
    | with_reducible apply Kept.ite
    | with_reducible apply Kept.foldl
    | split
    | (refine Kept.mk_ ?_ rfl rfl rfl rfl; assumption)

theorem State.restore_kept {a s : State} {x1} (h : Kept a s) : Kept a (State.restore s x1) := by
  unfold State.restore
  repeat' first
    | with_reducible assumption
    | (with_reducible refine fun h => ?_)
    | (lift_lets; intro v; first | (refine Kept.cut (s := v) ?_ (fun hv => ?_); rotate_left; clear_value v; rotate_right) | clear_value v)
    | with_reducible apply State.setCtr_kept
    | with_reducible apply State.memWrite_kept
    | with_reducible apply Kept.ite
    | with_reducible apply Kept.foldl
    | split
    | (refine Kept.mk_ ?_ rfl rfl rfl rfl; assumption)

theorem execReplayStart_kept {a s : State} {x1} (h : Kept a s) : KeptR a (execReplayStart x1 s) := by
  unfold execReplayStart
  repeat' first
    | with_reducible assumption
    | (with_reducible refine fun h => ?_)
    | (lift_lets; intro v; try (refine Kept.cut (s := v) ?_ (fun hv => ?_); rotate_left; clear_value v; rotate_right))
    | with_reducible apply KeptR.ok
    | with_reducible apply State.restore_kept
    | with_reducible apply State.clearIssue_kept
    | with_reducible apply State.setSched_kept
    | with_reducible apply KeptR.next_
    | with_reducible apply KeptR.ite
    | with_reducible exact KeptR.fault
    | with_reducible apply Kept.ite
    | with_reducible apply Kept.foldl
    | split
    | (refine Kept.mk_ ?_ rfl rfl rfl rfl; assumption)
    | (refine Kept.mk_ ?_ rfl rfl rfl rfl; first | with_reducible assumption | (with_reducible refine fun h => ?_) | with_reducible apply KeptR.ok | with_reducible apply State.restore_kept | with_reducible apply State.clearIssue_kept | with_reducible apply State.setSched_kept | with_reducible apply KeptR.next_ | with_reducible apply KeptR.ite | with_reducible exact KeptR.fault | with_reducible apply Kept.ite | with_reducible apply Kept.foldl | split)

theorem execLogItemInject_kept {a s : State} {x1} (h : Kept a s) : KeptR a (execLogItemInject x1 s) := by
  unfold execLogItemInject
  repeat' first
    | with_reducible assumption
    | (with_reducible refine fun h => ?_)
    | (lift_lets; intro v; first | (refine Kept.cut (s := v) ?_ (fun hv => ?_); rotate_left; clear_value v; rotate_right) | clear_value v)
    | with_reducible apply KeptR.ok
    | with_reducible apply State.addCtr_kept
    | with_reducible apply State.memWriteP_kept
    | with_reducible apply State.setSched_kept
    | with_reducible apply KeptR.next_
    | with_reducible apply KeptR.ite
    | with_reducible exact KeptR.fault
    | with_reducible apply Kept.ite
    | with_reducible apply Kept.foldl
    | split
    | (refine Kept.mk_ ?_ rfl rfl rfl rfl; assumption)

theorem State.collateDesc_kept {a s : State} {x1 x2} (h : Kept a s) : Kept a (State.collateDesc s x1 x2) := by
  unfold State.collateDesc
  repeat' first
    | with_reducible assumption
    | (with_reducible refine fun h => ?_)
    | (lift_lets; intro v; first | (refine Kept.cut (s := v) ?_ (fun hv => ?_); rotate_left; clear_value v; rotate_right) | clear_value v)
    | with_reducible apply Kept.ite
    | with_reducible apply Kept.foldl
    | split
    | (refine Kept.mk_ ?_ rfl rfl rfl rfl; assumption)

theorem State.collateStep_kept {a s : State} {x1 x2} (h : Kept a s) : Kept a (State.collateStep s x1 x2) := by
  unfold State.collateStep
  repeat' first
    | with_reducible assumption
    | (with_reducible refine fun h => ?_)
    | (lift_lets; intro v; first | (refine Kept.cut (s := v) ?_ (fun hv => ?_); rotate_left; clear_value v; rotate_right) | clear_value v)
    | with_reducible apply State.collateDesc_kept
    | with_reducible apply State.numCollate_kept
    | with_reducible apply State.nativeE_kept
    | with_reducible apply State.feed_kept
    | with_reducible apply State.runPendings_kept
    | with_reducible apply State.finishCancel_kept
    | with_reducible apply State.cutCheck_kept
    | with_reducible apply State.setSched_kept
    | with_reducible apply Kept.ite
    | with_reducible apply Kept.foldl
    | split
    | (refine Kept.mk_ ?_ rfl rfl rfl rfl; assumption)
    | (refine Kept.mk_ ?_ rfl rfl rfl rfl; first | with_reducible assumption | (with_reducible refine fun h => ?_) | with_reducible apply State.collateDesc_kept | with_reducible apply State.numCollate_kept | with_reducible apply State.nativeE_kept | with_reducible apply State.feed_kept | with_reducible apply State.runPendings_kept | with_reducible apply State.finishCancel_kept | with_reducible apply State.cutCheck_kept | with_reducible apply State.setSched_kept | with_reducible apply Kept.ite | with_reducible apply Kept.foldl | split)

theorem State.reloadCounters_kept {a s : State} {x1} (h : Kept a s) : Kept a (State.reloadCounters s x1) := by
  unfold State.reloadCounters
  repeat' first
    | with_reducible assumption
    | (with_reducible refine fun h => ?_)
    | (lift_lets; intro v; first | (refine Kept.cut (s := v) ?_ (fun hv => ?_); rotate_left; clear_value v; rotate_right) | clear_value v)
    | with_reducible apply State.setCtr_kept
    | with_reducible apply Kept.ite
    | with_reducible apply Kept.foldl
    | split
    | (refine Kept.mk_ ?_ rfl rfl rfl rfl; assumption)

theorem State.finishReplayCmd_kept {a s : State} {x1 x2} (h : Kept a s) : Kept a (State.finishReplayCmd s x1 x2) := by
  unfold State.finishReplayCmd
  repeat' first
    | with_reducible assumption
    | (with_reducible refine fun h => ?_)
    | (lift_lets; intro v; first | (refine Kept.cut (s := v) ?_ (fun hv => ?_); rotate_left; clear_value v; rotate_right) | clear_value v)
    | with_reducible apply State.complete_kept
    | with_reducible apply Kept.ite
    | with_reducible apply Kept.foldl
    | split
    | (refine Kept.mk_ ?_ rfl rfl rfl rfl; assumption)

theorem State.probeEnd_kept {a s : State} {x1 x2} (h : Kept a s) : Kept a (State.probeEnd s x1 x2) := by
  unfold State.probeEnd
  repeat' first
    | with_reducible assumption
    | (with_reducible refine fun h => ?_)
    | (lift_lets; intro v; first | (refine Kept.cut (s := v) ?_ (fun hv => ?_); rotate_left; clear_value v; rotate_right) | clear_value v)
    | with_reducible apply State.scaleSettle_kept
    | with_reducible apply State.copyScales_kept
    | with_reducible apply State.setSched_kept
    | with_reducible apply Kept.ite
    | with_reducible apply Kept.foldl
    | split
    | (refine Kept.mk_ ?_ rfl rfl rfl rfl; assumption)

theorem State.roundEnd_kept {a s : State} {x1 x2} (h : Kept a s) : Kept a (State.roundEnd s x1 x2) := by
  unfold State.roundEnd
  dsimp only
  repeat' first
    | with_reducible assumption
    | (with_reducible refine fun h => ?_)
    | with_reducible apply State.finishReplayCmd_kept
    | with_reducible apply State.collateStep_kept
    | with_reducible apply State.setSched_kept
    | with_reducible apply State.enterReplay_kept
    | with_reducible apply State.wantTake_kept
    | with_reducible apply State.escalate_kept
    | with_reducible apply Kept.ite
    | with_reducible apply Kept.foldl
    | with_reducible apply Kept.ite2
    | with_reducible apply Kept.ite3
    | with_reducible apply Kept.foldl2
    | with_reducible apply Kept.foldl3
    | split
    | (refine Kept.mk_ ?_ rfl rfl rfl rfl; assumption)

theorem State.beginStep_kept {a s : State} {x1} (h : Kept a s) : Kept a (State.beginStep s x1) := by
  unfold State.beginStep
  repeat' first
    | with_reducible assumption
    | (with_reducible refine fun h => ?_)
    | (lift_lets; intro v; first | (refine Kept.cut (s := v) ?_ (fun hv => ?_); rotate_left; clear_value v; rotate_right) | clear_value v)
    | with_reducible apply State.firstLaunch_kept
    | with_reducible apply Kept.ite
    | with_reducible apply Kept.foldl
    | split
    | (refine Kept.mk_ ?_ rfl rfl rfl rfl; assumption)

theorem State.barFailed_kept {a s : State} {x1 x2} (h : Kept a s) : Kept a (State.barFailed s x1 x2) := by
  unfold State.barFailed
  repeat' first
    | with_reducible assumption
    | (with_reducible refine fun h => ?_)
    | (lift_lets; intro v; first | (refine Kept.cut (s := v) ?_ (fun hv => ?_); rotate_left; clear_value v; rotate_right) | clear_value v)
    | with_reducible apply State.beginStep_kept
    | with_reducible apply State.emit_kept
    | with_reducible apply State.nativeE_kept
    | with_reducible apply State.finishReplayCmd_kept
    | with_reducible apply State.cutCheck_kept
    | with_reducible apply State.setSched_kept
    | with_reducible apply Kept.ite
    | with_reducible apply Kept.foldl
    | split
    | (refine Kept.mk_ ?_ rfl rfl rfl rfl; assumption)

theorem State.barrierDone_kept {a s : State} {x1 x2} (h : Kept a s) : Kept a (State.barrierDone s x1 x2) := by
  unfold State.barrierDone
  repeat' first
    | with_reducible assumption
    | (with_reducible refine fun h => ?_)
    | (lift_lets; intro v; first | (refine Kept.cut (s := v) ?_ (fun hv => ?_); rotate_left; clear_value v; rotate_right) | clear_value v)
    | with_reducible apply State.emit_kept
    | with_reducible apply State.barFailed_kept
    | with_reducible apply State.reloadCounters_kept
    | with_reducible apply State.setSched_kept
    | with_reducible apply State.barrierPendings_kept
    | with_reducible apply State.probeEnd_kept
    | with_reducible apply State.roundEnd_kept
    | with_reducible apply Kept.ite
    | with_reducible apply Kept.foldl
    | split
    | (refine Kept.mk_ ?_ rfl rfl rfl rfl; assumption)

theorem State.sendUp_kept {a s : State} {x1} (h : Kept a s) : Kept a (State.sendUp s x1) := by
  unfold State.sendUp
  repeat' first
    | with_reducible assumption
    | (with_reducible refine fun h => ?_)
    | (lift_lets; intro v; first | (refine Kept.cut (s := v) ?_ (fun hv => ?_); rotate_left; clear_value v; rotate_right) | clear_value v)
    | with_reducible apply State.setSched_kept
    | with_reducible apply State.emit_kept
    | with_reducible apply State.barrierDone_kept
    | with_reducible apply Kept.ite
    | with_reducible apply Kept.foldl
    | split
    | (refine Kept.mk_ ?_ rfl rfl rfl rfl; assumption)

theorem State.beginEmpty_kept {a s : State} {x1} (h : Kept a s) : Kept a (State.beginEmpty s x1) := by
  unfold State.beginEmpty
  repeat' first
    | with_reducible assumption
    | (with_reducible refine fun h => ?_)
    | (lift_lets; intro v; first | (refine Kept.cut (s := v) ?_ (fun hv => ?_); rotate_left; clear_value v; rotate_right) | clear_value v)
    | with_reducible apply State.firstLaunch_kept
    | with_reducible apply Kept.ite
    | with_reducible apply Kept.foldl
    | split
    | (refine Kept.mk_ ?_ rfl rfl rfl rfl; assumption)

theorem execBarrierUpSend_kept {a s : State} {x1} (h : Kept a s) : KeptR a (execBarrierUpSend x1 s) := by
  unfold execBarrierUpSend
  repeat' first
    | with_reducible assumption
    | (with_reducible refine fun h => ?_)
    | (lift_lets; intro v; first | (refine Kept.cut (s := v) ?_ (fun hv => ?_); rotate_left; clear_value v; rotate_right) | clear_value v)
    | with_reducible apply KeptR.ok
    | with_reducible apply State.sendUp_kept
    | with_reducible apply State.beginEmpty_kept
    | with_reducible apply State.settle_kept
    | with_reducible apply KeptR.next_
    | with_reducible apply KeptR.ite
    | with_reducible exact KeptR.fault
    | with_reducible apply Kept.ite
    | with_reducible apply Kept.foldl
    | split
    | (refine Kept.mk_ ?_ rfl rfl rfl rfl; assumption)

theorem execBarrierUpReceive_kept {a s : State} {x1 x2} (h : Kept a s) : KeptR a (execBarrierUpReceive x1 x2 s) := by
  unfold execBarrierUpReceive
  repeat' first
    | with_reducible assumption
    | (with_reducible refine fun h => ?_)
    | (lift_lets; intro v; first | (refine Kept.cut (s := v) ?_ (fun hv => ?_); rotate_left; clear_value v; rotate_right) | clear_value v)
    | with_reducible apply KeptR.ok
    | with_reducible apply State.malformed_kept
    | with_reducible apply State.setSched_kept
    | with_reducible apply State.sendUp_kept
    | with_reducible apply State.settle_kept
    | with_reducible apply KeptR.next_
    | with_reducible apply KeptR.ite
    | with_reducible exact KeptR.fault
    | with_reducible apply Kept.ite
    | with_reducible apply Kept.foldl
    | split
    | (refine Kept.mk_ ?_ rfl rfl rfl rfl; assumption)

theorem execBarrierDownReceive_kept {a s : State} {x1 x2} (h : Kept a s) : KeptR a (execBarrierDownReceive x1 x2 s) := by
  unfold execBarrierDownReceive
  repeat' first
    | with_reducible assumption
    | (with_reducible refine fun h => ?_)
    | (lift_lets; intro v; first | (refine Kept.cut (s := v) ?_ (fun hv => ?_); rotate_left; clear_value v; rotate_right) | clear_value v)
    | with_reducible apply KeptR.ok
    | with_reducible apply State.malformed_kept
    | with_reducible apply State.barrierDone_kept
    | with_reducible apply KeptR.next_
    | with_reducible apply KeptR.ite
    | with_reducible exact KeptR.fault
    | with_reducible apply Kept.ite
    | with_reducible apply Kept.foldl
    | split
    | (refine Kept.mk_ ?_ rfl rfl rfl rfl; assumption)

theorem execBarrierLimitExpiry_kept {a s : State} {x1} (h : Kept a s) : KeptR a (execBarrierLimitExpiry x1 s) := by
  unfold execBarrierLimitExpiry
  repeat' first
    | with_reducible assumption
    | (with_reducible refine fun h => ?_)
    | (lift_lets; intro v; try (refine Kept.cut (s := v) ?_ (fun hv => ?_); rotate_left; clear_value v; rotate_right))
    | with_reducible apply KeptR.ok
    | with_reducible apply State.beginStep_kept
    | with_reducible apply State.slip_kept
    | with_reducible apply State.emit_kept
    | with_reducible apply State.nativeE_kept
    | with_reducible apply State.holdSched_kept
    | with_reducible apply State.barrierDone_kept
    | with_reducible apply State.setSched_kept
    | with_reducible apply KeptR.next_
    | with_reducible apply KeptR.ite
    | with_reducible exact KeptR.fault
    | with_reducible apply Kept.ite
    | with_reducible apply Kept.foldl
    | split
    | (refine Kept.mk_ ?_ rfl rfl rfl rfl; assumption)

theorem State.openReplayTrace_kept {a s : State} {x1} (h : Kept a s) : Kept a (State.openReplayTrace s x1).2 := by
  unfold State.openReplayTrace
  repeat' first
    | with_reducible assumption
    | (with_reducible refine fun h => ?_)
    | (lift_lets; intro v; first | (refine Kept.cut (s := v) ?_ (fun hv => ?_); rotate_left; clear_value v; rotate_right) | clear_value v)
    | with_reducible apply Kept.ite
    | with_reducible apply Kept.foldl
    | with_reducible apply Kept.ite2
    | with_reducible apply Kept.ite3
    | with_reducible apply Kept.foldl2
    | with_reducible apply Kept.foldl3
    | split
    | (refine Kept.mk_ ?_ rfl rfl rfl rfl; assumption)

theorem State.openReplayTrace_keptE {a s : State} {x1} {r t} (e : State.openReplayTrace s x1 = (r, t)) (h : Kept a s) : Kept a t := Kept.of_pair e (State.openReplayTrace_kept h)

theorem execColReplay_kept {a s : State} {x1} (h : Kept a s) : KeptR a (execColReplay x1 s) := by
  unfold execColReplay
  repeat' first
    | with_reducible assumption
    | (with_reducible refine fun h => ?_)
    | (lift_lets; intro v; first | (refine Kept.cut (s := v) ?_ (fun hv => ?_); rotate_left; clear_value v; rotate_right) | clear_value v)
    | with_reducible apply State.serloth_kept
    | with_reducible apply State.refuse_kept
    | with_reducible apply State.openReplayTrace_kept
    | (with_reducible apply State.openReplayTrace_keptE; · assumption)
    | with_reducible apply State.setSched_kept
    | with_reducible apply State.hold_kept
    | with_reducible apply KeptR.next_
    | with_reducible apply KeptR.ite
    | with_reducible exact KeptR.fault
    | with_reducible apply Kept.ite
    | with_reducible apply Kept.foldl
    | split
    | (refine Kept.mk_ ?_ rfl rfl rfl rfl; assumption)

theorem execDiagnosticReplay_kept {a s : State} {x1} (h : Kept a s) : KeptR a (execDiagnosticReplay x1 s) := by
  unfold execDiagnosticReplay
  dsimp only
  repeat' first
    | with_reducible assumption
    | (with_reducible refine fun h => ?_)
    | with_reducible apply State.settle_kept
    | with_reducible apply KeptR.ok
    | with_reducible apply State.clearIssue_kept
    | with_reducible apply State.setSched_kept
    | with_reducible apply State.restore_kept
    | with_reducible apply State.memWrite_kept
    | with_reducible apply State.cutCheck_kept
    | with_reducible apply State.nativeE_kept
    | with_reducible apply State.finishReplayCmd_kept
    | with_reducible apply KeptR.next_
    | with_reducible apply KeptR.ite
    | with_reducible exact KeptR.fault
    | with_reducible apply Kept.ite
    | with_reducible apply Kept.foldl
    | with_reducible apply Kept.ite2
    | with_reducible apply Kept.ite3
    | with_reducible apply Kept.foldl2
    | with_reducible apply Kept.foldl3
    | split
    | (refine Kept.mk_ ?_ rfl rfl rfl rfl; assumption)
    | (refine Kept.mk_ ?_ rfl rfl rfl rfl; first | with_reducible assumption | (with_reducible refine fun h => ?_) | with_reducible apply State.settle_kept | with_reducible apply KeptR.ok | with_reducible apply State.clearIssue_kept | with_reducible apply State.setSched_kept | with_reducible apply State.restore_kept | with_reducible apply State.memWrite_kept | with_reducible apply State.cutCheck_kept | with_reducible apply State.nativeE_kept | with_reducible apply State.finishReplayCmd_kept | with_reducible apply KeptR.next_ | with_reducible apply KeptR.ite | with_reducible exact KeptR.fault | with_reducible apply Kept.ite | with_reducible apply Kept.foldl | with_reducible apply Kept.ite2 | with_reducible apply Kept.ite3 | with_reducible apply Kept.foldl2 | with_reducible apply Kept.foldl3 | split)

theorem execColStatus_kept {a s : State} {x1} (h : Kept a s) : KeptR a (execColStatus x1 s) := by
  unfold execColStatus
  repeat' first
    | with_reducible assumption
    | (with_reducible refine fun h => ?_)
    | (lift_lets; intro v; first | (refine Kept.cut (s := v) ?_ (fun hv => ?_); rotate_left; clear_value v; rotate_right) | clear_value v)
    | with_reducible apply State.serloth_kept
    | with_reducible apply State.complete_kept
    | with_reducible apply KeptR.next_
    | with_reducible apply KeptR.ite
    | with_reducible exact KeptR.fault
    | with_reducible apply Kept.ite
    | with_reducible apply Kept.foldl
    | split
    | (refine Kept.mk_ ?_ rfl rfl rfl rfl; assumption)

/-! ## Load -/

theorem State.refuseImage_kept {a s : State} {x1 x2 x3} (h : Kept a s) : Kept a (State.refuseImage s x1 x2 x3) := by
  unfold State.refuseImage
  dsimp only
  repeat' first
    | with_reducible assumption
    | (with_reducible refine fun h => ?_)
    | with_reducible apply State.nativeE_kept
    | with_reducible apply State.fresh_kept
    | (with_reducible apply State.fresh_keptE; · assumption)
    | with_reducible apply State.refuse_kept
    | with_reducible apply Kept.ite
    | with_reducible apply Kept.foldl
    | with_reducible apply Kept.ite2
    | with_reducible apply Kept.ite3
    | with_reducible apply Kept.foldl2
    | with_reducible apply Kept.foldl3
    | split
    | (refine Kept.mk_ ?_ rfl rfl rfl rfl; assumption)

theorem State.schLoad_kept {a s : State} {x1 x2 x3 x4 x5} (h : Kept a s) : Kept a (State.schLoad s x1 x2 x3 x4 x5) := by
  unfold State.schLoad
  repeat' first
    | with_reducible assumption
    | (with_reducible refine fun h => ?_)
    | (lift_lets; intro v; first | (refine Kept.cut (s := v) ?_ (fun hv => ?_); rotate_left; clear_value v; rotate_right) | clear_value v)
    | with_reducible apply State.refuse_kept
    | with_reducible apply State.complete_kept
    | with_reducible apply State.refuseImage_kept
    | with_reducible apply Kept.ite
    | with_reducible apply Kept.foldl
    | split
    | (refine Kept.mk_ ?_ rfl rfl rfl rfl; assumption)

theorem execSchLoad_kept {a s : State} {x1} (h : Kept a s) : KeptR a (execSchLoad x1 s) := by
  unfold execSchLoad
  repeat' first
    | with_reducible assumption
    | (with_reducible refine fun h => ?_)
    | (lift_lets; intro v; first | (refine Kept.cut (s := v) ?_ (fun hv => ?_); rotate_left; clear_value v; rotate_right) | clear_value v)
    | with_reducible apply State.serlothMem_kept
    | with_reducible apply State.schLoad_kept
    | with_reducible apply KeptR.next_
    | with_reducible apply KeptR.ite
    | with_reducible exact KeptR.fault
    | with_reducible apply Kept.ite
    | with_reducible apply Kept.foldl
    | split
    | (refine Kept.mk_ ?_ rfl rfl rfl rfl; assumption)

/-! ## Admit -/

theorem State.schAdmit_kept {a s : State} {x1 x2} (h : Kept a s) : Kept a (State.schAdmit s x1 x2) := by
  unfold State.schAdmit
  dsimp only
  repeat' first
    | with_reducible assumption
    | (with_reducible refine fun h => ?_)
    | with_reducible apply State.complete_kept
    | with_reducible apply State.setSched_kept
    | with_reducible apply Kept.ite
    | with_reducible apply Kept.foldl
    | with_reducible apply Kept.ite2
    | with_reducible apply Kept.ite3
    | with_reducible apply Kept.foldl2
    | with_reducible apply Kept.foldl3
    | split
    | (refine Kept.mk_ ?_ rfl rfl rfl rfl; assumption)

theorem execSchAdmit_kept {a s : State} {x1} (h : Kept a s) : KeptR a (execSchAdmit x1 s) := by
  unfold execSchAdmit
  repeat' first
    | with_reducible assumption
    | (with_reducible refine fun h => ?_)
    | (lift_lets; intro v; try (refine Kept.cut (s := v) ?_ (fun hv => ?_); rotate_left; clear_value v; rotate_right))
    | with_reducible apply State.serloth_kept
    | with_reducible apply State.complete_kept
    | with_reducible apply State.schAdmit_kept
    | with_reducible apply KeptR.next_
    | with_reducible apply KeptR.ite
    | with_reducible exact KeptR.fault
    | with_reducible apply Kept.ite
    | with_reducible apply Kept.foldl
    | split
    | (refine Kept.mk_ ?_ rfl rfl rfl rfl; assumption)

/-! ## Sched -/

theorem State.armed_kept {a s : State} {x1 x2} (h : Kept a s) : Kept a (State.armed s x1 x2) := by
  unfold State.armed
  repeat' first
    | with_reducible assumption
    | (with_reducible refine fun h => ?_)
    | (lift_lets; intro v; first | (refine Kept.cut (s := v) ?_ (fun hv => ?_); rotate_left; clear_value v; rotate_right) | clear_value v)
    | with_reducible apply State.setCtr_kept
    | with_reducible apply State.setSched_kept
    | with_reducible apply State.emit_kept
    | with_reducible apply Kept.ite
    | with_reducible apply Kept.foldl
    | split
    | (refine Kept.mk_ ?_ rfl rfl rfl rfl; assumption)

theorem execSchArm_kept {a s : State} {x1} (h : Kept a s) : KeptR a (execSchArm x1 s) := by
  unfold execSchArm
  repeat' first
    | with_reducible assumption
    | (with_reducible refine fun h => ?_)
    | (lift_lets; intro v; first | (refine Kept.cut (s := v) ?_ (fun hv => ?_); rotate_left; clear_value v; rotate_right) | clear_value v)
    | with_reducible apply State.serloth_kept
    | with_reducible apply State.refuse_kept
    | with_reducible apply State.complete_kept
    | with_reducible apply State.armed_kept
    | with_reducible apply State.raiseSupply_kept
    | with_reducible apply KeptR.next_
    | with_reducible apply KeptR.ite
    | with_reducible exact KeptR.fault
    | with_reducible apply Kept.ite
    | with_reducible apply Kept.foldl
    | split
    | (refine Kept.mk_ ?_ rfl rfl rfl rfl; assumption)

theorem execArmExchangeReceive_kept {a s : State} {x1 x2} (h : Kept a s) : KeptR a (execArmExchangeReceive x1 x2 s) := by
  unfold execArmExchangeReceive
  repeat' first
    | with_reducible assumption
    | (with_reducible refine fun h => ?_)
    | (lift_lets; intro v; first | (refine Kept.cut (s := v) ?_ (fun hv => ?_); rotate_left; clear_value v; rotate_right) | clear_value v)
    | with_reducible apply KeptR.ok
    | with_reducible apply State.runPendings_kept
    | with_reducible apply State.setSched_kept
    | with_reducible apply State.nativeE_kept
    | with_reducible apply KeptR.next_
    | with_reducible apply KeptR.ite
    | with_reducible exact KeptR.fault
    | with_reducible apply Kept.ite
    | with_reducible apply Kept.foldl
    | split
    | (refine Kept.mk_ ?_ rfl rfl rfl rfl; assumption)

theorem State.schCancel_kept {a s : State} {x1 x2 x3} (h : Kept a s) : Kept a (State.schCancel s x1 x2 x3) := by
  unfold State.schCancel
  repeat' first
    | with_reducible assumption
    | (with_reducible refine fun h => ?_)
    | (lift_lets; intro v; first | (refine Kept.cut (s := v) ?_ (fun hv => ?_); rotate_left; clear_value v; rotate_right) | clear_value v)
    | with_reducible apply State.finishCancel_kept
    | with_reducible apply State.hold_kept
    | with_reducible apply State.setSched_kept
    | with_reducible apply Kept.ite
    | with_reducible apply Kept.foldl
    | split
    | (refine Kept.mk_ ?_ rfl rfl rfl rfl; assumption)

theorem execSchCancel_kept {a s : State} {x1} (h : Kept a s) : KeptR a (execSchCancel x1 s) := by
  unfold execSchCancel
  repeat' first
    | with_reducible assumption
    | (with_reducible refine fun h => ?_)
    | (lift_lets; intro v; first | (refine Kept.cut (s := v) ?_ (fun hv => ?_); rotate_left; clear_value v; rotate_right) | clear_value v)
    | with_reducible apply KeptR.ok
    | with_reducible apply State.serloth_kept
    | with_reducible apply State.refuse_kept
    | with_reducible apply State.schCancel_kept
    | with_reducible apply KeptR.next_
    | with_reducible apply KeptR.ite
    | with_reducible exact KeptR.fault
    | with_reducible apply Kept.ite
    | with_reducible apply Kept.foldl
    | split
    | (refine Kept.mk_ ?_ rfl rfl rfl rfl; assumption)

theorem execSchCancelAtBarrier_kept {a s : State} {x1} (h : Kept a s) : KeptR a (execSchCancelAtBarrier x1 s) := by
  unfold execSchCancelAtBarrier
  repeat' first
    | with_reducible assumption
    | (with_reducible refine fun h => ?_)
    | (lift_lets; intro v; first | (refine Kept.cut (s := v) ?_ (fun hv => ?_); rotate_left; clear_value v; rotate_right) | clear_value v)
    | with_reducible apply KeptR.ok
    | with_reducible apply State.serloth_kept
    | with_reducible apply State.refuse_kept
    | with_reducible apply State.schCancel_kept
    | with_reducible apply KeptR.next_
    | with_reducible apply KeptR.ite
    | with_reducible exact KeptR.fault
    | with_reducible apply Kept.ite
    | with_reducible apply Kept.foldl
    | split
    | (refine Kept.mk_ ?_ rfl rfl rfl rfl; assumption)

theorem execSchStatus_kept {a s : State} {x1} (h : Kept a s) : KeptR a (execSchStatus x1 s) := by
  unfold execSchStatus
  repeat' first
    | with_reducible assumption
    | (with_reducible refine fun h => ?_)
    | (lift_lets; intro v; first | (refine Kept.cut (s := v) ?_ (fun hv => ?_); rotate_left; clear_value v; rotate_right) | clear_value v)
    | with_reducible apply State.serloth_kept
    | with_reducible apply State.refuse_kept
    | with_reducible apply State.complete_kept
    | with_reducible apply KeptR.next_
    | with_reducible apply KeptR.ite
    | with_reducible exact KeptR.fault
    | with_reducible apply Kept.ite
    | with_reducible apply Kept.foldl
    | split
    | (refine Kept.mk_ ?_ rfl rfl rfl rfl; assumption)

theorem execSchSlips_kept {a s : State} {x1} (h : Kept a s) : KeptR a (execSchSlips x1 s) := by
  unfold execSchSlips
  repeat' first
    | with_reducible assumption
    | (with_reducible refine fun h => ?_)
    | (lift_lets; intro v; first | (refine Kept.cut (s := v) ?_ (fun hv => ?_); rotate_left; clear_value v; rotate_right) | clear_value v)
    | with_reducible apply State.serloth_kept
    | with_reducible apply State.refuse_kept
    | with_reducible apply State.complete_kept
    | with_reducible apply KeptR.next_
    | with_reducible apply KeptR.ite
    | with_reducible exact KeptR.fault
    | with_reducible apply Kept.ite
    | with_reducible apply Kept.foldl
    | split
    | (refine Kept.mk_ ?_ rfl rfl rfl rfl; assumption)

end Sys2Proof.Machine
end

