-- ==== Sys2Proof/Laws/KeptFaults.lean ====
section
/-! SUPPORT. What the operations of Resets, Time, Faults keep: one lemma for each (Kept). -/

namespace Sys2Proof.Machine

/-! ## Resets -/

theorem State.dropImage_kept {a s : State} {x1} (h : Kept a s) : Kept a (State.dropImage s x1) := by
  unfold State.dropImage
  repeat' first
    | with_reducible assumption
    | (with_reducible refine fun h => ?_)
    | (lift_lets; intro v; first | (refine Kept.cut (s := v) ?_ (fun hv => ?_); rotate_left; clear_value v; rotate_right) | clear_value v)
    | with_reducible apply Kept.ite
    | with_reducible apply Kept.foldl
    | split
    | (refine Kept.mk_ ?_ rfl rfl rfl rfl; assumption)

theorem State.endCommands_kept {a s : State} {x1 x2} (h : Kept a s) : Kept a (State.endCommands s x1 x2) := by
  unfold State.endCommands
  repeat' first
    | with_reducible assumption
    | (with_reducible refine fun h => ?_)
    | (lift_lets; intro v; first | (refine Kept.cut (s := v) ?_ (fun hv => ?_); rotate_left; clear_value v; rotate_right) | clear_value v)
    | with_reducible apply State.refuse_kept
    | with_reducible apply Kept.ite
    | with_reducible apply Kept.foldl
    | split
    | (refine Kept.mk_ ?_ rfl rfl rfl rfl; assumption)

theorem State.poisonHalf_kept {a s : State} {x1} (h : Kept a s) : Kept a (State.poisonHalf s x1) := by
  unfold State.poisonHalf
  repeat' first
    | with_reducible assumption
    | (with_reducible refine fun h => ?_)
    | (lift_lets; intro v; first | (refine Kept.cut (s := v) ?_ (fun hv => ?_); rotate_left; clear_value v; rotate_right) | clear_value v)
    | with_reducible apply State.poisonRange_kept
    | with_reducible apply Kept.ite
    | with_reducible apply Kept.foldl
    | split
    | (refine Kept.mk_ ?_ rfl rfl rfl rfl; assumption)

theorem State.stopLoad_kept {a s : State} {x1} (h : Kept a s) : Kept a (State.stopLoad s x1) := by
  unfold State.stopLoad
  repeat' first
    | with_reducible assumption
    | (with_reducible refine fun h => ?_)
    | (lift_lets; intro v; first | (refine Kept.cut (s := v) ?_ (fun hv => ?_); rotate_left; clear_value v; rotate_right) | clear_value v)
    | with_reducible apply State.poisonHalf_kept
    | with_reducible apply Kept.ite
    | with_reducible apply Kept.foldl
    | split
    | (refine Kept.mk_ ?_ rfl rfl rfl rfl; assumption)

theorem State.stopHeld_kept {a s : State} {x1} (h : Kept a s) : Kept a (State.stopHeld s x1) := by
  unfold State.stopHeld
  repeat' first
    | with_reducible assumption
    | (with_reducible refine fun h => ?_)
    | (lift_lets; intro v; first | (refine Kept.cut (s := v) ?_ (fun hv => ?_); rotate_left; clear_value v; rotate_right) | clear_value v)
    | with_reducible apply State.setSched_kept
    | with_reducible apply State.setCtx_kept
    | with_reducible apply State.dropImage_kept
    | with_reducible apply State.stopLoad_kept
    | with_reducible apply Kept.ite
    | with_reducible apply Kept.foldl
    | split
    | (refine Kept.mk_ ?_ rfl rfl rfl rfl; assumption)

theorem execLongCommandTimeout_kept {a s : State} {x1} (h : Kept a s) : KeptR a (execLongCommandTimeout x1 s) := by
  unfold execLongCommandTimeout
  repeat' first
    | with_reducible assumption
    | (with_reducible refine fun h => ?_)
    | (lift_lets; intro v; first | (refine Kept.cut (s := v) ?_ (fun hv => ?_); rotate_left; clear_value v; rotate_right) | clear_value v)
    | with_reducible apply KeptR.ok
    | with_reducible apply State.refuse_kept
    | with_reducible apply State.stopHeld_kept
    | with_reducible apply KeptR.next_
    | with_reducible apply KeptR.ite
    | with_reducible exact KeptR.fault
    | with_reducible apply Kept.ite
    | with_reducible apply Kept.foldl
    | split
    | (refine Kept.mk_ ?_ rfl rfl rfl rfl; assumption)

theorem State.returnSched_kept {a s : State} {x1} (h : Kept a s) : Kept a (State.returnSched s x1) := by
  unfold State.returnSched
  repeat' first
    | with_reducible assumption
    | (with_reducible refine fun h => ?_)
    | (lift_lets; intro v; first | (refine Kept.cut (s := v) ?_ (fun hv => ?_); rotate_left; clear_value v; rotate_right) | clear_value v)
    | with_reducible apply State.stopRun_kept
    | with_reducible apply State.cutCheck_kept
    | with_reducible apply State.setSched_kept
    | with_reducible apply Kept.ite
    | with_reducible apply Kept.foldl
    | split
    | (refine Kept.mk_ ?_ rfl rfl rfl rfl; assumption)

theorem State.resetEngine_kept {a s : State} {x1} (h : Kept a s) : Kept a (State.resetEngine s x1).2 := by
  unfold State.resetEngine
  repeat' first
    | with_reducible assumption
    | (with_reducible refine fun h => ?_)
    | (lift_lets; intro v; first | (refine Kept.cut (s := v) ?_ (fun hv => ?_); rotate_left; clear_value v; rotate_right) | clear_value v)
    | with_reducible apply State.closeEntry_kept
    | with_reducible apply State.dropLoad_kept
    | with_reducible apply State.traceCmd_kept
    | with_reducible apply State.flush_kept
    | with_reducible apply State.setEng_kept
    | with_reducible apply Kept.ite
    | with_reducible apply Kept.foldl
    | with_reducible apply Kept.ite2
    | with_reducible apply Kept.ite3
    | with_reducible apply Kept.foldl2
    | with_reducible apply Kept.foldl3
    | split
    | (refine Kept.mk_ ?_ rfl rfl rfl rfl; assumption)

theorem State.resetEngine_keptE {a s : State} {x1} {r t} (e : State.resetEngine s x1 = (r, t)) (h : Kept a s) : Kept a t := Kept.of_pair e (State.resetEngine_kept h)

theorem State.stopContext_kept {a s : State} {c force} (h : Kept a s) : Kept a (State.stopContext s c force) := by
  unfold State.stopContext
  refine Kept.mk_ ?_ rfl rfl rfl rfl
  refine Kept.foldl ?_ fun s x h => Kept.foldl h fun s d h => State.setCtr_kept h
  refine Kept.foldl ?_ fun s e h => ?_
  · refine Kept.foldl ?_ fun s x h => State.returnSched_kept h
    refine State.endCommands_kept ?_
    exact Kept.foldl (State.setCtx_kept h) fun s n h => Kept.ite (State.dropImage_kept h) h
  · exact Kept.ite (State.setEng_kept h) (State.setCtx_kept (State.resetEngine_kept h))

theorem State.endRuns_kept {a s : State} {x1} (h : Kept a s) : Kept a (State.endRuns s x1) := by
  unfold State.endRuns
  repeat' first
    | with_reducible assumption
    | (with_reducible refine fun h => ?_)
    | (lift_lets; intro v; first | (refine Kept.cut (s := v) ?_ (fun hv => ?_); rotate_left; clear_value v; rotate_right) | clear_value v)
    | with_reducible apply State.writeSample_kept
    | with_reducible apply State.setSched_kept
    | with_reducible apply Kept.ite
    | with_reducible apply Kept.foldl
    | split
    | (refine Kept.mk_ ?_ rfl rfl rfl rfl; assumption)

theorem State.endContext_kept {a s : State} {x1 x2} (h : Kept a s) : Kept a (State.endContext s x1 x2) := by
  unfold State.endContext
  repeat' first
    | with_reducible assumption
    | (with_reducible refine fun h => ?_)
    | (lift_lets; intro v; first | (refine Kept.cut (s := v) ?_ (fun hv => ?_); rotate_left; clear_value v; rotate_right) | clear_value v)
    | with_reducible apply State.endRuns_kept
    | with_reducible apply State.unmapAll_kept
    | with_reducible apply State.removeSched_kept
    | with_reducible apply State.setCtx_kept
    | with_reducible apply State.nativeE_kept
    | with_reducible apply State.complete_kept
    | with_reducible apply State.runPendings_kept
    | with_reducible apply Kept.ite
    | with_reducible apply Kept.foldl
    | split
    | (refine Kept.mk_ ?_ rfl rfl rfl rfl; assumption)

theorem execCtxReset_kept {a s : State} {x1} (h : Kept a s) : KeptR a (execCtxReset x1 s) := by
  unfold execCtxReset
  repeat' first
    | with_reducible assumption
    | (with_reducible refine fun h => ?_)
    | (lift_lets; intro v; first | (refine Kept.cut (s := v) ?_ (fun hv => ?_); rotate_left; clear_value v; rotate_right) | clear_value v)
    | with_reducible apply State.serloth_kept
    | with_reducible apply State.refuse_kept
    | with_reducible apply State.hold_kept
    | with_reducible apply State.stopContext_kept
    | with_reducible apply State.endContext_kept
    | with_reducible apply KeptR.next_
    | with_reducible apply KeptR.ite
    | with_reducible exact KeptR.fault
    | with_reducible apply Kept.ite
    | with_reducible apply Kept.foldl
    | split
    | (refine Kept.mk_ ?_ rfl rfl rfl rfl; assumption)

theorem State.countReset_kept {a s : State} (h : Kept a s) : Kept a (State.countReset s).2 := by
  unfold State.countReset
  repeat' first
    | with_reducible assumption
    | (with_reducible refine fun h => ?_)
    | (lift_lets; intro v; first | (refine Kept.cut (s := v) ?_ (fun hv => ?_); rotate_left; clear_value v; rotate_right) | clear_value v)
    | with_reducible apply Kept.ite
    | with_reducible apply Kept.foldl
    | with_reducible apply Kept.ite2
    | with_reducible apply Kept.ite3
    | with_reducible apply Kept.foldl2
    | with_reducible apply Kept.foldl3
    | split
    | (refine Kept.mk_ ?_ rfl rfl rfl rfl; assumption)

theorem State.countReset_keptE {a s : State} {r t} (e : State.countReset s = (r, t)) (h : Kept a s) : Kept a t := Kept.of_pair e (State.countReset_kept h)

theorem State.captureDump_kept {a s : State} {x1} (h : Kept a s) : Kept a (State.captureDump s x1) := by
  unfold State.captureDump
  repeat' first
    | with_reducible assumption
    | (with_reducible refine fun h => ?_)
    | (lift_lets; intro v; first | (refine Kept.cut (s := v) ?_ (fun hv => ?_); rotate_left; clear_value v; rotate_right) | clear_value v)
    | with_reducible apply Kept.ite
    | with_reducible apply Kept.foldl
    | split
    | (refine Kept.mk_ ?_ rfl rfl rfl rfl; assumption)

theorem State.cancelInjections_kept {a s : State} {x1} (h : Kept a s) : Kept a (State.cancelInjections s x1) := by
  unfold State.cancelInjections
  repeat' first
    | with_reducible assumption
    | (with_reducible refine fun h => ?_)
    | (lift_lets; intro v; try (refine Kept.cut (s := v) ?_ (fun hv => ?_); rotate_left; clear_value v; rotate_right))
    | with_reducible apply Kept.ite
    | with_reducible apply Kept.foldl
    | split
    | (refine Kept.mk_ ?_ rfl rfl rfl rfl; assumption)

theorem State.removeFromService_kept {a s : State} {x1} (h : Kept a s) : Kept a (State.removeFromService s x1) := by
  unfold State.removeFromService
  repeat' first
    | with_reducible assumption
    | (with_reducible refine fun h => ?_)
    | (lift_lets; intro v; first | (refine Kept.cut (s := v) ?_ (fun hv => ?_); rotate_left; clear_value v; rotate_right) | clear_value v)
    | with_reducible apply State.captureDump_kept
    | with_reducible apply State.refuseWaiting_kept
    | with_reducible apply State.native_kept
    | with_reducible apply State.setDev_kept
    | with_reducible apply Kept.ite
    | with_reducible apply Kept.foldl
    | split
    | (refine Kept.mk_ ?_ rfl rfl rfl rfl; assumption)
    | (refine Kept.mk_ ?_ rfl rfl rfl rfl; first | with_reducible assumption | (with_reducible refine fun h => ?_) | with_reducible apply State.captureDump_kept | with_reducible apply State.refuseWaiting_kept | with_reducible apply State.native_kept | with_reducible apply State.setDev_kept | with_reducible apply Kept.ite | with_reducible apply Kept.foldl | split)

theorem State.enterMode_kept {a s : State} {x1} (h : Kept a s) : Kept a (State.enterMode s x1) := by
  unfold State.enterMode
  repeat' first
    | with_reducible assumption
    | (with_reducible refine fun h => ?_)
    | (lift_lets; intro v; first | (refine Kept.cut (s := v) ?_ (fun hv => ?_); rotate_left; clear_value v; rotate_right) | clear_value v)
    | with_reducible apply Kept.ite
    | with_reducible apply Kept.foldl
    | split
    | (refine Kept.mk_ ?_ rfl rfl rfl rfl; assumption)

theorem State.pressMode_kept {a s : State} (h : Kept a s) : Kept a (State.pressMode s) := by
  unfold State.pressMode
  repeat' first
    | with_reducible assumption
    | (with_reducible refine fun h => ?_)
    | (lift_lets; intro v; first | (refine Kept.cut (s := v) ?_ (fun hv => ?_); rotate_left; clear_value v; rotate_right) | clear_value v)
    | with_reducible apply State.applyPending_kept
    | with_reducible apply State.enterMode_kept
    | with_reducible apply Kept.ite
    | with_reducible apply Kept.foldl
    | split
    | (refine Kept.mk_ ?_ rfl rfl rfl rfl; assumption)

theorem State.katAll_kept {a s : State} {x1} (h : Kept a s) : Kept a (State.katAll s x1).2 := by
  unfold State.katAll
  repeat' first
    | with_reducible assumption
    | (with_reducible refine fun h => ?_)
    | (lift_lets; intro v; first | (refine Kept.cut (s := v) ?_ (fun hv => ?_); rotate_left; clear_value v; rotate_right) | clear_value v)
    | with_reducible apply State.katRun_kept
    | (with_reducible apply State.katRun_keptE; · assumption)
    | with_reducible apply Kept.ite
    | with_reducible apply Kept.foldl
    | with_reducible apply Kept.ite2
    | with_reducible apply Kept.ite3
    | with_reducible apply Kept.foldl2
    | with_reducible apply Kept.foldl3
    | split
    | (refine Kept.mk_ ?_ rfl rfl rfl rfl; assumption)

theorem State.katAll_keptE {a s : State} {x1} {r t} (e : State.katAll s x1 = (r, t)) (h : Kept a s) : Kept a t := Kept.of_pair e (State.katAll_kept h)

theorem State.replaceFolio_kept {a s : State} {x1 x2} (h : Kept a s) : Kept a (State.replaceFolio s x1 x2) := by
  unfold State.replaceFolio
  repeat' first
    | with_reducible assumption
    | (with_reducible refine fun h => ?_)
    | (lift_lets; intro v; first | (refine Kept.cut (s := v) ?_ (fun hv => ?_); rotate_left; clear_value v; rotate_right) | clear_value v)
    | with_reducible apply State.moveFolio_kept
    | with_reducible apply Kept.ite
    | with_reducible apply Kept.foldl
    | split
    | (refine Kept.mk_ ?_ rfl rfl rfl rfl; assumption)

theorem State.settleSpares_kept {a s : State} {x1} (h : Kept a s) : Kept a (State.settleSpares s x1) := by
  unfold State.settleSpares
  repeat' first
    | with_reducible assumption
    | (with_reducible refine fun h => ?_)
    | (lift_lets; intro v; first | (refine Kept.cut (s := v) ?_ (fun hv => ?_); rotate_left; clear_value v; rotate_right) | clear_value v)
    | with_reducible apply Kept.ite
    | with_reducible apply Kept.foldl
    | split
    | (refine Kept.mk_ ?_ rfl rfl rfl rfl; assumption)

theorem State.settleFolios_kept {a s : State} {x1} (h : Kept a s) : Kept a (State.settleFolios s x1) := by
  unfold State.settleFolios
  repeat' first
    | with_reducible assumption
    | (with_reducible refine fun h => ?_)
    | (lift_lets; intro v; first | (refine Kept.cut (s := v) ?_ (fun hv => ?_); rotate_left; clear_value v; rotate_right) | clear_value v)
    | with_reducible apply State.katAll_kept
    | (with_reducible apply State.katAll_keptE; · assumption)
    | with_reducible apply State.replaceFolio_kept
    | with_reducible apply State.measure9_kept
    | with_reducible apply State.settleSpares_kept
    | with_reducible apply Kept.ite
    | with_reducible apply Kept.foldl
    | split
    | (refine Kept.mk_ ?_ rfl rfl rfl rfl; assumption)

theorem State.rebuild_kept {a s : State} {x1} (h : Kept a s) : Kept a (State.rebuild s x1) := by
  unfold State.rebuild
  repeat' first
    | with_reducible assumption
    | (with_reducible refine fun h => ?_)
    | (lift_lets; intro v; first | (refine Kept.cut (s := v) ?_ (fun hv => ?_); rotate_left; clear_value v; rotate_right) | clear_value v)
    | with_reducible apply State.zeroRange_kept
    | with_reducible apply State.settleFolios_kept
    | with_reducible apply State.pressMode_kept
    | with_reducible apply Kept.ite
    | with_reducible apply Kept.foldl
    | split
    | (refine Kept.mk_ ?_ rfl rfl rfl rfl; assumption)
    | (refine Kept.mk_ ?_ rfl rfl rfl rfl; first | with_reducible assumption | (with_reducible refine fun h => ?_) | with_reducible apply State.zeroRange_kept | with_reducible apply State.settleFolios_kept | with_reducible apply State.pressMode_kept | with_reducible apply Kept.ite | with_reducible apply Kept.foldl | split)

theorem State.resetContexts_kept {a s : State} (h : Kept a s) : Kept a (State.resetContexts s) := by
  unfold State.resetContexts
  repeat' first
    | with_reducible assumption
    | (with_reducible refine fun h => ?_)
    | (lift_lets; intro v; first | (refine Kept.cut (s := v) ?_ (fun hv => ?_); rotate_left; clear_value v; rotate_right) | clear_value v)
    | with_reducible apply State.endContext_kept
    | with_reducible apply State.stopContext_kept
    | with_reducible apply Kept.ite
    | with_reducible apply Kept.foldl
    | split
    | (refine Kept.mk_ ?_ rfl rfl rfl rfl; assumption)

theorem State.wakeCompute_kept {a s : State} {x1} (h : Kept a s) : Kept a (State.wakeCompute s x1) := by
  unfold State.wakeCompute
  repeat' first
    | with_reducible assumption
    | (with_reducible refine fun h => ?_)
    | (lift_lets; intro v; first | (refine Kept.cut (s := v) ?_ (fun hv => ?_); rotate_left; clear_value v; rotate_right) | clear_value v)
    | with_reducible apply State.endCommands_kept
    | with_reducible apply State.rebuild_kept
    | with_reducible apply Kept.ite
    | with_reducible apply Kept.foldl
    | split
    | (refine Kept.mk_ ?_ rfl rfl rfl rfl; assumption)

theorem State.wakeTime_kept {a s : State} (h : Kept a s) : Kept a (State.wakeTime s) := by
  unfold State.wakeTime
  repeat' first
    | with_reducible assumption
    | (with_reducible refine fun h => ?_)
    | (lift_lets; intro v; first | (refine Kept.cut (s := v) ?_ (fun hv => ?_); rotate_left; clear_value v; rotate_right) | clear_value v)
    | with_reducible apply State.setTime_kept
    | with_reducible apply Kept.ite
    | with_reducible apply Kept.foldl
    | split
    | (refine Kept.mk_ ?_ rfl rfl rfl rfl; assumption)
    | (refine Kept.mk_ ?_ rfl rfl rfl rfl; first | with_reducible assumption | (with_reducible refine fun h => ?_) | with_reducible apply State.setTime_kept | with_reducible apply Kept.ite | with_reducible apply Kept.foldl | split)

theorem State.wakePorts_kept {a s : State} (h : Kept a s) : Kept a (State.wakePorts s) := by
  unfold State.wakePorts
  repeat' first
    | with_reducible assumption
    | (with_reducible refine fun h => ?_)
    | (lift_lets; intro v; first | (refine Kept.cut (s := v) ?_ (fun hv => ?_); rotate_left; clear_value v; rotate_right) | clear_value v)
    | with_reducible apply State.startTraining_kept
    | with_reducible apply State.setPort_kept
    | with_reducible apply Kept.ite
    | with_reducible apply Kept.foldl
    | split
    | (refine Kept.mk_ ?_ rfl rfl rfl rfl; assumption)

theorem State.wake_kept {a s : State} {k} (h : Kept a s) : Kept a (State.wake s k) := by
  unfold State.wake
  extract_lets hold src s1 s2 v
  refine Kept.ite h ?_
  have h1 : Kept a s1 := Kept.mk_ h rfl rfl rfl rfl
  have h2 : Kept a s2 := State.wakePorts_kept (Kept.ite (State.wakeTime_kept (State.wakeCompute_kept h1)) h1)
  clear_value s2 v
  exact Kept.mk_ h2 rfl rfl rfl rfl

theorem State.partitionReset_kept {a s : State} {x1 x2} (h : Kept a s) : Kept a (State.partitionReset s x1 x2) := by
  unfold State.partitionReset
  repeat' first
    | with_reducible assumption
    | (with_reducible refine fun h => ?_)
    | (lift_lets; intro v; first | (refine Kept.cut (s := v) ?_ (fun hv => ?_); rotate_left; clear_value v; rotate_right) | clear_value v)
    | with_reducible apply State.wake_kept
    | with_reducible apply State.setDev_kept
    | with_reducible apply State.captureDump_kept
    | with_reducible apply State.resetContexts_kept
    | with_reducible apply State.cancelInjections_kept
    | with_reducible apply State.rebuild_kept
    | with_reducible apply State.mark_kept
    | with_reducible apply State.native_kept
    | with_reducible apply State.releaseHeld_kept
    | with_reducible apply Kept.ite
    | with_reducible apply Kept.foldl
    | split
    | (refine Kept.mk_ ?_ rfl rfl rfl rfl; assumption)
    | (refine Kept.mk_ ?_ rfl rfl rfl rfl; first | with_reducible assumption | (with_reducible refine fun h => ?_) | with_reducible apply State.wake_kept | with_reducible apply State.setDev_kept | with_reducible apply State.captureDump_kept | with_reducible apply State.resetContexts_kept | with_reducible apply State.cancelInjections_kept | with_reducible apply State.rebuild_kept | with_reducible apply State.mark_kept | with_reducible apply State.native_kept | with_reducible apply State.releaseHeld_kept | with_reducible apply Kept.ite | with_reducible apply Kept.foldl | split)

theorem execComputePartitionReset_kept {a s : State} {x1} (h : Kept a s) : KeptR a (execComputePartitionReset x1 s) := by
  unfold execComputePartitionReset
  repeat' first
    | with_reducible assumption
    | (with_reducible refine fun h => ?_)
    | (lift_lets; intro v; try (refine Kept.cut (s := v) ?_ (fun hv => ?_); rotate_left; clear_value v; rotate_right))
    | with_reducible apply KeptR.ok
    | with_reducible apply State.partitionReset_kept
    | with_reducible apply State.countReset_kept
    | (with_reducible apply State.countReset_keptE; · assumption)
    | with_reducible apply State.removeFromService_kept
    | with_reducible apply KeptR.next_
    | with_reducible apply KeptR.ite
    | with_reducible exact KeptR.fault
    | with_reducible apply Kept.ite
    | with_reducible apply Kept.foldl
    | split
    | (refine Kept.mk_ ?_ rfl rfl rfl rfl; assumption)

theorem State.binderReset_kept {a s : State} {x1 x2} (h : Kept a s) : Kept a (State.binderReset s x1 x2) := by
  unfold State.binderReset
  repeat' first
    | with_reducible assumption
    | (with_reducible refine fun h => ?_)
    | (lift_lets; intro v; first | (refine Kept.cut (s := v) ?_ (fun hv => ?_); rotate_left; clear_value v; rotate_right) | clear_value v)
    | with_reducible apply State.endCommands_kept
    | with_reducible apply State.cancelInjections_kept
    | with_reducible apply State.native_kept
    | with_reducible apply Kept.ite
    | with_reducible apply Kept.foldl
    | split
    | (refine Kept.mk_ ?_ rfl rfl rfl rfl; assumption)

theorem execBinderAlive_kept {a s : State} (h : Kept a s) : KeptR a (execBinderAlive s) := by
  unfold execBinderAlive
  repeat' first
    | with_reducible assumption
    | (with_reducible refine fun h => ?_)
    | (lift_lets; intro v; first | (refine Kept.cut (s := v) ?_ (fun hv => ?_); rotate_left; clear_value v; rotate_right) | clear_value v)
    | with_reducible apply KeptR.ok
    | with_reducible apply KeptR.next_
    | with_reducible apply KeptR.ite
    | with_reducible exact KeptR.fault
    | with_reducible apply Kept.ite
    | with_reducible apply Kept.foldl
    | split
    | (refine Kept.mk_ ?_ rfl rfl rfl rfl; assumption)

theorem execBinderWatchdog_kept {a s : State} (h : Kept a s) : KeptR a (execBinderWatchdog s) := by
  unfold execBinderWatchdog
  repeat' first
    | with_reducible assumption
    | (with_reducible refine fun h => ?_)
    | (lift_lets; intro v; first | (refine Kept.cut (s := v) ?_ (fun hv => ?_); rotate_left; clear_value v; rotate_right) | clear_value v)
    | with_reducible apply KeptR.ok
    | with_reducible apply State.nativeI_kept
    | with_reducible apply State.binderReset_kept
    | with_reducible apply State.countReset_kept
    | (with_reducible apply State.countReset_keptE; · assumption)
    | with_reducible apply State.removeFromService_kept
    | with_reducible apply KeptR.next_
    | with_reducible apply KeptR.ite
    | with_reducible exact KeptR.fault
    | with_reducible apply Kept.ite
    | with_reducible apply Kept.foldl
    | split
    | (refine Kept.mk_ ?_ rfl rfl rfl rfl; assumption)

/-! ## Time -/

theorem State.sendTiming_kept {a s : State} {x1 x2 x3 x4 x5} (h : Kept a s) : Kept a (State.sendTiming s x1 x2 x3 x4 x5) := by
  unfold State.sendTiming
  repeat' first
    | with_reducible assumption
    | (with_reducible refine fun h => ?_)
    | (lift_lets; intro v; first | (refine Kept.cut (s := v) ?_ (fun hv => ?_); rotate_left; clear_value v; rotate_right) | clear_value v)
    | with_reducible apply State.emit_kept
    | with_reducible apply State.setPort_kept
    | with_reducible apply Kept.ite
    | with_reducible apply Kept.foldl
    | split
    | (refine Kept.mk_ ?_ rfl rfl rfl rfl; assumption)

theorem execSyncExchangeStart_kept {a s : State} {x1} (h : Kept a s) : KeptR a (execSyncExchangeStart x1 s) := by
  unfold execSyncExchangeStart
  repeat' first
    | with_reducible assumption
    | (with_reducible refine fun h => ?_)
    | (lift_lets; intro v; first | (refine Kept.cut (s := v) ?_ (fun hv => ?_); rotate_left; clear_value v; rotate_right) | clear_value v)
    | with_reducible apply State.setPort_kept
    | with_reducible apply KeptR.ok
    | with_reducible apply State.sendTiming_kept
    | with_reducible apply KeptR.next_
    | with_reducible apply KeptR.ite
    | with_reducible exact KeptR.fault
    | with_reducible apply Kept.ite
    | with_reducible apply Kept.foldl
    | split
    | (refine Kept.mk_ ?_ rfl rfl rfl rfl; assumption)

theorem State.discarded_kept {a s : State} {x1} (h : Kept a s) : Kept a (State.discarded s x1) := by
  unfold State.discarded
  repeat' first
    | with_reducible assumption
    | (with_reducible refine fun h => ?_)
    | (lift_lets; intro v; first | (refine Kept.cut (s := v) ?_ (fun hv => ?_); rotate_left; clear_value v; rotate_right) | clear_value v)
    | with_reducible apply State.setPort_kept
    | with_reducible apply State.malformedNow_kept
    | with_reducible apply Kept.ite
    | with_reducible apply Kept.foldl
    | split
    | (refine Kept.mk_ ?_ rfl rfl rfl rfl; assumption)

theorem State.discard_kept {a s : State} {x1 x2} (h : Kept a s) : Kept a (State.discard s x1 x2) := by
  unfold State.discard
  repeat' first
    | with_reducible assumption
    | (with_reducible refine fun h => ?_)
    | (lift_lets; intro v; first | (refine Kept.cut (s := v) ?_ (fun hv => ?_); rotate_left; clear_value v; rotate_right) | clear_value v)
    | with_reducible apply State.discarded_kept
    | with_reducible apply Kept.ite
    | with_reducible apply Kept.foldl
    | split
    | (refine Kept.mk_ ?_ rfl rfl rfl rfl; assumption)

theorem State.peerTiming_kept {a s : State} {x1 x2} (h : Kept a s) : Kept a (State.peerTiming s x1 x2) := by
  unfold State.peerTiming
  repeat' first
    | with_reducible assumption
    | (with_reducible refine fun h => ?_)
    | (lift_lets; intro v; first | (refine Kept.cut (s := v) ?_ (fun hv => ?_); rotate_left; clear_value v; rotate_right) | clear_value v)
    | with_reducible apply State.setPort_kept
    | with_reducible apply State.unfollow_kept
    | with_reducible apply Kept.ite
    | with_reducible apply Kept.foldl
    | split
    | (refine Kept.mk_ ?_ rfl rfl rfl rfl; assumption)

theorem execSyncReceive_kept {a s : State} {x1 x2} (h : Kept a s) : KeptR a (execSyncReceive x1 x2 s) := by
  unfold execSyncReceive
  repeat' first
    | with_reducible assumption
    | (with_reducible refine fun h => ?_)
    | (lift_lets; intro v; try (refine Kept.cut (s := v) ?_ (fun hv => ?_); rotate_left; clear_value v; rotate_right))
    | with_reducible apply KeptR.ok
    | with_reducible apply State.discard_kept
    | with_reducible apply State.peerTiming_kept
    | with_reducible apply State.sendTiming_kept
    | with_reducible apply KeptR.next_
    | with_reducible apply KeptR.ite
    | with_reducible exact KeptR.fault
    | with_reducible apply Kept.ite
    | with_reducible apply Kept.foldl
    | split
    | (refine Kept.mk_ ?_ rfl rfl rfl rfl; assumption)

theorem State.jump_kept {a s : State} {x1} (h : Kept a s) : Kept a (State.jump s x1) := by
  unfold State.jump
  dsimp only
  repeat' first
    | with_reducible assumption
    | (with_reducible refine fun h => ?_)
    | with_reducible apply Kept.ite
    | with_reducible apply Kept.foldl
    | with_reducible apply Kept.ite2
    | with_reducible apply Kept.ite3
    | with_reducible apply Kept.foldl2
    | with_reducible apply Kept.foldl3
    | split
    | (refine Kept.mk_ ?_ rfl rfl rfl rfl; assumption)

theorem State.steer_kept {a s : State} {x1} (h : Kept a s) : Kept a (State.steer s x1) := by
  unfold State.steer
  repeat' first
    | with_reducible assumption
    | (with_reducible refine fun h => ?_)
    | (lift_lets; intro v; first | (refine Kept.cut (s := v) ?_ (fun hv => ?_); rotate_left; clear_value v; rotate_right) | clear_value v)
    | with_reducible apply State.jump_kept
    | with_reducible apply Kept.ite
    | with_reducible apply Kept.foldl
    | split
    | (refine Kept.mk_ ?_ rfl rfl rfl rfl; assumption)

theorem State.lockTo_kept {a s : State} {x1} (h : Kept a s) : Kept a (State.lockTo s x1) := by
  unfold State.lockTo
  repeat' first
    | with_reducible assumption
    | (with_reducible refine fun h => ?_)
    | (lift_lets; intro v; first | (refine Kept.cut (s := v) ?_ (fun hv => ?_); rotate_left; clear_value v; rotate_right) | clear_value v)
    | with_reducible apply State.setTime_kept
    | with_reducible apply Kept.ite
    | with_reducible apply Kept.foldl
    | split
    | (refine Kept.mk_ ?_ rfl rfl rfl rfl; assumption)

theorem State.barPort_kept {a s : State} {x1} (h : Kept a s) : Kept a (State.barPort s x1) := by
  unfold State.barPort
  repeat' first
    | with_reducible assumption
    | (with_reducible refine fun h => ?_)
    | (lift_lets; intro v; first | (refine Kept.cut (s := v) ?_ (fun hv => ?_); rotate_left; clear_value v; rotate_right) | clear_value v)
    | with_reducible apply State.unfollow_kept
    | with_reducible apply State.setPort_kept
    | with_reducible apply Kept.ite
    | with_reducible apply Kept.foldl
    | split
    | (refine Kept.mk_ ?_ rfl rfl rfl rfl; assumption)

theorem State.faultySource_kept {a s : State} {x1 x2} (h : Kept a s) : Kept a (State.faultySource s x1 x2) := by
  unfold State.faultySource
  repeat' first
    | with_reducible assumption
    | (with_reducible refine fun h => ?_)
    | (lift_lets; intro v; first | (refine Kept.cut (s := v) ?_ (fun hv => ?_); rotate_left; clear_value v; rotate_right) | clear_value v)
    | with_reducible apply State.nativeI_kept
    | with_reducible apply State.barPort_kept
    | with_reducible apply State.setPort_kept
    | with_reducible apply State.malformedNow_kept
    | with_reducible apply Kept.ite
    | with_reducible apply Kept.foldl
    | split
    | (refine Kept.mk_ ?_ rfl rfl rfl rfl; assumption)

theorem State.crossCheck_kept {a s : State} {x1 x2} (h : Kept a s) : Kept a (State.crossCheck s x1 x2) := by
  unfold State.crossCheck
  repeat' first
    | with_reducible assumption
    | (with_reducible refine fun h => ?_)
    | (lift_lets; intro v; first | (refine Kept.cut (s := v) ?_ (fun hv => ?_); rotate_left; clear_value v; rotate_right) | clear_value v)
    | with_reducible apply State.setPort_kept
    | with_reducible apply State.faultySource_kept
    | with_reducible apply Kept.ite
    | with_reducible apply Kept.foldl
    | split
    | (refine Kept.mk_ ?_ rfl rfl rfl rfl; assumption)

theorem State.followSample_kept {a s : State} {x1 x2} (h : Kept a s) : Kept a (State.followSample s x1 x2) := by
  unfold State.followSample
  repeat' first
    | with_reducible assumption
    | (with_reducible refine fun h => ?_)
    | (lift_lets; intro v; first | (refine Kept.cut (s := v) ?_ (fun hv => ?_); rotate_left; clear_value v; rotate_right) | clear_value v)
    | with_reducible apply State.crossCheck_kept
    | with_reducible apply State.lockTo_kept
    | with_reducible apply State.steer_kept
    | with_reducible apply Kept.ite
    | with_reducible apply Kept.foldl
    | split
    | (refine Kept.mk_ ?_ rfl rfl rfl rfl; assumption)

theorem State.acceptSample_kept {a s : State} {x1 x2 x3 x4} (h : Kept a s) : Kept a (State.acceptSample s x1 x2 x3 x4) := by
  unfold State.acceptSample
  repeat' first
    | with_reducible assumption
    | (with_reducible refine fun h => ?_)
    | (lift_lets; intro v; first | (refine Kept.cut (s := v) ?_ (fun hv => ?_); rotate_left; clear_value v; rotate_right) | clear_value v)
    | with_reducible apply State.setPort_kept
    | with_reducible apply State.followSample_kept
    | with_reducible apply Kept.ite
    | with_reducible apply Kept.foldl
    | split
    | (refine Kept.mk_ ?_ rfl rfl rfl rfl; assumption)

theorem State.rejectSample_kept {a s : State} {x1 x2} (h : Kept a s) : Kept a (State.rejectSample s x1 x2) := by
  unfold State.rejectSample
  repeat' first
    | with_reducible assumption
    | (with_reducible refine fun h => ?_)
    | (lift_lets; intro v; first | (refine Kept.cut (s := v) ?_ (fun hv => ?_); rotate_left; clear_value v; rotate_right) | clear_value v)
    | with_reducible apply State.setPort_kept
    | with_reducible apply State.barPort_kept
    | with_reducible apply Kept.ite
    | with_reducible apply Kept.foldl
    | split
    | (refine Kept.mk_ ?_ rfl rfl rfl rfl; assumption)

theorem execReplyReceive_kept {a s : State} {x1 x2} (h : Kept a s) : KeptR a (execReplyReceive x1 x2 s) := by
  unfold execReplyReceive
  repeat' first
    | with_reducible assumption
    | (with_reducible refine fun h => ?_)
    | (lift_lets; intro v; first | (refine Kept.cut (s := v) ?_ (fun hv => ?_); rotate_left; clear_value v; rotate_right) | clear_value v)
    | with_reducible apply KeptR.ok
    | with_reducible apply State.discard_kept
    | with_reducible apply State.peerTiming_kept
    | with_reducible apply State.setPort_kept
    | (with_reducible apply State.meet_keptE; · assumption)
    | with_reducible apply State.rejectSample_kept
    | with_reducible apply State.acceptSample_kept
    | with_reducible apply KeptR.next_
    | with_reducible apply KeptR.ite
    | with_reducible exact KeptR.fault
    | with_reducible apply Kept.ite
    | with_reducible apply Kept.foldl
    | split
    | (refine Kept.mk_ ?_ rfl rfl rfl rfl; assumption)
    | (refine Kept.mk_ ?_ rfl rfl rfl rfl; first | with_reducible assumption | (with_reducible refine fun h => ?_) | with_reducible apply KeptR.ok | with_reducible apply State.discard_kept | with_reducible apply State.peerTiming_kept | with_reducible apply State.setPort_kept | (with_reducible apply State.meet_keptE; · assumption) | with_reducible apply State.rejectSample_kept | with_reducible apply State.acceptSample_kept | with_reducible apply KeptR.next_ | with_reducible apply KeptR.ite | with_reducible exact KeptR.fault | with_reducible apply Kept.ite | with_reducible apply Kept.foldl | split)

theorem execHoldoverEntry_kept {a s : State} (h : Kept a s) : KeptR a (execHoldoverEntry s) := by
  unfold execHoldoverEntry
  repeat' first
    | with_reducible assumption
    | (with_reducible refine fun h => ?_)
    | (lift_lets; intro v; first | (refine Kept.cut (s := v) ?_ (fun hv => ?_); rotate_left; clear_value v; rotate_right) | clear_value v)
    | with_reducible apply KeptR.ok
    | with_reducible apply State.setTime_kept
    | with_reducible apply KeptR.next_
    | with_reducible apply KeptR.ite
    | with_reducible exact KeptR.fault
    | with_reducible apply Kept.ite
    | with_reducible apply Kept.foldl
    | split
    | (refine Kept.mk_ ?_ rfl rfl rfl rfl; assumption)

theorem execUnlockedEntry_kept {a s : State} (h : Kept a s) : KeptR a (execUnlockedEntry s) := by
  unfold execUnlockedEntry
  repeat' first
    | with_reducible assumption
    | (with_reducible refine fun h => ?_)
    | (lift_lets; intro v; first | (refine Kept.cut (s := v) ?_ (fun hv => ?_); rotate_left; clear_value v; rotate_right) | clear_value v)
    | with_reducible apply KeptR.ok
    | with_reducible apply State.setTime_kept
    | with_reducible apply KeptR.next_
    | with_reducible apply KeptR.ite
    | with_reducible exact KeptR.fault
    | with_reducible apply Kept.ite
    | with_reducible apply Kept.foldl
    | split
    | (refine Kept.mk_ ?_ rfl rfl rfl rfl; assumption)

theorem execPortBarExpiry_kept {a s : State} {x1} (h : Kept a s) : KeptR a (execPortBarExpiry x1 s) := by
  unfold execPortBarExpiry
  repeat' first
    | with_reducible assumption
    | (with_reducible refine fun h => ?_)
    | (lift_lets; intro v; first | (refine Kept.cut (s := v) ?_ (fun hv => ?_); rotate_left; clear_value v; rotate_right) | clear_value v)
    | with_reducible apply KeptR.ok
    | with_reducible apply State.setPort_kept
    | with_reducible apply KeptR.next_
    | with_reducible apply KeptR.ite
    | with_reducible exact KeptR.fault
    | with_reducible apply Kept.ite
    | with_reducible apply Kept.foldl
    | split
    | (refine Kept.mk_ ?_ rfl rfl rfl rfl; assumption)

theorem execRootConflictReport_kept {a s : State} (h : Kept a s) : KeptR a (execRootConflictReport s) := by
  unfold execRootConflictReport
  repeat' first
    | with_reducible assumption
    | (with_reducible refine fun h => ?_)
    | (lift_lets; intro v; first | (refine Kept.cut (s := v) ?_ (fun hv => ?_); rotate_left; clear_value v; rotate_right) | clear_value v)
    | with_reducible apply KeptR.ok
    | with_reducible apply State.emit_kept
    | with_reducible apply State.native_kept
    | with_reducible apply KeptR.next_
    | with_reducible apply KeptR.ite
    | with_reducible exact KeptR.fault
    | with_reducible apply Kept.ite
    | with_reducible apply Kept.foldl
    | split
    | (refine Kept.mk_ ?_ rfl rfl rfl rfl; assumption)

theorem State.rootLost_kept {a s : State} (h : Kept a s) : Kept a (State.rootLost s) := by
  unfold State.rootLost
  repeat' first
    | with_reducible assumption
    | (with_reducible refine fun h => ?_)
    | (lift_lets; intro v; first | (refine Kept.cut (s := v) ?_ (fun hv => ?_); rotate_left; clear_value v; rotate_right) | clear_value v)
    | with_reducible apply State.emit_kept
    | with_reducible apply State.native_kept
    | with_reducible apply State.setTime_kept
    | with_reducible apply Kept.ite
    | with_reducible apply Kept.foldl
    | split
    | (refine Kept.mk_ ?_ rfl rfl rfl rfl; assumption)

theorem State.ppsAlign_kept {a s : State} (h : Kept a s) : Kept a (State.ppsAlign s) := by
  unfold State.ppsAlign
  repeat' first
    | with_reducible assumption
    | (with_reducible refine fun h => ?_)
    | (lift_lets; intro v; first | (refine Kept.cut (s := v) ?_ (fun hv => ?_); rotate_left; clear_value v; rotate_right) | clear_value v)
    | with_reducible apply Kept.ite
    | with_reducible apply Kept.foldl
    | split
    | (refine Kept.mk_ ?_ rfl rfl rfl rfl; assumption)

theorem State.ppsReject_kept {a s : State} (h : Kept a s) : Kept a (State.ppsReject s) := by
  unfold State.ppsReject
  repeat' first
    | with_reducible assumption
    | (with_reducible refine fun h => ?_)
    | (lift_lets; intro v; first | (refine Kept.cut (s := v) ?_ (fun hv => ?_); rotate_left; clear_value v; rotate_right) | clear_value v)
    | with_reducible apply State.rootLost_kept
    | with_reducible apply Kept.ite
    | with_reducible apply Kept.foldl
    | split
    | (refine Kept.mk_ ?_ rfl rfl rfl rfl; assumption)

theorem State.ppsAccept_kept {a s : State} {x1} (h : Kept a s) : Kept a (State.ppsAccept s x1) := by
  unfold State.ppsAccept
  repeat' first
    | with_reducible assumption
    | (with_reducible refine fun h => ?_)
    | (lift_lets; intro v; first | (refine Kept.cut (s := v) ?_ (fun hv => ?_); rotate_left; clear_value v; rotate_right) | clear_value v)
    | with_reducible apply State.setTime_kept
    | with_reducible apply Kept.ite
    | with_reducible apply Kept.foldl
    | split
    | (refine Kept.mk_ ?_ rfl rfl rfl rfl; assumption)

theorem execPpsEdge_kept {a s : State} {r} (h : Kept a s) : KeptR a (execPpsEdge s r) := by
  unfold execPpsEdge
  extract_lets s1 src s2
  refine KeptR.ite (KeptR.ok h) (KeptR.ok ?_)
  have h2 : Kept a s2 := Kept.mk_ (State.ppsAlign_kept h) rfl rfl rfl rfl
  exact Kept.ite (State.ppsReject_kept h2) (State.ppsAccept_kept h2)

theorem execPpsLoss_kept {a s : State} (h : Kept a s) : KeptR a (execPpsLoss s) := by
  unfold execPpsLoss
  repeat' first
    | with_reducible assumption
    | (with_reducible refine fun h => ?_)
    | (lift_lets; intro v; first | (refine Kept.cut (s := v) ?_ (fun hv => ?_); rotate_left; clear_value v; rotate_right) | clear_value v)
    | with_reducible apply KeptR.ok
    | with_reducible apply State.rootLost_kept
    | with_reducible apply KeptR.next_
    | with_reducible apply KeptR.ite
    | with_reducible exact KeptR.fault
    | with_reducible apply Kept.ite
    | with_reducible apply Kept.foldl
    | split
    | (refine Kept.mk_ ?_ rfl rfl rfl rfl; assumption)

theorem execTimStatus_kept {a s : State} {x1} (h : Kept a s) : KeptR a (execTimStatus x1 s) := by
  unfold execTimStatus
  repeat' first
    | with_reducible assumption
    | (with_reducible refine fun h => ?_)
    | (lift_lets; intro v; first | (refine Kept.cut (s := v) ?_ (fun hv => ?_); rotate_left; clear_value v; rotate_right) | clear_value v)
    | with_reducible apply State.serloth_kept
    | with_reducible apply State.complete_kept
    | with_reducible apply KeptR.next_
    | with_reducible apply KeptR.ite
    | with_reducible exact KeptR.fault
    | with_reducible apply Kept.ite
    | with_reducible apply Kept.foldl
    | split
    | (refine Kept.mk_ ?_ rfl rfl rfl rfl; assumption)

/-! ## Faults -/

theorem execFltRecords_kept {a s : State} {x1} (h : Kept a s) : KeptR a (execFltRecords x1 s) := by
  unfold execFltRecords
  repeat' first
    | with_reducible assumption
    | (with_reducible refine fun h => ?_)
    | (lift_lets; intro v; first | (refine Kept.cut (s := v) ?_ (fun hv => ?_); rotate_left; clear_value v; rotate_right) | clear_value v)
    | with_reducible apply State.serloth_kept
    | with_reducible apply State.refuse_kept
    | with_reducible apply State.complete_kept
    | with_reducible apply KeptR.next_
    | with_reducible apply KeptR.ite
    | with_reducible exact KeptR.fault
    | with_reducible apply Kept.ite
    | with_reducible apply Kept.foldl
    | split
    | (refine Kept.mk_ ?_ rfl rfl rfl rfl; assumption)

theorem execTrcStart_kept {a s : State} {x1} (h : Kept a s) : KeptR a (execTrcStart x1 s) := by
  unfold execTrcStart
  repeat' first
    | with_reducible assumption
    | (with_reducible refine fun h => ?_)
    | (lift_lets; intro v; first | (refine Kept.cut (s := v) ?_ (fun hv => ?_); rotate_left; clear_value v; rotate_right) | clear_value v)
    | with_reducible apply State.serloth_kept
    | with_reducible apply State.refuse_kept
    | with_reducible apply State.grantBase_kept
    | (with_reducible apply State.grantBase_keptE; · assumption)
    | with_reducible apply State.undefine_kept
    | with_reducible apply State.mapRegion_kept
    | with_reducible apply State.complete_kept
    | with_reducible apply KeptR.next_
    | with_reducible apply KeptR.ite
    | with_reducible exact KeptR.fault
    | with_reducible apply Kept.ite
    | with_reducible apply Kept.foldl
    | split
    | (refine Kept.mk_ ?_ rfl rfl rfl rfl; assumption)
    | (refine Kept.mk_ ?_ rfl rfl rfl rfl; first | with_reducible assumption | (with_reducible refine fun h => ?_) | with_reducible apply State.serloth_kept | with_reducible apply State.refuse_kept | with_reducible apply State.grantBase_kept | (with_reducible apply State.grantBase_keptE; · assumption) | with_reducible apply State.undefine_kept | with_reducible apply State.mapRegion_kept | with_reducible apply State.complete_kept | with_reducible apply KeptR.next_ | with_reducible apply KeptR.ite | with_reducible exact KeptR.fault | with_reducible apply Kept.ite | with_reducible apply Kept.foldl | split)

theorem execTrcRead_kept {a s : State} {x1} (h : Kept a s) : KeptR a (execTrcRead x1 s) := by
  unfold execTrcRead
  repeat' first
    | with_reducible assumption
    | (with_reducible refine fun h => ?_)
    | (lift_lets; intro v; first | (refine Kept.cut (s := v) ?_ (fun hv => ?_); rotate_left; clear_value v; rotate_right) | clear_value v)
    | with_reducible apply State.serloth_kept
    | with_reducible apply State.refuse_kept
    | with_reducible apply State.complete_kept
    | with_reducible apply KeptR.next_
    | with_reducible apply KeptR.ite
    | with_reducible exact KeptR.fault
    | with_reducible apply Kept.ite
    | with_reducible apply Kept.foldl
    | split
    | (refine Kept.mk_ ?_ rfl rfl rfl rfl; assumption)

theorem execRecordSend_kept {a s : State} (h : Kept a s) : KeptR a (execRecordSend s) := by
  unfold execRecordSend
  repeat' first
    | with_reducible assumption
    | (with_reducible refine fun h => ?_)
    | (lift_lets; intro v; first | (refine Kept.cut (s := v) ?_ (fun hv => ?_); rotate_left; clear_value v; rotate_right) | clear_value v)
    | with_reducible apply KeptR.ok
    | with_reducible apply State.emit_kept
    | with_reducible apply KeptR.next_
    | with_reducible apply KeptR.ite
    | with_reducible exact KeptR.fault
    | with_reducible apply Kept.ite
    | with_reducible apply Kept.foldl
    | split
    | (refine Kept.mk_ ?_ rfl rfl rfl rfl; assumption)

theorem execRecordRepeat_kept {a s : State} (h : Kept a s) : KeptR a (execRecordRepeat s) := by
  unfold execRecordRepeat
  repeat' first
    | with_reducible assumption
    | (with_reducible refine fun h => ?_)
    | (lift_lets; intro v; first | (refine Kept.cut (s := v) ?_ (fun hv => ?_); rotate_left; clear_value v; rotate_right) | clear_value v)
    | with_reducible apply KeptR.ok
    | with_reducible apply State.emit_kept
    | with_reducible apply KeptR.next_
    | with_reducible apply KeptR.ite
    | with_reducible exact KeptR.fault
    | with_reducible apply Kept.ite
    | with_reducible apply Kept.foldl
    | split
    | (refine Kept.mk_ ?_ rfl rfl rfl rfl; assumption)

theorem execCollectorAck_kept {a s : State} {x1} (h : Kept a s) : KeptR a (execCollectorAck x1 s) := by
  unfold execCollectorAck
  repeat' first
    | with_reducible assumption
    | (with_reducible refine fun h => ?_)
    | (lift_lets; intro v; try (refine Kept.cut (s := v) ?_ (fun hv => ?_); rotate_left; clear_value v; rotate_right))
    | with_reducible apply KeptR.ok
    | with_reducible apply KeptR.next_
    | with_reducible apply KeptR.ite
    | with_reducible exact KeptR.fault
    | with_reducible apply Kept.ite
    | with_reducible apply Kept.foldl
    | split
    | (refine Kept.mk_ ?_ rfl rfl rfl rfl; assumption)

theorem State.unsend_kept {a s : State} (h : Kept a s) : Kept a (State.unsend s) := by
  unfold State.unsend
  repeat' first
    | with_reducible assumption
    | (with_reducible refine fun h => ?_)
    | (lift_lets; intro v; try (refine Kept.cut (s := v) ?_ (fun hv => ?_); rotate_left; clear_value v; rotate_right))
    | with_reducible apply Kept.ite
    | with_reducible apply Kept.foldl
    | split
    | (refine Kept.mk_ ?_ rfl rfl rfl rfl; assumption)

theorem State.sumChan_kept {a s : State} {x1} (h : Kept a s) : Kept a (State.sumChan s x1) := by
  unfold State.sumChan
  repeat' first
    | with_reducible assumption
    | (with_reducible refine fun h => ?_)
    | (lift_lets; intro v; first | (refine Kept.cut (s := v) ?_ (fun hv => ?_); rotate_left; clear_value v; rotate_right) | clear_value v)
    | with_reducible apply State.setChan_kept
    | with_reducible apply State.native_kept
    | with_reducible apply Kept.ite
    | with_reducible apply Kept.foldl
    | split
    | (refine Kept.mk_ ?_ rfl rfl rfl rfl; assumption)

theorem State.sumPort_kept {a s : State} {x1} (h : Kept a s) : Kept a (State.sumPort s x1) := by
  unfold State.sumPort
  repeat' first
    | with_reducible assumption
    | (with_reducible refine fun h => ?_)
    | (lift_lets; intro v; first | (refine Kept.cut (s := v) ?_ (fun hv => ?_); rotate_left; clear_value v; rotate_right) | clear_value v)
    | with_reducible apply State.setPort_kept
    | with_reducible apply State.native_kept
    | with_reducible apply Kept.ite
    | with_reducible apply Kept.foldl
    | split
    | (refine Kept.mk_ ?_ rfl rfl rfl rfl; assumption)

theorem execSummaryRecord_kept {a s : State} (h : Kept a s) : KeptR a (execSummaryRecord s) := by
  unfold execSummaryRecord
  repeat' first
    | with_reducible assumption
    | (with_reducible refine fun h => ?_)
    | (lift_lets; intro v; try (refine Kept.cut (s := v) ?_ (fun hv => ?_); rotate_left; clear_value v; rotate_right))
    | with_reducible apply KeptR.ok
    | with_reducible apply State.sumChan_kept
    | with_reducible apply State.sumPort_kept
    | with_reducible apply KeptR.next_
    | with_reducible apply KeptR.ite
    | with_reducible exact KeptR.fault
    | with_reducible apply Kept.ite
    | with_reducible apply Kept.foldl
    | split
    | (refine Kept.mk_ ?_ rfl rfl rfl rfl; assumption)

theorem State.useTicket_kept {a s : State} {x1 x2} (h : Kept a s) : Kept a (State.useTicket s x1 x2) := by
  unfold State.useTicket
  repeat' first
    | with_reducible assumption
    | (with_reducible refine fun h => ?_)
    | (lift_lets; intro v; first | (refine Kept.cut (s := v) ?_ (fun hv => ?_); rotate_left; clear_value v; rotate_right) | clear_value v)
    | with_reducible apply Kept.ite
    | with_reducible apply Kept.foldl
    | split
    | (refine Kept.mk_ ?_ rfl rfl rfl rfl; assumption)

theorem execFltInject_kept {a s : State} {x1} (h : Kept a s) : KeptR a (execFltInject x1 s) := by
  unfold execFltInject
  repeat' first
    | with_reducible assumption
    | (with_reducible refine fun h => ?_)
    | (lift_lets; intro v; first | (refine Kept.cut (s := v) ?_ (fun hv => ?_); rotate_left; clear_value v; rotate_right) | clear_value v)
    | with_reducible apply State.serloth_kept
    | with_reducible apply State.refuse_kept
    | with_reducible apply State.useTicket_kept
    | with_reducible apply State.complete_kept
    | with_reducible apply KeptR.next_
    | with_reducible apply KeptR.ite
    | with_reducible exact KeptR.fault
    | with_reducible apply Kept.ite
    | with_reducible apply Kept.foldl
    | split
    | (refine Kept.mk_ ?_ rfl rfl rfl rfl; assumption)
    | (refine Kept.mk_ ?_ rfl rfl rfl rfl; first | with_reducible assumption | (with_reducible refine fun h => ?_) | with_reducible apply State.serloth_kept | with_reducible apply State.refuse_kept | with_reducible apply State.useTicket_kept | with_reducible apply State.complete_kept | with_reducible apply KeptR.next_ | with_reducible apply KeptR.ite | with_reducible exact KeptR.fault | with_reducible apply Kept.ite | with_reducible apply Kept.foldl | split)

theorem State.injectedFrom_kept {a s : State} {seq} (h : Kept a s) : Kept a (State.injectedFrom s seq) :=
  h.trans ⟨rfl, id, fun x => by simpa [State.injectedFrom] using x, fun x => by simpa [State.injectedFrom] using x⟩

theorem State.symbolErrors_kept {a s : State} {x1 x2} (h : Kept a s) : Kept a (State.symbolErrors s x1 x2) := by
  unfold State.symbolErrors
  repeat' first
    | with_reducible assumption
    | (with_reducible refine fun h => ?_)
    | (lift_lets; intro v; first | (refine Kept.cut (s := v) ?_ (fun hv => ?_); rotate_left; clear_value v; rotate_right) | clear_value v)
    | with_reducible apply State.setPort_kept
    | with_reducible apply State.warnBegin_kept
    | with_reducible apply State.emit_kept
    | with_reducible apply State.native_kept
    | with_reducible apply Kept.ite
    | with_reducible apply Kept.foldl
    | split
    | (refine Kept.mk_ ?_ rfl rfl rfl rfl; assumption)

theorem State.arm_kept {a s : State} {x1} (h : Kept a s) : Kept a (State.arm s x1) := by
  unfold State.arm
  repeat' first
    | with_reducible assumption
    | (with_reducible refine fun h => ?_)
    | (lift_lets; intro v; first | (refine Kept.cut (s := v) ?_ (fun hv => ?_); rotate_left; clear_value v; rotate_right) | clear_value v)
    | with_reducible apply Kept.ite
    | with_reducible apply Kept.foldl
    | split
    | (refine Kept.mk_ ?_ rfl rfl rfl rfl; assumption)

theorem State.fire_kept {a s : State} {x1} (h : Kept a s) : Kept a (State.fire s x1) := by
  unfold State.fire
  repeat' first
    | with_reducible assumption
    | (with_reducible refine fun h => ?_)
    | (lift_lets; intro v; first | (refine Kept.cut (s := v) ?_ (fun hv => ?_); rotate_left; clear_value v; rotate_right) | clear_value v)
    | with_reducible apply State.countWarn_kept
    | with_reducible apply State.uncorrectable_kept
    | with_reducible apply State.fenceChan_kept
    | with_reducible apply State.symbolErrors_kept
    | with_reducible apply State.portDown_kept
    | with_reducible apply State.setEng_kept
    | with_reducible apply State.arm_kept
    | with_reducible apply Kept.ite
    | with_reducible apply Kept.foldl
    | split
    | (refine Kept.mk_ ?_ rfl rfl rfl rfl; assumption)

theorem execInjectionFire_kept {a s : State} {x1} (h : Kept a s) : KeptR a (execInjectionFire x1 s) := by
  unfold execInjectionFire
  repeat' first
    | with_reducible assumption
    | (with_reducible refine fun h => ?_)
    | (lift_lets; intro v; try (refine Kept.cut (s := v) ?_ (fun hv => ?_); rotate_left; clear_value v; rotate_right))
    | with_reducible apply KeptR.ok
    | with_reducible apply State.fire_kept
    | with_reducible apply State.native_kept
    | with_reducible apply State.injectedFrom_kept
    | with_reducible apply KeptR.next_
    | with_reducible apply KeptR.ite
    | with_reducible exact KeptR.fault
    | with_reducible apply Kept.ite
    | with_reducible apply Kept.foldl
    | split
    | (refine Kept.mk_ ?_ rfl rfl rfl rfl; assumption)

end Sys2Proof.Machine
end

