-- ==== Sys2Proof/Laws/KeptLinks.lean ====
section
/-! SUPPORT. What the operations of Links, Replace, Ckpt keep: one lemma for each (Kept). -/

namespace Sys2Proof.Machine

/-! ## Links -/

theorem State.releaseHop_kept {a s : State} {x1} (h : Kept a s) : Kept a (State.releaseHop s x1) := by
  unfold State.releaseHop
  repeat' first
    | with_reducible assumption
    | (with_reducible refine fun h => ?_)
    | (lift_lets; intro v; first | (refine Kept.cut (s := v) ?_ (fun hv => ?_); rotate_left; clear_value v; rotate_right) | clear_value v)
    | with_reducible apply State.closeRoute_kept
    | with_reducible apply State.emit_kept
    | with_reducible apply Kept.ite
    | with_reducible apply Kept.foldl
    | split
    | (refine Kept.mk_ ?_ rfl rfl rfl rfl; assumption)
    | (refine Kept.mk_ ?_ rfl rfl rfl rfl; first | with_reducible assumption | (with_reducible refine fun h => ?_) | with_reducible apply State.closeRoute_kept | with_reducible apply State.emit_kept | with_reducible apply Kept.ite | with_reducible apply Kept.foldl | split)

theorem State.rewire_kept {a s : State} {x1} (h : Kept a s) : Kept a (State.rewire s x1) := by
  unfold State.rewire
  repeat' first
    | with_reducible assumption
    | (with_reducible refine fun h => ?_)
    | (lift_lets; intro v; first | (refine Kept.cut (s := v) ?_ (fun hv => ?_); rotate_left; clear_value v; rotate_right) | clear_value v)
    | with_reducible apply State.holdSched_kept
    | with_reducible apply State.releaseHop_kept
    | with_reducible apply Kept.ite
    | with_reducible apply Kept.foldl
    | split
    | (refine Kept.mk_ ?_ rfl rfl rfl rfl; assumption)

theorem State.portsSettle_kept {a s : State} (h : Kept a s) : Kept a (State.portsSettle s) := by
  unfold State.portsSettle
  repeat' first
    | with_reducible assumption
    | (with_reducible refine fun h => ?_)
    | (lift_lets; intro v; first | (refine Kept.cut (s := v) ?_ (fun hv => ?_); rotate_left; clear_value v; rotate_right) | clear_value v)
    | with_reducible apply State.reReady_kept
    | with_reducible apply State.settleTraining_kept
    | with_reducible apply Kept.ite
    | with_reducible apply Kept.foldl
    | split
    | (refine Kept.mk_ ?_ rfl rfl rfl rfl; assumption)

theorem State.goUp_kept {a s : State} {x1} (h : Kept a s) : Kept a (State.goUp s x1) := by
  unfold State.goUp
  repeat' first
    | with_reducible assumption
    | (with_reducible refine fun h => ?_)
    | (lift_lets; intro v; first | (refine Kept.cut (s := v) ?_ (fun hv => ?_); rotate_left; clear_value v; rotate_right) | clear_value v)
    | with_reducible apply State.portTo_kept
    | with_reducible apply State.setPort_kept
    | with_reducible apply State.portsSettle_kept
    | with_reducible apply Kept.ite
    | with_reducible apply Kept.foldl
    | split
    | (refine Kept.mk_ ?_ rfl rfl rfl rfl; assumption)
    | (refine Kept.mk_ ?_ rfl rfl rfl rfl; first | with_reducible assumption | (with_reducible refine fun h => ?_) | with_reducible apply State.portTo_kept | with_reducible apply State.setPort_kept | with_reducible apply State.portsSettle_kept | with_reducible apply Kept.ite | with_reducible apply Kept.foldl | split)

theorem State.beginAdmission_kept {a s : State} {x1} (h : Kept a s) : Kept a (State.beginAdmission s x1) := by
  unfold State.beginAdmission
  repeat' first
    | with_reducible assumption
    | (with_reducible refine fun h => ?_)
    | (lift_lets; intro v; first | (refine Kept.cut (s := v) ?_ (fun hv => ?_); rotate_left; clear_value v; rotate_right) | clear_value v)
    | with_reducible apply State.portTo_kept
    | with_reducible apply State.setPort_kept
    | with_reducible apply State.emit_kept
    | with_reducible apply Kept.ite
    | with_reducible apply Kept.foldl
    | split
    | (refine Kept.mk_ ?_ rfl rfl rfl rfl; assumption)

theorem execTrainingRetry_kept {a s : State} {x1} (h : Kept a s) : KeptR a (execTrainingRetry x1 s) := by
  unfold execTrainingRetry
  repeat' first
    | with_reducible assumption
    | (with_reducible refine fun h => ?_)
    | (lift_lets; intro v; first | (refine Kept.cut (s := v) ?_ (fun hv => ?_); rotate_left; clear_value v; rotate_right) | clear_value v)
    | with_reducible apply KeptR.ok
    | with_reducible apply State.startTraining_kept
    | with_reducible apply KeptR.next_
    | with_reducible apply KeptR.ite
    | with_reducible exact KeptR.fault
    | with_reducible apply Kept.ite
    | with_reducible apply Kept.foldl
    | split
    | (refine Kept.mk_ ?_ rfl rfl rfl rfl; assumption)

theorem execSignalDetect_kept {a s : State} {x1} (h : Kept a s) : KeptR a (execSignalDetect x1 s) := by
  unfold execSignalDetect
  repeat' first
    | with_reducible assumption
    | (with_reducible refine fun h => ?_)
    | (lift_lets; intro v; first | (refine Kept.cut (s := v) ?_ (fun hv => ?_); rotate_left; clear_value v; rotate_right) | clear_value v)
    | with_reducible apply KeptR.ok
    | with_reducible apply State.setPort_kept
    | with_reducible apply KeptR.next_
    | with_reducible apply KeptR.ite
    | with_reducible exact KeptR.fault
    | with_reducible apply Kept.ite
    | with_reducible apply Kept.foldl
    | split
    | (refine Kept.mk_ ?_ rfl rfl rfl rfl; assumption)

theorem execNoSignal_kept {a s : State} {x1 x2} (h : Kept a s) : KeptR a (execNoSignal x1 x2 s) := by
  unfold execNoSignal
  repeat' first
    | with_reducible assumption
    | (with_reducible refine fun h => ?_)
    | (lift_lets; intro v; first | (refine Kept.cut (s := v) ?_ (fun hv => ?_); rotate_left; clear_value v; rotate_right) | clear_value v)
    | with_reducible apply State.portDown_kept
    | with_reducible apply State.setPort_kept
    | with_reducible apply KeptR.ok
    | with_reducible apply State.portsSettle_kept
    | with_reducible apply State.emit_kept
    | with_reducible apply KeptR.next_
    | with_reducible apply KeptR.ite
    | with_reducible exact KeptR.fault
    | with_reducible apply Kept.ite
    | with_reducible apply Kept.foldl
    | split
    | (refine Kept.mk_ ?_ rfl rfl rfl rfl; assumption)

theorem execFrameLock_kept {a s : State} {x1 x2} (h : Kept a s) : KeptR a (execFrameLock x1 x2 s) := by
  unfold execFrameLock
  repeat' first
    | with_reducible assumption
    | (with_reducible refine fun h => ?_)
    | (lift_lets; intro v; first | (refine Kept.cut (s := v) ?_ (fun hv => ?_); rotate_left; clear_value v; rotate_right) | clear_value v)
    | with_reducible apply KeptR.ok
    | with_reducible apply State.setPort_kept
    | with_reducible apply State.beginAdmission_kept
    | with_reducible apply State.portsSettle_kept
    | with_reducible apply State.portDown_kept
    | with_reducible apply KeptR.next_
    | with_reducible apply KeptR.ite
    | with_reducible exact KeptR.fault
    | with_reducible apply Kept.ite
    | with_reducible apply Kept.foldl
    | split
    | (refine Kept.mk_ ?_ rfl rfl rfl rfl; assumption)

theorem State.admissionFails_kept {a s : State} {x1 x2} (h : Kept a s) : Kept a (State.admissionFails s x1 x2) := by
  unfold State.admissionFails
  repeat' first
    | with_reducible assumption
    | (with_reducible refine fun h => ?_)
    | (lift_lets; intro v; first | (refine Kept.cut (s := v) ?_ (fun hv => ?_); rotate_left; clear_value v; rotate_right) | clear_value v)
    | with_reducible apply State.setPort_kept
    | with_reducible apply State.malformedNow_kept
    | with_reducible apply State.portsSettle_kept
    | with_reducible apply State.portDown_kept
    | with_reducible apply Kept.ite
    | with_reducible apply Kept.foldl
    | split
    | (refine Kept.mk_ ?_ rfl rfl rfl rfl; assumption)

theorem State.deriveKeys_kept {a s : State} {x1} (h : Kept a s) : Kept a (State.deriveKeys s x1) := by
  unfold State.deriveKeys
  repeat' first
    | with_reducible assumption
    | (with_reducible refine fun h => ?_)
    | (lift_lets; intro v; first | (refine Kept.cut (s := v) ?_ (fun hv => ?_); rotate_left; clear_value v; rotate_right) | clear_value v)
    | with_reducible apply State.setPort_kept
    | with_reducible apply Kept.ite
    | with_reducible apply Kept.foldl
    | split
    | (refine Kept.mk_ ?_ rfl rfl rfl rfl; assumption)

theorem State.admitPeer_kept {a s : State} {x1} (h : Kept a s) : Kept a (State.admitPeer s x1) := by
  unfold State.admitPeer
  repeat' first
    | with_reducible assumption
    | (with_reducible refine fun h => ?_)
    | (lift_lets; intro v; first | (refine Kept.cut (s := v) ?_ (fun hv => ?_); rotate_left; clear_value v; rotate_right) | clear_value v)
    | with_reducible apply State.setPort_kept
    | with_reducible apply State.rewire_kept
    | with_reducible apply State.portTo_kept
    | with_reducible apply State.goUp_kept
    | with_reducible apply Kept.ite
    | with_reducible apply Kept.foldl
    | split
    | (refine Kept.mk_ ?_ rfl rfl rfl rfl; assumption)

theorem execPeerAdmissionMessage_kept {a s : State} {x1 x2} (h : Kept a s) : KeptR a (execPeerAdmissionMessage x1 x2 s) := by
  unfold execPeerAdmissionMessage
  repeat' first
    | with_reducible assumption
    | (with_reducible refine fun h => ?_)
    | (lift_lets; intro v; try (refine Kept.cut (s := v) ?_ (fun hv => ?_); rotate_left; clear_value v; rotate_right))
    | with_reducible apply KeptR.ok
    | with_reducible apply State.setPort_kept
    | with_reducible apply State.emit_kept
    | with_reducible apply State.admissionFails_kept
    | with_reducible apply State.deriveKeys_kept
    | with_reducible apply State.admitPeer_kept
    | with_reducible apply KeptR.next_
    | with_reducible apply KeptR.ite
    | with_reducible exact KeptR.fault
    | with_reducible apply Kept.ite
    | with_reducible apply Kept.foldl
    | split
    | (refine Kept.mk_ ?_ rfl rfl rfl rfl; assumption)

theorem execKeyRenewal_kept {a s : State} {x1} (h : Kept a s) : KeptR a (execKeyRenewal x1 s) := by
  unfold execKeyRenewal
  repeat' first
    | with_reducible assumption
    | (with_reducible refine fun h => ?_)
    | (lift_lets; intro v; first | (refine Kept.cut (s := v) ?_ (fun hv => ?_); rotate_left; clear_value v; rotate_right) | clear_value v)
    | with_reducible apply KeptR.ok
    | with_reducible apply State.emit_kept
    | with_reducible apply State.setPort_kept
    | with_reducible apply KeptR.next_
    | with_reducible apply KeptR.ite
    | with_reducible exact KeptR.fault
    | with_reducible apply Kept.ite
    | with_reducible apply Kept.foldl
    | split
    | (refine Kept.mk_ ?_ rfl rfl rfl rfl; assumption)

theorem execQualificationSoakEnd_kept {a s : State} {x1} (h : Kept a s) : KeptR a (execQualificationSoakEnd x1 s) := by
  unfold execQualificationSoakEnd
  repeat' first
    | with_reducible assumption
    | (with_reducible refine fun h => ?_)
    | (lift_lets; intro v; first | (refine Kept.cut (s := v) ?_ (fun hv => ?_); rotate_left; clear_value v; rotate_right) | clear_value v)
    | with_reducible apply KeptR.ok
    | with_reducible apply State.setPort_kept
    | with_reducible apply State.goUp_kept
    | with_reducible apply State.portsSettle_kept
    | with_reducible apply State.portDown_kept
    | with_reducible apply KeptR.next_
    | with_reducible apply KeptR.ite
    | with_reducible exact KeptR.fault
    | with_reducible apply Kept.ite
    | with_reducible apply Kept.foldl
    | split
    | (refine Kept.mk_ ?_ rfl rfl rfl rfl; assumption)

theorem State.warnLink_kept {a s : State} {x1 x2} (h : Kept a s) : Kept a (State.warnLink s x1 x2) := by
  unfold State.warnLink
  repeat' first
    | with_reducible assumption
    | (with_reducible refine fun h => ?_)
    | (lift_lets; intro v; first | (refine Kept.cut (s := v) ?_ (fun hv => ?_); rotate_left; clear_value v; rotate_right) | clear_value v)
    | with_reducible apply State.setPort_kept
    | with_reducible apply State.warnBegin_kept
    | with_reducible apply State.emit_kept
    | with_reducible apply State.native_kept
    | with_reducible apply Kept.ite
    | with_reducible apply Kept.foldl
    | split
    | (refine Kept.mk_ ?_ rfl rfl rfl rfl; assumption)

theorem execLinkWarning_kept {a s : State} {x1} (h : Kept a s) : KeptR a (execLinkWarning x1 s) := by
  unfold execLinkWarning
  repeat' first
    | with_reducible assumption
    | (with_reducible refine fun h => ?_)
    | (lift_lets; intro v; first | (refine Kept.cut (s := v) ?_ (fun hv => ?_); rotate_left; clear_value v; rotate_right) | clear_value v)
    | with_reducible apply KeptR.ok
    | with_reducible apply State.setPort_kept
    | with_reducible apply State.warnLink_kept
    | with_reducible apply KeptR.next_
    | with_reducible apply KeptR.ite
    | with_reducible exact KeptR.fault
    | with_reducible apply Kept.ite
    | with_reducible apply Kept.foldl
    | split
    | (refine Kept.mk_ ?_ rfl rfl rfl rfl; assumption)

theorem execLinkWarningClear_kept {a s : State} {x1} (h : Kept a s) : KeptR a (execLinkWarningClear x1 s) := by
  unfold execLinkWarningClear
  repeat' first
    | with_reducible assumption
    | (with_reducible refine fun h => ?_)
    | (lift_lets; intro v; first | (refine Kept.cut (s := v) ?_ (fun hv => ?_); rotate_left; clear_value v; rotate_right) | clear_value v)
    | with_reducible apply KeptR.ok
    | with_reducible apply State.setPort_kept
    | with_reducible apply KeptR.next_
    | with_reducible apply KeptR.ite
    | with_reducible exact KeptR.fault
    | with_reducible apply Kept.ite
    | with_reducible apply Kept.foldl
    | split
    | (refine Kept.mk_ ?_ rfl rfl rfl rfl; assumption)

theorem execFastRetrain_kept {a s : State} {x1} (h : Kept a s) : KeptR a (execFastRetrain x1 s) := by
  unfold execFastRetrain
  repeat' first
    | with_reducible assumption
    | (with_reducible refine fun h => ?_)
    | (lift_lets; intro v; try (refine Kept.cut (s := v) ?_ (fun hv => ?_); rotate_left; clear_value v; rotate_right))
    | with_reducible apply State.portTo_kept
    | with_reducible apply KeptR.ok
    | with_reducible apply State.setPort_kept
    | with_reducible apply KeptR.next_
    | with_reducible apply KeptR.ite
    | with_reducible exact KeptR.fault
    | with_reducible apply Kept.ite
    | with_reducible apply Kept.foldl
    | split
    | (refine Kept.mk_ ?_ rfl rfl rfl rfl; assumption)

theorem execRetrainComplete_kept {a s : State} {x1 x2} (h : Kept a s) : KeptR a (execRetrainComplete x1 x2 s) := by
  unfold execRetrainComplete
  repeat' first
    | with_reducible assumption
    | (with_reducible refine fun h => ?_)
    | (lift_lets; intro v; first | (refine Kept.cut (s := v) ?_ (fun hv => ?_); rotate_left; clear_value v; rotate_right) | clear_value v)
    | with_reducible apply KeptR.ok
    | with_reducible apply State.portsSettle_kept
    | with_reducible apply State.portTo_kept
    | with_reducible apply State.portDown_kept
    | with_reducible apply KeptR.next_
    | with_reducible apply KeptR.ite
    | with_reducible exact KeptR.fault
    | with_reducible apply Kept.ite
    | with_reducible apply Kept.foldl
    | split
    | (refine Kept.mk_ ?_ rfl rfl rfl rfl; assumption)

theorem execLossOfSignal_kept {a s : State} {x1} (h : Kept a s) : KeptR a (execLossOfSignal x1 s) := by
  unfold execLossOfSignal
  repeat' first
    | with_reducible assumption
    | (with_reducible refine fun h => ?_)
    | (lift_lets; intro v; first | (refine Kept.cut (s := v) ?_ (fun hv => ?_); rotate_left; clear_value v; rotate_right) | clear_value v)
    | with_reducible apply KeptR.ok
    | with_reducible apply State.setPort_kept
    | with_reducible apply State.portsSettle_kept
    | with_reducible apply State.portDown_kept
    | with_reducible apply KeptR.next_
    | with_reducible apply KeptR.ite
    | with_reducible exact KeptR.fault
    | with_reducible apply Kept.ite
    | with_reducible apply Kept.foldl
    | split
    | (refine Kept.mk_ ?_ rfl rfl rfl rfl; assumption)

theorem execRouteClosed_kept {a s : State} {x1 x2} (h : Kept a s) : KeptR a (execRouteClosed x1 x2 s) := by
  unfold execRouteClosed
  repeat' first
    | with_reducible assumption
    | (with_reducible refine fun h => ?_)
    | (lift_lets; intro v; try (refine Kept.cut (s := v) ?_ (fun hv => ?_); rotate_left; clear_value v; rotate_right))
    | with_reducible apply KeptR.ok
    | with_reducible apply State.closeRoute_kept
    | with_reducible apply State.emit_kept
    | with_reducible apply KeptR.next_
    | with_reducible apply KeptR.ite
    | with_reducible exact KeptR.fault
    | with_reducible apply Kept.ite
    | with_reducible apply Kept.foldl
    | split
    | (refine Kept.mk_ ?_ rfl rfl rfl rfl; assumption)

theorem execFrameReplay_kept {a s : State} {x1 x2} (h : Kept a s) : KeptR a (execFrameReplay x1 x2 s) := by
  unfold execFrameReplay
  repeat' first
    | with_reducible assumption
    | (with_reducible refine fun h => ?_)
    | (lift_lets; intro v; first | (refine Kept.cut (s := v) ?_ (fun hv => ?_); rotate_left; clear_value v; rotate_right) | clear_value v)
    | with_reducible apply KeptR.ok
    | with_reducible apply State.emit_kept
    | with_reducible apply State.setPort_kept
    | with_reducible apply KeptR.next_
    | with_reducible apply KeptR.ite
    | with_reducible exact KeptR.fault
    | with_reducible apply Kept.ite
    | with_reducible apply Kept.foldl
    | split
    | (refine Kept.mk_ ?_ rfl rfl rfl rfl; assumption)

theorem State.deliver_kept {a s : State} {x1 x2} (h : Kept a s) : Kept a (State.deliver s x1 x2) := by
  unfold State.deliver
  repeat' first
    | with_reducible assumption
    | (with_reducible refine fun h => ?_)
    | (lift_lets; intro v; first | (refine Kept.cut (s := v) ?_ (fun hv => ?_); rotate_left; clear_value v; rotate_right) | clear_value v)
    | with_reducible apply State.deliverPart_kept
    | with_reducible apply State.deliverToken_kept
    | with_reducible apply State.deliverDeclare_kept
    | with_reducible apply State.deliverAbandon_kept
    | with_reducible apply State.malformed_kept
    | with_reducible apply Kept.ite
    | with_reducible apply Kept.foldl
    | split
    | (refine Kept.mk_ ?_ rfl rfl rfl rfl; assumption)

theorem execDataFrameReceive_kept {a s : State} {x1 x2} (h : Kept a s) : KeptR a (execDataFrameReceive x1 x2 s) := by
  unfold execDataFrameReceive
  repeat' first
    | with_reducible assumption
    | (with_reducible refine fun h => ?_)
    | (lift_lets; intro v; first | (refine Kept.cut (s := v) ?_ (fun hv => ?_); rotate_left; clear_value v; rotate_right) | clear_value v)
    | with_reducible apply KeptR.ok
    | with_reducible apply State.setPort_kept
    | with_reducible apply State.malformed_kept
    | with_reducible apply State.deliver_kept
    | with_reducible apply State.emit_kept
    | with_reducible apply KeptR.next_
    | with_reducible apply KeptR.ite
    | with_reducible exact KeptR.fault
    | with_reducible apply Kept.ite
    | with_reducible apply Kept.foldl
    | split
    | (refine Kept.mk_ ?_ rfl rfl rfl rfl; assumption)

theorem execVcCreditStall_kept {a s : State} {x1 x2} (h : Kept a s) : KeptR a (execVcCreditStall x1 x2 s) := by
  unfold execVcCreditStall
  repeat' first
    | with_reducible assumption
    | (with_reducible refine fun h => ?_)
    | (lift_lets; intro v; first | (refine Kept.cut (s := v) ?_ (fun hv => ?_); rotate_left; clear_value v; rotate_right) | clear_value v)
    | with_reducible apply KeptR.ok
    | with_reducible apply State.portsSettle_kept
    | with_reducible apply State.malformedNow_kept
    | with_reducible apply KeptR.next_
    | with_reducible apply KeptR.ite
    | with_reducible exact KeptR.fault
    | with_reducible apply Kept.ite
    | with_reducible apply Kept.foldl
    | split
    | (refine Kept.mk_ ?_ rfl rfl rfl rfl; assumption)

theorem execHostPerstRise_kept {a s : State} {x1} (h : Kept a s) : KeptR a (execHostPerstRise x1 s) := by
  unfold execHostPerstRise
  repeat' first
    | with_reducible assumption
    | (with_reducible refine fun h => ?_)
    | (lift_lets; intro v; first | (refine Kept.cut (s := v) ?_ (fun hv => ?_); rotate_left; clear_value v; rotate_right) | clear_value v)
    | with_reducible apply KeptR.ok
    | with_reducible apply State.setPort_kept
    | with_reducible apply KeptR.next_
    | with_reducible apply KeptR.ite
    | with_reducible exact KeptR.fault
    | with_reducible apply Kept.ite
    | with_reducible apply Kept.foldl
    | split
    | (refine Kept.mk_ ?_ rfl rfl rfl rfl; assumption)

theorem execHostPerstFall_kept {a s : State} {x1} (h : Kept a s) : KeptR a (execHostPerstFall x1 s) := by
  unfold execHostPerstFall
  repeat' first
    | with_reducible assumption
    | (with_reducible refine fun h => ?_)
    | (lift_lets; intro v; first | (refine Kept.cut (s := v) ?_ (fun hv => ?_); rotate_left; clear_value v; rotate_right) | clear_value v)
    | with_reducible apply State.setPort_kept
    | with_reducible apply KeptR.ok
    | with_reducible apply State.startTraining_kept
    | with_reducible apply KeptR.next_
    | with_reducible apply KeptR.ite
    | with_reducible exact KeptR.fault
    | with_reducible apply Kept.ite
    | with_reducible apply Kept.foldl
    | split
    | (refine Kept.mk_ ?_ rfl rfl rfl rfl; assumption)

theorem execHostLinkUp_kept {a s : State} {x1} (h : Kept a s) : KeptR a (execHostLinkUp x1 s) := by
  unfold execHostLinkUp
  repeat' first
    | with_reducible assumption
    | (with_reducible refine fun h => ?_)
    | (lift_lets; intro v; first | (refine Kept.cut (s := v) ?_ (fun hv => ?_); rotate_left; clear_value v; rotate_right) | clear_value v)
    | with_reducible apply KeptR.ok
    | with_reducible apply State.portTo_kept
    | with_reducible apply State.portsSettle_kept
    | with_reducible apply KeptR.next_
    | with_reducible apply KeptR.ite
    | with_reducible exact KeptR.fault
    | with_reducible apply Kept.ite
    | with_reducible apply Kept.foldl
    | split
    | (refine Kept.mk_ ?_ rfl rfl rfl rfl; assumption)

theorem execHostPortFailover_kept {a s : State} (h : Kept a s) : KeptR a (execHostPortFailover s) := by
  unfold execHostPortFailover
  repeat' first
    | with_reducible assumption
    | (with_reducible refine fun h => ?_)
    | (lift_lets; intro v; first | (refine Kept.cut (s := v) ?_ (fun hv => ?_); rotate_left; clear_value v; rotate_right) | clear_value v)
    | with_reducible apply KeptR.ok
    | with_reducible apply State.portTo_kept
    | with_reducible apply KeptR.next_
    | with_reducible apply KeptR.ite
    | with_reducible exact KeptR.fault
    | with_reducible apply Kept.ite
    | with_reducible apply Kept.foldl
    | split
    | (refine Kept.mk_ ?_ rfl rfl rfl rfl; assumption)

theorem State.lnkPress_kept {a s : State} {x1 x2} (h : Kept a s) : Kept a (State.lnkPress s x1 x2) := by
  unfold State.lnkPress
  repeat' first
    | with_reducible assumption
    | (with_reducible refine fun h => ?_)
    | (lift_lets; intro v; first | (refine Kept.cut (s := v) ?_ (fun hv => ?_); rotate_left; clear_value v; rotate_right) | clear_value v)
    | with_reducible apply State.refuse_kept
    | with_reducible apply State.complete_kept
    | with_reducible apply State.hold_kept
    | with_reducible apply State.applyPending_kept
    | with_reducible apply Kept.ite
    | with_reducible apply Kept.foldl
    | split
    | (refine Kept.mk_ ?_ rfl rfl rfl rfl; assumption)

theorem execLnkPress_kept {a s : State} {x1} (h : Kept a s) : KeptR a (execLnkPress x1 s) := by
  unfold execLnkPress
  repeat' first
    | with_reducible assumption
    | (with_reducible refine fun h => ?_)
    | (lift_lets; intro v; first | (refine Kept.cut (s := v) ?_ (fun hv => ?_); rotate_left; clear_value v; rotate_right) | clear_value v)
    | with_reducible apply State.serloth_kept
    | with_reducible apply State.refuse_kept
    | with_reducible apply State.lnkPress_kept
    | with_reducible apply KeptR.next_
    | with_reducible apply KeptR.ite
    | with_reducible exact KeptR.fault
    | with_reducible apply Kept.ite
    | with_reducible apply Kept.foldl
    | split
    | (refine Kept.mk_ ?_ rfl rfl rfl rfl; assumption)

theorem execLnkStatus_kept {a s : State} {x1} (h : Kept a s) : KeptR a (execLnkStatus x1 s) := by
  unfold execLnkStatus
  repeat' first
    | with_reducible assumption
    | (with_reducible refine fun h => ?_)
    | (lift_lets; intro v; first | (refine Kept.cut (s := v) ?_ (fun hv => ?_); rotate_left; clear_value v; rotate_right) | clear_value v)
    | with_reducible apply State.serloth_kept
    | with_reducible apply State.refuse_kept
    | with_reducible apply State.complete_kept
    | with_reducible apply KeptR.next_
    | with_reducible apply KeptR.ite
    | with_reducible exact KeptR.fault
    | with_reducible apply Kept.ite
    | with_reducible apply Kept.foldl
    | split
    | (refine Kept.mk_ ?_ rfl rfl rfl rfl; assumption)

theorem State.installHops_keptE {a s : State} {x1 x2 t} (e : State.installHops s x1 x2 = .inr t) (h : Kept a s) : Kept a t := by
  unfold State.installHops at e
  have k : ∀ (l : List Nat) (r : (Nat × Nat) ⊕ State), (∀ u, r = .inr u → Kept a u) → ∀ u, l.foldl (fun (a : (Nat × Nat) ⊕ State) i => match a with
      | .inl e => .inl e
      | .inr s =>
        let h := hopAt x1 i
        match s.hopBad h with
        | some r => .inl (i, r)
        | none => .inr { s with hops := s.hops ++ [h] }) r = .inr u → Kept a u := by
    intro l
    induction l with
    | nil => intro r hr u e; exact hr u e
    | cons i l ih =>
      intro r hr u e
      refine ih _ ?_ u e
      intro u e
      cases r with
      | inl e' => simp at e
      | inr v =>
        simp only at e
        split at e
        · cases e
        · cases e; exact Kept.mk_ (hr v rfl) rfl rfl rfl rfl
  exact k _ _ (fun u e => by cases e; exact h) t e

theorem execLnkReserveInstall_kept {a s : State} {x1} (h : Kept a s) : KeptR a (execLnkReserveInstall x1 s) := by
  unfold execLnkReserveInstall
  repeat' first
    | with_reducible assumption
    | (with_reducible refine fun h => ?_)
    | (lift_lets; intro v; first | (refine Kept.cut (s := v) ?_ (fun hv => ?_); rotate_left; clear_value v; rotate_right) | clear_value v)
    | with_reducible apply State.serloth_kept
    | with_reducible apply State.refuse_kept
    | (with_reducible apply State.installHops_keptE; · assumption)
    | with_reducible apply State.complete_kept
    | with_reducible apply KeptR.next_
    | with_reducible apply KeptR.ite
    | with_reducible exact KeptR.fault
    | with_reducible apply Kept.ite
    | with_reducible apply Kept.foldl
    | split
    | (refine Kept.mk_ ?_ rfl rfl rfl rfl; assumption)

theorem execLnkReserveRelease_kept {a s : State} {x1} (h : Kept a s) : KeptR a (execLnkReserveRelease x1 s) := by
  unfold execLnkReserveRelease
  repeat' first
    | with_reducible assumption
    | (with_reducible refine fun h => ?_)
    | (lift_lets; intro v; first | (refine Kept.cut (s := v) ?_ (fun hv => ?_); rotate_left; clear_value v; rotate_right) | clear_value v)
    | with_reducible apply State.serloth_kept
    | with_reducible apply State.refuse_kept
    | with_reducible apply State.complete_kept
    | with_reducible apply State.releaseHop_kept
    | with_reducible apply KeptR.next_
    | with_reducible apply KeptR.ite
    | with_reducible exact KeptR.fault
    | with_reducible apply Kept.ite
    | with_reducible apply Kept.foldl
    | split
    | (refine Kept.mk_ ?_ rfl rfl rfl rfl; assumption)

theorem State.endQualify_kept {a s : State} {x1 x2 x3} (h : Kept a s) : Kept a (State.endQualify s x1 x2 x3) := by
  unfold State.endQualify
  repeat' first
    | with_reducible assumption
    | (with_reducible refine fun h => ?_)
    | (lift_lets; intro v; first | (refine Kept.cut (s := v) ?_ (fun hv => ?_); rotate_left; clear_value v; rotate_right) | clear_value v)
    | with_reducible apply State.warnLink_kept
    | with_reducible apply State.complete_kept
    | with_reducible apply Kept.ite
    | with_reducible apply Kept.foldl
    | split
    | (refine Kept.mk_ ?_ rfl rfl rfl rfl; assumption)

theorem execLnkQualify_kept {a s : State} {x1} (h : Kept a s) : KeptR a (execLnkQualify x1 s) := by
  unfold execLnkQualify
  repeat' first
    | with_reducible assumption
    | (with_reducible refine fun h => ?_)
    | (lift_lets; intro v; first | (refine Kept.cut (s := v) ?_ (fun hv => ?_); rotate_left; clear_value v; rotate_right) | clear_value v)
    | with_reducible apply State.serloth_kept
    | with_reducible apply State.refuse_kept
    | with_reducible apply State.endQualify_kept
    | with_reducible apply State.hold_kept
    | with_reducible apply KeptR.next_
    | with_reducible apply KeptR.ite
    | with_reducible exact KeptR.fault
    | with_reducible apply Kept.ite
    | with_reducible apply Kept.foldl
    | split
    | (refine Kept.mk_ ?_ rfl rfl rfl rfl; assumption)

theorem execLiveSoakEnd_kept {a s : State} {x1 x2} (h : Kept a s) : KeptR a (execLiveSoakEnd x1 x2 s) := by
  unfold execLiveSoakEnd
  repeat' first
    | with_reducible assumption
    | (with_reducible refine fun h => ?_)
    | (lift_lets; intro v; first | (refine Kept.cut (s := v) ?_ (fun hv => ?_); rotate_left; clear_value v; rotate_right) | clear_value v)
    | with_reducible apply KeptR.ok
    | with_reducible apply State.endQualify_kept
    | with_reducible apply KeptR.next_
    | with_reducible apply KeptR.ite
    | with_reducible exact KeptR.fault
    | with_reducible apply Kept.ite
    | with_reducible apply Kept.foldl
    | split
    | (refine Kept.mk_ ?_ rfl rfl rfl rfl; assumption)

theorem State.quarantineCmd_kept {a s : State} {x1} (h : Kept a s) : Kept a (State.quarantineCmd s x1) := by
  unfold State.quarantineCmd
  repeat' first
    | with_reducible assumption
    | (with_reducible refine fun h => ?_)
    | (lift_lets; intro v; first | (refine Kept.cut (s := v) ?_ (fun hv => ?_); rotate_left; clear_value v; rotate_right) | clear_value v)
    | with_reducible apply State.quarantine_kept
    | with_reducible apply State.setPort_kept
    | with_reducible apply Kept.ite
    | with_reducible apply Kept.foldl
    | split
    | (refine Kept.mk_ ?_ rfl rfl rfl rfl; assumption)

theorem execLnkQuarantine_kept {a s : State} {x1} (h : Kept a s) : KeptR a (execLnkQuarantine x1 s) := by
  unfold execLnkQuarantine
  repeat' first
    | with_reducible assumption
    | (with_reducible refine fun h => ?_)
    | (lift_lets; intro v; first | (refine Kept.cut (s := v) ?_ (fun hv => ?_); rotate_left; clear_value v; rotate_right) | clear_value v)
    | with_reducible apply State.serloth_kept
    | with_reducible apply State.refuse_kept
    | with_reducible apply State.complete_kept
    | with_reducible apply State.portsSettle_kept
    | with_reducible apply State.quarantineCmd_kept
    | with_reducible apply KeptR.next_
    | with_reducible apply KeptR.ite
    | with_reducible exact KeptR.fault
    | with_reducible apply Kept.ite
    | with_reducible apply Kept.foldl
    | split
    | (refine Kept.mk_ ?_ rfl rfl rfl rfl; assumption)

theorem State.releasePort_kept {a s : State} {x1} (h : Kept a s) : Kept a (State.releasePort s x1) := by
  unfold State.releasePort
  repeat' first
    | with_reducible assumption
    | (with_reducible refine fun h => ?_)
    | (lift_lets; intro v; first | (refine Kept.cut (s := v) ?_ (fun hv => ?_); rotate_left; clear_value v; rotate_right) | clear_value v)
    | with_reducible apply State.startTraining_kept
    | with_reducible apply State.setPort_kept
    | with_reducible apply State.beginAdmission_kept
    | with_reducible apply Kept.ite
    | with_reducible apply Kept.foldl
    | split
    | (refine Kept.mk_ ?_ rfl rfl rfl rfl; assumption)

theorem execLnkQuarantineRelease_kept {a s : State} {x1} (h : Kept a s) : KeptR a (execLnkQuarantineRelease x1 s) := by
  unfold execLnkQuarantineRelease
  repeat' first
    | with_reducible assumption
    | (with_reducible refine fun h => ?_)
    | (lift_lets; intro v; first | (refine Kept.cut (s := v) ?_ (fun hv => ?_); rotate_left; clear_value v; rotate_right) | clear_value v)
    | with_reducible apply State.serloth_kept
    | with_reducible apply State.refuse_kept
    | with_reducible apply State.complete_kept
    | with_reducible apply State.releasePort_kept
    | with_reducible apply KeptR.next_
    | with_reducible apply KeptR.ite
    | with_reducible exact KeptR.fault
    | with_reducible apply Kept.ite
    | with_reducible apply Kept.foldl
    | split
    | (refine Kept.mk_ ?_ rfl rfl rfl rfl; assumption)

/-! ## Replace -/

theorem State.fillRegions_kept {a s : State} {l d} (h : Kept a s) : Kept a (State.fillRegions s l d) := by
  induction l generalizing s d with
  | nil => exact h
  | cons x l ih => exact ih (State.memWrite_kept h)

theorem State.loadHalf_kept {a s : State} {x1 x2} (h : Kept a s) : Kept a (State.loadHalf s x1 x2) := by
  unfold State.loadHalf
  repeat' first
    | with_reducible assumption
    | (with_reducible refine fun h => ?_)
    | (lift_lets; intro v; first | (refine Kept.cut (s := v) ?_ (fun hv => ?_); rotate_left; clear_value v; rotate_right) | clear_value v)
    | with_reducible apply State.fillRegions_kept
    | with_reducible apply Kept.ite
    | with_reducible apply Kept.foldl
    | split
    | (refine Kept.mk_ ?_ rfl rfl rfl rfl; assumption)

theorem State.adopt_kept {a s : State} {x1 x2} (h : Kept a s) : Kept a (State.adopt s x1 x2) := by
  unfold State.adopt
  repeat' first
    | with_reducible assumption
    | (with_reducible refine fun h => ?_)
    | (lift_lets; intro v; first | (refine Kept.cut (s := v) ?_ (fun hv => ?_); rotate_left; clear_value v; rotate_right) | clear_value v)
    | with_reducible apply Kept.ite
    | with_reducible apply Kept.foldl
    | split
    | (refine Kept.mk_ ?_ rfl rfl rfl rfl; assumption)

theorem State.askLoad_kept {a s : State} {x1 x2 x3 x4 x5} (h : Kept a s) : Kept a (State.askLoad s x1 x2 x3 x4 x5) := by
  unfold State.askLoad
  repeat' first
    | with_reducible assumption
    | (with_reducible refine fun h => ?_)
    | (lift_lets; intro v; first | (refine Kept.cut (s := v) ?_ (fun hv => ?_); rotate_left; clear_value v; rotate_right) | clear_value v)
    | with_reducible apply State.emit_kept
    | with_reducible apply Kept.ite
    | with_reducible apply Kept.foldl
    | split
    | (refine Kept.mk_ ?_ rfl rfl rfl rfl; assumption)

theorem State.askLoads_kept {a s : State} {x1 x2 x3 x4 x5 x6} (h : Kept a s) : Kept a (State.askLoads s x1 x2 x3 x4 x5 x6) := by
  unfold State.askLoads
  repeat' first
    | with_reducible assumption
    | (with_reducible refine fun h => ?_)
    | (lift_lets; intro v; try (refine Kept.cut (s := v) ?_ (fun hv => ?_); rotate_left; clear_value v; rotate_right))
    | with_reducible apply State.askLoad_kept
    | with_reducible apply Kept.ite
    | with_reducible apply Kept.foldl
    | split
    | (refine Kept.mk_ ?_ rfl rfl rfl rfl; assumption)

theorem State.loadNumerics_kept {a s : State} {x1 x2} (h : Kept a s) : Kept a (State.loadNumerics s x1 x2).2 := by
  unfold State.loadNumerics
  repeat' first
    | with_reducible assumption
    | (with_reducible refine fun h => ?_)
    | (lift_lets; intro v; try (refine Kept.cut (s := v) ?_ (fun hv => ?_); rotate_left; clear_value v; rotate_right))
    | with_reducible apply State.memWrite_kept
    | with_reducible apply Kept.ite
    | with_reducible apply Kept.foldl
    | with_reducible apply Kept.ite2
    | with_reducible apply Kept.ite3
    | with_reducible apply Kept.foldl2
    | with_reducible apply Kept.foldl3
    | split
    | (refine Kept.mk_ ?_ rfl rfl rfl rfl; assumption)

theorem State.loadNumerics_keptE {a s : State} {x1 x2} {r t} (e : State.loadNumerics s x1 x2 = (r, t)) (h : Kept a s) : Kept a t := Kept.of_pair e (State.loadNumerics_kept h)

theorem State.loadState_kept {a s : State} {x1 x2 x3 x4} (h : Kept a s) : Kept a (State.loadState s x1 x2 x3 x4).2 := by
  unfold State.loadState
  repeat' first
    | with_reducible assumption
    | (with_reducible refine fun h => ?_)
    | (lift_lets; intro v; first | (refine Kept.cut (s := v) ?_ (fun hv => ?_); rotate_left; clear_value v; rotate_right) | clear_value v)
    | with_reducible apply State.loadHalf_kept
    | with_reducible apply State.loadNumerics_kept
    | (with_reducible apply State.loadNumerics_keptE; · assumption)
    | with_reducible apply State.adopt_kept
    | with_reducible apply Kept.ite
    | with_reducible apply Kept.foldl
    | with_reducible apply Kept.ite2
    | with_reducible apply Kept.ite3
    | with_reducible apply Kept.foldl2
    | with_reducible apply Kept.foldl3
    | split
    | (refine Kept.mk_ ?_ rfl rfl rfl rfl; assumption)
    | (refine Kept.mk_ ?_ rfl rfl rfl rfl; first | with_reducible assumption | (with_reducible refine fun h => ?_) | with_reducible apply State.loadHalf_kept | with_reducible apply State.loadNumerics_kept | (with_reducible apply State.loadNumerics_keptE; · assumption) | with_reducible apply State.adopt_kept | with_reducible apply Kept.ite | with_reducible apply Kept.foldl | with_reducible apply Kept.ite2 | with_reducible apply Kept.ite3 | with_reducible apply Kept.foldl2 | with_reducible apply Kept.foldl3 | split)

theorem State.loadState_keptE {a s : State} {x1 x2 x3 x4} {r t} (e : State.loadState s x1 x2 x3 x4 = (r, t)) (h : Kept a s) : Kept a t := Kept.of_pair e (State.loadState_kept h)

theorem execColAdmitDeviceLoad_kept {a s : State} {x1 x2} (h : Kept a s) : KeptR a (execColAdmitDeviceLoad x1 x2 s) := by
  unfold execColAdmitDeviceLoad
  repeat' first
    | with_reducible assumption
    | (with_reducible refine fun h => ?_)
    | (lift_lets; intro v; first | (refine Kept.cut (s := v) ?_ (fun hv => ?_); rotate_left; clear_value v; rotate_right) | clear_value v)
    | with_reducible apply State.serlothMem_kept
    | with_reducible apply State.refuse_kept
    | with_reducible apply State.loadState_kept
    | (with_reducible apply State.loadState_keptE; · assumption)
    | with_reducible apply State.askLoads_kept
    | with_reducible apply State.complete_kept
    | with_reducible apply KeptR.next_
    | with_reducible apply KeptR.ite
    | with_reducible exact KeptR.fault
    | with_reducible apply Kept.ite
    | with_reducible apply Kept.foldl
    | split
    | (refine Kept.mk_ ?_ rfl rfl rfl rfl; assumption)

theorem execColAdmitDeviceShadow_kept {a s : State} {x1 x2} (h : Kept a s) : KeptR a (execColAdmitDeviceShadow x1 x2 s) := by
  unfold execColAdmitDeviceShadow
  repeat' first
    | with_reducible assumption
    | (with_reducible refine fun h => ?_)
    | (lift_lets; intro v; first | (refine Kept.cut (s := v) ?_ (fun hv => ?_); rotate_left; clear_value v; rotate_right) | clear_value v)
    | with_reducible apply State.serlothMem_kept
    | with_reducible apply State.refuse_kept
    | with_reducible apply State.loadState_kept
    | (with_reducible apply State.loadState_keptE; · assumption)
    | with_reducible apply State.askLoads_kept
    | with_reducible apply State.hold_kept
    | with_reducible apply State.emit_kept
    | with_reducible apply KeptR.next_
    | with_reducible apply KeptR.ite
    | with_reducible exact KeptR.fault
    | with_reducible apply Kept.ite
    | with_reducible apply Kept.foldl
    | split
    | (refine Kept.mk_ ?_ rfl rfl rfl rfl; assumption)

theorem State.pushParts_kept {a s : State} {x1 x2 x3 x4 x5 x6 x7 x8 x9 x10} (h : Kept a s) : Kept a (State.pushParts s x1 x2 x3 x4 x5 x6 x7 x8 x9 x10) := by
  unfold State.pushParts
  repeat' first
    | with_reducible assumption
    | (with_reducible refine fun h => ?_)
    | (lift_lets; intro v; first | (refine Kept.cut (s := v) ?_ (fun hv => ?_); rotate_left; clear_value v; rotate_right) | clear_value v)
    | with_reducible apply State.emit_kept
    | with_reducible apply State.complete_kept
    | with_reducible apply Kept.ite
    | with_reducible apply Kept.foldl
    | split
    | (refine Kept.mk_ ?_ rfl rfl rfl rfl; assumption)

theorem execColPeerLoad_kept {a s : State} {x1 x2} (h : Kept a s) : KeptR a (execColPeerLoad x1 x2 s) := by
  unfold execColPeerLoad
  repeat' first
    | with_reducible assumption
    | (with_reducible refine fun h => ?_)
    | (lift_lets; intro v; first | (refine Kept.cut (s := v) ?_ (fun hv => ?_); rotate_left; clear_value v; rotate_right) | clear_value v)
    | with_reducible apply State.serlothMem_kept
    | with_reducible apply State.refuse_kept
    | with_reducible apply State.complete_kept
    | with_reducible apply State.pushParts_kept
    | with_reducible apply KeptR.next_
    | with_reducible apply KeptR.ite
    | with_reducible exact KeptR.fault
    | with_reducible apply Kept.ite
    | with_reducible apply Kept.foldl
    | split
    | (refine Kept.mk_ ?_ rfl rfl rfl rfl; assumption)

theorem execStartShadowFeed_kept {a s : State} {x1} (h : Kept a s) : KeptR a (execStartShadowFeed x1 s) := by
  unfold execStartShadowFeed
  repeat' first
    | with_reducible assumption
    | (with_reducible refine fun h => ?_)
    | (lift_lets; intro v; first | (refine Kept.cut (s := v) ?_ (fun hv => ?_); rotate_left; clear_value v; rotate_right) | clear_value v)
    | with_reducible apply State.serlothMem_kept
    | with_reducible apply State.complete_kept
    | with_reducible apply State.refuse_kept
    | with_reducible apply KeptR.next_
    | with_reducible apply KeptR.ite
    | with_reducible exact KeptR.fault
    | with_reducible apply Kept.ite
    | with_reducible apply Kept.foldl
    | split
    | (refine Kept.mk_ ?_ rfl rfl rfl rfl; assumption)

theorem State.endFeed_kept {a s : State} (h : Kept a s) : Kept a (State.endFeed s) := by
  unfold State.endFeed
  repeat' first
    | with_reducible assumption
    | (with_reducible refine fun h => ?_)
    | (lift_lets; intro v; first | (refine Kept.cut (s := v) ?_ (fun hv => ?_); rotate_left; clear_value v; rotate_right) | clear_value v)
    | with_reducible apply State.emit_kept
    | with_reducible apply Kept.ite
    | with_reducible apply Kept.foldl
    | split
    | (refine Kept.mk_ ?_ rfl rfl rfl rfl; assumption)

theorem State.endShadow_kept {a s : State} {x1} (h : Kept a s) : Kept a (State.endShadow s x1) := by
  unfold State.endShadow
  repeat' first
    | with_reducible assumption
    | (with_reducible refine fun h => ?_)
    | (lift_lets; intro v; first | (refine Kept.cut (s := v) ?_ (fun hv => ?_); rotate_left; clear_value v; rotate_right) | clear_value v)
    | with_reducible apply State.setSched_kept
    | with_reducible apply Kept.ite
    | with_reducible apply Kept.foldl
    | split
    | (refine Kept.mk_ ?_ rfl rfl rfl rfl; assumption)
    | (refine Kept.mk_ ?_ rfl rfl rfl rfl; first | with_reducible assumption | (with_reducible refine fun h => ?_) | with_reducible apply State.setSched_kept | with_reducible apply Kept.ite | with_reducible apply Kept.foldl | split)

theorem execEndShadowFeed_kept {a s : State} {x1} (h : Kept a s) : KeptR a (execEndShadowFeed x1 s) := by
  unfold execEndShadowFeed
  repeat' first
    | with_reducible assumption
    | (with_reducible refine fun h => ?_)
    | (lift_lets; intro v; first | (refine Kept.cut (s := v) ?_ (fun hv => ?_); rotate_left; clear_value v; rotate_right) | clear_value v)
    | with_reducible apply State.serlothMem_kept
    | with_reducible apply State.complete_kept
    | with_reducible apply State.endShadow_kept
    | with_reducible apply State.endFeed_kept
    | with_reducible apply KeptR.next_
    | with_reducible apply KeptR.ite
    | with_reducible exact KeptR.fault
    | with_reducible apply Kept.ite
    | with_reducible apply Kept.foldl
    | split
    | (refine Kept.mk_ ?_ rfl rfl rfl rfl; assumption)

theorem execShadowFeedStall_kept {a s : State} {x1} (h : Kept a s) : KeptR a (execShadowFeedStall x1 s) := by
  unfold execShadowFeedStall
  repeat' first
    | with_reducible assumption
    | (with_reducible refine fun h => ?_)
    | (lift_lets; intro v; try (refine Kept.cut (s := v) ?_ (fun hv => ?_); rotate_left; clear_value v; rotate_right))
    | with_reducible apply State.endFeed_kept
    | with_reducible apply KeptR.ok
    | with_reducible apply State.endShadow_kept
    | with_reducible apply KeptR.next_
    | with_reducible apply KeptR.ite
    | with_reducible exact KeptR.fault
    | with_reducible apply Kept.ite
    | with_reducible apply Kept.foldl
    | split
    | (refine Kept.mk_ ?_ rfl rfl rfl rfl; assumption)

theorem State.moveArea_kept {a s : State} {x1 x2 x3} (h : Kept a s) : Kept a (State.moveArea s x1 x2 x3) := by
  unfold State.moveArea
  repeat' first
    | with_reducible assumption
    | (with_reducible refine fun h => ?_)
    | (lift_lets; intro v; first | (refine Kept.cut (s := v) ?_ (fun hv => ?_); rotate_left; clear_value v; rotate_right) | clear_value v)
    | with_reducible apply State.memWriteP_kept
    | with_reducible apply Kept.ite
    | with_reducible apply Kept.foldl
    | split
    | (refine Kept.mk_ ?_ rfl rfl rfl rfl; assumption)

theorem State.promote_kept {a s : State} (h : Kept a s) : Kept a (State.promote s) := by
  unfold State.promote
  repeat' first
    | with_reducible assumption
    | (with_reducible refine fun h => ?_)
    | (lift_lets; intro v; first | (refine Kept.cut (s := v) ?_ (fun hv => ?_); rotate_left; clear_value v; rotate_right) | clear_value v)
    | with_reducible apply State.moveArea_kept
    | with_reducible apply Kept.ite
    | with_reducible apply Kept.foldl
    | split
    | (refine Kept.mk_ ?_ rfl rfl rfl rfl; assumption)
    | (refine Kept.mk_ ?_ rfl rfl rfl rfl; first | with_reducible assumption | (with_reducible refine fun h => ?_) | with_reducible apply State.moveArea_kept | with_reducible apply Kept.ite | with_reducible apply Kept.foldl | split)

theorem State.feedWrite_kept {a s : State} {x1 x2} (h : Kept a s) : Kept a (State.feedWrite s x1 x2) := by
  unfold State.feedWrite
  repeat' first
    | with_reducible assumption
    | (with_reducible refine fun h => ?_)
    | (lift_lets; intro v; first | (refine Kept.cut (s := v) ?_ (fun hv => ?_); rotate_left; clear_value v; rotate_right) | clear_value v)
    | with_reducible apply State.memWrite_kept
    | with_reducible apply Kept.ite
    | with_reducible apply Kept.foldl
    | split
    | (refine Kept.mk_ ?_ rfl rfl rfl rfl; assumption)

theorem State.feedItem_kept {a s : State} {x1} (h : Kept a s) : Kept a (State.feedItem s x1) := by
  unfold State.feedItem
  repeat' first
    | with_reducible assumption
    | (with_reducible refine fun h => ?_)
    | (lift_lets; intro v; first | (refine Kept.cut (s := v) ?_ (fun hv => ?_); rotate_left; clear_value v; rotate_right) | clear_value v)
    | with_reducible apply State.feedWrite_kept
    | with_reducible apply State.promote_kept
    | with_reducible apply Kept.ite
    | with_reducible apply Kept.foldl
    | split
    | (refine Kept.mk_ ?_ rfl rfl rfl rfl; assumption)

theorem State.feedStarted_kept {a s : State} (h : Kept a s) : Kept a (State.feedStarted s) := by
  unfold State.feedStarted
  repeat' first
    | with_reducible assumption
    | (with_reducible refine fun h => ?_)
    | (lift_lets; intro v; first | (refine Kept.cut (s := v) ?_ (fun hv => ?_); rotate_left; clear_value v; rotate_right) | clear_value v)
    | with_reducible apply State.complete_kept
    | with_reducible apply Kept.ite
    | with_reducible apply Kept.foldl
    | split
    | (refine Kept.mk_ ?_ rfl rfl rfl rfl; assumption)

theorem execShadowFeedReceive_kept {a s : State} {p r i} (h : Kept a s) : KeptR a (execShadowFeedReceive p r i s) := by
  unfold execShadowFeedReceive
  split
  · exact KeptR.ok (State.malformed_kept h)
  · refine KeptR.ite (KeptR.ok h) ?_
    refine KeptR.ite (KeptR.ok (State.feedItem_kept (State.feedStarted_kept h))) (KeptR.ite (KeptR.ok ?_) (KeptR.ok ?_))
    · exact State.endShadow_kept (State.emit_kept (State.feedStarted_kept h))
    · exact State.feedItem_kept (Kept.mk_ (State.feedStarted_kept h) rfl rfl rfl rfl)

theorem State.shadowCompare_kept {a s : State} {x1 x2} (h : Kept a s) : Kept a (State.shadowCompare s x1 x2) := by
  unfold State.shadowCompare
  repeat' first
    | with_reducible assumption
    | (with_reducible refine fun h => ?_)
    | (lift_lets; intro v; first | (refine Kept.cut (s := v) ?_ (fun hv => ?_); rotate_left; clear_value v; rotate_right) | clear_value v)
    | with_reducible apply State.collateDesc_kept
    | with_reducible apply State.nativeE_kept
    | with_reducible apply State.setSched_kept
    | with_reducible apply State.promote_kept
    | with_reducible apply Kept.ite
    | with_reducible apply Kept.foldl
    | split
    | (refine Kept.mk_ ?_ rfl rfl rfl rfl; assumption)
    | (refine Kept.mk_ ?_ rfl rfl rfl rfl; first | with_reducible assumption | (with_reducible refine fun h => ?_) | with_reducible apply State.collateDesc_kept | with_reducible apply State.nativeE_kept | with_reducible apply State.setSched_kept | with_reducible apply State.promote_kept | with_reducible apply Kept.ite | with_reducible apply Kept.foldl | split)

theorem execShadowStep_kept {a s : State} {x1} (h : Kept a s) : KeptR a (execShadowStep x1 s) := by
  unfold execShadowStep
  dsimp only
  repeat' first
    | with_reducible assumption
    | (with_reducible refine fun h => ?_)
    | with_reducible apply State.settle_kept
    | with_reducible apply KeptR.ok
    | with_reducible apply State.shadowCompare_kept
    | with_reducible apply State.clearIssue_kept
    | with_reducible apply State.setSched_kept
    | with_reducible apply State.restore_kept
    | with_reducible apply KeptR.next_
    | with_reducible apply KeptR.ite
    | with_reducible exact KeptR.fault
    | with_reducible apply Kept.ite
    | with_reducible apply Kept.foldl
    | with_reducible apply Kept.ite2
    | with_reducible apply Kept.ite3
    | with_reducible apply Kept.foldl2
    | with_reducible apply Kept.foldl3
    | split
    | (refine Kept.mk_ ?_ rfl rfl rfl rfl; assumption)

/-! ## Ckpt -/

theorem State.setLive_kept {a s : State} {x1} (h : Kept a s) : Kept a (State.setLive s x1) := by
  unfold State.setLive
  repeat' first
    | with_reducible assumption
    | (with_reducible refine fun h => ?_)
    | (lift_lets; intro v; first | (refine Kept.cut (s := v) ?_ (fun hv => ?_); rotate_left; clear_value v; rotate_right) | clear_value v)
    | with_reducible apply Kept.ite
    | with_reducible apply Kept.foldl
    | split
    | (refine Kept.mk_ ?_ rfl rfl rfl rfl; assumption)

theorem State.ckEnd_kept {a s : State} {x1 x2 x3} (h : Kept a s) : Kept a (State.ckEnd s x1 x2 x3) := by
  unfold State.ckEnd
  repeat' first
    | with_reducible assumption
    | (with_reducible refine fun h => ?_)
    | (lift_lets; intro v; first | (refine Kept.cut (s := v) ?_ (fun hv => ?_); rotate_left; clear_value v; rotate_right) | clear_value v)
    | with_reducible apply State.setLive_kept
    | with_reducible apply State.ckTell_kept
    | with_reducible apply Kept.ite
    | with_reducible apply Kept.foldl
    | split
    | (refine Kept.mk_ ?_ rfl rfl rfl rfl; assumption)

theorem State.ckFail_kept {a s : State} {x1 x2} (h : Kept a s) : Kept a (State.ckFail s x1 x2) := by
  unfold State.ckFail
  repeat' first
    | with_reducible assumption
    | (with_reducible refine fun h => ?_)
    | (lift_lets; intro v; first | (refine Kept.cut (s := v) ?_ (fun hv => ?_); rotate_left; clear_value v; rotate_right) | clear_value v)
    | with_reducible apply State.nativeE_kept
    | with_reducible apply State.ckEnd_kept
    | with_reducible apply Kept.ite
    | with_reducible apply Kept.foldl
    | split
    | (refine Kept.mk_ ?_ rfl rfl rfl rfl; assumption)

theorem execCkpBegin_kept {a s : State} {x1 x2} (h : Kept a s) : KeptR a (execCkpBegin x1 x2 s) := by
  unfold execCkpBegin
  repeat' first
    | with_reducible assumption
    | (with_reducible refine fun h => ?_)
    | (lift_lets; intro v; first | (refine Kept.cut (s := v) ?_ (fun hv => ?_); rotate_left; clear_value v; rotate_right) | clear_value v)
    | with_reducible apply State.serloth_kept
    | with_reducible apply State.refuse_kept
    | with_reducible apply State.tryBegin_kept
    | (with_reducible apply State.tryBegin_keptE; · assumption)
    | with_reducible apply State.complete_kept
    | with_reducible apply State.setCtx_kept
    | with_reducible apply KeptR.next_
    | with_reducible apply KeptR.ite
    | with_reducible exact KeptR.fault
    | with_reducible apply Kept.ite
    | with_reducible apply Kept.foldl
    | split
    | (refine Kept.mk_ ?_ rfl rfl rfl rfl; assumption)

theorem execCkpAbort_kept {a s : State} {x1} (h : Kept a s) : KeptR a (execCkpAbort x1 s) := by
  unfold execCkpAbort
  repeat' first
    | with_reducible assumption
    | (with_reducible refine fun h => ?_)
    | (lift_lets; intro v; first | (refine Kept.cut (s := v) ?_ (fun hv => ?_); rotate_left; clear_value v; rotate_right) | clear_value v)
    | with_reducible apply State.serloth_kept
    | with_reducible apply State.refuse_kept
    | with_reducible apply State.complete_kept
    | with_reducible apply State.ckEnd_kept
    | with_reducible apply KeptR.next_
    | with_reducible apply KeptR.ite
    | with_reducible exact KeptR.fault
    | with_reducible apply Kept.ite
    | with_reducible apply Kept.foldl
    | split
    | (refine Kept.mk_ ?_ rfl rfl rfl rfl; assumption)

theorem execCkpStatus_kept {a s : State} {x1} (h : Kept a s) : KeptR a (execCkpStatus x1 s) := by
  unfold execCkpStatus
  repeat' first
    | with_reducible assumption
    | (with_reducible refine fun h => ?_)
    | (lift_lets; intro v; first | (refine Kept.cut (s := v) ?_ (fun hv => ?_); rotate_left; clear_value v; rotate_right) | clear_value v)
    | with_reducible apply State.serloth_kept
    | with_reducible apply State.complete_kept
    | with_reducible apply KeptR.next_
    | with_reducible apply KeptR.ite
    | with_reducible exact KeptR.fault
    | with_reducible apply Kept.ite
    | with_reducible apply Kept.foldl
    | split
    | (refine Kept.mk_ ?_ rfl rfl rfl rfl; assumption)

theorem execCkpLimitExpiry_kept {a s : State} {x1} (h : Kept a s) : KeptR a (execCkpLimitExpiry x1 s) := by
  unfold execCkpLimitExpiry
  repeat' first
    | with_reducible assumption
    | (with_reducible refine fun h => ?_)
    | (lift_lets; intro v; first | (refine Kept.cut (s := v) ?_ (fun hv => ?_); rotate_left; clear_value v; rotate_right) | clear_value v)
    | with_reducible apply KeptR.ok
    | with_reducible apply State.ckFail_kept
    | with_reducible apply KeptR.next_
    | with_reducible apply KeptR.ite
    | with_reducible exact KeptR.fault
    | with_reducible apply Kept.ite
    | with_reducible apply Kept.foldl
    | split
    | (refine Kept.mk_ ?_ rfl rfl rfl rfl; assumption)

theorem State.copySheet_kept {a s : State} {x1} (h : Kept a s) : Kept a (State.copySheet s x1).2 := by
  unfold State.copySheet
  repeat' first
    | with_reducible assumption
    | (with_reducible refine fun h => ?_)
    | (lift_lets; intro v; first | (refine Kept.cut (s := v) ?_ (fun hv => ?_); rotate_left; clear_value v; rotate_right) | clear_value v)
    | with_reducible apply State.memWriteP_kept
    | with_reducible apply Kept.ite
    | with_reducible apply Kept.foldl
    | with_reducible apply Kept.ite2
    | with_reducible apply Kept.ite3
    | with_reducible apply Kept.foldl2
    | with_reducible apply Kept.foldl3
    | split
    | (refine Kept.mk_ ?_ rfl rfl rfl rfl; assumption)

theorem State.copySheet_keptE {a s : State} {x1} {r t} (e : State.copySheet s x1 = (r, t)) (h : Kept a s) : Kept a t := Kept.of_pair e (State.copySheet_kept h)

theorem copySheets_kept {a s : State} {n k} (h : Kept a s) : Kept a (copySheets n k s).2 := by
  induction n generalizing s k with
  | zero => exact h
  | succ n ih =>
    unfold copySheets
    split
    · exact h
    · exact ih (State.copySheet_kept h)
theorem copySheets_keptE {a s : State} {n k r t} (e : copySheets n k s = (r, t)) (h : Kept a s) : Kept a t := Kept.of_pair e (copySheets_kept h)

theorem State.copyDone_kept {a s : State} {x1} (h : Kept a s) : Kept a (State.copyDone s x1) := by
  unfold State.copyDone
  repeat' first
    | with_reducible assumption
    | (with_reducible refine fun h => ?_)
    | (lift_lets; intro v; first | (refine Kept.cut (s := v) ?_ (fun hv => ?_); rotate_left; clear_value v; rotate_right) | clear_value v)
    | with_reducible apply State.ckFail_kept
    | with_reducible apply State.nativeE_kept
    | with_reducible apply State.memWrite_kept
    | with_reducible apply State.setLive_kept
    | with_reducible apply Kept.ite
    | with_reducible apply Kept.foldl
    | split
    | (refine Kept.mk_ ?_ rfl rfl rfl rfl; assumption)

theorem execFastCopy_kept {a s : State} {x1} (h : Kept a s) : KeptR a (execFastCopy x1 s) := by
  unfold execFastCopy
  repeat' first
    | with_reducible assumption
    | (with_reducible refine fun h => ?_)
    | (lift_lets; intro v; try (refine Kept.cut (s := v) ?_ (fun hv => ?_); rotate_left; clear_value v; rotate_right))
    | with_reducible apply KeptR.ok
    | with_reducible apply copySheets_kept
    | (with_reducible apply copySheets_keptE; · assumption)
    | with_reducible apply State.setLive_kept
    | with_reducible apply State.copyDone_kept
    | with_reducible apply KeptR.next_
    | with_reducible apply KeptR.ite
    | with_reducible exact KeptR.fault
    | with_reducible apply Kept.ite
    | with_reducible apply Kept.foldl
    | split
    | (refine Kept.mk_ ?_ rfl rfl rfl rfl; assumption)

theorem execHeldWrite_kept {a s : State} (h : Kept a s) : KeptR a (execHeldWrite s) := by
  unfold execHeldWrite
  repeat' first
    | with_reducible assumption
    | (with_reducible refine fun h => ?_)
    | (lift_lets; intro v; try (refine Kept.cut (s := v) ?_ (fun hv => ?_); rotate_left; clear_value v; rotate_right))
    | with_reducible apply KeptR.ok
    | with_reducible apply State.setLive_kept
    | with_reducible apply KeptR.next_
    | with_reducible apply KeptR.ite
    | with_reducible exact KeptR.fault
    | with_reducible apply Kept.ite
    | with_reducible apply Kept.foldl
    | split
    | (refine Kept.mk_ ?_ rfl rfl rfl rfl; assumption)

theorem State.tryCommit_kept {a s : State} (h : Kept a s) : Kept a (State.tryCommit s) := by
  unfold State.tryCommit
  repeat' first
    | with_reducible assumption
    | (with_reducible refine fun h => ?_)
    | (lift_lets; intro v; first | (refine Kept.cut (s := v) ?_ (fun hv => ?_); rotate_left; clear_value v; rotate_right) | clear_value v)
    | with_reducible apply State.memWrite_kept
    | with_reducible apply State.setLive_kept
    | with_reducible apply Kept.ite
    | with_reducible apply Kept.foldl
    | split
    | (refine Kept.mk_ ?_ rfl rfl rfl rfl; assumption)

theorem State.pieceAcked_kept {a s : State} {x1 x2} (h : Kept a s) : Kept a (State.pieceAcked s x1 x2) := by
  unfold State.pieceAcked
  repeat' first
    | with_reducible assumption
    | (with_reducible refine fun h => ?_)
    | (lift_lets; intro v; first | (refine Kept.cut (s := v) ?_ (fun hv => ?_); rotate_left; clear_value v; rotate_right) | clear_value v)
    | with_reducible apply State.tryCommit_kept
    | with_reducible apply State.ckTell_kept
    | with_reducible apply State.setLive_kept
    | with_reducible apply Kept.ite
    | with_reducible apply Kept.foldl
    | split
    | (refine Kept.mk_ ?_ rfl rfl rfl rfl; assumption)

theorem State.sendPiece_kept {a s : State} {x1 x2 x3} (h : Kept a s) : Kept a (State.sendPiece s x1 x2 x3) := by
  unfold State.sendPiece
  repeat' first
    | with_reducible assumption
    | (with_reducible refine fun h => ?_)
    | (lift_lets; intro v; first | (refine Kept.cut (s := v) ?_ (fun hv => ?_); rotate_left; clear_value v; rotate_right) | clear_value v)
    | with_reducible apply State.emit_kept
    | with_reducible apply Kept.ite
    | with_reducible apply Kept.foldl
    | split
    | (refine Kept.mk_ ?_ rfl rfl rfl rfl; assumption)

theorem execDrain_kept {a s : State} {x1 x2} (h : Kept a s) : KeptR a (execDrain x1 x2 s) := by
  unfold execDrain
  repeat' first
    | with_reducible assumption
    | (with_reducible refine fun h => ?_)
    | (lift_lets; intro v; first | (refine Kept.cut (s := v) ?_ (fun hv => ?_); rotate_left; clear_value v; rotate_right) | clear_value v)
    | with_reducible apply KeptR.ok
    | with_reducible apply State.emit_kept
    | with_reducible apply State.sendPiece_kept
    | with_reducible apply State.pieceAcked_kept
    | with_reducible apply State.ckFail_kept
    | with_reducible apply State.setLive_kept
    | with_reducible apply KeptR.next_
    | with_reducible apply KeptR.ite
    | with_reducible exact KeptR.fault
    | with_reducible apply Kept.ite
    | with_reducible apply Kept.foldl
    | split
    | (refine Kept.mk_ ?_ rfl rfl rfl rfl; assumption)

theorem State.ckpOp_kept {a s : State} {n op f} (h : Kept a s) (hf : ∀ b, Kept a (f b)) : KeptR a (State.ckpOp s n op f) := by
  unfold State.ckpOp
  exact State.serlothMem_kept h fun y => Kept.ite (hf _) h

theorem State.adoptRecord_kept {a s : State} {x1 x2 x3} (h : Kept a s) : Kept a (State.adoptRecord s x1 x2 x3) := by
  unfold State.adoptRecord
  repeat' first
    | with_reducible assumption
    | (with_reducible refine fun h => ?_)
    | (lift_lets; intro v; first | (refine Kept.cut (s := v) ?_ (fun hv => ?_); rotate_left; clear_value v; rotate_right) | clear_value v)
    | with_reducible apply State.emit_kept
    | with_reducible apply State.memWrite_kept
    | with_reducible apply Kept.ite
    | with_reducible apply Kept.foldl
    | split
    | (refine Kept.mk_ ?_ rfl rfl rfl rfl; assumption)

theorem State.joinBegin_kept {a s : State} {x1 x2} (h : Kept a s) : Kept a (State.joinBegin s x1 x2) := by
  unfold State.joinBegin
  repeat' first
    | with_reducible assumption
    | (with_reducible refine fun h => ?_)
    | (lift_lets; intro v; first | (refine Kept.cut (s := v) ?_ (fun hv => ?_); rotate_left; clear_value v; rotate_right) | clear_value v)
    | with_reducible apply State.cutCheck_kept
    | with_reducible apply Kept.ite
    | with_reducible apply Kept.foldl
    | split
    | (refine Kept.mk_ ?_ rfl rfl rfl rfl; assumption)

theorem execCkpPeerBegin_kept {a s : State} {x1 x2} (h : Kept a s) : KeptR a (execCkpPeerBegin x1 s x2) := by
  unfold execCkpPeerBegin
  repeat' first
    | with_reducible assumption
    | (with_reducible refine fun h => ?_)
    | (lift_lets; intro v; first | (refine Kept.cut (s := v) ?_ (fun hv => ?_); rotate_left; clear_value v; rotate_right) | clear_value v)
    | with_reducible apply State.serlothMem_kept
    | with_reducible apply State.refuse_kept
    | with_reducible apply State.adoptRecord_kept
    | with_reducible apply State.joinBegin_kept
    | with_reducible apply State.complete_kept
    | with_reducible apply KeptR.next_
    | with_reducible apply KeptR.ite
    | with_reducible exact KeptR.fault
    | with_reducible apply Kept.ite
    | with_reducible apply Kept.foldl
    | split
    | (refine Kept.mk_ ?_ rfl rfl rfl rfl; assumption)

theorem execCkpPeerPieceDone_kept {a s : State} {x1} (h : Kept a s) : KeptR a (execCkpPeerPieceDone x1 s) := by
  unfold execCkpPeerPieceDone
  repeat' first
    | with_reducible assumption
    | (with_reducible refine fun h => ?_)
    | (lift_lets; intro v; first | (refine Kept.cut (s := v) ?_ (fun hv => ?_); rotate_left; clear_value v; rotate_right) | clear_value v)
    | with_reducible apply State.ckpOp_kept
    | with_reducible apply State.refuse_kept
    | with_reducible apply State.complete_kept
    | with_reducible apply KeptR.next_
    | with_reducible apply KeptR.ite
    | with_reducible exact KeptR.fault
    | with_reducible apply Kept.ite
    | with_reducible apply Kept.foldl
    | split
    | (refine Kept.mk_ ?_ rfl rfl rfl rfl; assumption)

theorem execCkpPeerHashList_kept {a s : State} {x1} (h : Kept a s) : KeptR a (execCkpPeerHashList x1 s) := by
  unfold execCkpPeerHashList
  repeat' first
    | with_reducible assumption
    | (with_reducible refine fun h => ?_)
    | (lift_lets; intro v; first | (refine Kept.cut (s := v) ?_ (fun hv => ?_); rotate_left; clear_value v; rotate_right) | clear_value v)
    | with_reducible apply State.ckpOp_kept
    | with_reducible apply State.refuse_kept
    | with_reducible apply State.tryCommit_kept
    | with_reducible apply State.complete_kept
    | with_reducible apply State.setLive_kept
    | with_reducible apply KeptR.next_
    | with_reducible apply KeptR.ite
    | with_reducible exact KeptR.fault
    | with_reducible apply Kept.ite
    | with_reducible apply Kept.foldl
    | split
    | (refine Kept.mk_ ?_ rfl rfl rfl rfl; assumption)

theorem execCkpPeerRecord_kept {a s : State} {x1} (h : Kept a s) : KeptR a (execCkpPeerRecord x1 s) := by
  unfold execCkpPeerRecord
  repeat' first
    | with_reducible assumption
    | (with_reducible refine fun h => ?_)
    | (lift_lets; intro v; first | (refine Kept.cut (s := v) ?_ (fun hv => ?_); rotate_left; clear_value v; rotate_right) | clear_value v)
    | with_reducible apply State.ckpOp_kept
    | with_reducible apply State.refuse_kept
    | with_reducible apply State.complete_kept
    | with_reducible apply State.emit_kept
    | with_reducible apply KeptR.next_
    | with_reducible apply KeptR.ite
    | with_reducible exact KeptR.fault
    | with_reducible apply Kept.ite
    | with_reducible apply Kept.foldl
    | split
    | (refine Kept.mk_ ?_ rfl rfl rfl rfl; assumption)

theorem execCkpPeerFetch_kept {a s : State} {x1 x2} (h : Kept a s) : KeptR a (execCkpPeerFetch x1 x2 s) := by
  unfold execCkpPeerFetch
  repeat' first
    | with_reducible assumption
    | (with_reducible refine fun h => ?_)
    | (lift_lets; intro v; first | (refine Kept.cut (s := v) ?_ (fun hv => ?_); rotate_left; clear_value v; rotate_right) | clear_value v)
    | with_reducible apply State.ckpOp_kept
    | with_reducible apply State.refuse_kept
    | with_reducible apply State.complete_kept
    | with_reducible apply State.emit_kept
    | with_reducible apply KeptR.next_
    | with_reducible apply KeptR.ite
    | with_reducible exact KeptR.fault
    | with_reducible apply Kept.ite
    | with_reducible apply Kept.foldl
    | split
    | (refine Kept.mk_ ?_ rfl rfl rfl rfl; assumption)

theorem execCkpPeerAbort_kept {a s : State} {x1} (h : Kept a s) : KeptR a (execCkpPeerAbort x1 s) := by
  unfold execCkpPeerAbort
  dsimp only
  repeat' first
    | with_reducible assumption
    | (with_reducible refine fun h => ?_)
    | with_reducible apply State.ckpOp_kept
    | with_reducible apply State.ckFail_kept
    | with_reducible apply State.complete_kept
    | with_reducible apply KeptR.next_
    | with_reducible apply KeptR.ite
    | with_reducible exact KeptR.fault
    | with_reducible apply Kept.ite
    | with_reducible apply Kept.foldl
    | with_reducible apply Kept.ite2
    | with_reducible apply Kept.ite3
    | with_reducible apply Kept.foldl2
    | with_reducible apply Kept.foldl3
    | split
    | (refine Kept.mk_ ?_ rfl rfl rfl rfl; assumption)

theorem State.loadRun_kept {a s : State} {x1 x2} (h : Kept a s) : Kept a (State.loadRun s x1 x2) := by
  unfold State.loadRun
  repeat' first
    | with_reducible assumption
    | (with_reducible refine fun h => ?_)
    | (lift_lets; intro v; first | (refine Kept.cut (s := v) ?_ (fun hv => ?_); rotate_left; clear_value v; rotate_right) | clear_value v)
    | with_reducible apply State.poisonRange_kept
    | with_reducible apply State.memWrite_kept
    | with_reducible apply State.put32_kept
    | with_reducible apply State.putWork_kept
    | (with_reducible apply State.putWork_keptE; · assumption)
    | with_reducible apply Kept.ite
    | with_reducible apply Kept.foldl
    | split
    | (refine Kept.mk_ ?_ rfl rfl rfl rfl; assumption)

theorem State.loadDesc_kept {a s : State} {x1 x2 x3} (h : Kept a s) : Kept a (State.loadDesc s x1 x2 x3) := by
  unfold State.loadDesc
  repeat' first
    | with_reducible assumption
    | (with_reducible refine fun h => ?_)
    | (lift_lets; intro v; first | (refine Kept.cut (s := v) ?_ (fun hv => ?_); rotate_left; clear_value v; rotate_right) | clear_value v)
    | with_reducible apply State.loadRun_kept
    | with_reducible apply Kept.ite
    | with_reducible apply Kept.foldl
    | split
    | (refine Kept.mk_ ?_ rfl rfl rfl rfl; assumption)
    | (refine Kept.mk_ ?_ rfl rfl rfl rfl; first | with_reducible assumption | (with_reducible refine fun h => ?_) | with_reducible apply State.loadRun_kept | with_reducible apply Kept.ite | with_reducible apply Kept.foldl | split)

theorem State.finalDesc_kept {a s : State} {x1 x2 x3} (h : Kept a s) : Kept a (State.finalDesc s x1 x2 x3) := by
  unfold State.finalDesc
  dsimp only
  repeat' first
    | with_reducible assumption
    | (with_reducible refine fun h => ?_)
    | with_reducible apply State.loadRun_kept
    | with_reducible apply Kept.ite
    | with_reducible apply Kept.foldl
    | with_reducible apply Kept.ite2
    | with_reducible apply Kept.ite3
    | with_reducible apply Kept.foldl2
    | with_reducible apply Kept.foldl3
    | split
    | (refine Kept.mk_ ?_ rfl rfl rfl rfl; assumption)
    | (refine Kept.mk_ ?_ rfl rfl rfl rfl; first | with_reducible assumption | (with_reducible refine fun h => ?_) | with_reducible apply State.loadRun_kept | with_reducible apply Kept.ite | with_reducible apply Kept.foldl | with_reducible apply Kept.ite2 | with_reducible apply Kept.ite3 | with_reducible apply Kept.foldl2 | with_reducible apply Kept.foldl3 | split)

theorem State.loadScales_kept {a s : State} {x1 x2} (h : Kept a s) : Kept a (State.loadScales s x1 x2) := by
  unfold State.loadScales
  repeat' first
    | with_reducible assumption
    | (with_reducible refine fun h => ?_)
    | (lift_lets; intro v; first | (refine Kept.cut (s := v) ?_ (fun hv => ?_); rotate_left; clear_value v; rotate_right) | clear_value v)
    | with_reducible apply State.memWrite_kept
    | with_reducible apply Kept.ite
    | with_reducible apply Kept.foldl
    | split
    | (refine Kept.mk_ ?_ rfl rfl rfl rfl; assumption)

theorem State.loadCarry_kept {a s : State} {x1 x2 x3 x4} (h : Kept a s) : Kept a (State.loadCarry s x1 x2 x3 x4) := by
  unfold State.loadCarry
  dsimp only
  repeat' first
    | with_reducible assumption
    | (with_reducible refine fun h => ?_)
    | with_reducible apply State.memWrite_kept
    | with_reducible apply State.nativeE_kept
    | with_reducible apply Kept.ite
    | with_reducible apply Kept.foldl
    | with_reducible apply Kept.ite2
    | with_reducible apply Kept.ite3
    | with_reducible apply Kept.foldl2
    | with_reducible apply Kept.foldl3
    | split
    | (refine Kept.mk_ ?_ rfl rfl rfl rfl; assumption)
    | (refine Kept.mk_ ?_ rfl rfl rfl rfl; first | with_reducible assumption | (with_reducible refine fun h => ?_) | with_reducible apply State.memWrite_kept | with_reducible apply State.nativeE_kept | with_reducible apply Kept.ite | with_reducible apply Kept.foldl | with_reducible apply Kept.ite2 | with_reducible apply Kept.ite3 | with_reducible apply Kept.foldl2 | with_reducible apply Kept.foldl3 | split)

theorem State.askPieces_kept {a s : State} {x1 x2} (h : Kept a s) : Kept a (State.askPieces s x1 x2) := by
  unfold State.askPieces
  repeat' first
    | with_reducible assumption
    | (with_reducible refine fun h => ?_)
    | (lift_lets; intro v; try (refine Kept.cut (s := v) ?_ (fun hv => ?_); rotate_left; clear_value v; rotate_right))
    | with_reducible apply State.emit_kept
    | with_reducible apply Kept.ite
    | with_reducible apply Kept.foldl
    | split
    | (refine Kept.mk_ ?_ rfl rfl rfl rfl; assumption)

theorem State.ckpLoad_kept {a s : State} {x1 x2 x3 x4 x5 x6 x7} (h : Kept a s) : Kept a (State.ckpLoad s x1 x2 x3 x4 x5 x6 x7) := by
  unfold State.ckpLoad
  repeat' first
    | with_reducible assumption
    | (with_reducible refine fun h => ?_)
    | (lift_lets; intro v; first | (refine Kept.cut (s := v) ?_ (fun hv => ?_); rotate_left; clear_value v; rotate_right) | clear_value v)
    | with_reducible apply State.loadDesc_kept
    | with_reducible apply State.finalDesc_kept
    | with_reducible apply State.loadCarry_kept
    | with_reducible apply State.loadScales_kept
    | with_reducible apply State.complete_kept
    | with_reducible apply Kept.ite
    | with_reducible apply Kept.foldl
    | split
    | (refine Kept.mk_ ?_ rfl rfl rfl rfl; assumption)
    | (refine Kept.mk_ ?_ rfl rfl rfl rfl; first | with_reducible assumption | (with_reducible refine fun h => ?_) | with_reducible apply State.loadDesc_kept | with_reducible apply State.finalDesc_kept | with_reducible apply State.loadCarry_kept | with_reducible apply State.loadScales_kept | with_reducible apply State.complete_kept | with_reducible apply Kept.ite | with_reducible apply Kept.foldl | split)

theorem execCkpLoad_kept {a s : State} {x1 x2 x3} (h : Kept a s) : KeptR a (execCkpLoad x1 x2 x3 s) := by
  unfold execCkpLoad
  repeat' first
    | with_reducible assumption
    | (with_reducible refine fun h => ?_)
    | (lift_lets; intro v; first | (refine Kept.cut (s := v) ?_ (fun hv => ?_); rotate_left; clear_value v; rotate_right) | clear_value v)
    | with_reducible apply State.serlothMem_kept
    | with_reducible apply State.refuse_kept
    | with_reducible apply State.emit_kept
    | with_reducible apply State.ckpLoad_kept
    | with_reducible apply State.askPieces_kept
    | with_reducible apply KeptR.next_
    | with_reducible apply KeptR.ite
    | with_reducible exact KeptR.fault
    | with_reducible apply Kept.ite
    | with_reducible apply Kept.foldl
    | split
    | (refine Kept.mk_ ?_ rfl rfl rfl rfl; assumption)

end Sys2Proof.Machine
end

