-- ==== Sys2Proof/Laws/KeptGuard.lean ====
section
/-! SUPPORT. What the operations of Thermal, Guard, Spdm, Bringup, Tick keep: one lemma for each (Kept). -/

namespace Sys2Proof.Machine

/-! ## Thermal -/

theorem State.setPoint_kept {a s : State} {x1} (h : Kept a s) : Kept a (State.setPoint s x1) := by
  unfold State.setPoint
  dsimp only
  repeat' first
    | with_reducible assumption
    | (with_reducible refine fun h => ?_)
    | with_reducible apply State.emit_kept
    | with_reducible apply State.native_kept
    | with_reducible apply State.noteCause_kept
    | with_reducible apply Kept.ite
    | with_reducible apply Kept.foldl
    | with_reducible apply Kept.ite2
    | with_reducible apply Kept.ite3
    | with_reducible apply Kept.foldl2
    | with_reducible apply Kept.foldl3
    | split
    | (refine Kept.mk_ ?_ rfl rfl rfl rfl; assumption)

theorem State.endStall_kept {a s : State} (h : Kept a s) : Kept a (State.endStall s) := by
  unfold State.endStall
  repeat' first
    | with_reducible assumption
    | (with_reducible refine fun h => ?_)
    | (lift_lets; intro v; first | (refine Kept.cut (s := v) ?_ (fun hv => ?_); rotate_left; clear_value v; rotate_right) | clear_value v)
    | with_reducible apply Kept.ite
    | with_reducible apply Kept.foldl
    | split
    | (refine Kept.mk_ ?_ rfl rfl rfl rfl; assumption)

theorem State.settlePoint_kept {a s : State} (h : Kept a s) : Kept a (State.settlePoint s) := by
  unfold State.settlePoint
  repeat' first
    | with_reducible assumption
    | (with_reducible refine fun h => ?_)
    | (lift_lets; intro v; first | (refine Kept.cut (s := v) ?_ (fun hv => ?_); rotate_left; clear_value v; rotate_right) | clear_value v)
    | with_reducible apply State.setPoint_kept
    | with_reducible apply State.endStall_kept
    | with_reducible apply Kept.ite
    | with_reducible apply Kept.foldl
    | split
    | (refine Kept.mk_ ?_ rfl rfl rfl rfl; assumption)
    | (refine Kept.mk_ ?_ rfl rfl rfl rfl; first | with_reducible assumption | (with_reducible refine fun h => ?_) | with_reducible apply State.setPoint_kept | with_reducible apply State.endStall_kept | with_reducible apply Kept.ite | with_reducible apply Kept.foldl | split)

theorem execOperatingPointReturn_kept {a s : State} (h : Kept a s) : KeptR a (execOperatingPointReturn s) := by
  unfold execOperatingPointReturn
  repeat' first
    | with_reducible assumption
    | (with_reducible refine fun h => ?_)
    | (lift_lets; intro v; try (refine Kept.cut (s := v) ?_ (fun hv => ?_); rotate_left; clear_value v; rotate_right))
    | with_reducible apply State.settlePoint_kept
    | with_reducible apply KeptR.ok
    | with_reducible apply State.setPoint_kept
    | with_reducible apply KeptR.next_
    | with_reducible apply KeptR.ite
    | with_reducible exact KeptR.fault
    | with_reducible apply Kept.ite
    | with_reducible apply Kept.foldl
    | split
    | (refine Kept.mk_ ?_ rfl rfl rfl rfl; assumption)

theorem execVoltageStep_kept {a s : State} (h : Kept a s) : KeptR a (execVoltageStep s) := by
  unfold execVoltageStep
  dsimp only
  repeat' first
    | with_reducible assumption
    | (with_reducible refine fun h => ?_)
    | with_reducible apply KeptR.ok
    | with_reducible apply KeptR.next_
    | with_reducible apply KeptR.ite
    | with_reducible exact KeptR.fault
    | with_reducible apply Kept.ite
    | with_reducible apply Kept.foldl
    | with_reducible apply Kept.ite2
    | with_reducible apply Kept.ite3
    | with_reducible apply Kept.foldl2
    | with_reducible apply Kept.foldl3
    | split
    | (refine Kept.mk_ ?_ rfl rfl rfl rfl; assumption)

theorem execThermalStall_kept {a s : State} (h : Kept a s) : KeptR a (execThermalStall s) := by
  unfold execThermalStall
  repeat' first
    | with_reducible assumption
    | (with_reducible refine fun h => ?_)
    | (lift_lets; intro v; first | (refine Kept.cut (s := v) ?_ (fun hv => ?_); rotate_left; clear_value v; rotate_right) | clear_value v)
    | with_reducible apply KeptR.ok
    | with_reducible apply KeptR.next_
    | with_reducible apply KeptR.ite
    | with_reducible exact KeptR.fault
    | with_reducible apply Kept.ite
    | with_reducible apply Kept.foldl
    | split
    | (refine Kept.mk_ ?_ rfl rfl rfl rfl; assumption)

theorem State.settleCap_kept {a s : State} (h : Kept a s) : Kept a (State.settleCap s) := by
  unfold State.settleCap
  repeat' first
    | with_reducible assumption
    | (with_reducible refine fun h => ?_)
    | (lift_lets; intro v; first | (refine Kept.cut (s := v) ?_ (fun hv => ?_); rotate_left; clear_value v; rotate_right) | clear_value v)
    | with_reducible apply Kept.ite
    | with_reducible apply Kept.foldl
    | split
    | (refine Kept.mk_ ?_ rfl rfl rfl rfl; assumption)

theorem execStackSensorReport_kept {a s : State} {x1} (h : Kept a s) : KeptR a (execStackSensorReport x1 s) := by
  unfold execStackSensorReport
  repeat' first
    | with_reducible assumption
    | (with_reducible refine fun h => ?_)
    | (lift_lets; intro v; try (refine Kept.cut (s := v) ?_ (fun hv => ?_); rotate_left; clear_value v; rotate_right))
    | with_reducible apply KeptR.ok
    | with_reducible apply State.settlePoint_kept
    | with_reducible apply State.settleCap_kept
    | with_reducible apply KeptR.next_
    | with_reducible apply KeptR.ite
    | with_reducible exact KeptR.fault
    | with_reducible apply Kept.ite
    | with_reducible apply Kept.foldl
    | split
    | (refine Kept.mk_ ?_ rfl rfl rfl rfl; assumption)

theorem execThrottleBandRaise_kept {a s : State} (h : Kept a s) : KeptR a (execThrottleBandRaise s) := by
  unfold execThrottleBandRaise
  repeat' first
    | with_reducible assumption
    | (with_reducible refine fun h => ?_)
    | (lift_lets; intro v; first | (refine Kept.cut (s := v) ?_ (fun hv => ?_); rotate_left; clear_value v; rotate_right) | clear_value v)
    | with_reducible apply KeptR.ok
    | with_reducible apply KeptR.next_
    | with_reducible apply KeptR.ite
    | with_reducible exact KeptR.fault
    | with_reducible apply Kept.ite
    | with_reducible apply Kept.foldl
    | split
    | (refine Kept.mk_ ?_ rfl rfl rfl rfl; assumption)

theorem execThrottleStepDown_kept {a s : State} (h : Kept a s) : KeptR a (execThrottleStepDown s) := by
  unfold execThrottleStepDown
  repeat' first
    | with_reducible assumption
    | (with_reducible refine fun h => ?_)
    | (lift_lets; intro v; first | (refine Kept.cut (s := v) ?_ (fun hv => ?_); rotate_left; clear_value v; rotate_right) | clear_value v)
    | with_reducible apply KeptR.ok
    | with_reducible apply KeptR.next_
    | with_reducible apply KeptR.ite
    | with_reducible exact KeptR.fault
    | with_reducible apply Kept.ite
    | with_reducible apply Kept.foldl
    | split
    | (refine Kept.mk_ ?_ rfl rfl rfl rfl; assumption)

theorem State.powerRecord_kept {a s : State} (h : Kept a s) : Kept a (State.powerRecord s) := by
  unfold State.powerRecord
  repeat' first
    | with_reducible assumption
    | (with_reducible refine fun h => ?_)
    | (lift_lets; intro v; try (refine Kept.cut (s := v) ?_ (fun hv => ?_); rotate_left; clear_value v; rotate_right))
    | with_reducible apply State.native_kept
    | with_reducible apply Kept.ite
    | with_reducible apply Kept.foldl
    | split
    | (refine Kept.mk_ ?_ rfl rfl rfl rfl; assumption)

theorem State.inletRecord_kept {a s : State} (h : Kept a s) : Kept a (State.inletRecord s) := by
  unfold State.inletRecord
  dsimp only
  repeat' first
    | with_reducible assumption
    | (with_reducible refine fun h => ?_)
    | with_reducible apply State.native_kept
    | with_reducible apply Kept.ite
    | with_reducible apply Kept.foldl
    | with_reducible apply Kept.ite2
    | with_reducible apply Kept.ite3
    | with_reducible apply Kept.foldl2
    | with_reducible apply Kept.foldl3
    | split
    | (refine Kept.mk_ ?_ rfl rfl rfl rfl; assumption)

theorem execJunctionSensorReport_kept {a s : State} {x1} (h : Kept a s) : KeptR a (execJunctionSensorReport x1 s) := by
  unfold execJunctionSensorReport
  repeat' first
    | with_reducible assumption
    | (with_reducible refine fun h => ?_)
    | (lift_lets; intro v; try (refine Kept.cut (s := v) ?_ (fun hv => ?_); rotate_left; clear_value v; rotate_right))
    | with_reducible apply KeptR.ok
    | with_reducible apply State.inletRecord_kept
    | with_reducible apply State.powerRecord_kept
    | with_reducible apply State.settlePoint_kept
    | with_reducible apply KeptR.next_
    | with_reducible apply KeptR.ite
    | with_reducible exact KeptR.fault
    | with_reducible apply Kept.ite
    | with_reducible apply Kept.foldl
    | split
    | (refine Kept.mk_ ?_ rfl rfl rfl rfl; assumption)

theorem execCoolantDemand_kept {a s : State} {x1} (h : Kept a s) : KeptR a (execCoolantDemand x1 s) := by
  unfold execCoolantDemand
  repeat' first
    | with_reducible assumption
    | (with_reducible refine fun h => ?_)
    | (lift_lets; intro v; try (refine Kept.cut (s := v) ?_ (fun hv => ?_); rotate_left; clear_value v; rotate_right))
    | with_reducible apply KeptR.ok
    | with_reducible apply KeptR.next_
    | with_reducible apply KeptR.ite
    | with_reducible exact KeptR.fault
    | with_reducible apply Kept.ite
    | with_reducible apply Kept.foldl
    | split
    | (refine Kept.mk_ ?_ rfl rfl rfl rfl; assumption)

/-! ## Guard -/

theorem State.heard_kept {a s : State} {x1} (h : Kept a s) : Kept a (State.heard s x1) := by
  unfold State.heard
  repeat' first
    | with_reducible assumption
    | (with_reducible refine fun h => ?_)
    | (lift_lets; intro v; try (refine Kept.cut (s := v) ?_ (fun hv => ?_); rotate_left; clear_value v; rotate_right))
    | with_reducible apply Kept.ite
    | with_reducible apply Kept.foldl
    | split
    | (refine Kept.mk_ ?_ rfl rfl rfl rfl; assumption)

theorem State.serve_kept {a s : State} {r may fixed resv f} (h : Kept a s) (hf : ∀ r s, Kept a s → Kept a (f r s)) :
    Kept a (State.serve s r may fixed resv f) := by
  unfold State.serve
  extract_lets u t
  have hu : Kept a u := by
    show Kept a (match r.src with | .mgmt n _ => s.heard n | _ => s)
    split
    · exact State.heard_kept h
    · exact h
  clear_value u
  refine State.tagFrom_kept ?_
  show Kept a (if _ then _ else _)
  repeat' first
    | exact hf _ _ hu
    | exact State.answer_kept hu
    | with_reducible apply Kept.ite

theorem State.request_kept {a s : State} {src code data mine may fixed resv f} (h : Kept a s) (hf : ∀ r s, Kept a s → Kept a (f r s)) :
    KeptR a (State.request s src code data mine may fixed resv f) := by
  unfold State.request
  split
  · exact KeptR.ok h
  · exact KeptR.ite (KeptR.ok (State.serve_kept h hf)) (KeptR.ok h)

theorem State.keepReq_kept {a s : State} {x1} (h : Kept a s) : Kept a (State.keepReq s x1) := by
  unfold State.keepReq
  repeat' first
    | with_reducible assumption
    | (with_reducible refine fun h => ?_)
    | (lift_lets; intro v; try (refine Kept.cut (s := v) ?_ (fun hv => ?_); rotate_left; clear_value v; rotate_right))
    | with_reducible apply Kept.ite
    | with_reducible apply Kept.foldl
    | split
    | (refine Kept.mk_ ?_ rfl rfl rfl rfl; assumption)

theorem execGuardTake_kept {a s : State} (h : Kept a s) : KeptR a (execGuardTake s) := by
  unfold execGuardTake
  dsimp only
  repeat' first
    | with_reducible assumption
    | (with_reducible refine fun h => ?_)
    | with_reducible apply KeptR.ok
    | with_reducible apply State.answer_kept
    | with_reducible apply KeptR.next_
    | with_reducible apply KeptR.ite
    | with_reducible exact KeptR.fault
    | with_reducible apply Kept.ite
    | with_reducible apply Kept.foldl
    | with_reducible apply Kept.ite2
    | with_reducible apply Kept.ite3
    | with_reducible apply Kept.foldl2
    | with_reducible apply Kept.foldl3
    | split
    | (refine Kept.mk_ ?_ rfl rfl rfl rfl; assumption)

theorem execLogRead_kept {a s : State} {x1 x2} (h : Kept a s) : KeptR a (execLogRead x1 x2 s) := by
  unfold execLogRead
  repeat' first
    | with_reducible assumption
    | (with_reducible refine fun h => ?_)
    | (lift_lets; intro v; first | (refine Kept.cut (s := v) ?_ (fun hv => ?_); rotate_left; clear_value v; rotate_right) | clear_value v)
    | with_reducible apply State.request_kept
    | with_reducible apply State.answer_kept
    | with_reducible apply KeptR.next_
    | with_reducible apply KeptR.ite
    | with_reducible exact KeptR.fault
    | with_reducible apply Kept.ite
    | with_reducible apply Kept.foldl
    | split
    | (refine Kept.mk_ ?_ rfl rfl rfl rfl; assumption)

theorem execCrashDumpRead_kept {a s : State} {x1 x2} (h : Kept a s) : KeptR a (execCrashDumpRead x1 x2 s) := by
  unfold execCrashDumpRead
  repeat' first
    | with_reducible assumption
    | (with_reducible refine fun h => ?_)
    | (lift_lets; intro v; first | (refine Kept.cut (s := v) ?_ (fun hv => ?_); rotate_left; clear_value v; rotate_right) | clear_value v)
    | with_reducible apply State.request_kept
    | with_reducible apply State.answer_kept
    | with_reducible apply State.freshBytes_kept
    | (with_reducible apply State.freshBytes_keptE; · assumption)
    | with_reducible apply KeptR.next_
    | with_reducible apply KeptR.ite
    | with_reducible exact KeptR.fault
    | with_reducible apply Kept.ite
    | with_reducible apply Kept.foldl
    | split
    | (refine Kept.mk_ ?_ rfl rfl rfl rfl; assumption)

theorem execSensorRead_kept {a s : State} {x1 x2} (h : Kept a s) : KeptR a (execSensorRead x1 x2 s) := by
  unfold execSensorRead
  repeat' first
    | with_reducible assumption
    | (with_reducible refine fun h => ?_)
    | (lift_lets; intro v; first | (refine Kept.cut (s := v) ?_ (fun hv => ?_); rotate_left; clear_value v; rotate_right) | clear_value v)
    | with_reducible apply State.request_kept
    | with_reducible apply State.answer_kept
    | with_reducible apply KeptR.next_
    | with_reducible apply KeptR.ite
    | with_reducible exact KeptR.fault
    | with_reducible apply Kept.ite
    | with_reducible apply Kept.foldl
    | split
    | (refine Kept.mk_ ?_ rfl rfl rfl rfl; assumption)

theorem execFwStatus_kept {a s : State} {x1 x2} (h : Kept a s) : KeptR a (execFwStatus x1 x2 s) := by
  unfold execFwStatus
  repeat' first
    | with_reducible assumption
    | (with_reducible refine fun h => ?_)
    | (lift_lets; intro v; first | (refine Kept.cut (s := v) ?_ (fun hv => ?_); rotate_left; clear_value v; rotate_right) | clear_value v)
    | with_reducible apply State.request_kept
    | with_reducible apply State.answer_kept
    | with_reducible apply KeptR.next_
    | with_reducible apply KeptR.ite
    | with_reducible exact KeptR.fault
    | with_reducible apply Kept.ite
    | with_reducible apply Kept.foldl
    | split
    | (refine Kept.mk_ ?_ rfl rfl rfl rfl; assumption)

theorem execSetLimit_kept {a s : State} {x1 x2} (h : Kept a s) : KeptR a (execSetLimit x1 x2 s) := by
  unfold execSetLimit
  repeat' first
    | with_reducible assumption
    | (with_reducible refine fun h => ?_)
    | (lift_lets; intro v; first | (refine Kept.cut (s := v) ?_ (fun hv => ?_); rotate_left; clear_value v; rotate_right) | clear_value v)
    | with_reducible apply State.request_kept
    | with_reducible apply State.answer_kept
    | with_reducible apply State.settlePoint_kept
    | with_reducible apply KeptR.next_
    | with_reducible apply KeptR.ite
    | with_reducible exact KeptR.fault
    | with_reducible apply Kept.ite
    | with_reducible apply Kept.foldl
    | split
    | (refine Kept.mk_ ?_ rfl rfl rfl rfl; assumption)

theorem execSetBound_kept {a s : State} {x1 x2} (h : Kept a s) : KeptR a (execSetBound x1 x2 s) := by
  unfold execSetBound
  repeat' first
    | with_reducible assumption
    | (with_reducible refine fun h => ?_)
    | (lift_lets; intro v; first | (refine Kept.cut (s := v) ?_ (fun hv => ?_); rotate_left; clear_value v; rotate_right) | clear_value v)
    | with_reducible apply State.request_kept
    | with_reducible apply State.answer_kept
    | with_reducible apply State.settlePoint_kept
    | with_reducible apply KeptR.next_
    | with_reducible apply KeptR.ite
    | with_reducible exact KeptR.fault
    | with_reducible apply Kept.ite
    | with_reducible apply Kept.foldl
    | split
    | (refine Kept.mk_ ?_ rfl rfl rfl rfl; assumption)

theorem execSetResetPolicy_kept {a s : State} {x1 x2} (h : Kept a s) : KeptR a (execSetResetPolicy x1 x2 s) := by
  unfold execSetResetPolicy
  repeat' first
    | with_reducible assumption
    | (with_reducible refine fun h => ?_)
    | (lift_lets; intro v; first | (refine Kept.cut (s := v) ?_ (fun hv => ?_); rotate_left; clear_value v; rotate_right) | clear_value v)
    | with_reducible apply State.request_kept
    | with_reducible apply State.answer_kept
    | with_reducible apply KeptR.next_
    | with_reducible apply KeptR.ite
    | with_reducible exact KeptR.fault
    | with_reducible apply Kept.ite
    | with_reducible apply Kept.foldl
    | split
    | (refine Kept.mk_ ?_ rfl rfl rfl rfl; assumption)

theorem execClearLog_kept {a s : State} {src data} (h : Kept a s) : KeptR a (execClearLog src data s) := by
  unfold execClearLog
  refine State.request_kept h fun r s h => Kept.ite (State.answer_kept h) (State.answer_kept ?_)
  exact h.trans ⟨rfl, id, fun _ => Nat.zero_le _, fun _ => Nat.zero_le _⟩

theorem State.setKey_kept {a s : State} {x1 x2} (h : Kept a s) : Kept a (State.setKey s x1 x2) := by
  unfold State.setKey
  repeat' first
    | with_reducible assumption
    | (with_reducible refine fun h => ?_)
    | (lift_lets; intro v; try (refine Kept.cut (s := v) ?_ (fun hv => ?_); rotate_left; clear_value v; rotate_right))
    | with_reducible apply State.answer_kept
    | with_reducible apply Kept.ite
    | with_reducible apply Kept.foldl
    | split
    | (refine Kept.mk_ ?_ rfl rfl rfl rfl; assumption)

theorem execKeyInstall_kept {a s : State} {x1 x2} (h : Kept a s) : KeptR a (execKeyInstall x1 x2 s) := by
  unfold execKeyInstall
  repeat' first
    | with_reducible assumption
    | (with_reducible refine fun h => ?_)
    | (lift_lets; intro v; first | (refine Kept.cut (s := v) ?_ (fun hv => ?_); rotate_left; clear_value v; rotate_right) | clear_value v)
    | with_reducible apply State.request_kept
    | with_reducible apply State.setKey_kept
    | with_reducible apply KeptR.next_
    | with_reducible apply KeptR.ite
    | with_reducible exact KeptR.fault
    | with_reducible apply Kept.ite
    | with_reducible apply Kept.foldl
    | split
    | (refine Kept.mk_ ?_ rfl rfl rfl rfl; assumption)

theorem execKeyErase_kept {a s : State} {x1 x2} (h : Kept a s) : KeptR a (execKeyErase x1 x2 s) := by
  unfold execKeyErase
  repeat' first
    | with_reducible assumption
    | (with_reducible refine fun h => ?_)
    | (lift_lets; intro v; first | (refine Kept.cut (s := v) ?_ (fun hv => ?_); rotate_left; clear_value v; rotate_right) | clear_value v)
    | with_reducible apply State.request_kept
    | with_reducible apply State.setKey_kept
    | with_reducible apply KeptR.next_
    | with_reducible apply KeptR.ite
    | with_reducible exact KeptR.fault
    | with_reducible apply Kept.ite
    | with_reducible apply Kept.foldl
    | split
    | (refine Kept.mk_ ?_ rfl rfl rfl rfl; assumption)

theorem execIssueTicket_kept {a s : State} {x1 x2} (h : Kept a s) : KeptR a (execIssueTicket x1 x2 s) := by
  unfold execIssueTicket
  repeat' first
    | with_reducible assumption
    | (with_reducible refine fun h => ?_)
    | (lift_lets; intro v; first | (refine Kept.cut (s := v) ?_ (fun hv => ?_); rotate_left; clear_value v; rotate_right) | clear_value v)
    | with_reducible apply State.request_kept
    | with_reducible apply State.answer_kept
    | with_reducible apply KeptR.next_
    | with_reducible apply KeptR.ite
    | with_reducible exact KeptR.fault
    | with_reducible apply Kept.ite
    | with_reducible apply Kept.foldl
    | split
    | (refine Kept.mk_ ?_ rfl rfl rfl rfl; assumption)

theorem execFwStage_kept {a s : State} {x1 x2} (h : Kept a s) : KeptR a (execFwStage x1 x2 s) := by
  unfold execFwStage
  repeat' first
    | with_reducible assumption
    | (with_reducible refine fun h => ?_)
    | (lift_lets; intro v; try (refine Kept.cut (s := v) ?_ (fun hv => ?_); rotate_left; clear_value v; rotate_right))
    | with_reducible apply State.request_kept
    | with_reducible apply State.keepReq_kept
    | with_reducible apply State.fwStage_kept
    | with_reducible apply KeptR.next_
    | with_reducible apply KeptR.ite
    | with_reducible exact KeptR.fault
    | with_reducible apply Kept.ite
    | with_reducible apply Kept.foldl
    | split
    | (refine Kept.mk_ ?_ rfl rfl rfl rfl; assumption)

theorem execTakeOwner_kept {a s : State} {x1 x2} (h : Kept a s) : KeptR a (execTakeOwner x1 x2 s) := by
  unfold execTakeOwner
  repeat' first
    | with_reducible assumption
    | (with_reducible refine fun h => ?_)
    | (lift_lets; intro v; try (refine Kept.cut (s := v) ?_ (fun hv => ?_); rotate_left; clear_value v; rotate_right))
    | with_reducible apply State.request_kept
    | with_reducible apply State.answer_kept
    | with_reducible apply KeptR.next_
    | with_reducible apply KeptR.ite
    | with_reducible exact KeptR.fault
    | with_reducible apply Kept.ite
    | with_reducible apply Kept.foldl
    | split
    | (refine Kept.mk_ ?_ rfl rfl rfl rfl; assumption)

theorem execReleaseOwner_kept {a s : State} {x1 x2} (h : Kept a s) : KeptR a (execReleaseOwner x1 x2 s) := by
  unfold execReleaseOwner
  repeat' first
    | with_reducible assumption
    | (with_reducible refine fun h => ?_)
    | (lift_lets; intro v; first | (refine Kept.cut (s := v) ?_ (fun hv => ?_); rotate_left; clear_value v; rotate_right) | clear_value v)
    | with_reducible apply State.request_kept
    | with_reducible apply State.answer_kept
    | with_reducible apply KeptR.next_
    | with_reducible apply KeptR.ite
    | with_reducible exact KeptR.fault
    | with_reducible apply Kept.ite
    | with_reducible apply Kept.foldl
    | split
    | (refine Kept.mk_ ?_ rfl rfl rfl rfl; assumption)

theorem execMgmtConfig_kept {a s : State} {x1 x2} (h : Kept a s) : KeptR a (execMgmtConfig x1 x2 s) := by
  unfold execMgmtConfig
  repeat' first
    | with_reducible assumption
    | (with_reducible refine fun h => ?_)
    | (lift_lets; intro v; try (refine Kept.cut (s := v) ?_ (fun hv => ?_); rotate_left; clear_value v; rotate_right))
    | with_reducible apply State.request_kept
    | with_reducible apply State.answer_kept
    | with_reducible apply KeptR.next_
    | with_reducible apply KeptR.ite
    | with_reducible exact KeptR.fault
    | with_reducible apply Kept.ite
    | with_reducible apply Kept.foldl
    | split
    | (refine Kept.mk_ ?_ rfl rfl rfl rfl; assumption)

theorem execMgmtPost_kept {a s : State} {x1 x2} (h : Kept a s) : KeptR a (execMgmtPost x1 x2 s) := by
  unfold execMgmtPost
  repeat' first
    | with_reducible assumption
    | (with_reducible refine fun h => ?_)
    | (lift_lets; intro v; first | (refine Kept.cut (s := v) ?_ (fun hv => ?_); rotate_left; clear_value v; rotate_right) | clear_value v)
    | with_reducible apply State.request_kept
    | with_reducible apply State.answer_kept
    | with_reducible apply State.setSlot_kept
    | with_reducible apply KeptR.next_
    | with_reducible apply KeptR.ite
    | with_reducible exact KeptR.fault
    | with_reducible apply Kept.ite
    | with_reducible apply Kept.foldl
    | split
    | (refine Kept.mk_ ?_ rfl rfl rfl rfl; assumption)
    | (refine Kept.mk_ ?_ rfl rfl rfl rfl; first | with_reducible assumption | (with_reducible refine fun h => ?_) | with_reducible apply State.request_kept | with_reducible apply State.answer_kept | with_reducible apply State.setSlot_kept | with_reducible apply KeptR.next_ | with_reducible apply KeptR.ite | with_reducible exact KeptR.fault | with_reducible apply Kept.ite | with_reducible apply Kept.foldl | split)

theorem execMgmtPostFetch_kept {a s : State} {x1 x2} (h : Kept a s) : KeptR a (execMgmtPostFetch x1 x2 s) := by
  unfold execMgmtPostFetch
  repeat' first
    | with_reducible assumption
    | (with_reducible refine fun h => ?_)
    | (lift_lets; intro v; first | (refine Kept.cut (s := v) ?_ (fun hv => ?_); rotate_left; clear_value v; rotate_right) | clear_value v)
    | with_reducible apply State.request_kept
    | with_reducible apply State.answer_kept
    | with_reducible apply State.setSlot_kept
    | with_reducible apply KeptR.next_
    | with_reducible apply KeptR.ite
    | with_reducible exact KeptR.fault
    | with_reducible apply Kept.ite
    | with_reducible apply Kept.foldl
    | split
    | (refine Kept.mk_ ?_ rfl rfl rfl rfl; assumption)
    | (refine Kept.mk_ ?_ rfl rfl rfl rfl; first | with_reducible assumption | (with_reducible refine fun h => ?_) | with_reducible apply State.request_kept | with_reducible apply State.answer_kept | with_reducible apply State.setSlot_kept | with_reducible apply KeptR.next_ | with_reducible apply KeptR.ite | with_reducible exact KeptR.fault | with_reducible apply Kept.ite | with_reducible apply Kept.foldl | split)

theorem execMgmtPostTimeout_kept {a s : State} {x1} (h : Kept a s) : KeptR a (execMgmtPostTimeout x1 s) := by
  unfold execMgmtPostTimeout
  dsimp only
  repeat' first
    | with_reducible assumption
    | (with_reducible refine fun h => ?_)
    | with_reducible apply KeptR.ok
    | with_reducible apply State.setSlot_kept
    | with_reducible apply State.answer_kept
    | with_reducible apply KeptR.next_
    | with_reducible apply KeptR.ite
    | with_reducible exact KeptR.fault
    | with_reducible apply Kept.ite
    | with_reducible apply Kept.foldl
    | with_reducible apply Kept.ite2
    | with_reducible apply Kept.ite3
    | with_reducible apply Kept.foldl2
    | with_reducible apply Kept.foldl3
    | split
    | (refine Kept.mk_ ?_ rfl rfl rfl rfl; assumption)

theorem State.linkHold_kept {a s : State} {x1 x2} (h : Kept a s) : Kept a (State.linkHold s x1 x2) := by
  unfold State.linkHold
  repeat' first
    | with_reducible assumption
    | (with_reducible refine fun h => ?_)
    | (lift_lets; intro v; first | (refine Kept.cut (s := v) ?_ (fun hv => ?_); rotate_left; clear_value v; rotate_right) | clear_value v)
    | with_reducible apply State.setPort_kept
    | with_reducible apply Kept.ite
    | with_reducible apply Kept.foldl
    | split
    | (refine Kept.mk_ ?_ rfl rfl rfl rfl; assumption)

theorem State.holdReq_kept {a s : State} {x1 x2} (h : Kept a s) : Kept a (State.holdReq s x1 x2) := by
  unfold State.holdReq
  repeat' first
    | with_reducible assumption
    | (with_reducible refine fun h => ?_)
    | (lift_lets; intro v; first | (refine Kept.cut (s := v) ?_ (fun hv => ?_); rotate_left; clear_value v; rotate_right) | clear_value v)
    | with_reducible apply State.answer_kept
    | with_reducible apply State.linkHold_kept
    | with_reducible apply Kept.ite
    | with_reducible apply Kept.foldl
    | split
    | (refine Kept.mk_ ?_ rfl rfl rfl rfl; assumption)

theorem execLinkHoldSet_kept {a s : State} {x1 x2} (h : Kept a s) : KeptR a (execLinkHoldSet x1 x2 s) := by
  unfold execLinkHoldSet
  repeat' first
    | with_reducible assumption
    | (with_reducible refine fun h => ?_)
    | (lift_lets; intro v; first | (refine Kept.cut (s := v) ?_ (fun hv => ?_); rotate_left; clear_value v; rotate_right) | clear_value v)
    | with_reducible apply State.request_kept
    | with_reducible apply State.holdReq_kept
    | with_reducible apply KeptR.next_
    | with_reducible apply KeptR.ite
    | with_reducible exact KeptR.fault
    | with_reducible apply Kept.ite
    | with_reducible apply Kept.foldl
    | split
    | (refine Kept.mk_ ?_ rfl rfl rfl rfl; assumption)

theorem execLinkHoldRelease_kept {a s : State} {x1 x2} (h : Kept a s) : KeptR a (execLinkHoldRelease x1 x2 s) := by
  unfold execLinkHoldRelease
  repeat' first
    | with_reducible assumption
    | (with_reducible refine fun h => ?_)
    | (lift_lets; intro v; first | (refine Kept.cut (s := v) ?_ (fun hv => ?_); rotate_left; clear_value v; rotate_right) | clear_value v)
    | with_reducible apply State.request_kept
    | with_reducible apply State.holdReq_kept
    | with_reducible apply KeptR.next_
    | with_reducible apply KeptR.ite
    | with_reducible exact KeptR.fault
    | with_reducible apply Kept.ite
    | with_reducible apply Kept.foldl
    | split
    | (refine Kept.mk_ ?_ rfl rfl rfl rfl; assumption)

theorem State.powerChange_kept {a s : State} {x1 x2} (h : Kept a s) : Kept a (State.powerChange s x1 x2) := by
  unfold State.powerChange
  repeat' first
    | with_reducible assumption
    | (with_reducible refine fun h => ?_)
    | (lift_lets; intro v; first | (refine Kept.cut (s := v) ?_ (fun hv => ?_); rotate_left; clear_value v; rotate_right) | clear_value v)
    | with_reducible apply State.answer_kept
    | with_reducible apply State.keepReq_kept
    | with_reducible apply State.wake_kept
    | with_reducible apply State.startEntry_kept
    | with_reducible apply Kept.ite
    | with_reducible apply Kept.foldl
    | split
    | (refine Kept.mk_ ?_ rfl rfl rfl rfl; assumption)

theorem execPowerStateChangeNap_kept {a s : State} {x1 x2} (h : Kept a s) : KeptR a (execPowerStateChangeNap x1 x2 s) := by
  unfold execPowerStateChangeNap
  repeat' first
    | with_reducible assumption
    | (with_reducible refine fun h => ?_)
    | (lift_lets; intro v; first | (refine Kept.cut (s := v) ?_ (fun hv => ?_); rotate_left; clear_value v; rotate_right) | clear_value v)
    | with_reducible apply State.request_kept
    | with_reducible apply State.powerChange_kept
    | with_reducible apply KeptR.next_
    | with_reducible apply KeptR.ite
    | with_reducible exact KeptR.fault
    | with_reducible apply Kept.ite
    | with_reducible apply Kept.foldl
    | split
    | (refine Kept.mk_ ?_ rfl rfl rfl rfl; assumption)

theorem execPowerStateChangeHold_kept {a s : State} {x1 x2} (h : Kept a s) : KeptR a (execPowerStateChangeHold x1 x2 s) := by
  unfold execPowerStateChangeHold
  repeat' first
    | with_reducible assumption
    | (with_reducible refine fun h => ?_)
    | (lift_lets; intro v; first | (refine Kept.cut (s := v) ?_ (fun hv => ?_); rotate_left; clear_value v; rotate_right) | clear_value v)
    | with_reducible apply State.request_kept
    | with_reducible apply State.powerChange_kept
    | with_reducible apply KeptR.next_
    | with_reducible apply KeptR.ite
    | with_reducible exact KeptR.fault
    | with_reducible apply Kept.ite
    | with_reducible apply Kept.foldl
    | split
    | (refine Kept.mk_ ?_ rfl rfl rfl rfl; assumption)

theorem execPowerStateChangeRun_kept {a s : State} {x1 x2 x3} (h : Kept a s) : KeptR a (execPowerStateChangeRun x1 x2 x3 s) := by
  unfold execPowerStateChangeRun
  repeat' first
    | with_reducible assumption
    | (with_reducible refine fun h => ?_)
    | (lift_lets; intro v; first | (refine Kept.cut (s := v) ?_ (fun hv => ?_); rotate_left; clear_value v; rotate_right) | clear_value v)
    | with_reducible apply State.request_kept
    | with_reducible apply State.powerChange_kept
    | with_reducible apply KeptR.next_
    | with_reducible apply KeptR.ite
    | with_reducible exact KeptR.fault
    | with_reducible apply Kept.ite
    | with_reducible apply Kept.foldl
    | split
    | (refine Kept.mk_ ?_ rfl rfl rfl rfl; assumption)

theorem State.portOff_kept {a s : State} {x1} (h : Kept a s) : Kept a (State.portOff s x1) := by
  unfold State.portOff
  repeat' first
    | with_reducible assumption
    | (with_reducible refine fun h => ?_)
    | (lift_lets; intro v; first | (refine Kept.cut (s := v) ?_ (fun hv => ?_); rotate_left; clear_value v; rotate_right) | clear_value v)
    | with_reducible apply State.losePort_kept
    | with_reducible apply State.portTo_kept
    | with_reducible apply State.setPort_kept
    | with_reducible apply Kept.ite
    | with_reducible apply Kept.foldl
    | split
    | (refine Kept.mk_ ?_ rfl rfl rfl rfl; assumption)

theorem State.enterNap_kept {a s : State} (h : Kept a s) : Kept a (State.enterNap s) := by
  unfold State.enterNap
  repeat' first
    | with_reducible assumption
    | (with_reducible refine fun h => ?_)
    | (lift_lets; intro v; first | (refine Kept.cut (s := v) ?_ (fun hv => ?_); rotate_left; clear_value v; rotate_right) | clear_value v)
    | with_reducible apply State.linkHold_kept
    | with_reducible apply State.portOff_kept
    | with_reducible apply Kept.ite
    | with_reducible apply Kept.foldl
    | split
    | (refine Kept.mk_ ?_ rfl rfl rfl rfl; assumption)

theorem State.enterHold_kept {a s : State} (h : Kept a s) : Kept a (State.enterHold s) := by
  unfold State.enterHold
  dsimp only
  refine Kept.mk_ ?_ (by dsimp only) (by dsimp only) (by dsimp only) (by dsimp only)
  exact Kept.foldl (Kept.mk_ (State.resetContexts_kept h) rfl rfl rfl rfl) fun s p h => State.portOff_kept h

theorem execPowerStateEntry_kept {a s : State} (h : Kept a s) : KeptR a (execPowerStateEntry s) := by
  have h1 : Kept a (if s.guard.power.target = 2 then s.enterHold else s.enterNap) := Kept.ite (State.enterHold_kept h) (State.enterNap_kept h)
  unfold execPowerStateEntry
  dsimp only
  refine KeptR.ite (KeptR.ok h) ?_
  split
  · exact KeptR.ok (State.answer_kept (Kept.mk_ h1 rfl rfl rfl rfl))
  · exact KeptR.ok (Kept.mk_ h1 rfl rfl rfl rfl)

theorem execPowerStateEntryTimeout_kept {a s : State} (h : Kept a s) : KeptR a (execPowerStateEntryTimeout s) := by
  unfold execPowerStateEntryTimeout
  repeat' first
    | with_reducible assumption
    | (with_reducible refine fun h => ?_)
    | (lift_lets; intro v; first | (refine Kept.cut (s := v) ?_ (fun hv => ?_); rotate_left; clear_value v; rotate_right) | clear_value v)
    | with_reducible apply KeptR.ok
    | with_reducible apply State.answer_kept
    | with_reducible apply KeptR.next_
    | with_reducible apply KeptR.ite
    | with_reducible exact KeptR.fault
    | with_reducible apply Kept.ite
    | with_reducible apply Kept.foldl
    | split
    | (refine Kept.mk_ ?_ rfl rfl rfl rfl; assumption)

theorem execWakeAfterExpiry_kept {a s : State} {x1} (h : Kept a s) : KeptR a (execWakeAfterExpiry x1 s) := by
  unfold execWakeAfterExpiry
  repeat' first
    | with_reducible assumption
    | (with_reducible refine fun h => ?_)
    | (lift_lets; intro v; first | (refine Kept.cut (s := v) ?_ (fun hv => ?_); rotate_left; clear_value v; rotate_right) | clear_value v)
    | with_reducible apply KeptR.ok
    | with_reducible apply State.wake_kept
    | with_reducible apply KeptR.next_
    | with_reducible apply KeptR.ite
    | with_reducible exact KeptR.fault
    | with_reducible apply Kept.ite
    | with_reducible apply Kept.foldl
    | split
    | (refine Kept.mk_ ?_ rfl rfl rfl rfl; assumption)

theorem State.binderReq_kept {a s : State} {x1 x2} (h : Kept a s) : Kept a (State.binderReq s x1 x2) := by
  unfold State.binderReq
  repeat' first
    | with_reducible assumption
    | (with_reducible refine fun h => ?_)
    | (lift_lets; intro v; first | (refine Kept.cut (s := v) ?_ (fun hv => ?_); rotate_left; clear_value v; rotate_right) | clear_value v)
    | with_reducible apply State.answer_kept
    | with_reducible apply State.countReset_kept
    | (with_reducible apply State.countReset_keptE; · assumption)
    | with_reducible apply State.removeFromService_kept
    | with_reducible apply State.binderReset_kept
    | with_reducible apply State.wake_kept
    | with_reducible apply Kept.ite
    | with_reducible apply Kept.foldl
    | split
    | (refine Kept.mk_ ?_ rfl rfl rfl rfl; assumption)

theorem execBinderReset_kept {a s : State} {x1 x2 x3} (h : Kept a s) : KeptR a (execBinderReset x1 x2 x3 s) := by
  unfold execBinderReset
  repeat' first
    | with_reducible assumption
    | (with_reducible refine fun h => ?_)
    | (lift_lets; intro v; first | (refine Kept.cut (s := v) ?_ (fun hv => ?_); rotate_left; clear_value v; rotate_right) | clear_value v)
    | with_reducible apply State.request_kept
    | with_reducible apply State.binderReq_kept
    | with_reducible apply KeptR.next_
    | with_reducible apply KeptR.ite
    | with_reducible exact KeptR.fault
    | with_reducible apply Kept.ite
    | with_reducible apply Kept.foldl
    | split
    | (refine Kept.mk_ ?_ rfl rfl rfl rfl; assumption)

/-! ## Spdm -/

theorem State.setConn_kept {a s : State} {x1} (h : Kept a s) : Kept a (State.setConn s x1) := by
  unfold State.setConn
  repeat' first
    | with_reducible assumption
    | (with_reducible refine fun h => ?_)
    | (lift_lets; intro v; try (refine Kept.cut (s := v) ?_ (fun hv => ?_); rotate_left; clear_value v; rotate_right))
    | with_reducible apply Kept.ite
    | with_reducible apply Kept.foldl
    | split
    | (refine Kept.mk_ ?_ rfl rfl rfl rfl; assumption)

theorem State.spdmSend_kept {a s : State} {x1 x2} (h : Kept a s) : Kept a (State.spdmSend s x1 x2) := by
  unfold State.spdmSend
  repeat' first
    | with_reducible assumption
    | (with_reducible refine fun h => ?_)
    | (lift_lets; intro v; first | (refine Kept.cut (s := v) ?_ (fun hv => ?_); rotate_left; clear_value v; rotate_right) | clear_value v)
    | with_reducible apply State.emit_kept
    | with_reducible apply State.setConn_kept
    | with_reducible apply Kept.ite
    | with_reducible apply Kept.foldl
    | split
    | (refine Kept.mk_ ?_ rfl rfl rfl rfl; assumption)

theorem State.spdmMessage_kept {a s : State} {x1 x2} (h : Kept a s) : Kept a (State.spdmMessage s x1 x2) := by
  unfold State.spdmMessage
  repeat' first
    | with_reducible assumption
    | (with_reducible refine fun h => ?_)
    | (lift_lets; intro v; first | (refine Kept.cut (s := v) ?_ (fun hv => ?_); rotate_left; clear_value v; rotate_right) | clear_value v)
    | with_reducible apply State.spdmSend_kept
    | with_reducible apply State.setConn_kept
    | with_reducible apply Kept.ite
    | with_reducible apply Kept.foldl
    | split
    | (refine Kept.mk_ ?_ rfl rfl rfl rfl; assumption)

theorem State.spdmRow_kept {a s : State} {x1 x2} (h : Kept a s) : KeptR a (State.spdmRow s x1 x2) := by
  unfold State.spdmRow
  repeat' first
    | with_reducible assumption
    | (with_reducible refine fun h => ?_)
    | (lift_lets; intro v; first | (refine Kept.cut (s := v) ?_ (fun hv => ?_); rotate_left; clear_value v; rotate_right) | clear_value v)
    | with_reducible apply KeptR.ok
    | with_reducible apply State.emit_kept
    | with_reducible apply State.spdmMessage_kept
    | with_reducible apply KeptR.next_
    | with_reducible apply KeptR.ite
    | with_reducible exact KeptR.fault
    | with_reducible apply Kept.ite
    | with_reducible apply Kept.foldl
    | split
    | (refine Kept.mk_ ?_ rfl rfl rfl rfl; assumption)

theorem execGetVersion_kept {a s : State} {x1} (h : Kept a s) : KeptR a (execGetVersion x1 s) := by
  unfold execGetVersion
  repeat' first
    | with_reducible assumption
    | (with_reducible refine fun h => ?_)
    | (lift_lets; intro v; first | (refine Kept.cut (s := v) ?_ (fun hv => ?_); rotate_left; clear_value v; rotate_right) | clear_value v)
    | with_reducible apply State.spdmRow_kept
    | with_reducible apply KeptR.next_
    | with_reducible apply KeptR.ite
    | with_reducible exact KeptR.fault
    | with_reducible apply Kept.ite
    | with_reducible apply Kept.foldl
    | split
    | (refine Kept.mk_ ?_ rfl rfl rfl rfl; assumption)

theorem execGetCapabilities_kept {a s : State} {x1 x2} (h : Kept a s) : KeptR a (execGetCapabilities x1 x2 s) := by
  unfold execGetCapabilities
  repeat' first
    | with_reducible assumption
    | (with_reducible refine fun h => ?_)
    | (lift_lets; intro v; first | (refine Kept.cut (s := v) ?_ (fun hv => ?_); rotate_left; clear_value v; rotate_right) | clear_value v)
    | with_reducible apply State.spdmRow_kept
    | with_reducible apply KeptR.next_
    | with_reducible apply KeptR.ite
    | with_reducible exact KeptR.fault
    | with_reducible apply Kept.ite
    | with_reducible apply Kept.foldl
    | split
    | (refine Kept.mk_ ?_ rfl rfl rfl rfl; assumption)

theorem execNegotiateAlgorithms_kept {a s : State} {x1 x2} (h : Kept a s) : KeptR a (execNegotiateAlgorithms x1 x2 s) := by
  unfold execNegotiateAlgorithms
  repeat' first
    | with_reducible assumption
    | (with_reducible refine fun h => ?_)
    | (lift_lets; intro v; first | (refine Kept.cut (s := v) ?_ (fun hv => ?_); rotate_left; clear_value v; rotate_right) | clear_value v)
    | with_reducible apply State.spdmRow_kept
    | with_reducible apply KeptR.next_
    | with_reducible apply KeptR.ite
    | with_reducible exact KeptR.fault
    | with_reducible apply Kept.ite
    | with_reducible apply Kept.foldl
    | split
    | (refine Kept.mk_ ?_ rfl rfl rfl rfl; assumption)

theorem execGetDigests_kept {a s : State} {x1} (h : Kept a s) : KeptR a (execGetDigests x1 s) := by
  unfold execGetDigests
  repeat' first
    | with_reducible assumption
    | (with_reducible refine fun h => ?_)
    | (lift_lets; intro v; first | (refine Kept.cut (s := v) ?_ (fun hv => ?_); rotate_left; clear_value v; rotate_right) | clear_value v)
    | with_reducible apply State.spdmRow_kept
    | with_reducible apply KeptR.next_
    | with_reducible apply KeptR.ite
    | with_reducible exact KeptR.fault
    | with_reducible apply Kept.ite
    | with_reducible apply Kept.foldl
    | split
    | (refine Kept.mk_ ?_ rfl rfl rfl rfl; assumption)

theorem execGetCertificate_kept {a s : State} {x1 x2 x3 x4} (h : Kept a s) : KeptR a (execGetCertificate x1 x2 x3 x4 s) := by
  unfold execGetCertificate
  repeat' first
    | with_reducible assumption
    | (with_reducible refine fun h => ?_)
    | (lift_lets; intro v; first | (refine Kept.cut (s := v) ?_ (fun hv => ?_); rotate_left; clear_value v; rotate_right) | clear_value v)
    | with_reducible apply State.spdmRow_kept
    | with_reducible apply KeptR.next_
    | with_reducible apply KeptR.ite
    | with_reducible exact KeptR.fault
    | with_reducible apply Kept.ite
    | with_reducible apply Kept.foldl
    | split
    | (refine Kept.mk_ ?_ rfl rfl rfl rfl; assumption)

theorem execChallenge_kept {a s : State} {x1 x2 x3} (h : Kept a s) : KeptR a (execChallenge x1 x2 x3 s) := by
  unfold execChallenge
  repeat' first
    | with_reducible assumption
    | (with_reducible refine fun h => ?_)
    | (lift_lets; intro v; first | (refine Kept.cut (s := v) ?_ (fun hv => ?_); rotate_left; clear_value v; rotate_right) | clear_value v)
    | with_reducible apply State.spdmRow_kept
    | with_reducible apply KeptR.next_
    | with_reducible apply KeptR.ite
    | with_reducible exact KeptR.fault
    | with_reducible apply Kept.ite
    | with_reducible apply Kept.foldl
    | split
    | (refine Kept.mk_ ?_ rfl rfl rfl rfl; assumption)

theorem execGetMeasurements_kept {a s : State} {x1 x2 x3 x4} (h : Kept a s) : KeptR a (execGetMeasurements x1 x2 x3 x4 s) := by
  unfold execGetMeasurements
  repeat' first
    | with_reducible assumption
    | (with_reducible refine fun h => ?_)
    | (lift_lets; intro v; first | (refine Kept.cut (s := v) ?_ (fun hv => ?_); rotate_left; clear_value v; rotate_right) | clear_value v)
    | with_reducible apply State.spdmRow_kept
    | with_reducible apply KeptR.next_
    | with_reducible apply KeptR.ite
    | with_reducible exact KeptR.fault
    | with_reducible apply Kept.ite
    | with_reducible apply Kept.foldl
    | split
    | (refine Kept.mk_ ?_ rfl rfl rfl rfl; assumption)

theorem execAttestation_kept {a s : State} {x1 x2} (h : Kept a s) : KeptR a (execAttestation x1 x2 s) := by
  unfold execAttestation
  repeat' first
    | with_reducible assumption
    | (with_reducible refine fun h => ?_)
    | (lift_lets; intro v; first | (refine Kept.cut (s := v) ?_ (fun hv => ?_); rotate_left; clear_value v; rotate_right) | clear_value v)
    | with_reducible apply State.request_kept
    | with_reducible apply State.answer_kept
    | with_reducible apply State.setConn_kept
    | with_reducible apply KeptR.next_
    | with_reducible apply KeptR.ite
    | with_reducible exact KeptR.fault
    | with_reducible apply Kept.ite
    | with_reducible apply Kept.foldl
    | split
    | (refine Kept.mk_ ?_ rfl rfl rfl rfl; assumption)

theorem execChunkSend_kept {a s : State} {x1 x2 x3 x4 x5} (h : Kept a s) : KeptR a (execChunkSend x1 x2 x3 x4 x5 s) := by
  unfold execChunkSend
  repeat' first
    | with_reducible assumption
    | (with_reducible refine fun h => ?_)
    | (lift_lets; intro v; first | (refine Kept.cut (s := v) ?_ (fun hv => ?_); rotate_left; clear_value v; rotate_right) | clear_value v)
    | with_reducible apply KeptR.ok
    | with_reducible apply State.emit_kept
    | with_reducible apply State.setConn_kept
    | with_reducible apply State.spdmMessage_kept
    | with_reducible apply KeptR.next_
    | with_reducible apply KeptR.ite
    | with_reducible exact KeptR.fault
    | with_reducible apply Kept.ite
    | with_reducible apply Kept.foldl
    | split
    | (refine Kept.mk_ ?_ rfl rfl rfl rfl; assumption)

theorem execChunkGet_kept {a s : State} {x1 x2 x3} (h : Kept a s) : KeptR a (execChunkGet x1 x2 x3 s) := by
  unfold execChunkGet
  repeat' first
    | with_reducible assumption
    | (with_reducible refine fun h => ?_)
    | (lift_lets; intro v; first | (refine Kept.cut (s := v) ?_ (fun hv => ?_); rotate_left; clear_value v; rotate_right) | clear_value v)
    | with_reducible apply KeptR.ok
    | with_reducible apply State.emit_kept
    | with_reducible apply State.setConn_kept
    | with_reducible apply KeptR.next_
    | with_reducible apply KeptR.ite
    | with_reducible exact KeptR.fault
    | with_reducible apply Kept.ite
    | with_reducible apply Kept.foldl
    | split
    | (refine Kept.mk_ ?_ rfl rfl rfl rfl; assumption)

theorem execKeyExchange_kept {a s : State} {x1 x2 x3 x4} (h : Kept a s) : KeptR a (execKeyExchange x1 x2 x3 x4 s) := by
  unfold execKeyExchange
  repeat' first
    | with_reducible assumption
    | (with_reducible refine fun h => ?_)
    | (lift_lets; intro v; first | (refine Kept.cut (s := v) ?_ (fun hv => ?_); rotate_left; clear_value v; rotate_right) | clear_value v)
    | with_reducible apply KeptR.ok
    | with_reducible apply State.emit_kept
    | with_reducible apply State.spdmSend_kept
    | with_reducible apply KeptR.next_
    | with_reducible apply KeptR.ite
    | with_reducible exact KeptR.fault
    | with_reducible apply Kept.ite
    | with_reducible apply Kept.foldl
    | split
    | (refine Kept.mk_ ?_ rfl rfl rfl rfl; assumption)

theorem State.endSession_kept {a s : State} {x1} (h : Kept a s) : Kept a (State.endSession s x1) := by
  unfold State.endSession
  repeat' first
    | with_reducible assumption
    | (with_reducible refine fun h => ?_)
    | (lift_lets; intro v; try (refine Kept.cut (s := v) ?_ (fun hv => ?_); rotate_left; clear_value v; rotate_right))
    | with_reducible apply State.unsend_kept
    | with_reducible apply Kept.ite
    | with_reducible apply Kept.foldl
    | split
    | (refine Kept.mk_ ?_ rfl rfl rfl rfl; assumption)

theorem execFinish_kept {a s : State} {x1 x2 x3 x4} (h : Kept a s) : KeptR a (execFinish x1 x2 x3 x4 s) := by
  unfold execFinish
  repeat' first
    | with_reducible assumption
    | (with_reducible refine fun h => ?_)
    | (lift_lets; intro v; first | (refine Kept.cut (s := v) ?_ (fun hv => ?_); rotate_left; clear_value v; rotate_right) | clear_value v)
    | with_reducible apply KeptR.ok
    | with_reducible apply State.emit_kept
    | with_reducible apply State.endSession_kept
    | with_reducible apply KeptR.next_
    | with_reducible apply KeptR.ite
    | with_reducible exact KeptR.fault
    | with_reducible apply Kept.ite
    | with_reducible apply Kept.foldl
    | split
    | (refine Kept.mk_ ?_ rfl rfl rfl rfl; assumption)

theorem State.inSession_kept {a s : State} {n f} (h : Kept a s) (hf : ∀ s, Kept a s → Kept a (f s)) : KeptR a (State.inSession s n f) := by
  unfold State.inSession
  exact KeptR.ite (KeptR.ok h) (KeptR.ite (KeptR.ok (State.emit_kept (hf _ (State.heard_kept h)))) (KeptR.ok (State.emit_kept h)))

theorem execHeartbeat_kept {a s : State} {x1} (h : Kept a s) : KeptR a (execHeartbeat x1 s) := by
  unfold execHeartbeat
  repeat' first
    | with_reducible assumption
    | (with_reducible refine fun h => ?_)
    | (lift_lets; intro v; first | (refine Kept.cut (s := v) ?_ (fun hv => ?_); rotate_left; clear_value v; rotate_right) | clear_value v)
    | with_reducible apply State.inSession_kept
    | with_reducible apply KeptR.next_
    | with_reducible apply KeptR.ite
    | with_reducible exact KeptR.fault
    | with_reducible apply Kept.ite
    | with_reducible apply Kept.foldl
    | split
    | (refine Kept.mk_ ?_ rfl rfl rfl rfl; assumption)

theorem execKeyUpdate_kept {a s : State} {x1} (h : Kept a s) : KeptR a (execKeyUpdate x1 s) := by
  unfold execKeyUpdate
  repeat' first
    | with_reducible assumption
    | (with_reducible refine fun h => ?_)
    | (lift_lets; intro v; try (refine Kept.cut (s := v) ?_ (fun hv => ?_); rotate_left; clear_value v; rotate_right))
    | with_reducible apply State.inSession_kept
    | with_reducible apply KeptR.next_
    | with_reducible apply KeptR.ite
    | with_reducible exact KeptR.fault
    | with_reducible apply Kept.ite
    | with_reducible apply Kept.foldl
    | split
    | (refine Kept.mk_ ?_ rfl rfl rfl rfl; assumption)

theorem execEndSession_kept {a s : State} {x1} (h : Kept a s) : KeptR a (execEndSession x1 s) := by
  unfold execEndSession
  repeat' first
    | with_reducible assumption
    | (with_reducible refine fun h => ?_)
    | (lift_lets; intro v; first | (refine Kept.cut (s := v) ?_ (fun hv => ?_); rotate_left; clear_value v; rotate_right) | clear_value v)
    | with_reducible apply State.inSession_kept
    | with_reducible apply State.endSession_kept
    | with_reducible apply KeptR.next_
    | with_reducible apply KeptR.ite
    | with_reducible exact KeptR.fault
    | with_reducible apply Kept.ite
    | with_reducible apply Kept.foldl
    | split
    | (refine Kept.mk_ ?_ rfl rfl rfl rfl; assumption)

theorem execSessionTimeout_kept {a s : State} {x1} (h : Kept a s) : KeptR a (execSessionTimeout x1 s) := by
  unfold execSessionTimeout
  repeat' first
    | with_reducible assumption
    | (with_reducible refine fun h => ?_)
    | (lift_lets; intro v; first | (refine Kept.cut (s := v) ?_ (fun hv => ?_); rotate_left; clear_value v; rotate_right) | clear_value v)
    | with_reducible apply KeptR.ok
    | with_reducible apply State.endSession_kept
    | with_reducible apply KeptR.next_
    | with_reducible apply KeptR.ite
    | with_reducible exact KeptR.fault
    | with_reducible apply Kept.ite
    | with_reducible apply Kept.foldl
    | split
    | (refine Kept.mk_ ?_ rfl rfl rfl rfl; assumption)

/-! ## Bringup -/

theorem State.bundleRecord_kept {a s : State} (h : Kept a s) : Kept a (State.bundleRecord s) := by
  unfold State.bundleRecord
  repeat' first
    | with_reducible assumption
    | (with_reducible refine fun h => ?_)
    | (lift_lets; intro v; first | (refine Kept.cut (s := v) ?_ (fun hv => ?_); rotate_left; clear_value v; rotate_right) | clear_value v)
    | with_reducible apply State.fresh_kept
    | (with_reducible apply State.fresh_keptE; · assumption)
    | with_reducible apply State.native_kept
    | with_reducible apply Kept.ite
    | with_reducible apply Kept.foldl
    | split
    | (refine Kept.mk_ ?_ rfl rfl rfl rfl; assumption)

theorem State.failFinal_kept {a s : State} {x1} (h : Kept a s) : Kept a (State.failFinal s x1) := by
  unfold State.failFinal
  repeat' first
    | with_reducible assumption
    | (with_reducible refine fun h => ?_)
    | (lift_lets; intro v; try (refine Kept.cut (s := v) ?_ (fun hv => ?_); rotate_left; clear_value v; rotate_right))
    | with_reducible apply State.setDev_kept
    | with_reducible apply Kept.ite
    | with_reducible apply Kept.foldl
    | split
    | (refine Kept.mk_ ?_ rfl rfl rfl rfl; assumption)

theorem State.bootBundle_kept {a s : State} {x1} (h : Kept a s) : Kept a (State.bootBundle s x1) := by
  unfold State.bootBundle
  repeat' first
    | with_reducible assumption
    | (with_reducible refine fun h => ?_)
    | (lift_lets; intro v; first | (refine Kept.cut (s := v) ?_ (fun hv => ?_); rotate_left; clear_value v; rotate_right) | clear_value v)
    | with_reducible apply State.bundleRecord_kept
    | with_reducible apply State.failFinal_kept
    | with_reducible apply Kept.ite
    | with_reducible apply Kept.foldl
    | split
    | (refine Kept.mk_ ?_ rfl rfl rfl rfl; assumption)

theorem State.measure_kept {a s : State} {x1 x2} (h : Kept a s) : Kept a (State.measure s x1 x2) := by
  unfold State.measure
  repeat' first
    | with_reducible assumption
    | (with_reducible refine fun h => ?_)
    | (lift_lets; intro v; first | (refine Kept.cut (s := v) ?_ (fun hv => ?_); rotate_left; clear_value v; rotate_right) | clear_value v)
    | with_reducible apply State.failFinal_kept
    | with_reducible apply State.bundleRecord_kept
    | with_reducible apply Kept.ite
    | with_reducible apply Kept.foldl
    | split
    | (refine Kept.mk_ ?_ rfl rfl rfl rfl; assumption)
    | (refine Kept.mk_ ?_ rfl rfl rfl rfl; first | with_reducible assumption | (with_reducible refine fun h => ?_) | with_reducible apply State.failFinal_kept | with_reducible apply State.bundleRecord_kept | with_reducible apply Kept.ite | with_reducible apply Kept.foldl | split)

theorem State.pressAll_kept {a s : State} {x1} (h : Kept a s) : Kept a (State.pressAll s x1) := by
  unfold State.pressAll
  repeat' first
    | with_reducible assumption
    | (with_reducible refine fun h => ?_)
    | (lift_lets; intro v; first | (refine Kept.cut (s := v) ?_ (fun hv => ?_); rotate_left; clear_value v; rotate_right) | clear_value v)
    | with_reducible apply State.pressEffect_kept
    | with_reducible apply State.enterMode_kept
    | with_reducible apply Kept.ite
    | with_reducible apply Kept.foldl
    | split
    | (refine Kept.mk_ ?_ rfl rfl rfl rfl; assumption)

theorem State.restoreImage_kept {a s : State} (h : Kept a s) : Kept a (State.restoreImage s) := by
  unfold State.restoreImage
  dsimp only
  repeat' first
    | with_reducible assumption
    | (with_reducible refine fun h => ?_)
    | with_reducible apply State.pressAll_kept
    | with_reducible apply State.native_kept
    | with_reducible apply Kept.ite
    | with_reducible apply Kept.foldl
    | with_reducible apply Kept.ite2
    | with_reducible apply Kept.ite3
    | with_reducible apply Kept.foldl2
    | with_reducible apply Kept.foldl3
    | split
    | (refine Kept.mk_ ?_ rfl rfl rfl rfl; assumption)
    | (refine Kept.mk_ ?_ rfl rfl rfl rfl; first | with_reducible assumption | (with_reducible refine fun h => ?_) | with_reducible apply State.pressAll_kept | with_reducible apply State.native_kept | with_reducible apply Kept.ite | with_reducible apply Kept.foldl | with_reducible apply Kept.ite2 | with_reducible apply Kept.ite3 | with_reducible apply Kept.foldl2 | with_reducible apply Kept.foldl3 | split)

theorem State.startBinder_kept {a s : State} {x1} (h : Kept a s) : Kept a (State.startBinder s x1) := by
  unfold State.startBinder
  dsimp only
  repeat' first
    | with_reducible assumption
    | (with_reducible refine fun h => ?_)
    | with_reducible apply State.restoreImage_kept
    | with_reducible apply Kept.ite
    | with_reducible apply Kept.foldl
    | with_reducible apply Kept.ite2
    | with_reducible apply Kept.ite3
    | with_reducible apply Kept.foldl2
    | with_reducible apply Kept.foldl3
    | split
    | (refine Kept.mk_ ?_ rfl rfl rfl rfl; assumption)

theorem State.trainChannels_kept {a s : State} {x1} (h : Kept a s) : Kept a (State.trainChannels s x1) := by
  unfold State.trainChannels
  repeat' first
    | with_reducible assumption
    | (with_reducible refine fun h => ?_)
    | (lift_lets; intro v; first | (refine Kept.cut (s := v) ?_ (fun hv => ?_); rotate_left; clear_value v; rotate_right) | clear_value v)
    | with_reducible apply State.fenceChan_kept
    | with_reducible apply Kept.ite
    | with_reducible apply Kept.foldl
    | split
    | (refine Kept.mk_ ?_ rfl rfl rfl rfl; assumption)
    | (refine Kept.mk_ ?_ rfl rfl rfl rfl; first | with_reducible assumption | (with_reducible refine fun h => ?_) | with_reducible apply State.fenceChan_kept | with_reducible apply Kept.ite | with_reducible apply Kept.foldl | split)

theorem State.trainPorts_kept {a s : State} (h : Kept a s) : Kept a (State.trainPorts s) := by
  unfold State.trainPorts
  repeat' first
    | with_reducible assumption
    | (with_reducible refine fun h => ?_)
    | (lift_lets; intro v; first | (refine Kept.cut (s := v) ?_ (fun hv => ?_); rotate_left; clear_value v; rotate_right) | clear_value v)
    | with_reducible apply State.startTraining_kept
    | with_reducible apply Kept.ite
    | with_reducible apply Kept.foldl
    | split
    | (refine Kept.mk_ ?_ rfl rfl rfl rfl; assumption)

theorem State.zeroTiers_kept {a s : State} (h : Kept a s) : Kept a (State.zeroTiers s) := by
  unfold State.zeroTiers
  repeat' first
    | with_reducible assumption
    | (with_reducible refine fun h => ?_)
    | (lift_lets; intro v; first | (refine Kept.cut (s := v) ?_ (fun hv => ?_); rotate_left; clear_value v; rotate_right) | clear_value v)
    | with_reducible apply State.zeroRange_kept
    | with_reducible apply Kept.ite
    | with_reducible apply Kept.foldl
    | split
    | (refine Kept.mk_ ?_ rfl rfl rfl rfl; assumption)

theorem State.runKernels_kept {a s : State} {x1} (h : Kept a s) : Kept a (State.runKernels s x1) := by
  unfold State.runKernels
  repeat' first
    | with_reducible assumption
    | (with_reducible refine fun h => ?_)
    | (lift_lets; intro v; first | (refine Kept.cut (s := v) ?_ (fun hv => ?_); rotate_left; clear_value v; rotate_right) | clear_value v)
    | with_reducible apply State.settleFolios_kept
    | with_reducible apply State.setDev_kept
    | with_reducible apply Kept.ite
    | with_reducible apply Kept.foldl
    | split
    | (refine Kept.mk_ ?_ rfl rfl rfl rfl; assumption)

theorem State.evaluate_kept {a s : State} (h : Kept a s) : Kept a (State.evaluate s) := by
  unfold State.evaluate
  repeat' first
    | with_reducible assumption
    | (with_reducible refine fun h => ?_)
    | (lift_lets; intro v; try (refine Kept.cut (s := v) ?_ (fun hv => ?_); rotate_left; clear_value v; rotate_right))
    | with_reducible apply State.measure9_kept
    | with_reducible apply State.endBringUp_kept
    | with_reducible apply State.setDev_kept
    | with_reducible apply State.becomeReady_kept
    | with_reducible apply Kept.ite
    | with_reducible apply Kept.foldl
    | split
    | (refine Kept.mk_ ?_ rfl rfl rfl rfl; assumption)

theorem State.buildUp_kept {a s : State} {x1} (h : Kept a s) : Kept a (State.buildUp s x1) := by
  unfold State.buildUp
  repeat' first
    | with_reducible assumption
    | (with_reducible refine fun h => ?_)
    | (lift_lets; intro v; first | (refine Kept.cut (s := v) ?_ (fun hv => ?_); rotate_left; clear_value v; rotate_right) | clear_value v)
    | with_reducible apply State.startBinder_kept
    | with_reducible apply State.failFinal_kept
    | with_reducible apply State.native_kept
    | with_reducible apply State.settlePoint_kept
    | with_reducible apply State.evaluate_kept
    | with_reducible apply State.runKernels_kept
    | with_reducible apply State.zeroTiers_kept
    | with_reducible apply State.trainPorts_kept
    | with_reducible apply State.trainChannels_kept
    | with_reducible apply Kept.ite
    | with_reducible apply Kept.foldl
    | split
    | (refine Kept.mk_ ?_ rfl rfl rfl rfl; assumption)

theorem State.bringUp_kept {a s : State} {x1 x2} (h : Kept a s) : Kept a (State.bringUp s x1 x2) := by
  unfold State.bringUp
  repeat' first
    | with_reducible assumption
    | (with_reducible refine fun h => ?_)
    | (lift_lets; intro v; try (refine Kept.cut (s := v) ?_ (fun hv => ?_); rotate_left; clear_value v; rotate_right))
    | with_reducible apply State.bootBundle_kept
    | with_reducible apply State.endBringUp_kept
    | with_reducible apply State.buildUp_kept
    | with_reducible apply State.measure_kept
    | with_reducible apply Kept.ite
    | with_reducible apply Kept.foldl
    | split
    | (refine Kept.mk_ ?_ rfl rfl rfl rfl; assumption)
    | (refine Kept.mk_ ?_ rfl rfl rfl rfl; first | with_reducible assumption | (with_reducible refine fun h => ?_) | with_reducible apply State.bootBundle_kept | with_reducible apply State.endBringUp_kept | with_reducible apply State.buildUp_kept | with_reducible apply State.measure_kept | with_reducible apply Kept.ite | with_reducible apply Kept.foldl | split)

theorem execPowerUp_kept {a s : State} {x1} (h : Kept a s) : KeptR a (execPowerUp x1 s) := by
  unfold execPowerUp
  repeat' first
    | with_reducible assumption
    | (with_reducible refine fun h => ?_)
    | (lift_lets; intro v; first | (refine Kept.cut (s := v) ?_ (fun hv => ?_); rotate_left; clear_value v; rotate_right) | clear_value v)
    | with_reducible apply KeptR.ok
    | with_reducible apply State.bringUp_kept
    | with_reducible apply KeptR.next_
    | with_reducible apply KeptR.ite
    | with_reducible exact KeptR.fault
    | with_reducible apply Kept.ite
    | with_reducible apply Kept.foldl
    | split
    | (refine Kept.mk_ ?_ rfl rfl rfl rfl; assumption)

theorem execReadinessChange_kept {a s : State} (h : Kept a s) : KeptR a (execReadinessChange s) := by
  unfold execReadinessChange
  repeat' first
    | with_reducible assumption
    | (with_reducible refine fun h => ?_)
    | (lift_lets; intro v; first | (refine Kept.cut (s := v) ?_ (fun hv => ?_); rotate_left; clear_value v; rotate_right) | clear_value v)
    | with_reducible apply KeptR.ok
    | with_reducible apply State.reReady_kept
    | with_reducible apply KeptR.next_
    | with_reducible apply KeptR.ite
    | with_reducible exact KeptR.fault
    | with_reducible apply Kept.ite
    | with_reducible apply Kept.foldl
    | split
    | (refine Kept.mk_ ?_ rfl rfl rfl rfl; assumption)

theorem execBringUpDeadline_kept {a s : State} (h : Kept a s) : KeptR a (execBringUpDeadline s) := by
  unfold execBringUpDeadline
  repeat' first
    | with_reducible assumption
    | (with_reducible refine fun h => ?_)
    | (lift_lets; intro v; first | (refine Kept.cut (s := v) ?_ (fun hv => ?_); rotate_left; clear_value v; rotate_right) | clear_value v)
    | with_reducible apply KeptR.ok
    | with_reducible apply State.endBringUp_kept
    | with_reducible apply State.setDev_kept
    | with_reducible apply KeptR.next_
    | with_reducible apply KeptR.ite
    | with_reducible exact KeptR.fault
    | with_reducible apply Kept.ite
    | with_reducible apply Kept.foldl
    | split
    | (refine Kept.mk_ ?_ rfl rfl rfl rfl; assumption)

theorem State.wiped_kept {a s : State} (h : Kept a s) : Kept a (State.wiped s) := by
  refine h.trans ⟨rfl, fun x => ?_, id, id⟩
  have w := Mem.wf_zero (s.dumpRegion.1 + s.dumpRegion.2) 0x10000000000 (Mem.wf_zero 0 s.dumpRegion.1 x)
  rw [Mem.wf_iff] at w ⊢
  exact ⟨w.1, w.2.1, rfl⟩

theorem State.fullReset_kept {a s : State} {x1 x2} (h : Kept a s) : Kept a (State.fullReset s x1 x2) := by
  unfold State.fullReset
  repeat' first
    | with_reducible assumption
    | (with_reducible refine fun h => ?_)
    | (lift_lets; intro v; first | (refine Kept.cut (s := v) ?_ (fun hv => ?_); rotate_left; clear_value v; rotate_right) | clear_value v)
    | with_reducible apply State.wiped_kept
    | with_reducible apply State.portOff_kept
    | with_reducible apply State.setDev_kept
    | with_reducible apply State.bringUp_kept
    | with_reducible apply Kept.ite
    | with_reducible apply Kept.foldl
    | split
    | (refine Kept.mk_ ?_ rfl rfl rfl rfl; assumption)

theorem State.resetReq_kept {a s : State} {r b} (h : Kept a s) : Kept a (State.resetReq s r b) := by
  have hj : ∀ s : State, Kept a s → Kept a (({ s with guard := { s.guard with bring := { s.guard.bring with reqs := s.guard.bring.reqs ++ [r] } } } : State).keepReq r.src) :=
    fun s h => State.keepReq_kept (Kept.mk_ h rfl rfl rfl rfl)
  have h1 : Kept a (if (bit (fld r.data 0 1) 1) = true then { s with guard := { s.guard with limits := { s.guard.limits with resetTimes := [] } } } else s) :=
    Kept.ite (Kept.mk_ h rfl rfl rfl rfl) h
  unfold State.resetReq
  dsimp only
  refine Kept.ite (State.answer_kept (Kept.mk_ h1 rfl rfl rfl rfl)) (Kept.ite (hj _ h1) ?_)
  exact Kept.ite (State.removeFromService_kept (State.answer_kept (Kept.ite2 h1 (State.countReset_kept h1))))
    (State.fullReset_kept (hj _ (Kept.ite2 h1 (State.countReset_kept h1))))

theorem execFullDeviceReset_kept {a s : State} {x1 x2 x3} (h : Kept a s) : KeptR a (execFullDeviceReset x1 x2 x3 s) := by
  unfold execFullDeviceReset
  repeat' first
    | with_reducible assumption
    | (with_reducible refine fun h => ?_)
    | (lift_lets; intro v; first | (refine Kept.cut (s := v) ?_ (fun hv => ?_); rotate_left; clear_value v; rotate_right) | clear_value v)
    | with_reducible apply State.request_kept
    | with_reducible apply State.answer_kept
    | with_reducible apply State.resetReq_kept
    | with_reducible apply KeptR.next_
    | with_reducible apply KeptR.ite
    | with_reducible exact KeptR.fault
    | with_reducible apply Kept.ite
    | with_reducible apply Kept.foldl
    | split
    | (refine Kept.mk_ ?_ rfl rfl rfl rfl; assumption)

theorem execReturnToService_kept {a s : State} {x1 x2 x3} (h : Kept a s) : KeptR a (execReturnToService x1 x2 x3 s) := by
  unfold execReturnToService
  repeat' first
    | with_reducible assumption
    | (with_reducible refine fun h => ?_)
    | (lift_lets; intro v; first | (refine Kept.cut (s := v) ?_ (fun hv => ?_); rotate_left; clear_value v; rotate_right) | clear_value v)
    | with_reducible apply State.request_kept
    | with_reducible apply State.answer_kept
    | with_reducible apply State.resetReq_kept
    | with_reducible apply KeptR.next_
    | with_reducible apply KeptR.ite
    | with_reducible exact KeptR.fault
    | with_reducible apply Kept.ite
    | with_reducible apply Kept.foldl
    | split
    | (refine Kept.mk_ ?_ rfl rfl rfl rfl; assumption)

theorem execPowerLoss_kept {a s : State} (h : Kept a s) : KeptR a (execPowerLoss s) :=
  KeptR.ok (h.trans ⟨rfl, fun _ => rfl, fun _ => Nat.zero_le _, fun _ => Nat.zero_le _⟩)

theorem execSupplyFault_kept {a s : State} {x1} (h : Kept a s) : KeptR a (execSupplyFault x1 s) := by
  unfold execSupplyFault
  repeat' first
    | with_reducible assumption
    | (with_reducible refine fun h => ?_)
    | (lift_lets; intro v; first | (refine Kept.cut (s := v) ?_ (fun hv => ?_); rotate_left; clear_value v; rotate_right) | clear_value v)
    | with_reducible apply KeptR.ok
    | with_reducible apply State.native_kept
    | with_reducible apply State.settlePoint_kept
    | with_reducible apply KeptR.next_
    | with_reducible apply KeptR.ite
    | with_reducible exact KeptR.fault
    | with_reducible apply Kept.ite
    | with_reducible apply Kept.foldl
    | split
    | (refine Kept.mk_ ?_ rfl rfl rfl rfl; assumption)
    | (refine Kept.mk_ ?_ rfl rfl rfl rfl; first | with_reducible assumption | (with_reducible refine fun h => ?_) | with_reducible apply KeptR.ok | with_reducible apply State.native_kept | with_reducible apply State.settlePoint_kept | with_reducible apply KeptR.next_ | with_reducible apply KeptR.ite | with_reducible exact KeptR.fault | with_reducible apply Kept.ite | with_reducible apply Kept.foldl | split)

theorem State.railsOff_kept {a s : State} {detail} (h : Kept a s) : Kept a (State.railsOff s detail) := by
  unfold State.railsOff
  extract_lets s1 s2 s3
  have h1 : Kept a s1 := State.refuseWaiting_kept (State.native_kept h)
  have h2 : Kept a s2 := Kept.ite h1 (State.setDev_kept h1)
  have h3 : Kept a s3 := Kept.foldl h2 fun s p h => State.portOff_kept h
  clear_value s1 s2 s3
  refine State.endBringUp_kept (State.undefine_kept (State.undefine_kept (State.undefine_kept (h3.trans ⟨rfl, fun x => ?_, id, id⟩))))
  rw [Mem.wf_iff] at x ⊢
  exact ⟨x.1, rfl, x.2.2⟩

theorem execOvervoltage_kept {a s : State} (h : Kept a s) : KeptR a (execOvervoltage s) := by
  unfold execOvervoltage
  exact KeptR.ite (KeptR.ok h) (KeptR.ok (Kept.mk_ (State.railsOff_kept h) (by dsimp only) (by dsimp only) (by dsimp only) (by dsimp only)))

theorem execThermalCutoff_kept {a s : State} (h : Kept a s) : KeptR a (execThermalCutoff s) := by
  unfold execThermalCutoff
  exact KeptR.ite (KeptR.ok h) (KeptR.ok (Kept.mk_ (State.railsOff_kept h) (by dsimp only) (by dsimp only) (by dsimp only) (by dsimp only)))

theorem execCutoffCooldown_kept {a s : State} {x1} (h : Kept a s) : KeptR a (execCutoffCooldown x1 s) := by
  unfold execCutoffCooldown
  repeat' first
    | with_reducible assumption
    | (with_reducible refine fun h => ?_)
    | (lift_lets; intro v; first | (refine Kept.cut (s := v) ?_ (fun hv => ?_); rotate_left; clear_value v; rotate_right) | clear_value v)
    | with_reducible apply KeptR.ok
    | with_reducible apply State.countReset_kept
    | (with_reducible apply State.countReset_keptE; · assumption)
    | with_reducible apply State.removeFromService_kept
    | with_reducible apply State.tagFrom_kept
    | with_reducible apply State.fullReset_kept
    | with_reducible apply KeptR.next_
    | with_reducible apply KeptR.ite
    | with_reducible exact KeptR.fault
    | with_reducible apply Kept.ite
    | with_reducible apply Kept.foldl
    | split
    | (refine Kept.mk_ ?_ rfl rfl rfl rfl; assumption)

theorem execReferenceLoss_kept {a s : State} {ppm} (h : Kept a s) : KeptR a (execReferenceLoss ppm s) := by
  unfold execReferenceLoss
  extract_lets g seq s1 s2 su
  refine KeptR.ite (KeptR.ok h) (KeptR.ok ?_)
  have h1 : Kept a s1 := State.native_kept h
  have h2 : Kept a s2 := Kept.foldl h1 fun s p h => Kept.ite h (State.portDown_kept h)
  clear_value s2
  exact Kept.mk_ h2 rfl rfl rfl rfl

theorem execReferenceRestored_kept {a s : State} {x1} (h : Kept a s) : KeptR a (execReferenceRestored x1 s) := by
  unfold execReferenceRestored
  repeat' first
    | with_reducible assumption
    | (with_reducible refine fun h => ?_)
    | (lift_lets; intro v; try (refine Kept.cut (s := v) ?_ (fun hv => ?_); rotate_left; clear_value v; rotate_right))
    | with_reducible apply KeptR.ok
    | with_reducible apply State.reReady_kept
    | with_reducible apply State.endStall_kept
    | with_reducible apply State.countReset_kept
    | (with_reducible apply State.countReset_keptE; · assumption)
    | with_reducible apply State.removeFromService_kept
    | with_reducible apply State.partitionReset_kept
    | with_reducible apply KeptR.next_
    | with_reducible apply KeptR.ite
    | with_reducible exact KeptR.fault
    | with_reducible apply Kept.ite
    | with_reducible apply Kept.foldl
    | split
    | (refine Kept.mk_ ?_ rfl rfl rfl rfl; assumption)
    | (refine Kept.mk_ ?_ rfl rfl rfl rfl; first | with_reducible assumption | (with_reducible refine fun h => ?_) | with_reducible apply KeptR.ok | with_reducible apply State.reReady_kept | with_reducible apply State.endStall_kept | with_reducible apply State.countReset_kept | (with_reducible apply State.countReset_keptE; · assumption) | with_reducible apply State.removeFromService_kept | with_reducible apply State.partitionReset_kept | with_reducible apply KeptR.next_ | with_reducible apply KeptR.ite | with_reducible exact KeptR.fault | with_reducible apply Kept.ite | with_reducible apply Kept.foldl | split)

theorem State.setJtag_kept {a s : State} {x1} (h : Kept a s) : Kept a (State.setJtag s x1) := by
  unfold State.setJtag
  repeat' first
    | with_reducible assumption
    | (with_reducible refine fun h => ?_)
    | (lift_lets; intro v; try (refine Kept.cut (s := v) ?_ (fun hv => ?_); rotate_left; clear_value v; rotate_right))
    | with_reducible apply Kept.ite
    | with_reducible apply Kept.foldl
    | split
    | (refine Kept.mk_ ?_ rfl rfl rfl rfl; assumption)

theorem execBypass_kept {a s : State} (h : Kept a s) : KeptR a (execBypass s) := by
  unfold execBypass
  repeat' first
    | with_reducible assumption
    | (with_reducible refine fun h => ?_)
    | (lift_lets; intro v; first | (refine Kept.cut (s := v) ?_ (fun hv => ?_); rotate_left; clear_value v; rotate_right) | clear_value v)
    | with_reducible apply KeptR.ok
    | with_reducible apply State.setJtag_kept
    | with_reducible apply KeptR.next_
    | with_reducible apply KeptR.ite
    | with_reducible exact KeptR.fault
    | with_reducible apply Kept.ite
    | with_reducible apply Kept.foldl
    | split
    | (refine Kept.mk_ ?_ rfl rfl rfl rfl; assumption)

theorem execIdcode_kept {a s : State} (h : Kept a s) : KeptR a (execIdcode s) := by
  unfold execIdcode
  repeat' first
    | with_reducible assumption
    | (with_reducible refine fun h => ?_)
    | (lift_lets; intro v; first | (refine Kept.cut (s := v) ?_ (fun hv => ?_); rotate_left; clear_value v; rotate_right) | clear_value v)
    | with_reducible apply KeptR.ok
    | with_reducible apply State.emit_kept
    | with_reducible apply State.setJtag_kept
    | with_reducible apply KeptR.next_
    | with_reducible apply KeptR.ite
    | with_reducible exact KeptR.fault
    | with_reducible apply Kept.ite
    | with_reducible apply Kept.foldl
    | split
    | (refine Kept.mk_ ?_ rfl rfl rfl rfl; assumption)

theorem execSamplePreload_kept {a s : State} (h : Kept a s) : KeptR a (execSamplePreload s) := by
  unfold execSamplePreload
  repeat' first
    | with_reducible assumption
    | (with_reducible refine fun h => ?_)
    | (lift_lets; intro v; first | (refine Kept.cut (s := v) ?_ (fun hv => ?_); rotate_left; clear_value v; rotate_right) | clear_value v)
    | with_reducible apply KeptR.ok
    | with_reducible apply State.setJtag_kept
    | with_reducible apply KeptR.next_
    | with_reducible apply KeptR.ite
    | with_reducible exact KeptR.fault
    | with_reducible apply Kept.ite
    | with_reducible apply Kept.foldl
    | split
    | (refine Kept.mk_ ?_ rfl rfl rfl rfl; assumption)

theorem execExtest_kept {a s : State} (h : Kept a s) : KeptR a (execExtest s) := by
  unfold execExtest
  repeat' first
    | with_reducible assumption
    | (with_reducible refine fun h => ?_)
    | (lift_lets; intro v; first | (refine Kept.cut (s := v) ?_ (fun hv => ?_); rotate_left; clear_value v; rotate_right) | clear_value v)
    | with_reducible apply KeptR.ok
    | with_reducible apply State.setJtag_kept
    | with_reducible apply KeptR.next_
    | with_reducible apply KeptR.ite
    | with_reducible exact KeptR.fault
    | with_reducible apply Kept.ite
    | with_reducible apply Kept.foldl
    | split
    | (refine Kept.mk_ ?_ rfl rfl rfl rfl; assumption)

theorem execClamp_kept {a s : State} (h : Kept a s) : KeptR a (execClamp s) := by
  unfold execClamp
  repeat' first
    | with_reducible assumption
    | (with_reducible refine fun h => ?_)
    | (lift_lets; intro v; first | (refine Kept.cut (s := v) ?_ (fun hv => ?_); rotate_left; clear_value v; rotate_right) | clear_value v)
    | with_reducible apply KeptR.ok
    | with_reducible apply State.setJtag_kept
    | with_reducible apply KeptR.next_
    | with_reducible apply KeptR.ite
    | with_reducible exact KeptR.fault
    | with_reducible apply Kept.ite
    | with_reducible apply Kept.foldl
    | split
    | (refine Kept.mk_ ?_ rfl rfl rfl rfl; assumption)

theorem execHighz_kept {a s : State} (h : Kept a s) : KeptR a (execHighz s) := by
  unfold execHighz
  repeat' first
    | with_reducible assumption
    | (with_reducible refine fun h => ?_)
    | (lift_lets; intro v; first | (refine Kept.cut (s := v) ?_ (fun hv => ?_); rotate_left; clear_value v; rotate_right) | clear_value v)
    | with_reducible apply KeptR.ok
    | with_reducible apply State.setJtag_kept
    | with_reducible apply KeptR.next_
    | with_reducible apply KeptR.ite
    | with_reducible exact KeptR.fault
    | with_reducible apply Kept.ite
    | with_reducible apply Kept.foldl
    | split
    | (refine Kept.mk_ ?_ rfl rfl rfl rfl; assumption)

/-! ## Tick -/

theorem State.tick_kept {a s : State} (h : Kept a s) : Kept a (State.tick s) := by
  unfold State.tick
  repeat' first
    | with_reducible assumption
    | (with_reducible refine fun h => ?_)
    | (lift_lets; intro v; first | (refine Kept.cut (s := v) ?_ (fun hv => ?_); rotate_left; clear_value v; rotate_right) | clear_value v)
    | with_reducible apply Kept.ite
    | with_reducible apply Kept.foldl
    | split
    | (refine Kept.mk_ ?_ rfl rfl rfl rfl; assumption)

end Sys2Proof.Machine
end

