-- ==== Sys2Proof/Laws/Records.lean ====
section
/-! SUPPORT. What a new record of the error log changes: the log itself and what the block sends, and nothing else. The kinds of records (native, nativeI,
nativeE) all end in addRecAt. -/

namespace Sys2Proof.Machine

variable {s : State} {step : W64} {cls source code : Nat} {ctx unit : Byte} {inj : Bool} {body : Bytes}

/-- All that a new record changes (15_faults R450). -/
theorem State.addRecAt_eq : ∃ log pinned out, s.addRecAt step cls source code ctx inj unit body =
    { s with guard := { s.guard with log := log, pinned := pinned, logNext := s.guard.logNext + 1, unsent := s.guard.unsent ++ [s.guard.logNext] }, out := out } := by
  have k : ∀ (c : Bool) (m : OutMsg) (t : State), ∃ out, (if c then t.emit m else t) = { t with out := out } := by
    intro c m t; cases c
    · exact ⟨t.out, rfl⟩
    · exact ⟨t.out ++ [m], rfl⟩
  unfold State.addRecAt
  extract_lets pin r ring g u
  obtain ⟨o, ho⟩ := k (imgMaster u.act && decide (3 ≤ cls)) (.msix 64) u
  exact ⟨_, _, o, ho⟩

/-- What the fields of a record do not touch stays. -/
theorem State.addRecAt_keeps {α : Type} (f : State → α) (h : ∀ log pinned out, f { s with guard := { s.guard with
    log := log, pinned := pinned, logNext := s.guard.logNext + 1, unsent := s.guard.unsent ++ [s.guard.logNext] }, out := out } = f s) :
    f (s.addRecAt step cls source code ctx inj unit body) = f s := by
  obtain ⟨_, _, _, e⟩ := State.addRecAt_eq (s := s) (step := step) (cls := cls) (source := source) (code := code) (ctx := ctx) (inj := inj) (unit := unit)
    (body := body)
  rw [e]
  exact h _ _ _

@[simp] theorem State.addRecAt_time : (s.addRecAt step cls source code ctx inj unit body).time = s.time := State.addRecAt_keeps State.time fun _ _ _ => rfl
@[simp] theorem State.addRecAt_cfg : (s.addRecAt step cls source code ctx inj unit body).cfg = s.cfg := State.addRecAt_keeps State.cfg fun _ _ _ => rfl
@[simp] theorem State.addRecAt_frw : (s.addRecAt step cls source code ctx inj unit body).frw = s.frw := State.addRecAt_keeps State.frw fun _ _ _ => rfl
@[simp] theorem State.addRecAt_binder : (s.addRecAt step cls source code ctx inj unit body).binder = s.binder := State.addRecAt_keeps State.binder fun _ _ _ => rfl
@[simp] theorem State.addRecAt_slots : (s.addRecAt step cls source code ctx inj unit body).slots = s.slots := State.addRecAt_keeps State.slots fun _ _ _ => rfl
@[simp] theorem State.addRecAt_ctxs : (s.addRecAt step cls source code ctx inj unit body).ctxs = s.ctxs := State.addRecAt_keeps State.ctxs fun _ _ _ => rfl
@[simp] theorem State.addRecAt_mem : (s.addRecAt step cls source code ctx inj unit body).mem = s.mem := State.addRecAt_keeps State.mem fun _ _ _ => rfl
@[simp] theorem State.addRecAt_scheds : (s.addRecAt step cls source code ctx inj unit body).scheds = s.scheds := State.addRecAt_keeps State.scheds fun _ _ _ => rfl
@[simp] theorem State.addRecAt_ledger : (s.addRecAt step cls source code ctx inj unit body).ledger = s.ledger := State.addRecAt_keeps State.ledger fun _ _ _ => rfl
@[simp] theorem State.addRecAt_shadow : (s.addRecAt step cls source code ctx inj unit body).shadow = s.shadow := State.addRecAt_keeps State.shadow fun _ _ _ => rfl
@[simp] theorem State.addRecAt_engines : (s.addRecAt step cls source code ctx inj unit body).engines = s.engines := State.addRecAt_keeps State.engines fun _ _ _ => rfl
@[simp] theorem State.addRecAt_counters : (s.addRecAt step cls source code ctx inj unit body).counters = s.counters := State.addRecAt_keeps State.counters fun _ _ _ => rfl
@[simp] theorem State.addRecAt_katRuns : (s.addRecAt step cls source code ctx inj unit body).katRuns = s.katRuns := State.addRecAt_keeps State.katRuns fun _ _ _ => rfl
@[simp] theorem State.addRecAt_katLast : (s.addRecAt step cls source code ctx inj unit body).katLast = s.katLast := State.addRecAt_keeps State.katLast fun _ _ _ => rfl
@[simp] theorem State.addRecAt_arith : (s.addRecAt step cls source code ctx inj unit body).arith = s.arith := State.addRecAt_keeps State.arith fun _ _ _ => rfl
@[simp] theorem State.addRecAt_ports : (s.addRecAt step cls source code ctx inj unit body).ports = s.ports := State.addRecAt_keeps State.ports fun _ _ _ => rfl
@[simp] theorem State.addRecAt_hops : (s.addRecAt step cls source code ctx inj unit body).hops = s.hops := State.addRecAt_keeps State.hops fun _ _ _ => rfl
@[simp] theorem State.addRecAt_sent : (s.addRecAt step cls source code ctx inj unit body).sent = s.sent := State.addRecAt_keeps State.sent fun _ _ _ => rfl
@[simp] theorem State.addRecAt_recvs : (s.addRecAt step cls source code ctx inj unit body).recvs = s.recvs := State.addRecAt_keeps State.recvs fun _ _ _ => rfl
@[simp] theorem State.addRecAt_nextCopy : (s.addRecAt step cls source code ctx inj unit body).nextCopy = s.nextCopy := State.addRecAt_keeps State.nextCopy fun _ _ _ => rfl
@[simp] theorem State.addRecAt_ckpts : (s.addRecAt step cls source code ctx inj unit body).ckpts = s.ckpts := State.addRecAt_keeps State.ckpts fun _ _ _ => rfl
@[simp] theorem State.addRecAt_held : (s.addRecAt step cls source code ctx inj unit body).held = s.held := State.addRecAt_keeps State.held fun _ _ _ => rfl
@[simp] theorem State.addRecAt_cover : (s.addRecAt step cls source code ctx inj unit body).cover = s.cover := State.addRecAt_keeps State.cover fun _ _ _ => rfl
@[simp] theorem State.addRecAt_lastCkpt : (s.addRecAt step cls source code ctx inj unit body).lastCkpt = s.lastCkpt := State.addRecAt_keeps State.lastCkpt fun _ _ _ => rfl
@[simp] theorem State.addRecAt_latents : (s.addRecAt step cls source code ctx inj unit body).latents = s.latents := State.addRecAt_keeps State.latents fun _ _ _ => rfl
@[simp] theorem State.addRecAt_traces : (s.addRecAt step cls source code ctx inj unit body).traces = s.traces := State.addRecAt_keeps State.traces fun _ _ _ => rfl
@[simp] theorem State.addRecAt_nextTrace : (s.addRecAt step cls source code ctx inj unit body).nextTrace = s.nextTrace := State.addRecAt_keeps State.nextTrace fun _ _ _ => rfl
@[simp] theorem State.addRecAt_free : (s.addRecAt step cls source code ctx inj unit body).free = s.free := State.addRecAt_keeps State.free fun _ _ _ => rfl
@[simp] theorem State.addRecAt_pending : (s.addRecAt step cls source code ctx inj unit body).pending = s.pending := State.addRecAt_keeps State.pending fun _ _ _ => rfl
@[simp] theorem State.addRecAt_powered : (s.addRecAt step cls source code ctx inj unit body).guard.powered = s.guard.powered := State.addRecAt_keeps (fun s => s.guard.powered) fun _ _ _ => rfl
@[simp] theorem State.addRecAt_devState : (s.addRecAt step cls source code ctx inj unit body).guard.devState = s.guard.devState := State.addRecAt_keeps (fun s => s.guard.devState) fun _ _ _ => rfl
@[simp] theorem State.addRecAt_limits : (s.addRecAt step cls source code ctx inj unit body).guard.limits = s.guard.limits := State.addRecAt_keeps (fun s => s.guard.limits) fun _ _ _ => rfl
@[simp] theorem State.addRecAt_supply : (s.addRecAt step cls source code ctx inj unit body).guard.supply = s.guard.supply := State.addRecAt_keeps (fun s => s.guard.supply) fun _ _ _ => rfl
@[simp] theorem State.addRecAt_keys : (s.addRecAt step cls source code ctx inj unit body).guard.keys = s.guard.keys := State.addRecAt_keeps (fun s => s.guard.keys) fun _ _ _ => rfl
@[simp] theorem State.addRecAt_mbox : (s.addRecAt step cls source code ctx inj unit body).guard.mbox = s.guard.mbox := State.addRecAt_keeps (fun s => s.guard.mbox) fun _ _ _ => rfl
@[simp] theorem State.addRecAt_mposts : (s.addRecAt step cls source code ctx inj unit body).guard.mposts = s.guard.mposts := State.addRecAt_keeps (fun s => s.guard.mposts) fun _ _ _ => rfl
@[simp] theorem State.addRecAt_power : (s.addRecAt step cls source code ctx inj unit body).guard.power = s.guard.power := State.addRecAt_keeps (fun s => s.guard.power) fun _ _ _ => rfl
@[simp] theorem State.addRecAt_bring : (s.addRecAt step cls source code ctx inj unit body).guard.bring = s.guard.bring := State.addRecAt_keeps (fun s => s.guard.bring) fun _ _ _ => rfl
@[simp] theorem State.addRecAt_cutoff : (s.addRecAt step cls source code ctx inj unit body).guard.cutoff = s.guard.cutoff := State.addRecAt_keeps (fun s => s.guard.cutoff) fun _ _ _ => rfl
@[simp] theorem State.addRecAt_overvolt : (s.addRecAt step cls source code ctx inj unit body).guard.overvolt = s.guard.overvolt := State.addRecAt_keeps (fun s => s.guard.overvolt) fun _ _ _ => rfl
@[simp] theorem State.addRecAt_resetReq : (s.addRecAt step cls source code ctx inj unit body).guard.resetReq = s.guard.resetReq := State.addRecAt_keeps (fun s => s.guard.resetReq) fun _ _ _ => rfl
@[simp] theorem State.addRecAt_refLost : (s.addRecAt step cls source code ctx inj unit body).guard.refLost = s.guard.refLost := State.addRecAt_keeps (fun s => s.guard.refLost) fun _ _ _ => rfl

end Sys2Proof.Machine
end

