-- ==== Sys2Proof/Laws/Press.lean ====
section
/-! SUPPORT. What the merge of two images gives, and that a press of a snapshot leaves what a press of the shadow image would. -/

namespace Sys2Proof.Machine

/-- The canonical form of an image. -/
abbrev ImgWf (m : AMap W64) : Prop := AMap.wf regReset m = true

theorem imgGet_imgSet {m : AMap W64} (h : ImgWf m) (a b v : Nat) : imgGet (imgSet m a v) b = if b = a then v % 2 ^ 64 else imgGet m b := by
  unfold imgGet imgSet
  rw [AMap.get_set h]
  split <;> simp

theorem imgGet_lt (m : AMap W64) (a : Nat) : imgGet m a < 2 ^ 64 := BitVec.isLt _

/-- A merge over some registers. -/
def mergeOver (mask : W64) (src : AMap W64) (l : List Reg) (dst : AMap W64) : AMap W64 :=
  l.foldl (fun m r => if bit mask.toNat (blockOf r.off) then imgSet m r.off (imgGet src r.off) else m) dst

theorem mergeOver_wf {mask : W64} {src : AMap W64} {l : List Reg} {dst : AMap W64} (h : ImgWf dst) : ImgWf (mergeOver mask src l dst) := by
  induction l generalizing dst with
  | nil => exact h
  | cons r l ih =>
    refine ih ?_
    dsimp only
    split
    · exact AMap.wf_set h _ _
    · exact h

theorem mergeOver_get {mask : W64} {src : AMap W64} {l : List Reg} {dst : AMap W64} (h : ImgWf dst) (a : Nat) :
    imgGet (mergeOver mask src l dst) a =
      if (∃ r ∈ l, r.off = a) ∧ bit mask.toNat (blockOf a) = true then imgGet src a else imgGet dst a := by
  induction l generalizing dst with
  | nil => simp [mergeOver]
  | cons r l ih =>
    have e : mergeOver mask src (r :: l) dst = mergeOver mask src l (if bit mask.toNat (blockOf r.off) then imgSet dst r.off (imgGet src r.off) else dst) := rfl
    rw [e, ih (by split <;> first | exact AMap.wf_set h _ _ | exact h)]
    by_cases ha : r.off = a
    · subst ha
      by_cases hb : bit mask.toNat (blockOf r.off) = true
      · simp only [hb, if_true, imgGet_imgSet h, Nat.mod_eq_of_lt (imgGet_lt src r.off)]
        simp
      · simp [hb]
    · have hk : imgGet (if bit mask.toNat (blockOf r.off) = true then imgSet dst r.off (imgGet src r.off) else dst) a = imgGet dst a := by
        split
        · rw [imgGet_imgSet h, if_neg (fun x => ha x.symm)]
        · rfl
      rw [hk]
      simp [ha]

/-- A register of a masked block reads as in the source; every other reads as in the destination. -/
theorem imgGet_imgMerge {mask : W64} {src dst : AMap W64} (h : ImgWf dst) (a : Nat) :
    imgGet (imgMerge mask src dst) a = if (∃ r ∈ scwRegs, r.off = a) ∧ bit mask.toNat (blockOf a) = true then imgGet src a else imgGet dst a :=
  mergeOver_get h a

theorem imgMerge_wf {mask : W64} {src dst : AMap W64} (h : ImgWf dst) : ImgWf (imgMerge mask src dst) := mergeOver_wf h

theorem mergeOver_congr {mask : W64} {src src' : AMap W64} {l : List Reg}
    (e : ∀ r ∈ l, bit mask.toNat (blockOf r.off) = true → imgGet src r.off = imgGet src' r.off) (dst : AMap W64) :
    mergeOver mask src l dst = mergeOver mask src' l dst := by
  induction l generalizing dst with
  | nil => rfl
  | cons r l ih =>
    have k : (if bit mask.toNat (blockOf r.off) then imgSet dst r.off (imgGet src r.off) else dst) =
        (if bit mask.toNat (blockOf r.off) then imgSet dst r.off (imgGet src' r.off) else dst) := by
      split
      · rename_i hb; rw [e r (List.mem_cons_self ..) hb]
      · rfl
    have := ih (fun r hr => e r (List.mem_cons_of_mem _ hr)) (if bit mask.toNat (blockOf r.off) then imgSet dst r.off (imgGet src' r.off) else dst)
    simp only [mergeOver, List.foldl_cons] at this ⊢
    rw [k]
    exact this

/-- The snapshot of the masked blocks gives what the shadow image gives (02_binder R66). -/
theorem imgMerge_snap (mask : W64) (src dst : AMap W64) : imgMerge mask (imgMerge mask src []) dst = imgMerge mask src dst := by
  refine mergeOver_congr (fun r hr hb => ?_) dst
  rw [imgGet_imgMerge rfl, if_pos ⟨⟨r, hr, rfl⟩, hb⟩]

/-- What a press would leave does not depend on how its snapshot is kept. -/
theorem State.merged_snap (s : State) (mask : W64) (m : AMap W64) : s.merged mask (imgMerge mask m []) = s.merged mask m := imgMerge_snap ..

/-- The state in which a pending image is no longer listed. -/
abbrev State.unlist (s : State) (p : Pending) : State := { s with cfg.pendings := s.cfg.pendings.filter fun q => q ≠ p }

/-- A pending image of CFG_PRESS whose check still passes takes effect and completes its command (02_binder R67). -/
theorem State.pendingEffect_core {s : State} {p : Pending} {n : SlotId} (hs : p.slot = some n) (hl : p.mask.toNat < 65536)
    (hf : firstFailing s.guard.keys (s.merged p.mask p.image) = 0) :
    s.pendingEffect p = (let u := (s.unlist p).pressEffect p.mask (s.merged p.mask p.image); (u.complete n stOk 0 (u.pressResp u.now 0 0)).reReady) := by
  unfold State.pendingEffect
  change (if firstFailing s.guard.keys (s.merged p.mask p.image) ≠ 0 then _ else State.reReady (if 65536 ≤ p.mask.toNat then _ else _)) = _
  rw [if_neg (by simp [hf]), if_neg (by omega), hs]
  rfl

/-- A pending image of LNK_PRESS whose check still passes takes effect, and its ports are handled (12_links R352). -/
theorem State.pendingEffect_link {s : State} {p : Pending} {n : SlotId} {k : BitVec 12} (hs : p.slot = some n) (hl : 65536 ≤ p.mask.toNat)
    (hf : firstFailing s.guard.keys (s.merged p.mask p.image) = 0)
    (hk : ((s.unlist p).pressEffect p.mask (s.merged p.mask p.image)).slots[n].held = .press k) :
    s.pendingEffect p = (((s.unlist p).pressEffect p.mask (s.merged p.mask p.image)).linkEffect s.act p.mask k (some n)).reReady := by
  unfold State.pendingEffect
  change (if firstFailing s.guard.keys (s.merged p.mask p.image) ≠ 0 then _ else State.reReady (if 65536 ≤ p.mask.toNat then _ else _)) = _
  rw [if_neg (by simp [hf]), if_pos hl, hs]
  change State.reReady (State.linkEffect _ _ _ (match ((s.unlist p).pressEffect p.mask (s.merged p.mask p.image)).slots[n].held with | .press k => k | _ => 0) _) = _
  rw [hk]
  rfl

/-- A press of link blocks alone changes the active image, CFG_EPOCH and measurement 9. -/
theorem State.pressEffect_link {s : State} {mask : W64} {m : AMap W64} (h : ∀ b, b < 8 → bit mask.toNat b = false) :
    s.pressEffect mask m = ({ s with cfg.active := m, cfg.epoch := s.cfg.epoch + 1, cfg.retained := some m } : State).measure9 := by
  unfold State.pressEffect
  simp only [h 1 (by decide), h 2 (by decide), h 3 (by decide), h 5 (by decide), h 7 (by decide)]
  rfl

/-! ## States of ports -/

/-- A port that is set to a state is in it. -/
theorem State.portTo_st (s : State) (p : Port) (st : PortSt) (r : Nat) : (s.portTo p st r).ports[p].st = st := by
  unfold State.portTo
  simp only [State.native, State.addRec, State.addRecAt_ports]
  simp [State.setPort]

/-- A port that carries no traffic starts to train, or is OFF where its ROLE is (12_links R354). -/
theorem State.startTraining_st {s : State} {q : Port} (h : s.ports[q].carries = false) :
    (s.startTraining q).ports[q].st = if lnkRole s.act q.val = 0 then .off else .training := by
  unfold State.startTraining
  rw [h]
  exact State.portTo_st _ _ _ _

theorem State.startTraining_dev {s : State} {q : Port} (h : s.ports[q].carries = false) : (s.startTraining q).guard.devState = s.guard.devState := by
  unfold State.startTraining State.portTo
  rw [h]
  simp only [State.native, State.addRec, State.addRecAt_devState]
  rfl

end Sys2Proof.Machine
end

