-- ==== Sys2Proof/WellFormed.lean ====
section
/-! DEFINITION. Well-formed commands: the operands that the row of a command admits. What a command does with a register, a payload or a
message whose content the spec refuses is its meaning's; here stand the ranges of the operands themselves. -/

namespace Sys2Proof

/-- An access takes 1, 2, 4 or 8 bytes (00_scope R9). -/
def widthOk (w : Nat) : Bool := w = 1 || w = 2 || w = 4 || w = 8

/-- A channel number of 15_faults R449: near, far, or a quire's staging memory. -/
def channelOk (c : Nat) : Bool := decide (c < 1024) || (decide (0x1000 ≤ c) && decide (c < 0x1200)) || (decide (0x2000 ≤ c) && decide (c < 0x2004))

/-- The class of an engine instance in ISSUE order (13_collation Table 13-3): 0 MXE, 1 VXE, 2 CPE, 3 OPE, 4 RTE. -/
def EngId.isClass (e : EngId) (c : Nat) : Bool :=
  if e.val < 36 then e.val % 3 = c else if e.val < 40 then c = 3 else c = 4

/-- An event at an address of the map, or up to 8 failed attempts on a channel (09_memory R271). -/
def MemEvent.formed : MemEvent → Bool
  | .corrected a => decide (a < 2 ^ 40)
  | .uncorrectable a => decide (a < 2 ^ 40)
  | .crc c k => channelOk c && decide (k ≤ 8)
  | .staging _ sh => decide (sh < 2 ^ 30)

/-- A part number, a context and the addresses of a part (07_movement R207). -/
def PartMsg.formed (m : PartMsg) : Bool := decide (m.part < 64) && decide (m.ctx < 64) && m.pieces.all fun r => decide (r.1 + r.2.length ≤ 2 ^ 64)

/-- A token names a counter of a folio (06_programs R190). -/
def TokenMsg.formed (m : TokenMsg) : Bool := decide (m.ctx < 64) && decide (m.folio < 12) && decide (m.index < 512)

def DeclareMsg.formed (m : DeclareMsg) : Bool := decide (m.ctx < 64) && m.parts.all fun p => decide (p.1 < 64)

/-- The devices of a barrier message's entries are members of a group (11_time R330). -/
def BarrierMsg.formed (m : BarrierMsg) : Bool := m.entries.all fun e => decide (e.index < 16)

/-- A vote's device and ordinal (05_vector_optimizer R536). -/
def VoteMsg.formed (m : VoteMsg) : Bool := m.entries.all fun v => decide (v.dev < 4096) && decide (v.ordinal < 64)

def FrameBody.formed : FrameBody → Bool
  | .part m => m.formed
  | .token m => m.formed
  | .declare m => m.formed
  | .abandon _ _ => true
  | .undefinedType => true

/-- A frame's virtual channel is one of 8 (12_links R368). -/
def Frame.formed (f : Frame) : Bool := decide (f.vc < 8) && f.body.formed

/-- A soak measures one of 8 lanes (12_links R355). -/
def Soak.formed (k : Soak) : Bool := decide (k.lane < 8)

/-- Findings of known-answer runs name physical folios (15_faults R469). -/
def stagesFormed (l : List (Nat × BitVec 7)) : Bool := l.all fun x => decide (x.1 < 12)

def PartitionKat.formed (k : PartitionKat) : Bool := stagesFormed k.stages

/-- What bring-up finds names channels, physical folios and rails (17_physical R510, 16_guard R540). -/
def BringUp.formed (b : BringUp) : Bool := b.badChannels.all channelOk && stagesFormed b.stages && b.railFault.all fun r => decide (r < 8)

/-- Accesses of the relay lie in the 2 MiB aperture, its data in the address space (12_links R367). -/
def RelayBody.formed : RelayBody → Bool
  | .read off w => widthOk w && decide (off < 0x200000)
  | .write off w _ => widthOk w && decide (off < 0x200000)
  | .copyIn a d => decide (a + d.length ≤ 2 ^ 64)
  | .copyOut a n => decide (a + n ≤ 2 ^ 64)

/-- An entry of the arm exchange names devices of a group (13_collation R382). -/
def ArmEntry.formed (a : ArmEntry) : Bool := decide (a.index < 16) && decide (a.facing < 16)

/-- The operands of a command lie in their ranges. -/
def Instr.wellFormed : Instr → Bool
  | .slotPost _ _ _ _ => true
  | .slotWithdraw _ _ _ _ => true
  | .slotRelease _ _ _ _ => true
  | .slotWrite _ _ off width _ => widthOk width && decide (off < 4096)
  | .binderTake => true
  | .longCommandTimeout _ => true
  | .registerWrite _ off width _ bar2 => widthOk width && decide (off < if bar2 then 0x2000000 else 0x200000)
  | .guardRegisterWrite _ off width _ => widthOk width && decide (off < 0x10000)
  | .absentApertureAccess _ off _ => decide (off < 0x200000)
  | .hostRelay _ dest body => decide (dest < 16) && body.formed
  | .sysInfo _ => true
  | .sysReady _ => true
  | .sysNop _ => true
  | .ctxOpen _ => true
  | .ctxClose _ => true
  | .ctxReset _ => true
  | .ctxTimeout _ => true
  | .ctxStatus _ => true
  | .cfgPress _ => true
  | .cfgCheck _ => true
  | .cfgRevert _ => true
  | .schLoad _ => true
  | .schAdmit _ => true
  | .schArm _ => true
  | .armExchangeReceive sched entries => decide (sched < 65536) && entries.all ArmEntry.formed
  | .schCancel _ => true
  | .schCancelAtBarrier _ => true
  | .schStatus _ => true
  | .schSlips _ => true
  | .memMap _ => true
  | .memUnmap _ => true
  | .memHostCopy _ _ _ _ ev => ev.all MemEvent.formed
  | .memPoisonScan _ => true
  | .lnkPress _ => true
  | .lnkStatus _ => true
  | .lnkReserveInstall _ => true
  | .lnkReserveRelease _ => true
  | .lnkQualify _ => true
  | .lnkQuarantine _ => true
  | .lnkQuarantineRelease _ => true
  | .timStatus _ => true
  | .colStatus _ => true
  | .colReplay _ => true
  | .diagnosticReplay sched => decide (sched < 65536)
  | .colKat _ => true
  | .colAdmitDeviceLoad _ answers => (answers.all fun a => decide (1 ≤ a.kind) && decide (a.kind ≤ 4))
  | .colAdmitDeviceShadow _ answers => (answers.all fun a => decide (1 ≤ a.kind) && decide (a.kind ≤ 4))
  | .colPeerLoad _ _ => true
  | .startShadowFeed _ => true
  | .endShadowFeed _ => true
  | .shadowFeedReceive _ _ _ => true
  | .shadowStep _ => true
  | .shadowFeedStall _ => true
  | .ckpBegin _ replies => (replies.all fun r => decide (r.index < 16))
  | .ckpStatus _ => true
  | .ckpLoad _ _ pieces => (pieces.all fun p => decide (p.src < 16) && decide (p.piece < 16))
  | .ckpAbort _ => true
  | .ckpPeerBegin _ _ => true
  | .ckpPeerPieceDone _ => true
  | .ckpPeerHashList _ => true
  | .ckpPeerRecord _ => true
  | .ckpPeerFetch _ _ => true
  | .ckpPeerAbort _ => true
  | .numScalesRead _ => true
  | .numScalesWrite _ => true
  | .numMonitor _ => true
  | .trcStart _ => true
  | .trcRead _ => true
  | .fltInject _ => true
  | .fltRecords _ => true
  | .injectionFire _ => true
  | .nop _ => true
  | .endPkt _ => true
  | .wait _ => true
  | .waitSatisfied _ => true
  | .signal _ => true
  | .remoteSignalAck _ _ => true
  | .tokenMessageReceive _ m => m.formed
  | .loop _ ev => ev.all MemEvent.formed
  | .endloop _ => true
  | .setreg _ => true
  | .leafLoad e _ ev => EngId.isClass e 0 && ev.all MemEvent.formed
  | .streamRows e _ ev => EngId.isClass e 0 && ev.all MemEvent.formed
  | .add e _ ev => EngId.isClass e 1 && ev.all MemEvent.formed
  | .sub e _ ev => EngId.isClass e 1 && ev.all MemEvent.formed
  | .mul e _ ev => EngId.isClass e 1 && ev.all MemEvent.formed
  | .fma e _ ev => EngId.isClass e 1 && ev.all MemEvent.formed
  | .max e _ ev => EngId.isClass e 1 && ev.all MemEvent.formed
  | .min e _ ev => EngId.isClass e 1 && ev.all MemEvent.formed
  | .abs e _ ev => EngId.isClass e 1 && ev.all MemEvent.formed
  | .neg e _ ev => EngId.isClass e 1 && ev.all MemEvent.formed
  | .cvt e _ ev => EngId.isClass e 1 && ev.all MemEvent.formed
  | .scale e _ ev => EngId.isClass e 1 && ev.all MemEvent.formed
  | .select e _ ev => EngId.isClass e 1 && ev.all MemEvent.formed
  | .cmp e _ ev => EngId.isClass e 1 && ev.all MemEvent.formed
  | .exp e _ ev => EngId.isClass e 1 && ev.all MemEvent.formed
  | .log e _ ev => EngId.isClass e 1 && ev.all MemEvent.formed
  | .sqrt e _ ev => EngId.isClass e 1 && ev.all MemEvent.formed
  | .rsqrt e _ ev => EngId.isClass e 1 && ev.all MemEvent.formed
  | .recip e _ ev => EngId.isClass e 1 && ev.all MemEvent.formed
  | .div e _ ev => EngId.isClass e 1 && ev.all MemEvent.formed
  | .tanh e _ ev => EngId.isClass e 1 && ev.all MemEvent.formed
  | .sigmoid e _ ev => EngId.isClass e 1 && ev.all MemEvent.formed
  | .erf e _ ev => EngId.isClass e 1 && ev.all MemEvent.formed
  | .gelu e _ ev => EngId.isClass e 1 && ev.all MemEvent.formed
  | .silu e _ ev => EngId.isClass e 1 && ev.all MemEvent.formed
  | .rsum e _ ev => EngId.isClass e 1 && ev.all MemEvent.formed
  | .rsumsq e _ ev => EngId.isClass e 1 && ev.all MemEvent.formed
  | .rmax e _ ev => EngId.isClass e 1 && ev.all MemEvent.formed
  | .rmin e _ ev => EngId.isClass e 1 && ev.all MemEvent.formed
  | .ramax e _ ev => EngId.isClass e 1 && ev.all MemEvent.formed
  | .rdot e _ ev => EngId.isClass e 1 && ev.all MemEvent.formed
  | .softmax e _ ev => EngId.isClass e 1 && ev.all MemEvent.formed
  | .softmaxBwd e _ ev => EngId.isClass e 1 && ev.all MemEvent.formed
  | .lnorm e _ ev => EngId.isClass e 1 && ev.all MemEvent.formed
  | .rmsnorm e _ ev => EngId.isClass e 1 && ev.all MemEvent.formed
  | .lnormBwd e _ ev => EngId.isClass e 1 && ev.all MemEvent.formed
  | .rmsnormBwd e _ ev => EngId.isClass e 1 && ev.all MemEvent.formed
  | .csum e _ ev => EngId.isClass e 1 && ev.all MemEvent.formed
  | .rfold e _ ev => EngId.isClass e 1 && ev.all MemEvent.formed
  | .copy e _ ev => EngId.isClass e 2 && ev.all MemEvent.formed
  | .copyList e _ ev => EngId.isClass e 2 && ev.all MemEvent.formed
  | .tip e _ ev => EngId.isClass e 2 && ev.all MemEvent.formed
  | .update e _ ev => EngId.isClass e 3 && ev.all MemEvent.formed
  | .route e _ ev => EngId.isClass e 4 && ev.all MemEvent.formed
  | .engineCommandComplete _ _ ev => ev.all MemEvent.formed
  | .commandTimeout _ => true
  | .stopAcknowledge _ => true
  | .unitWedged _ => true
  | .dataPartReceive _ m => m.formed
  | .remoteCopyDeclare _ m => m.formed
  | .partAcknowledge _ part _ => decide (part < 64)
  | .copyAbandon _ _ _ => true
  | .correctedErrorWarningClear channel => channelOk channel
  | .patrolScrub addr _ => decide (addr < 2 ^ 40)
  | .stagingScrub _ addr _ => (addr.all fun a => decide (a < 2 ^ 40))
  | .regionZeroing => true
  | .stackSensorReport readings => decide (readings.length = 40)
  | .throttleBandRaise => true
  | .throttleStepDown => true
  | .junctionSensorReport r => decide (r.junction.length = 16)
  | .operatingPointReturn => true
  | .voltageStep => true
  | .thermalStall => true
  | .coolantDemand powerW => decide (powerW < 65536)
  | .binderAlive => true
  | .binderWatchdog => true
  | .phaseLaunch sched _ => decide (sched < 65536)
  | .backgroundWindow sched _ => decide (sched < 65536)
  | .knownAnswerRun _ _ _ => true
  | .barrierUpSend sched => decide (sched < 65536)
  | .barrierUpReceive _ m => m.formed
  | .barrierDownReceive _ m => m.formed
  | .voteReceive _ m => m.formed
  | .barrierLimitExpiry sched => decide (sched < 65536)
  | .replayStart sched => decide (sched < 65536)
  | .logItemInject sched => decide (sched < 65536)
  | .syncExchangeStart _ => true
  | .syncReceive _ _ => true
  | .replyReceive _ _ => true
  | .holdoverEntry => true
  | .unlockedEntry => true
  | .portBarExpiry _ => true
  | .rootConflictReport => true
  | .ppsEdge _ => true
  | .ppsLoss => true
  | .trainingRetry _ => true
  | .signalDetect _ => true
  | .peerAdmissionMessage _ _ => true
  | .qualificationSoakEnd k => k.formed
  | .dataFrameReceive _ f => f.formed
  | .frameReplay _ _ => true
  | .fastRetrain _ => true
  | .retrainComplete _ _ => true
  | .lossOfSignal _ => true
  | .routeClosed _ _ => true
  | .linkWarning k => k.formed
  | .linkWarningClear _ => true
  | .vcCreditStall _ vc => decide (vc < 8)
  | .keyRenewal _ => true
  | .peerMailboxPost _ _ off width _ => widthOk width && decide (off < 4096)
  | .hostPerstRise _ => true
  | .hostPerstFall _ => true
  | .hostPortFailover => true
  | .fastCopy _ => true
  | .heldWrite => true
  | .drain piece _ => decide (piece < 16)
  | .ckpLimitExpiry _ => true
  | .recordSend => true
  | .recordRepeat => true
  | .collectorAck _ => true
  | .summaryRecord => true
  | .sessionTimeout session => decide (session < 2 ^ 32)
  | .guardTake => true
  | .logRead _ data => decide (data.length ≤ 4032)
  | .crashDumpRead _ data => decide (data.length ≤ 4032)
  | .sensorRead _ data => decide (data.length ≤ 4032)
  | .powerStateChangeNap _ data => decide (data.length ≤ 4032)
  | .powerStateChangeHold _ data => decide (data.length ≤ 4032)
  | .powerStateChangeRun _ data k => decide (data.length ≤ 4032) && k.formed
  | .powerStateEntry => true
  | .powerStateEntryTimeout => true
  | .wakeAfterExpiry k => k.formed
  | .binderReset _ data k => decide (data.length ≤ 4032) && k.formed
  | .fullDeviceReset _ data b => decide (data.length ≤ 4032) && b.formed
  | .returnToService _ data b => decide (data.length ≤ 4032) && b.formed
  | .linkHoldSet _ data => decide (data.length ≤ 4032)
  | .linkHoldRelease _ data => decide (data.length ≤ 4032)
  | .attestation _ data => decide (data.length ≤ 4032)
  | .getVersion _ => true
  | .getCapabilities _ _ => true
  | .negotiateAlgorithms _ _ => true
  | .getDigests _ => true
  | .getCertificate _ slot _ _ => decide (slot < 8)
  | .challenge _ slot _ => decide (slot < 8)
  | .getMeasurements _ index _ _ => decide (index < 256)
  | .keyExchange _ session _ _ => decide (session < 2 ^ 32)
  | .finish session _ _ _ => decide (session < 2 ^ 32)
  | .heartbeat session => decide (session < 2 ^ 32)
  | .keyUpdate session => decide (session < 2 ^ 32)
  | .endSession session => decide (session < 2 ^ 32)
  | .chunkSend _ _ _ _ _ => true
  | .chunkGet _ _ _ => true
  | .setLimit _ data => decide (data.length ≤ 4032)
  | .setBound _ data => decide (data.length ≤ 4032)
  | .setResetPolicy _ data => decide (data.length ≤ 4032)
  | .clearLog _ data => decide (data.length ≤ 4032)
  | .keyInstall _ data => decide (data.length ≤ 4032)
  | .keyErase _ data => decide (data.length ≤ 4032)
  | .issueTicket _ data => decide (data.length ≤ 4032)
  | .fwStage _ data => decide (data.length ≤ 4032)
  | .fwStatus _ data => decide (data.length ≤ 4032)
  | .takeOwner _ data => decide (data.length ≤ 4032)
  | .releaseOwner _ data => decide (data.length ≤ 4032)
  | .mgmtConfig _ data => decide (data.length ≤ 4032)
  | .mgmtPost _ data => decide (data.length ≤ 4032)
  | .mgmtPostFetch _ data => decide (data.length ≤ 4032)
  | .computePartitionReset k => k.formed
  | .powerUp b => b.formed
  | .readinessChange => true
  | .bringUpDeadline => true
  | .powerLoss => true
  | .supplyFault rail => decide (rail < 8)
  | .overvoltage => true
  | .thermalCutoff => true
  | .cutoffCooldown b => b.formed
  | .referenceLoss _ => true
  | .referenceRestored k => k.formed
  | .bypass => true
  | .idcode => true
  | .samplePreload => true
  | .extest => true
  | .clamp => true
  | .highz => true
  | .frameLock _ _ => true
  | .noSignal _ lane => decide (lane < 8)
  | .hostLinkUp _ => true
  | .liveSoakEnd _ soaks => soaks.all Soak.formed
  | .mgmtPostTimeout _ => true

end Sys2Proof
end

