-- ==== Sys2Proof/Tests/Slice0.lean ====
section
/-! SUPPORT. Tests by hand: a witness for the hypotheses of each statement, the spec's worked examples, and an ill-formed term for each check of
well-formed commands. Each met_<Name> gives, for every clause of the statement <Name> that has hypotheses, a state and operands that meet them together. -/

namespace Sys2Proof.Tests

open Sys2Proof Sys2Proof.Machine

set_option Elab.async false

/-! ## States and operands of the witnesses -/

/-- A slot whose command the Binder has taken, after the commands taken before: its number, code, context and payload. -/
def withCmd (s : State) (n : SlotId) (cmd ctx : Nat) (b : Bytes) : State :=
  { s with
    binder.taken := s.binder.taken ++ [n]
    slots := s.slots.set n { Slot.reset with
      hdr := { Hdr.reset with state := 2, cmd := BitVec.ofNat 16 cmd, ctx := BitVec.ofNat 6 ctx, len := BitVec.ofNat 16 b.length }
      payload := wrMap [] 0 b } }

/-- The device at READY with its Binder running. -/
def ready : State :=
  { State.reset with binder.run := .running, guard.devState := .ready, guard.bring.running := false }

/-- READY, with the command of slot 0 taken. -/
def at0 (cmd ctx : Nat) (b : Bytes) : State := withCmd ready 0 cmd ctx b

/-- Slot 0 with a STATE. -/
def slotIn (st : BitVec 2) : State := { ready with slots := ready.slots.set 0 { Slot.reset with hdr := { Hdr.reset with state := st } } }

/-- The image of the SCW with one register set. -/
def withScw (s : State) (off v : Nat) : State := { s with cfg.active := imgSet s.cfg.active off v }

/-- Slot 63 is a PEER slot of port 11, whose peer is admitted. -/
def peerReady : State :=
  { withScw (withScw ready 0x808 0x8000000000000000) 0x828 0xB000000000000000 with
    ports := ready.ports.set 11 { PortS.reset with st := .up, peerId := some 1 } }

/-- The Guard mailbox with a STATE. -/
def mboxIn (st : BitVec 2) : State := { ready with guard.mbox := { Slot.reset with hdr := { Hdr.reset with state := st } } }

/-- SYS_NOP posted in slot 0 with a SEQ. -/
def posted (seq : W32) : State :=
  { ready with slots := ready.slots.set 0 { Slot.reset with hdr := { Hdr.reset with state := 1, cmd := 0x0103, seq := seq } } }

/-- An image of a schedule whose sections list nothing. -/
def image0 : Image :=
  { machineScope := false, setId := 0, ctx := 0, nearShare := 64, farShare := 64, stgShare := [], syncBound := 0, barrierLimit := 0, nSteps := 2,
    period := 0, sendBy := 0, barrierAt := 0, phases := [], streams := [], progs := [], layouts := [], counters := [], peers := [], resvs := [],
    promises := [], updates := [], num := none, bgs := [], bar := { parent := 0xFF, height := 0, children := 0, nDev := 1, nObs := 0 } }

/-- A learning phase without streams, which makes a schedule collated. -/
def phase0 : PhaseE := { launch := 0, deadline := 0, gen := false, every := 0, stepPhase := 0, firstStream := 0, nStreams := 0, nPin := 0, firstPin := 0 }

/-- Schedule 1 of context 1, with an image, in a state. -/
def sched1 (i : Image) (st : SchState) : Sched := { Sched.loaded 1 1 0 0 i [] [] with state := st }

/-- The collated schedule 1. -/
def col (st : SchState) : Sched := sched1 { image0 with phases := [phase0] } st

/-- A state with one schedule. -/
def holding (s : State) (x : Sched) : State := { s with scheds := [x] }

/-- A schedule with one slip record. -/
def slipped : Sched :=
  { sched1 image0 .done with
    slips := [{ tag := 0, kind := 3, cause := 9, phase := 0xFF, unit := 0xFF, step := 0, nominal := 0, actual := 0 }], slipTotal := 1 }

/-- A schedule with a scale table of one tensor at address 0. -/
def scaled : Sched := sched1 { image0 with num := some { tableAddr := 0, nTensors := 1, monAddr := 0, map := [], mons := [] } } .admitted

/-- An entry of a scale table with a valid format and window. -/
def scaleEnt : Bytes := le 2 0 ++ le 1 2 ++ le 1 16 ++ List.replicate 28 0

def zeros (n : Nat) : Bytes := List.replicate n 0

/-- A hop of reservation 7 on ports 10 and 11. -/
def hop7 (role : Nat) : Hop :=
  { resId := 7, setId := 0, role := role, inPort := 10, outPort := 11, vc := 1, hops := 1, rate := 0, anyRl1 := false, anyCrypt := false,
    peerId := 1, closed := false }

/-- The record of a hop of reservation 7 in a payload. -/
def hopBytes : Bytes := le 8 7 ++ le 8 0 ++ le 8 1 ++ le 4 1 ++ [0, 0xFF, 11, 0x11]

/-- Checkpoint 1 of this device alone, in a state. -/
def ckpt1 (st : CkSt) : Ckpt :=
  { id := 1, st := st, reason := 0, slot := 0, narrow := 0, cut := 0, cutAt := 0, init := 0, coordinator := true, ctx := 0, setId := 0, carry := [],
    members := [], wins := [], head := [], plan := [], imageLen := 8192, frontier := 0, poisonSrc := none, acked := [], resends := [], hashes := [],
    heldPages := 0, heldNs := 0, prot := [], saved := [] }

/-- A trace record. -/
def traceRec (k : Nat) : TraceRec :=
  { tag := 0, kind := k, unit := 0, engine := 0, pc := 0, status := 0, data := 0, stamp := 0 }

/-- A trace buffer of context 1 with two records. -/
def trace1 : Trace :=
  { id := 1, ctx := 1, mask := 0, tagValue := 0, tagMask := 0, size := 0x100000, overwrite := false, region := none, capturing := true, first := 0,
    recs := [traceRec 1, traceRec 2], dropped := 0 }

/-- LNK_RESERVE installs one hop. -/
def install : Bytes := le 2 0 ++ le 2 1 ++ le 4 0 ++ hopBytes

/-- Port 11 is a link port, UP, whose VC 1 is enabled and whose peer is admitted. -/
def linked : State := { withScw ready 0x1B000 0x2000010 with ports := peerReady.ports }

/-- A schedule's entry of reservation 7. -/
def resv7 : ResE := { resId := 7, wrap := false }

/-- MEM_HOST_COPY of 1 KiB at address 0 is taken in slot 0, in a direction, on a device with a peer at port 11. -/
def relaying (dir : Nat) : State := withCmd peerReady 0 0x0503 0 (le 8 dir ++ le 8 0 ++ le 8 0 ++ le 8 1024)

/-- LNK_PRESS of port 11, whose role changes, while reservation 7 on it is named by a running schedule. -/
def pressNamed : State :=
  { holding (at0 0x0601 0 (le 8 0x800)) (sched1 { image0 with resvs := [resv7] } .running) with
    cfg.shadow := imgSet [] 0x1B000 0x30, hops := [hop7 0] }

/-- A schedule image of one learning phase, whose one stream runs a program of one END packet at 0x1000 on the MXE of folio 0. -/
def imageBytes : Bytes :=
  le 2 0x0512 ++ le 2 1 ++ le 4 0 ++ le 8 0 ++ [1, 64, 64, 0] ++ le 4 0 ++ le 2 1 ++ le 2 1000 ++ le 4 1000 ++ le 8 2 ++ le 8 1000000 ++ le 8 800000 ++
  le 8 900000 ++ le 8 256 ++ le 8 328 ++ le 8 352 ++ zeros 56 ++ le 8 392 ++ le 8 432 ++ zeros 96 ++
  le 8 1 ++ (le 8 0 ++ le 8 700000 ++ zeros 8 ++ le 8 1 ++ zeros 32) ++ le 8 1 ++ (le 8 0 ++ le 4 0xFFFFFFFF ++ le 4 0) ++
  le 8 1 ++ (le 8 0x060000 ++ le 8 0x1000 ++ le 8 1 ++ le 8 0x2000) ++
  le 8 1 ++ (le 8 1 ++ le 8 0xFFF ++ le 8 700000 ++ le 8 800000) ++ le 8 1 ++ (le 4 0xFF ++ le 4 1 ++ le 8 0)

/-- Context 1 holds the image in its region, with a verso region and a ledger configured, and posts a command. -/
def stocked (cmd : Nat) (b : Bytes) : State :=
  let s := withScw (withScw (at0 cmd 1 b) 0x508 1) 0x218 0x300000
  { s with mem := { s.mem with
      bytes := wrMap (wrMap [] 0 imageBytes) 0x1000 [1, 1], regions := [{ id := 1, ctx := 1, store := 0, base := 0, size := 0x4000 }], nextRegion := 2 } }

/-- The schedule as SCH_LOAD loads it, in a state. -/
def loaded1 (st : SchState) : Sched := { sched1 (parseImage 0 imageBytes) st with addr := 0, len := 456 }

/-- A schedule within its step. -/
def running : Sched := { col .running with coll := Coll.start }

def region1 : Region := { id := 1, ctx := 1, store := 0, base := 0, size := 1024 }

/-- The only place of a size is granted. -/
theorem grantOne (s : State) (st size al base : Nat) (h : ((s.freeRanges st).map (basesIn size al)).sum = 1)
    (hb : pickBase size al (s.freeRanges st) 0 = some base) : s.grantBase st size al = (some base, { s with free := s.free + 1 }) := by
  simp [State.grantBase, State.fresh, h, Nat.mod_one, hb]

/-- MEM_MAP of a whole scratchpad by context 1. -/
def oneFree : State := at0 0x0501 1 ([2, 10] ++ zeros 6 ++ le 8 50331648)

/-- TRC_START of 1 MiB by context 1, where all but the last 1 MiB of the near tier is mapped. -/
def oneFreeNear : State :=
  { at0 0x0B01 1 (zeros 16 ++ le 8 0x100000 ++ le 8 0) with
    mem.regions := [{ id := 1, ctx := 0, store := 0, base := 0, size := nearSize - 0x100000 }],
    ctxs := ready.ctxs.set 1 { Ctx.reset with isOpen := true, nearQuota := 1 } }

/-! Images, schedules and streams for the packets. -/

def withScws (s : State) (l : List (Nat × Nat)) : State := l.foldl (fun s y => withScw s y.1 y.2) s

theorem pairOf {α β : Type} {p : α × β} {a : α} (h : p.1 = a) : p = (a, p.2) := by cases p; cases h; rfl

/-- A layout of rows of one column, 1 KiB apart. -/
def lay (a rows kind : Nat) : Layout :=
  { addr := a, scaleAddr := 0, cols := if kind = 0 then 1 else 0, rows := rows, rowStride := 1024, scaleRowStride := 0, kind := kind,
    loopStride := [0, 0, 0, 0] }

/-- Three tensors of one row, a list and a tensor of three rows. -/
def lays : List Layout := [lay 0x4000 1 0, lay 0x8000 1 0, lay 0xC000 1 0, lay 0x10000 1 1, lay 0x14000 3 0]

/-- An update descriptor without elements. -/
def update0 (verso : Bool) : UpdateE :=
  { addr := 0x100, kind := 0, gfmt := 0, wfmt := 1, clipOn := false, verso := verso, hcycle := false, gscale := 0, count := 0, shardOff := 0, grad := 0,
    masterA := 0, masterB := 0, mom1A := 0, mom1B := 0, mom2A := 0, mom2B := 0, workA := 0, workB := 0, hyper := 0, clip := 0, hyperCount := 0 }

def prog0 (e : EngId) : ProgE := { eng := e, ringLog2 := 6, addr := 0x1000, packets := 1, ringAddr := 0x2000 }

/-- The schedule whose only program, of one packet at 0x1000, runs on an engine. -/
def progOn (e : EngId) : Sched :=
  { sched1 { image0 with layouts := lays, updates := [update0 true], phases := [phase0], streams := [{ prog := 0, entryA := 0, entryB := 0 }],
                         progs := [prog0 e] } .running with
    coll := Coll.start, runs := [] }

def grant1 : Grant := { ctx := 1, sched := 1, phase := 0, prog := 0 }

/-- A packet: its first bytes, then zeros. -/
def packet (b : Bytes) : Bytes := (b ++ zeros 32).take 32

/-- An operand descriptor: layout and format; and an unused one. -/
def desc (l f : Nat) : Bytes := le 3 (l + 65536 * f)
def unused : Bytes := le 3 0xFFFF

/-- A front leaf of one logical row and one column. -/
def leaf1 : Leaf := { fmt := 1, sparse := 0, split := 0, logk := 1, kext := 1, next := 1, scaleExp := 0, cells := [], lanes := [] }

/-- An engine that runs the stream of the program. -/
def engine1 : Engine := { Engine.reset with grant := some grant1, running := true, array := { Array_.reset with front := some leaf1 } }

/-- An engine at a packet. -/
def atPacket (e : EngId) (b : Bytes) : State :=
  { holding ready (progOn e) with mem.bytes := wrMap (wrMap [] 0x1000 (packet b)) 0x10004 [1], engines := ready.engines.set e { engine1 with queue := [packet b] } }

/-- A SIGNAL to the counter 0 of the first peer, which reservation 7 reaches. -/
def signalPacket : Bytes := [3, 1, 0, 0, 0, 0, 0, 0, 1]
def peer7 : PeerE := { devId := 1, isSet := false, rctx := 1, resv := 0, openFirst := 0, openCount := 0 }
def peered : Sched := { progOn 0 with image := { (progOn 0).image with peers := [peer7], resvs := [resv7] } }
def atPeer : State := { atPacket 0 signalPacket with scheds := [peered], hops := [hop7 0], ports := peerReady.ports }

/-- A command of a packet in progress. -/
def entry1 (b : Bytes) : Entry :=
  { pos := 0, pc := 0, packet := packet b, idx := [], begun := 0, units := 0, total := 0, status := 0, aflags := 0, poison := false, ready := false,
    watermark := 0, done := 0, failed := 0, copy := none, scales := [], colAcc := [], colPoison := [], stopAt := none, limit := 0, waiting := false,
    detail := 0, list := [], chIn := none, chOut := none, turn := false, stuck := false, colPart := [], doneAt := 0, fetched := 0, bits := none, raced := false }

/-- An engine with a command in progress. -/
def inCommand (e : EngId) (t : Entry) : State := { atPacket e [] with engines := ready.engines.set e { engine1 with entries := [t], pc := 1 } }

/-- An operand of the packet at an engine. -/
def operand (e : EngId) (b : Bytes) (off : Nat) : Opnd :=
  ((atPacket e b).opnd (progOn e) (packet b) off []).getD ((atPacket e b).opndOf (progOn e) 0 0 [])

/-! One packet of each shape. -/

def absPacket : Bytes := [0x40, 1, 0, 0, 7, 0] ++ desc 0 1 ++ unused ++ unused ++ desc 1 1 ++ unused ++ unused
def leafPacket : Bytes := [0x20, 1, 0, 0] ++ desc 0 1 ++ unused
def rowsPacket : Bytes := [0x21, 1, 0, 0] ++ desc 0 1 ++ unused ++ desc 1 1 ++ zeros 3 ++ le 4 0xFFFFFFFF
def copyPacket : Bytes := [0x60, 1, 0, 0] ++ desc 0 1 ++ desc 1 1 ++ zeros 12 ++ [0xFF]
def listPacket : Bytes := [0x61, 1, 0, 0] ++ desc 0 1 ++ desc 1 1 ++ desc 3 0 ++ zeros 9 ++ [0xFF]
def tipPacket : Bytes := [0x62, 1, 0, 0] ++ le 8 0x4000 ++ le 8 0x8000 ++ le 2 16 ++ [0xFF]
def updatePacket : Bytes := [0x80, 1, 0, 0] ++ le 8 0x100
def routePacket : Bytes := [0xA0, 1, 0, 0] ++ desc 0 1 ++ desc 3 0 ++ desc 4 11 ++ [1] ++ le 2 1

/-- A token sent on reservation 7 by the command at position 0 of engine 0. -/
def sent1 : Sent := { copy := 1, eng := some 0, pos := 0, resId := 7, port := 11, parts := 0, token := true, down := false }

/-- The schedule in its probe pass. -/
def probing : Sched := { progOn 36 with probe := { (progOn 36).probe with pass := true } }

/-! Checkpoints. -/

/-- A group of one device with a copy area and two slots, whose slot 0 holds the seal of checkpoint 1 with an empty record and a piece of one byte. -/
def ckptReady : State :=
  let s := withScws linked [(0x418, 1), (0x238, 0x400000), (0x610, 0x100000), (0x618, 0x100000)]
  { s with
    hops := [hop7 0]
    mem.bytes := wrMap (wrMap [] (s.slotBase 0) (le 8 ckFormat ++ le 8 1 ++ le 8 0 ++ sha512t256 [])) (s.slotBase 0 + 0x540) (le 8 1) }

/-- The same, with the collated schedule between its steps and a command taken. -/
def ckptCmd (cmd ctx : Nat) (b : Bytes) : State := withCmd (holding ckptReady { col .admitted with lastCollated := some 0 }) 0 cmd ctx b

def peerState (k : Ckpt) (b : Bytes) : State := { ckptCmd 0x0905 0 b with ckpts := [k] }

/-- The record of an old checkpoint: identifier 1, of one device. -/
def oldRecord : Bytes := zeros 8 ++ le 8 1 ++ zeros 8 ++ [1, 1, 0] ++ zeros 0x800

def fetchBytes : Bytes := le 8 5 ++ le 8 1 ++ le 8 0 ++ le 8 1 ++ sha512t256 [0] ++ le 8 7 ++ le 8 0

/-- The state after CKP_BEGIN. -/
def begun : State := ((ckptCmd 0x0901 1 (zeros 8)).tryBegin 1 0 [] []).2

/-- COL_ADMIT_DEVICE of the collated schedule from reservation 7, which arrives on port 10 from its peer. -/
def admitCmd (mode : Byte) : State :=
  { holding (at0 0x0804 1 ([mode] ++ zeros 3 ++ le 4 1 ++ le 8 7 ++ le 8 7)) (col .admitted) with
    hops := [hop7 2], ports := ready.ports.set 10 { PortS.reset with st := .up, peerId := some 1 } }

/-- A collated schedule with an update descriptor of 8 elements in each half. -/
def mirrored : Sched :=
  sched1 { image0 with phases := [phase0], updates := [{ update0 false with count := 8 }, { update0 true with count := 8 }] } .running

theorem forOne {α : Type} {l : List α} {a : α} {P : α → Prop} (h : l = [a]) (hp : P a) : ∀ r ∈ l, P r := by subst h; simpa using hp

theorem noReplays {s : State} {id : Nat} (h : ∀ n : SlotId, s.slots[n].held = .none) : ∀ i k, s.slots[ctxId i].held ≠ .replay id k := by
  intro i k; rw [h]; nofun

theorem headOf {α : Type} {l : List α} {d : α} (h : l.isEmpty = false) : l.head? = some (l.head?.getD d) := by cases l <;> simp_all

theorem someOf {α : Type} {o : Option α} {d : α} (h : o.isSome = true) : o = some (o.getD d) := by cases o <;> simp_all

/-! Links, engines' messages and memory. -/

/-- Reservation 7 arrives on port 10; context 1 opens a layout to its peer and owns counter 0. -/
def receiving : State :=
  { holding (admitCmd 1)
      (sched1 { image0 with layouts := lays, counters := [{ ctr := 0, perStep := false, init := 0 }],
                            peers := [{ devId := 1, isSet := false, rctx := 1, resv := 0, openFirst := 0, openCount := 1 }] } .running) with pending := [] }

def part1 : PartMsg := { resId := 7, copy := 1, part := 0, ctx := 1, pieces := [(0x4000, [1])], poisoned := [] }

/-- A device whose Guard-oscillator time is past every limit. -/
def late : State := { ready with time.clock := 100000000000, time.stitch := 100000000000 }

def channelLow : Chan := { fenced := false, warned := true, events := [], lowSince := some 0, corrected := 0, reissued := 0 }

/-- The Guard has a partition reset to do. -/
def resetDue (noCount : Bool) (times : List Nat) : State :=
  { late with guard.resetReq := some (.partition none noCount), guard.limits := { ready.guard.limits with resetTimes := times } }

/-- The supply of a device that has settled at the floor. -/
def supply0 : Supply := ready.guard.supply

/-- The supply of a device whose conditions for NOMINAL have held for 10 ms. -/
def settled : State := { late with guard.supply := { supply0 with nominalSince := some 0 } }

def cool : Sensors := { ready.guard.sensors with junction := List.replicate 16 (some 100), dram := List.replicate 40 (some 100) }

/-- A device at an operating point whose readings allow every point. -/
def settling (o : OpPoint) (g : Supply) : State := { late with guard.supply := { g with opPoint := o }, guard.sensors := cool }

/-- A device at EMERGENCY whose junctions have been too hot for 10 ms. -/
def hot : State :=
  { late with
    guard.supply := { supply0 with opPoint := .emergency, vcomp := 550, hotSince := some 0 }
    guard.sensors := { ready.guard.sensors with junction := List.replicate 16 (some 460) } }

/-- The armed schedule whose phase 0 may launch. -/
def launched : Sched := { progOn 0 with state := .armed, probe := { (progOn 0).probe with exchange := some [], armOk := true }, coll := (col .armed).coll }
def launching : State := holding ready launched

/-- A background entry and a running schedule in its window. -/
def bg1 : BgE := { kind := 1, mask := 0xFFF, start := 0, stop := 200000000000 }
def windowed : Sched := { sched1 { image0 with phases := [phase0], bgs := [bg1] } .running with coll := Coll.start }

/-- A run of phase 0 in step 0 that is over. -/
def run0 : PhaseRun :=
  { phase := 0, step := 0, nominal := 0, launched := 0, gen := false, halfB := false, active := [], complete := true, stopped := false, cause := 0,
    pins := [], status := 0 }

/-- A running schedule whose step has learned, under a parent. -/
def withBar (parent : Nat) (children : BitVec 12) : Sched :=
  sched1 { image0 with phases := [phase0], bar := { parent := parent, height := 0, children := children, nDev := 1, nObs := 0 } } .running
def upward : Sched := { withBar 11 0 with coll := Coll.start, runs := [run0] }

/-- A running schedule with a child at port 10, in its round. -/
def tree (parent : Nat) : Sched := { withBar parent 0x400 with coll := Coll.start }
def child (parent : Nat) : State := { receiving with scheds := [tree parent] }
def barMsg (failed : Bool) : BarrierMsg := { setId := 0, step := 0, round := 0, entries := [], obs := [], failed := failed, missing := 0 }

def rootward : Sched := { withBar 0xFF 0 with coll := Coll.start, runs := [run0] }

/-- The same under a parent at port 10, after its up message. -/
def downward : Sched := { tree 10 with bar := { (tree 10).bar with upSent := true } }

/-- A vote of device 1 on the recto descriptor 0, and the schedule whose own vote is there. -/
def vote1 : VoteEntry := { dev := 1, ordinal := 0, nonfinite := false, poison := false, n2 := 0 }
def voting (parent : Nat) : Sched := { tree parent with vote := { (tree parent).vote with own := [{ vote1 with dev := 0 }] } }

/-- A group of one device that faces itself. -/
def single : State := withScw ready 0x418 1

/-- A group of two devices that face each other; this one is index 0. -/
def pair : State := withScws ready [(0x418, 2), (0x500, 1)]

/-- The running schedule, held by a late barrier. -/
def lateHeld : Sched :=
  { running with state := .held, slipTotal := 1,
                 slips := [{ tag := 0, kind := 3, cause := 9, phase := 0xFF, unit := 0xFF, step := 0, nominal := 0, actual := 100000000000 }] }

/-! Replays, shadow mode and time. -/

def replay1 (kind : ReplayKind) (started : Bool) : Replay :=
  { kind := kind, start := 0, step := 0, logPos := 0, logIdx := 0, started := started, saved := [], savedCtrs := [] }

/-- The collated schedule in a replay. -/
def replaying (kind : ReplayKind) (started : Bool) : Sched := { running with replay := some (replay1 kind started) }

/-- The collated step has a diagnostic replay, which has learned and whose digests agree. -/
def diagnosed : Sched :=
  let x := { replaying .diagnostic true with runs := [run0], diag := some (0, 0) }
  { x with coll := { x.coll with recto := x.deviceDigest false, verso := x.deviceDigest true } }

def diagDue : Sched := { running with coll := { Coll.start with state := .collated }, diag := some (0, 0) }

/-- COL_KAT waits in slot 0 for folio 0. -/
def katWaits : State := { ready with slots := ready.slots.set 0 { Slot.reset with hdr := { Hdr.reset with state := 2 }, held := .kat 1 0 } }

/-- A spare in shadow mode, whose feed arrives on reservation 7 and has begun step 0. -/
def shadowing (x : Sched) : State :=
  { admitCmd 2 with
    scheds := [x], shadow := { Shadow.reset with status := 1, sched := 1, resIn := 7, feedStep := some 0, atBase := some (0, ⟨0, false⟩, ⟨0, false⟩) } }

/-- The spare's schedule: its step not yet run, and run. -/
def spare : Sched := col .admitted
def spareDone : Sched := { col .admitted with replay := some (replay1 .localReplay true), runs := [run0] }

def inj1 : Inj := { id := 1, type := 1, noesc := false, left := 1, trigger := 0, target := 0, param := 0 }

/-- A long command that has been executing for 60 s. -/
def longSince : State := { late with slots := ready.slots.set 0 { Slot.reset with hdr := { Hdr.reset with state := 2, cmd := 0x0604 } } }

/-- A port 11 that takes part in timing, with its accepted samples and one SYNC that is not answered. -/
def timing (w : List (Int × Int)) : State :=
  { linked with
    ports := ready.ports.set 11 { PortS.reset with
      st := .up, peerId := some 1, session := some 0, timing := { TPort.reset with window := w, syncAt := [0] } } }

/-- An answer to the SYNC sent at time 0, with its MAC, and its content. -/
def timed0 : TimingMsg :=
  { flags := 0, reserved := false, seq := 1, rootId := 1, path := 0, groupPath := 0, tA := 0, tB := 0, tC := 0, mac := 0 }
def timed (type : Nat) : TimingMsg := { timed0 with mac := timingMac timed0 type 0 }

/-- A message that carries its MAC is accepted. -/
theorem accepted (s : State) (p : Port) (type : Nat) (hs : s.ports[p].session = some 0) (ht : s.times p = true)
    (hq : s.ports[p].timing.seqIn = none) (hf : s.ports[p].timing.syncAt.contains 0 = true) : s.timingBad p type (timed type) = none := by
  have hm : (timed type).mac = timingMac (timed type) type 0 := rfl
  have hf' : s.ports[p].timing.syncAt.contains (timed type).tA.toNat = true := hf
  simp only [State.timingBad, hs, ht, hq, hf', hm]
  simp [timed, timed0]

/-- Ports 10 and 11 hear of different roots, and 11 is followed. -/
def conflicted : State :=
  let up (r : DevId) : PortS := { PortS.reset with
    st := .up, peerId := some 1, timing := { TPort.reset with usable := true, rootId := r, path := 0, groupPath := 0 } }
  { withScw late 0x428 0x300AB with time.followed := some 11, ports := (ready.ports.set 11 (up 1)).set 10 (up 2) }

/-- The machine root with an external reference, at a time of its counter. -/
def rooted (t : W64) : State := { withScws ready [(0x408, 1), (0x410, 1)] with time := { ready.time with everReady := true, stitch := t } }

/-! Links. -/

/-- Port 11 with a role, in a state, whose lanes have signal or not. -/
def portIn (role : Nat) (st : PortSt) (signal : Bool) : State :=
  { withScw late 0x1B000 role with ports := ready.ports.set 11 { PortS.reset with st := st, signal := signal } }

/-- Port 0 or 1 in HOST role, in a state. -/
def hostIn (p : Port) (st : PortSt) (signal : Bool) : State :=
  { withScws ready [(0x10000, 0x50), (0x11000, 0x50)] with ports := ready.ports.set p { PortS.reset with st := st, signal := signal } }

/-- Port 11 in admission, with its progress. -/
def admittingWith (a : Adm) : State := { ready with ports := ready.ports.set 11 { PortS.reset with st := .admitting, adm := a } }

def soak1 (uncorr : Nat) : Soak := { port := 11, lane := 0, cber := 0x3727C5AC, codewords := 1000, symErrors := 1000, over5 := 0, maxSym := 6, uncorr := uncorr, corrected := 0 }

/-- A declaring frame of reservation 7, and the device at which it arrives on port 10: as a destination, or to go on to port 11. -/
def frame1 (overrun : Bool) : Frame :=
  { vc := 1, resId := 7, authOk := true, overrun := overrun, body := .declare { resId := 7, copy := 1, ctx := 1, parts := [] } }
def routing (role : Nat) : State :=
  { admitCmd 1 with hops := [hop7 role], ports := (admitCmd 1).ports.set 11 { PortS.reset with st := .up, peerId := some 1 } }

/-! The Guard. -/

/-- READY with an owner, whose session 1 is open. -/
def owned : State :=
  { late with
    guard.owner := some []
    guard.sessions := [{ id := 1, established := true, owner := true, mutualAsked := true, last := 0, keyGen := 0 }] }

/-- A request of the owner's session. -/
def ask (code : Nat) (b : Bytes) : GReq := { src := .mgmt 1 0, code := code, tag := 0, data := b }

/-- The requester that a session stands for, with its algorithms agreed and a response that waits in chunks. -/
def agreed : Spdm := { src := .mgmt 0 0, version := some 0x13, caps := true, algs := true, chunkIn := none, chunkOut := some (1, 0, []) }

def speaking : State := { ready with guard.spdm := [agreed] }
def algs1 : SpdmAlgs := { ecdsaP521 := true, sha512 := true, secp521r1 := true, aes256gcm := true }

def rec1 : Rec :=
  { seq := 0, stamp := 0, step := 0, cls := 3, source := 1, code := 0x0204, ctx := 0, injected := false, pinned := false, unit := 0xFF, body := zeros 32 }

/-- The device with one record in its log that the collector has not got. -/
def logged : State := { owned with guard.log := [rec1], guard.logNext := 1, guard.unsent := [0], guard.unacked := [0] }

/-- Slot 0 is an MGMT slot. -/
def mgmtSlot : State := withScw owned 0x800 3

/-- The device has two of three counted resets behind it, or three. -/
def resetAfter (times : List Nat) : State := { owned with guard.limits := { ready.guard.limits with resetTimes := times } }

/-- A checkpoint that drains to group index 1 on reservation 7. -/
def draining (resends : AMap Nat) : Ckpt := { ckpt1 .draining with resends := resends }
def drained (resends : AMap Nat) : State := { withScws linked [(0x418, 2), (0x688, 7)] with hops := [hop7 0], ckpts := [draining resends] }

def dump1 : Dump := { cause := 0, stamp := 0, complete := true, number := 0, lost := [] }
def unowned : State :=
  { owned with
    guard.owner := none
    guard.sessions := [{ id := 1, established := true, owner := false, mutualAsked := false, last := 0, keyGen := 0 }] }

/-- MGMT_POST of SYS_NOP in slot 0, and the fetch of its response. -/
def postBytes : Bytes := le 2 0 ++ le 2 0x0103 ++ le 4 60000 ++ zeros 16
def fetchPost : Bytes := le 4 0 ++ le 4 1 ++ zeros 16
def fetching : State :=
  { mgmtSlot with guard.mheld := [(0, 0)], slots := ready.slots.set 0 { Slot.reset with hdr := { Hdr.reset with state := 3, rlen := 4024 } } }
def mpost1 : MPost := { src := .mgmt 1 0, slot := 0, deadline := 0 }

def newSession : Sess := { id := 2, established := false, owner := false, mutualAsked := false, last := 0, keyGen := 0 }

/-- Bring-up has run, and READY is not yet reached. -/
def notYet : State := { State.reset with guard.bring := { State.reset.guard.bring with running := false } }

def bring1 : BringUp :=
  { bankOk := true, otherBankOk := true, identityOk := true, repairSigned := true, refPresent := true, badChannels := [], stages := [], railFault := none }

/-- The channel of sheet 0 is fenced. -/
def fencedFar : State := { ready with mem.chans := [(chanOf 0, { channelLow with fenced := true })] }

/-! ## Witnesses -/

/-- The hypotheses of AnEmptyQueueLetsTimePass. -/
theorem met_AnEmptyQueueLetsTimePass :
    ∃ (s : State), s.pending = [] :=
  ⟨State.reset, by decide +kernel⟩

/-- The hypotheses of NoCommandTouchesTheQueue. -/
theorem met_NoCommandTouchesTheQueue :
    ∃ (c : Instr) (s t : State), exec c s = .next t :=
  ⟨.sysNop 0, State.reset, State.reset, rfl⟩

/-- The hypotheses of EveryStepKeepsTheStoresCanonical. -/
theorem met_EveryStepKeepsTheStoresCanonical :
    ∃ (s t : State), s.mem.wf = true ∧ step s = .next t :=
  ⟨{ State.reset with pending := [.sysNop 0] }, State.reset, by decide +kernel, rfl⟩

/-- The hypotheses of EveryStepKeepsTheLogBounds. -/
theorem met_EveryStepKeepsTheLogBounds :
    ∃ (s t : State), s.logBounded ∧ step s = .next t :=
  ⟨{ State.reset with pending := [.sysNop 0] }, State.reset, by decide +kernel, rfl⟩

/-- The hypotheses of TheStateWriteCommits. -/
theorem met_TheStateWriteCommits :
    (∃ (s : State) (who : Agent) (n : SlotId), s.windowsDead = false ∧ s.mayWrite who n = true ∧ let x := s.slots[n]; x.hdr.state = 0) ∧
    (∃ (s : State) (who : Agent) (n : SlotId), s.windowsDead = false ∧ s.mayWrite who n = true ∧ let x := s.slots[n]; x.hdr.state = 3) ∧
    (∃ (s : State) (who : Agent) (n : SlotId) (upper : Option W32), s.windowsDead = false ∧ s.mayWrite who n = true ∧ let x := s.slots[n]; x.hdr.state
      = 1 ∧ upper = none) ∧
    (∃ (s : State) (who : Agent) (n : SlotId) (upper : Option W32), s.windowsDead = false ∧ s.mayWrite who n = true ∧ let x := s.slots[n]; x.hdr.state
      = 2 ∧ upper = none) :=
  ⟨⟨ready, .host, 0, by decide +kernel⟩,
   ⟨slotIn 3, .host, 0, by decide +kernel⟩,
   ⟨slotIn 1, .host, 0, none, by decide +kernel⟩,
   ⟨slotIn 2, .host, 0, none, by decide +kernel⟩⟩

/-- The hypotheses of SlotWritesStoreTheirBytes. -/
theorem met_SlotWritesStoreTheirBytes :
    (∃ (s : State) (who : Agent) (n : SlotId) (off width : Nat), s.windowsDead = false ∧ s.mayWrite who n = true ∧ (s.slots[n].hdr.state = 0 ∨
      s.slots[n].hdr.state = 3) ∧ (width = 1 ∨ width = 2 ∨ width = 4 ∨ width = 8) ∧ off % width = 0 ∧ 64 ≤ off ∧ off + width ≤ 4096) ∧
    (∃ (s : State) (who : Agent) (n : SlotId) (off width : Nat) (p : Port), s.windowsDead = false ∧ s.mayWrite who n = true ∧ (s.slots[n].hdr.state =
      0 ∨ s.slots[n].hdr.state = 3) ∧ (width = 1 ∨ width = 2 ∨ width = 4 ∨ width = 8) ∧ off % width = 0 ∧ 64 ≤ off ∧ off + width ≤ 4096 ∧ who = .peer
      p ∧ s.ports[p].admitted = true) ∧
    (∃ (s : State), s.guard.powered = true ∧ let m := s.guard.mbox; m.hdr.state = 0) ∧
    (∃ (s : State), s.guard.powered = true ∧ let m := s.guard.mbox; m.hdr.state = 3) ∧
    (∃ (s : State), s.guard.powered = true ∧ let m := s.guard.mbox; m.hdr.state = 1) ∧
    (∃ (s : State) (who : Agent), s.guard.powered = true ∧ who ≠ .host) ∧
    (∃ (s : State) (off : _), s.guard.powered = true ∧ let m := s.guard.mbox; m.hdr.state = 0 ∧ off % 8 = 0 ∧ 64 ≤ off ∧ off + 8 ≤ 4096 ∧ AMap.wf
      zeroB m.payload = true) :=
  ⟨⟨ready, .host, 0, 4088, 8, by decide +kernel⟩,
   ⟨peerReady, .peer 11, 63, 64, 8, 11, by decide +kernel⟩,
   ⟨ready, by decide +kernel⟩,
   ⟨mboxIn 3, by decide +kernel⟩,
   ⟨mboxIn 1, by decide +kernel⟩,
   ⟨ready, .peer 0, by decide +kernel⟩,
   ⟨ready, 4088, by decide +kernel⟩⟩

/-- The hypotheses of WritesToTakenSlotsCount. -/
theorem met_WritesToTakenSlotsCount :
    ∃ (s : State) (who : Agent) (n : SlotId) (off width : Nat), s.windowsDead = false ∧ s.mayWrite who n = true ∧ (s.slots[n].hdr.state = 1 ∨
      s.slots[n].hdr.state = 2) ∧ off % width = 0 ∧ 4 ≤ off ∧ off + width ≤ 4096 ∧ ((off < 64 ∧ (width = 4 ∨ width = 8)) ∨ (64 ≤ off ∧ (width = 1 ∨
      width = 2 ∨ width = 4 ∨ width = 8))) :=
  ⟨slotIn 1, .host, 0, 4, 4, by decide +kernel⟩

/-- The hypotheses of WritesByOthersAreIgnored. -/
theorem met_WritesByOthersAreIgnored :
    ∃ (s : State) (who : Agent) (n : SlotId), s.windowsDead = false ∧ s.mayWrite who n = false :=
  ⟨ready, .peer 0, 0, by decide +kernel⟩

/-- The hypotheses of TheBinderTakesAPost. -/
theorem met_TheBinderTakesAPost :
    ∃ (s : State) (n : SlotId), s.nextPosted = some n ∧ s.binder.run ≠ .off ∧ s.slots[n].hdr.seq = s.slots[n].expSeq ∧ s.postCheck n = none ∧
      (s.slots[n].ctxNo = 0 ∨ s.ctxs[ctxId s.slots[n].ctxNo].resetting = false) :=
  ⟨posted 1, 0, by decide +kernel⟩

/-- The hypotheses of AWrongSequenceIsRefused. -/
theorem met_AWrongSequenceIsRefused :
    ∃ (s : State) (n : SlotId), s.nextPosted = some n ∧ s.binder.run ≠ .off ∧ s.slots[n].hdr.seq ≠ s.slots[n].expSeq ∧ imgClass s.act n.val ≠ 2 ∧
      s.notRelayed n :=
  ⟨posted 0, 0, by decide +kernel⟩

/-- The hypotheses of ApertureAccessesAct. -/
theorem met_ApertureAccessesAct :
    (∃ (s : State) (off width : Nat) (r : Reg), 0x100000 ≤ off ∧ off < 0x180000 ∧ regAt (off - 0x100000) = some r ∧ r.width = 8 * width ∧
      s.windowsDead = false) ∧
    (∃ (s : State) (i off : Nat) (p : Port), imgMaster s.act = true ∧ i < 16 ∧ i ≠ imgGroupIndex s.act ∧ off < 0x200000 ∧ ((List.finRange 12).find?
      (fun p => s.ports[p].admitted) = some p)) ∧
    (∃ (s : State) (off width : Nat), s.guard.powered = true ∧ off < 0x8000 ∧ gdwIsReg off width = true) ∧
    (∃ (s : State) (i : Fin 16), imgMaster s.act = true ∧ imgGroupIndex s.act ≠ i.val) ∧
    (∃ (s : State) (p : Port) (dest : Nat), s.ports[p].admitted = true ∧ dest ≠ imgGroupIndex s.act) ∧
    (∃ (s : State) (p : Port) (dest : Nat), s.ports[p].admitted = true ∧ dest = imgGroupIndex s.act) ∧
    (∃ (s : State) (p : Port) (dest : Nat) (a : _) (d : Bytes), s.ports[p].admitted = true ∧ dest = imgGroupIndex s.act ∧ s.copyCovers 0 a d.length =
      true) ∧
    (∃ (s : State) (p : Port) (dest : Nat) (a : _) (k : _), s.ports[p].admitted = true ∧ dest = imgGroupIndex s.act ∧ s.copyCovers 1 a k = true) :=
  ⟨⟨ready, 0x110000, 8, (regAt 0x10000).get (by decide +kernel), by decide +kernel⟩,
   ⟨withScw peerReady 0x400 1, 1, 0x40, 11, by decide +kernel⟩,
   ⟨ready, 0x08, 8, by decide +kernel⟩,
   ⟨withScw ready 0x400 1, 15, by decide +kernel⟩,
   ⟨peerReady, 11, 1, by decide +kernel⟩,
   ⟨peerReady, 11, 0, by decide +kernel⟩,
   ⟨relaying 0, 11, 0, 0, [1], by decide +kernel⟩,
   ⟨relaying 1, 11, 0, 1023, 1, by decide +kernel⟩⟩

/-- The hypotheses of ReadCommandsAnswer. -/
theorem met_ReadCommandsAnswer :
    (∃ (s : State) (n : SlotId), s.notRelayed n ∧ s.runs n 0x0101 = true) ∧
    (∃ (s : State) (n : SlotId), s.notRelayed n ∧ s.runs n 0x0102 = true) ∧
    (∃ (s : State) (n : SlotId), s.notRelayed n ∧ s.runs n 0x0103 = true) ∧
    (∃ (s : State) (n : SlotId), s.notRelayed n ∧ let x := s.slots[n]; s.runs n 0x0205 = true ∧ x.ctxNo ≠ 0) ∧
    (∃ (s : State) (n : SlotId), s.notRelayed n ∧ let x := s.slots[n]; s.runs n 0x0302 = true ∧ maskBad (fld x.req 0 8) true = false ∧ fld x.req 0 8 ≠
      0 ∧ firstFailing s.guard.keys (s.merged (BitVec.ofNat 64 (fld x.req 0 8)) s.cfg.shadow) = 0) ∧
    (∃ (s : State) (n : SlotId) (y : _), s.notRelayed n ∧ let x := s.slots[n]; s.runs n 0x0405 = true ∧ s.ownSched x.ctxNo (fld x.req 0 2) = some y) ∧
    (∃ (s : State) (n : SlotId) (y : _), s.notRelayed n ∧ let x := s.slots[n]; s.runs n 0x0406 = true ∧ s.ownSched x.ctxNo (fld x.req 0 2) = some y ∧
      fld x.req 0x10 2 ≤ 125 ∧ fld x.req 0x10 2 ≠ 0 ∧ fld x.req 8 8 < y.slipTotal) ∧
    (∃ (s : State) (n : SlotId), s.notRelayed n ∧ let x := s.slots[n]; s.runs n 0x0602 = true ∧ fld x.req 0 2 ≠ 0) ∧
    (∃ (s : State) (n : SlotId), s.notRelayed n ∧ s.runs n 0x0701 = true) ∧
    (∃ (s : State) (n : SlotId) (y : _), s.notRelayed n ∧ s.runs n 0x0801 = true ∧ s.collated = some y) ∧
    (∃ (s : State) (n : SlotId) (k : _), s.notRelayed n ∧ let x := s.slots[n]; s.runs n 0x0902 = true ∧ fld x.req 0 8 ≠ 0 ∧ (s.ckpts.find? (fun k =>
      k.id = fld x.req 0 8) = some k)) ∧
    (∃ (s : State) (n : SlotId), s.notRelayed n ∧ let x := s.slots[n]; s.runs n 0x0504 = true ∧ s.mem.selfRefresh = false ∧ fld x.req 8 8 ≠ 0 ∧ (if
      x.ctxNo = 0 then s.inMap (fld x.req 0 8) (fld x.req 8 8) else s.mappedTo x.ctxNo (fld x.req 0 8) (fld x.req 8 8)) = true) ∧
    (∃ (s : State) (n : SlotId) (y : _), s.notRelayed n ∧ let x := s.slots[n]; s.runs n 0x0A01 = true ∧ s.mem.selfRefresh = false ∧ fld x.req 0 1 ≠ 1
      ∧ s.scalesBad x = none ∧ s.numOf x.ctxNo = some y) ∧
    (∃ (s : State) (n : SlotId) (t : _), s.notRelayed n ∧ let x := s.slots[n]; s.runs n 0x0B02 = true ∧ fld x.req 0x10 2 ≤ 125 ∧ fld x.req 0x10 2 ≠ 0
      ∧ (s.traces.find? (fun t => t.id = fld x.req 0 4 && (x.ctxNo = 0 || t.ctx = x.ctxNo)) = some t) ∧ fld x.req 8 8 + 1 < t.first + t.recs.length) ∧
    (∃ (s : State) (n : SlotId), s.notRelayed n ∧ let x := s.slots[n]; s.runs n 0x0C02 = true ∧ fld x.req 8 2 ≤ 62 ∧ imgClass s.act n.val ≠ 1 ∧
      ((s.logResp s.guard.records (fld x.req 0 8) (fld x.req 8 2) fun _ => true).1 = stOk)) :=
  ⟨⟨at0 0x0101 0 [], 0, by decide +kernel⟩,
   ⟨at0 0x0102 0 [], 0, by decide +kernel⟩,
   ⟨at0 0x0103 0 [], 0, by decide +kernel⟩,
   ⟨at0 0x0205 1 [], 0, by decide +kernel⟩,
   ⟨at0 0x0302 0 (le 8 0x80), 0, by decide +kernel⟩,
   ⟨holding (at0 0x0405 1 (le 8 1)) (sched1 image0 .loaded), 0, sched1 image0 .loaded, by decide +kernel⟩,
   ⟨holding (at0 0x0406 1 (le 8 1 ++ le 8 0 ++ le 8 125)) slipped, 0, slipped, by decide +kernel⟩,
   ⟨at0 0x0602 0 (le 2 0x800), 0, by decide +kernel⟩,
   ⟨at0 0x0701 0 [], 0, by decide +kernel⟩,
   ⟨holding (at0 0x0801 0 (le 8 0)) (col .running), 0, col .running, by decide +kernel⟩,
   ⟨{ at0 0x0902 0 (le 8 1) with ckpts := [ckpt1 .copying] }, 0, ckpt1 .copying, by decide +kernel⟩,
   ⟨at0 0x0504 0 (le 8 0 ++ le 8 1024), 0, by decide +kernel⟩,
   ⟨holding (at0 0x0A01 1 (le 2 0 ++ le 2 0 ++ le 4 1)) scaled, 0, scaled, by decide +kernel⟩,
   ⟨{ at0 0x0B02 1 (le 8 1 ++ le 8 0 ++ le 8 125) with traces := [trace1] }, 0, trace1, by decide +kernel⟩,
   ⟨{ at0 0x0C02 0 (le 8 0 ++ le 2 62) with guard.logNext := 1 }, 0, by decide +kernel⟩⟩

/-- The hypotheses of SettingCommandsSet. -/
theorem met_SettingCommandsSet :
    (∃ (s : State) (n : SlotId), s.notRelayed n ∧ let x := s.slots[n]; s.runs n 0x0204 = true ∧ x.ctxNo ≠ 0 ∧ 1000 ≤ fld x.req 0 4 ∧ fld x.req 0 4 ≤
      60000000) ∧
    (∃ (s : State) (n : SlotId), s.notRelayed n ∧ let x := s.slots[n]; s.runs n 0x0303 = true ∧ maskBad (fld x.req 0 8) true = false ∧ fld x.req 0 8 ≠
      0) ∧
    (∃ (s : State) (n : SlotId), s.notRelayed n ∧ s.runs n 0x0A02 = true) ∧
    (∃ (s : State) (n : SlotId) (y : _), s.notRelayed n ∧ let x := s.slots[n]; s.runs n 0x0A01 = true ∧ s.mem.selfRefresh = false ∧ fld x.req 0 1 = 1
      ∧ s.scalesBad x = none ∧ s.numOf x.ctxNo = some y ∧ ((s.scheds.any fun z => z.ctx = x.ctxNo && z.active) = false) ∧ (((List.range (fld x.req 4
      2)).all fun i => scaleEntOk (sub (sub x.req 8 (32 * fld x.req 4 2)) (32 * i) 32)) = true)) ∧
    (∃ (s : State) (n : SlotId), s.notRelayed n ∧ let x := s.slots[n]; s.runs n 0x0C01 = true ∧ let b := x.req; fld b 0x28 8 ≤ s.now ∧ s.now ≤ fld b
      0x28 8 + 600000000000 ∧ bit (fld b 0x30 4) (fld b 0 2) = true ∧ (bit (fld b 2 2) 0 = true → bit (fld b 0x30 4) 31 = true) ∧ 1 ≤ fld b 0 2 ∧ fld
      b 0 2 ≤ 0x0E ∧ 1 ≤ fld b 4 4 ∧ fld b 4 4 ≤ 1024 ∧ paramOk (fld b 0 2) (fld b 0x18 8) = true ∧ s.guard.injections.length < 16 ∧ s.guard.ticketUse
      (BitVec.ofNat 64 (fld b 0x28 8)) (BitVec.ofNat 32 (fld b 0x30 4)) < 16) ∧
    (∃ (s : State) (n : SlotId) (y : _) (h : _), s.notRelayed n ∧ let x := s.slots[n]; s.runs n 0x0805 = true ∧ s.mem.selfRefresh = false ∧ fld x.req
      0 1 = 5 ∧ s.collated = some y ∧ s.hopOf (BitVec.ofNat 64 (fld x.req 8 8)) 0 = some h) ∧
    (∃ (s : State) (n : SlotId), s.notRelayed n ∧ let x := s.slots[n]; s.runs n 0x0805 = true ∧ s.mem.selfRefresh = false ∧ fld x.req 0 1 = 6) :=
  ⟨⟨at0 0x0204 1 (le 4 60000000), 0, by decide +kernel⟩,
   ⟨at0 0x0303 0 (le 8 2), 0, by decide +kernel⟩,
   ⟨at0 0x0A02 1 [], 0, by decide +kernel⟩,
   ⟨holding (at0 0x0A01 1 (le 2 1 ++ le 2 0 ++ le 4 1 ++ scaleEnt)) scaled, 0, scaled, by decide +kernel⟩,
   ⟨at0 0x0C01 0 (le 2 0x0E ++ le 2 0 ++ le 4 1024 ++ zeros 0x28 ++ le 4 0x4000 ++ zeros 132), 0, by decide +kernel⟩,
   ⟨{ holding (at0 0x0805 0 (le 8 5 ++ le 8 7)) (col .running) with hops := [hop7 0] }, 0, col .running, hop7 0, by decide +kernel⟩,
   ⟨at0 0x0805 0 (le 8 6), 0, by decide +kernel⟩⟩

/-- The hypotheses of ContextsOpenAndClose. -/
theorem met_ContextsOpenAndClose :
    (∃ (s : State) (n : SlotId), let x := s.slots[n]; let b := x.req; s.runs n 0x0201 = true ∧ fld b 0 1 % 64 ≠ 0 ∧ s.ctxs[ctxId (fld b 0 1 %
      64)].isOpen = false ∧ fld b 0x10 4 ≤ 49152 ∧ fld b 0x14 4 ≤ 262144 ∧ (((bitList (fld b 8 8) 64).any fun i => imgClass s.act i ≠ 1) = false) ∧
      (((bitList (fld b 8 8) 64).any fun i => s.slots[ctxId i].bound.isSome) = false)) ∧
    (∃ (s : State) (n : SlotId), let x := s.slots[n]; s.runs n 0x0202 = true ∧ x.ctxNo ≠ 0 ∧ ((s.scheds.any fun y => y.ctx = x.ctxNo && y.active) =
      false) ∧ s.pinCount x.ctxNo = 0 ∧ ((s.mem.regions.any fun r => r.ctx = x.ctxNo && s.protectedIn r.base r.size) = false)) ∧
    (∃ (s : State) (n : SlotId), let x := s.slots[n]; s.runs n 0x0203 = true ∧ x.ctxNo ≠ 0 ∧ s.ctxs[ctxId x.ctxNo].resetting = false) ∧
    (∃ (s : State) (n : SlotId), let x := s.slots[n]; s.runs n 0x0203 = true ∧ x.ctxNo ≠ 0 ∧ s.ctxs[ctxId x.ctxNo].resetting = true) :=
  ⟨⟨at0 0x0201 0 (le 8 63 ++ le 8 0 ++ le 4 49152 ++ le 4 262144 ++ zeros 8), 0, by decide +kernel⟩,
   ⟨at0 0x0202 1 [], 0, by decide +kernel⟩,
   ⟨at0 0x0203 1 [], 0, by decide +kernel⟩,
   ⟨{ at0 0x0203 1 [] with ctxs := ready.ctxs.set 1 { Ctx.reset with isOpen := true, resetting := true } }, 0, by decide +kernel⟩⟩

/-- The hypotheses of PressesAndLinkCommandsAct. -/
theorem met_PressesAndLinkCommandsAct :
    (∃ (s : State) (n : SlotId), let mask := BitVec.ofNat 64 (fld s.slots[n].req 0 8); let m := s.merged mask s.cfg.shadow; s.runs n 0x0301 = true ∧
      maskBad (fld s.slots[n].req 0 8) false = false ∧ fld s.slots[n].req 0 8 ≠ 0 ∧ ((s.cfg.pendings.any fun r => r.mask &&& mask ≠ 0) = false) ∧
      firstFailing s.guard.keys m = 0 ∧ s.pressBusy mask m = none ∧ bit mask.toNat 0 = true ∧ s.notRelayed n) ∧
    (∃ (s : State) (n : SlotId), let mask := BitVec.ofNat 64 (fld s.slots[n].req 0 8); let m := s.merged mask s.cfg.shadow; s.runs n 0x0301 = true ∧
      maskBad (fld s.slots[n].req 0 8) false = false ∧ fld s.slots[n].req 0 8 ≠ 0 ∧ ((s.cfg.pendings.any fun r => r.mask &&& mask ≠ 0) = false) ∧
      firstFailing s.guard.keys m = 0 ∧ s.pressBusy mask m = none ∧ bit mask.toNat 0 = false ∧ s.maskInUse mask = false) ∧
    (∃ (s : State) (n : SlotId), let mask := BitVec.ofNat 64 (fld s.slots[n].req 0 8); let m := s.merged mask s.cfg.shadow; s.runs n 0x0301 = true ∧
      maskBad (fld s.slots[n].req 0 8) false = false ∧ fld s.slots[n].req 0 8 ≠ 0 ∧ ((s.cfg.pendings.any fun r => r.mask &&& mask ≠ 0) = false) ∧
      firstFailing s.guard.keys m = 0 ∧ s.pressBusy mask m = none ∧ bit mask.toNat 0 = false ∧ s.maskInUse mask = true) ∧
    (∃ (s : State) (n : SlotId) (q : Port), let full := BitVec.ofNat 64 (2 ^ (q.val + 16)); let m := s.merged full s.cfg.shadow; s.runs n 0x0601 =
      true ∧ fld s.slots[n].req 0 2 = 2 ^ q.val ∧ ((s.cfg.pendings.any fun r => r.mask &&& full ≠ 0) = false) ∧ firstFailing s.guard.keys m = 0 ∧
      s.linkRow m = 0 ∧ s.maskInUse full = false ∧ s.portNamed q.val = false ∧ portChanges s.act m q.val = false ∧ s.ports[q].settled = true ∧
      s.ports[q].st ≠ .down) ∧
    (∃ (s : State) (n : SlotId) (q : Port), let full := BitVec.ofNat 64 (2 ^ (q.val + 16)); let m := s.merged full s.cfg.shadow; s.runs n 0x0601 =
      true ∧ fld s.slots[n].req 0 2 = 2 ^ q.val ∧ ((s.cfg.pendings.any fun r => r.mask &&& full ≠ 0) = false) ∧ firstFailing s.guard.keys m = 0 ∧
      s.linkRow m = 0 ∧ s.maskInUse full = false ∧ s.portNamed q.val = false ∧ portChanges s.act m q.val = true ∧ s.ports[q].carries = false ∧ lnkRole
      m q.val ≠ 0 ∧ s.scheds = [] ∧ s.guard.devState = .ready) ∧
    (∃ (s : State) (n : SlotId), let mask := fld s.slots[n].req 0 2; let full := BitVec.ofNat 64 (mask * 65536); let m := s.merged full s.cfg.shadow;
      s.runs n 0x0601 = true ∧ mask ≠ 0 ∧ ((s.cfg.pendings.any fun r => r.mask &&& full ≠ 0) = false) ∧ s.linkRow m = 0 ∧ s.notRelayed n ∧ (∀ q ∈
      bitList mask 12, portChanges s.act m q = true ∧ s.portNamed q = true)) ∧
    (∃ (s : State) (n : SlotId), s.notRelayed n ∧ let b := s.slots[n].req; s.runs n 0x0603 = true ∧ fld b 0 1 = 0 ∧ fld b 2 2 ≠ 0 ∧ fld b 2 2 ≤ 120 ∧
      8 + 32 * fld b 2 2 ≤ b.length ∧ (∀ i, i < fld b 2 2 → (hopAt b i).formed = true ∧ { s with hops := s.hops ++ (List.range i).map (hopAt b)
      }.hopBad (hopAt b i) = none)) ∧
    (∃ (s : State) (n : SlotId), s.notRelayed n ∧ let b := s.slots[n].req; let ids := (List.range (fld b 2 2)).map fun i => (hopAt b i).resId; s.runs
      n 0x0603 = true ∧ fld b 0 1 = 1 ∧ fld b 2 2 ≠ 0 ∧ fld b 2 2 ≤ 120 ∧ 8 + 32 * fld b 2 2 ≤ b.length ∧ ids.Nodup ∧ (∀ r ∈ ids, r ≠ 0 ∧ (∃ h ∈
      s.hops, h.resId = r) ∧ ∀ x ∈ s.scheds, x.active = true → x.namesRes r = false)) ∧
    (∃ (s : State) (n : SlotId), s.notRelayed n ∧ let b := s.slots[n].req; s.runs n 0x0604 = true ∧ 1000 ≤ fld b 4 4 ∧ fld b 4 4 ≤ 3600000 ∧ fld b 0 2
      ≠ 0 ∧ (∃ p ∈ portsOf (fld b 0 2), s.ports[p].st = .up)) ∧
    (∃ (s : State) (n : SlotId), s.notRelayed n ∧ let b := s.slots[n].req; s.runs n 0x0604 = true ∧ 1000 ≤ fld b 4 4 ∧ fld b 4 4 ≤ 3600000 ∧ fld b 0 2
      ≠ 0 ∧ portsOf (fld b 0 2) ≠ [] ∧ (∀ p ∈ portsOf (fld b 0 2), s.ports[p].st ≠ .up)) ∧
    (∃ (s : State) (n : SlotId) (mask : _) (t : _) (soaks : List Soak), s.notRelayed n ∧ s.slots[n].held = .qualify mask t ∧ s.slots[n].hdr.state = 2
      ∧ t ≤ s.clock ∧ (∀ k ∈ soaks, soakPass k = true)) ∧
    (∃ (s : State) (n : SlotId), s.notRelayed n ∧ let b := s.slots[n].req; s.runs n 0x0605 = true ∧ bit (fld b 2 1) 0 = false ∧ fld b 0 2 < 4096 ∧ fld
      b 0 2 ≠ 0 ∧ (portsOf (fld b 0 2)).any s.isHost = false) ∧
    (∃ (s : State) (n : SlotId), s.notRelayed n ∧ let b := s.slots[n].req; s.runs n 0x0605 = true ∧ bit (fld b 2 1) 0 = true ∧ fld b 0 2 < 4096 ∧ fld
      b 0 2 ≠ 0 ∧ (((portsOf (fld b 0 2)).any fun p => s.isHost p || s.ports[p].st ≠ .quarantined) = false)) :=
  ⟨⟨at0 0x0301 0 (le 8 1), 0, by decide +kernel⟩,
   ⟨at0 0x0301 0 (le 8 0x80), 0, by decide +kernel⟩,
   ⟨holding (at0 0x0301 0 (le 8 8)) (sched1 image0 .running), 0, by decide +kernel⟩,
   ⟨at0 0x0601 0 (le 8 0x800), 0, 11, by decide +kernel⟩,
   ⟨{ at0 0x0601 0 (le 8 0x800) with cfg.shadow := imgSet [] 0x1B000 0x30 }, 0, 11, by decide +kernel⟩,
   ⟨pressNamed, 0, by decide +kernel⟩,
   ⟨withCmd linked 0 0x0603 0 install, 0, by decide +kernel⟩,
   ⟨{ at0 0x0603 0 (le 2 1 ++ le 2 1 ++ le 4 0 ++ hopBytes) with hops := [hop7 0] }, 0, by decide +kernel, by decide +kernel, by decide +kernel,
     by decide +kernel, by decide +kernel, by decide +kernel, by decide +kernel, forOne (a := 7) (by decide +kernel) (by decide +kernel)⟩,
   ⟨{ at0 0x0604 0 (le 2 0x800 ++ le 2 0 ++ le 4 3600000) with ports := peerReady.ports }, 0, by decide +kernel⟩,
   ⟨at0 0x0604 0 (le 2 0x800 ++ le 2 0 ++ le 4 1000), 0, by decide +kernel⟩,
   ⟨{ ready with slots := ready.slots.set 0 { Slot.reset with hdr := { Hdr.reset with state := 2 }, held := .qualify 0x800 0 } }, 0, 0x800, 0, [],
     by decide +kernel⟩,
   ⟨at0 0x0605 0 (le 2 0x800 ++ le 6 0), 0, by decide +kernel⟩,
   ⟨{ at0 0x0605 0 (le 2 0x800 ++ le 6 1) with ports := ready.ports.set 11 { PortS.reset with st := .quarantined } }, 0, by decide +kernel⟩⟩

/-- The hypotheses of SchedulesLoadAdmitArmAndCancel. -/
theorem met_SchedulesLoadAdmitArmAndCancel :
    (∃ (s : State) (n : SlotId), let x := s.slots[n]; let b := x.req; let c := x.ctxNo; s.runs n 0x0401 = true ∧ s.notRelayed n ∧ s.mem.selfRefresh =
      false ∧ fld b 0 2 ≠ 0 ∧ let addr := fld b 8 8; let len := fld b 0x10 8; let m := s.memRead addr len; 0 < len ∧ addr + len ≤ nearSize ∧
      s.mappedTo c addr len = true ∧ s.scheds.length < 16 ∧ (s.sched (fld b 0 2)).isSome = false ∧ s.rangePoisoned addr len = false ∧ fld m 0 2 =
      0x0512 ∧ fld m 2 1 = 1 ∧ 256 ≤ len ∧ secOff m 0 ≠ 0 ∧ secOff m 2 ≠ 0 ∧ secOff m 11 ≠ 0 ∧ secsFit m = true ∧ let i := parseImage addr m;
      s.loadResource i = none ∧ ((i.progs.any fun p => s.rangePoisoned p.addr (32 * p.packets)) = false) ∧ firstFail (s.loadFails c (addr, len) m i) =
      none) ∧
    (∃ (s : State) (n : SlotId) (y : _), let x := s.slots[n]; let b := x.req; let c := x.ctxNo; s.runs n 0x0402 = true ∧ s.notRelayed n ∧ s.sched (fld
      b 0 2) = some y ∧ y.ctx = c ∧ y.state = .loaded ∧ let np := y.image.phases.length; let sims := s.sims y.image noCap;
      let times := (List.range np).map (timeOf sims); s.admFail y times sims = none) ∧
    (∃ (s : State) (n : SlotId) (y : _), let x := s.slots[n]; let b := x.req; let c := x.ctxNo; s.runs n 0x0403 = true ∧ s.ownSched c (fld b 0 2) =
      some y ∧ y.state = .admitted ∧ s.lockedFor y.image.machineScope = true ∧ s.beyondSync y.image = false ∧ fld b 8 8 % 8 = 0 ∧ s.takenStitch n +
      100000 ≤ fld b 8 8) ∧
    (∃ (s : State) (n : SlotId) (y : _), let x := s.slots[n]; let b := x.req; let c := x.ctxNo; s.runs n 0x0404 = true ∧ bit (fld b 2 1) 0 = false ∧
      s.ownSched c (fld b 0 2) = some y) ∧
    (∃ (s : State) (n : SlotId) (y : _), let x := s.slots[n]; let b := x.req; let c := x.ctxNo; s.runs n 0x0404 = true ∧ bit (fld b 2 1) 0 = true ∧
      s.ownSched c (fld b 0 2) = some y ∧ y.state = .running ∧ y.between = false ∧ y.cancel ≠ some false) :=
  ⟨⟨stocked 0x0401 (le 8 1 ++ le 8 0 ++ le 8 456), 0, by decide +kernel⟩,
   ⟨holding (stocked 0x0402 (le 8 1)) (loaded1 .loaded), 0, loaded1 .loaded, by decide +kernel⟩,
   ⟨{ holding (at0 0x0403 1 (le 8 1 ++ le 8 100000)) (sched1 image0 .admitted) with time.tstate := .locked, time.groupPath := 0 }, 0, sched1 image0
     .admitted, by decide +kernel⟩,
   ⟨holding (at0 0x0404 1 (le 4 1)) (col .running), 0, col .running, by decide +kernel⟩,
   ⟨holding (at0 0x0404 1 (le 4 0x10001)) running, 0, running, by decide +kernel⟩⟩

/-- The hypotheses of MemoryCommandsAct. -/
theorem met_MemoryCommandsAct :
    (∃ (s : State) (n : SlotId) (base : _) (t : _), let x := s.slots[n]; let b := x.req; let c := x.ctxNo; s.runs n 0x0501 = true ∧ fld b 0 1 ≤ 5 ∧ 10
      ≤ fld b 1 1 ∧ fld b 1 1 ≤ 40 ∧ fld b 8 8 % 1024 = 0 ∧ fld b 8 8 ≠ 0 ∧ s.overQuota c (fld b 0 1) (fld b 8 8) = false ∧ ((s.mem.regions.filter fun
      r => r.ctx = c).length < 4096) ∧ s.grantBase (fld b 0 1) (fld b 8 8) (2 ^ fld b 1 1) = (some base, t)) ∧
    (∃ (s : State) (n : SlotId) (r : _), let x := s.slots[n]; let b := x.req; let c := x.ctxNo; s.runs n 0x0502 = true ∧ (s.mem.regions.find? (fun r
      => r.id = fld b 0 4) = some r) ∧ (c = 0 ∨ r.ctx = c) ∧ s.referenced r = false ∧ s.protectedIn r.base r.size = false) ∧
    (∃ (s : State) (n : SlotId), let x := s.slots[n]; let b := x.req; let c := x.ctxNo; s.runs n 0x0503 = true ∧ s.mem.selfRefresh = false ∧ fld b 0 1
      ≤ 1 ∧ fld b 0x18 8 ≤ 2 ^ 40 ∧ fld b 0x18 8 ≠ 0 ∧ ((if c = 0 then (sheetRange (fld b 0x10 8) (fld b 0x18 8)).all fun sh => (s.regionOf (sh *
      1024) 1024).isSome else s.mappedTo c (fld b 0x10 8) (fld b 0x18 8)) = true) ∧ fld b 0 1 = 1) ∧
    (∃ (s : State) (n : SlotId), let x := s.slots[n]; let b := x.req; let c := x.ctxNo; s.runs n 0x0503 = true ∧ s.mem.selfRefresh = false ∧ fld b 0 1
      ≤ 1 ∧ fld b 0x18 8 ≤ 2 ^ 40 ∧ fld b 0x18 8 ≠ 0 ∧ ((if c = 0 then (sheetRange (fld b 0x10 8) (fld b 0x18 8)).all fun sh => (s.regionOf (sh *
      1024) 1024).isSome else s.mappedTo c (fld b 0x10 8) (fld b 0x18 8)) = true) ∧ let dev := fld b 0x10 8; let len := fld b 0x18 8;
      let ctr := 512 * bits (fld b 2 2) 9 4 + bits (fld b 2 2) 0 9; fld b 0 1 = 0 ∧ s.sealed dev len = false ∧ (bit (fld b 2 2) 15 = true → s.ownsCtr
      c ctr = true)) ∧
    (∃ (s : State) (n : SlotId) (base : _) (t : _), let x := s.slots[n]; let b := x.req; let c := x.ctxNo; s.runs n 0x0B01 = true ∧ fld b 0x10 8 ≠ 0 ∧
      fld b 0x10 8 % 0x100000 = 0 ∧ fld b 0x10 8 ≤ 0x100000000 ∧ fld b 0x18 1 ≤ 1 ∧ s.traces.length < 8 ∧ s.overQuota c 0 (fld b 0x10 8) = false ∧
      s.grantBase 0 (fld b 0x10 8) 1024 = (some base, t)) :=
  ⟨⟨oneFree, 0, scratchBase 0, { oneFree with free := 1 }, by decide +kernel, by decide +kernel, by decide +kernel, by decide +kernel,
     by decide +kernel, by decide +kernel, by decide +kernel, by decide +kernel, grantOne oneFree 2 50331648 1024 (scratchBase 0) (by decide +kernel)
     (by decide +kernel)⟩,
   ⟨{ at0 0x0502 0 (le 4 1) with mem.regions := [region1] }, 0, region1, by decide +kernel⟩,
   ⟨{ at0 0x0503 1 (le 8 1 ++ le 8 0 ++ le 8 0 ++ le 8 1024) with mem.regions := [region1] }, 0, by decide +kernel⟩,
   ⟨{ at0 0x0503 1 (zeros 16 ++ le 8 0 ++ le 8 1024) with mem.regions := [region1] }, 0, by decide +kernel⟩,
   ⟨oneFreeNear, 0, nearSize - 0x100000, { oneFreeNear with free := 1 }, by decide +kernel, by decide +kernel, by decide +kernel, by decide +kernel,
     by decide +kernel, by decide +kernel, by decide +kernel, grantOne oneFreeNear 0 0x100000 1024 (nearSize - 0x100000) (by decide +kernel)
     (by decide +kernel)⟩⟩

/-- The hypotheses of UnmappingIsRefusedOrDone. -/
theorem met_UnmappingIsRefusedOrDone :
    (∃ (s : State) (n : SlotId), s.runs n 0x0502 = true ∧ let x := s.slots[n]; (s.mem.regions.find? (fun r => r.id = fld x.req 0 4) = none)) ∧
    (∃ (s : State) (n : SlotId) (r : _), s.runs n 0x0502 = true ∧ let x := s.slots[n]; (s.mem.regions.find? (fun r => r.id = fld x.req 0 4) = some r)
      ∧ x.ctxNo ≠ 0 ∧ r.ctx ≠ x.ctxNo) ∧
    (∃ (s : State) (n : SlotId) (r : _), s.runs n 0x0502 = true ∧ let x := s.slots[n]; (s.mem.regions.find? (fun r => r.id = fld x.req 0 4) = some r)
      ∧ (x.ctxNo = 0 ∨ r.ctx = x.ctxNo) ∧ (s.referenced r = true ∨ s.protectedIn r.base r.size = true)) ∧
    (∃ (s : State) (n : SlotId) (r : _), s.runs n 0x0502 = true ∧ let x := s.slots[n]; (s.mem.regions.find? (fun r => r.id = fld x.req 0 4) = some r)
      ∧ (x.ctxNo = 0 ∨ r.ctx = x.ctxNo) ∧ s.referenced r = false ∧ s.protectedIn r.base r.size = false) :=
  ⟨⟨at0 0x0502 1 (le 4 0), 0, by decide +kernel⟩,
   ⟨{ at0 0x0502 2 (le 4 1) with mem.regions := [region1] }, 0, region1, by decide +kernel⟩,
   ⟨{ at0 0x0502 1 (le 4 1) with mem.regions := [region1], scheds := [{ sched1 image0 .loaded with refs := [(1023, 1)] }] }, 0, region1,
     by decide +kernel⟩,
   ⟨{ at0 0x0502 0 (le 4 1) with mem.regions := [region1] }, 0, region1, by decide +kernel⟩⟩

/-- The hypotheses of CollationCommandsAct. -/
theorem met_CollationCommandsAct :
    (∃ (s : State) (n : SlotId) (x : _), let b := s.slots[n].req; s.runs n 0x0802 = true ∧ s.collated = some x ∧ bit (fld b 8 1) 0 = false ∧
      ((x.pendingStep = some (fld b 0 8) ∧ x.state = .admitted) ∨ (x.coll.state = .escalated ∧ x.step = fld b 0 8)) ∧ (∀ i k, s.slots[ctxId i].held ≠
      .replay x.id k)) ∧
    (∃ (s : State) (n : SlotId) (x : _), let b := s.slots[n].req; s.runs n 0x0802 = true ∧ s.collated = some x ∧ bit (fld b 8 1) 0 = false ∧ x.state =
      .running ∧ x.coll.state ≠ .escalated ∧ x.active = true ∧ x.launchStep = fld b 0 8 ∧ (∀ i k, s.slots[ctxId i].held ≠ .replay x.id k)) ∧
    (∃ (s : State) (n : SlotId), let b := s.slots[n].req; s.runs n 0x0803 = true ∧
      let m := (s.activeFolios.filter fun l => bit (fld b 0 2) l).foldl (fun a l => a + 2 ^ l) 0; m ≠ 0) ∧
    (∃ (s : State) (n : SlotId) (answers : _) (x : _) (r : _), let b := s.slots[n].req; s.runs n 0x0804 = true ∧ s.mem.selfRefresh = false ∧ fld b 0 1
      = 1 ∧ s.admitRefusal b answers = none ∧ s.sched (fld b 4 2) = some x ∧
      let t := (s.askLoads x answers (fld b 1 1) 1 (fld b 2 1) 2).loadState x 1 2 answers; t.1 = some r) ∧
    (∃ (s : State) (n : SlotId) (answers : _) (x : _) (r : _), let b := s.slots[n].req; s.runs n 0x0804 = true ∧ s.mem.selfRefresh = false ∧ fld b 0 1
      = 2 ∧ s.admitRefusal b answers = none ∧ s.sched (fld b 4 2) = some x ∧
      let t := (s.askLoads x answers (fld b 1 1) 2 (fld b 1 1) 1).loadState x 2 1 answers; t.1 = some r) ∧
    (∃ (s : State) (n : SlotId) (x : _) (u : _), let b := s.slots[n].req; s.runs n 0x0805 = true ∧ s.mem.selfRefresh = false ∧ (fld b 0 1 = 1 ∨ fld b
      0 1 = 2) ∧ s.collated = some x ∧ fld b 24 8 ≠ 0 ∧ x.mirrorOf (fld b 0 1 = 1) (fld b 2 2) = some u ∧ fld b 16 8 + fld b 24 8 ≤ u.count) :=
  ⟨⟨holding (at0 0x0802 1 (le 8 0 ++ le 8 0)) { col .admitted with pendingStep := some 0 }, 0, { col .admitted with pendingStep := some 0 },
     by decide +kernel, by decide +kernel, by decide +kernel, by decide +kernel, noReplays (by decide +kernel)⟩,
   ⟨holding (at0 0x0802 1 (le 8 0 ++ le 8 0)) running, 0, running, by decide +kernel, by decide +kernel, by decide +kernel, by decide +kernel,
     by decide +kernel, by decide +kernel, by decide +kernel, noReplays (by decide +kernel)⟩,
   ⟨at0 0x0803 0 (le 8 0x80), 0, by decide +kernel⟩,
   ⟨admitCmd 1, 0, [], col .admitted, (0, false), by decide +kernel⟩,
   ⟨admitCmd 2, 0, [], col .admitted, (0, false), by decide +kernel⟩,
   ⟨holding (at0 0x0805 1 (le 2 1 ++ zeros 14 ++ le 8 0 ++ le 8 8)) mirrored, 0, mirrored, { update0 true with count := 8 }, by decide +kernel⟩⟩

/-- The hypotheses of CheckpointCommandsAct. -/
theorem met_CheckpointCommandsAct :
    (∃ (s : State) (n : SlotId) (replies : _) (t : _) (k : _), let x := s.slots[n]; let b := x.req; s.runs n 0x0901 = true ∧ fld b 0 1 ≠ 3 ∧ fld b 1 1
      ≤ 16 ∧ 8 + 16 * fld b 1 1 ≤ b.length ∧ s.tryBegin x.ctxNo (fld b 0 1) (parseCarry b (fld b 1 1)) replies = (0, t) ∧ t.ckpts.head? = some k) ∧
    (∃ (s : State) (n : SlotId) (y : _) (rb : _), let x := s.slots[n]; let b := x.req; s.runs n 0x0903 = true ∧ s.mem.selfRefresh = false ∧ fld b 3 1
      ≠ 0 ∧ fld b 3 1 ≤ 16 ∧ 16 + 16 * fld b 3 1 ≤ b.length ∧ fld b 0 1 = 0xFF ∧ s.collated = some y ∧ y.ctx = x.ctxNo ∧ (y.state = .loaded ∨ y.state
      = .admitted) ∧ s.ckptLive = false ∧ s.loadSlot b = none ∧ (fld b 8 8 = 0 ∨ (OldRec.parse rb).id = fld b 8 8) ∧ (OldRec.parse rb).n = fld b 3 1 ∧
      (((List.range (fld b 3 1)).any fun g => holderDev b g ≠ 0 && holderDev b g ≠ (OldRec.parse rb).dev g) = false)) ∧
    (∃ (s : State) (n : SlotId) (k : _), let x := s.slots[n]; let b := x.req; s.runs n 0x0904 = true ∧ s.liveOf (fld b 0 8) = some k ∧ k.st ≠
      .committing) ∧
    (∃ (s : State) (n : SlotId) (x : _), s.runs n 0x0905 = true ∧ s.mem.selfRefresh = false ∧ let b := s.slots[n].req; fld b 0 1 = 1 ∧ fld b 2 1 ≤ 2 ∧
      (∀ k, s.liveCkpt = some k → k.st = .begun ∧ k.id = fld b 8 8 ∧ fld b 1 1 ≤ k.init) ∧ s.collated = some x ∧ (s.lastStep x).isSome = true) ∧
    (∃ (s : State) (n : SlotId) (k : _), s.runs n 0x0905 = true ∧ s.mem.selfRefresh = false ∧ let b := s.slots[n].req; fld b 0 1 = 2 ∧ s.knownCkpt
      (fld b 8 8) = some k ∧ fld b 1 1 < imgGroupSize s.act) ∧
    (∃ (s : State) (n : SlotId) (k : _), s.runs n 0x0905 = true ∧ s.mem.selfRefresh = false ∧ let b := s.slots[n].req; fld b 0 1 = 3 ∧ b.length = 16 +
      32 * fld b 2 1 ∧ fld b 2 1 = imgGroupSize s.act ∧ s.liveOf (fld b 8 8) = some k ∧ ((k.hashes.any fun h => h.1 = fld b 1 1) = false)) ∧
    (∃ (s : State) (n : SlotId), s.runs n 0x0905 = true ∧ s.mem.selfRefresh = false ∧ let b := s.slots[n].req; fld b 0 1 = 4 ∧ fld b 1 1 = 1 ∧ fld b 2
      1 ≤ 1 ∧ s.slotValid (fld b 2 1) = true ∧ s.routeOpen (BitVec.ofNat 64 (fld b 16 8)) = true) ∧
    (∃ (s : State) (n : SlotId) (k : _), s.runs n 0x0905 = true ∧ s.mem.selfRefresh = false ∧ let b := s.slots[n].req; fld b 0 1 = 5 ∧ ((List.range
      2).find? (fun k => s.slotValid k && s.slotId k = fld b 8 8) = some k) ∧ fld b 1 1 ≤ 15 ∧
      let z := s.memNat (s.slotBase k + 0x540 + 8 * fld b 1 1) 8; let a := s.pieceAt k (fld b 1 1); s.rangePoisoned a z = false ∧ fld b 16 8 + fld b
      24 8 ≤ z ∧ sha512t256 (s.memRead a z) = sub b 32 32 ∧ fld b 24 8 ≠ 0 ∧ s.routeOpen (BitVec.ofNat 64 (fld b 64 8)) = true) ∧
    (∃ (s : State) (n : SlotId) (k : _), s.runs n 0x0905 = true ∧ s.mem.selfRefresh = false ∧ let b := s.slots[n].req; fld b 0 1 = 6 ∧ s.liveOf (fld b
      8 8) = some k) :=
  ⟨⟨ckptCmd 0x0901 1 (zeros 8), 0, [], begun, begun.ckpts.head?.getD (ckpt1 .begun), by decide +kernel, by decide +kernel, by decide +kernel,
     by decide +kernel, pairOf (by decide +kernel), headOf (by decide +kernel)⟩,
   ⟨holding (at0 0x0903 1 (le 4 0x010000FF ++ zeros 28)) (col .loaded), 0, col .loaded, oldRecord, by decide +kernel⟩,
   ⟨{ at0 0x0904 1 (le 8 1) with ckpts := [ckpt1 .copying] }, 0, ckpt1 .copying, by decide +kernel⟩,
   ⟨ckptCmd 0x0905 0 (le 2 1 ++ [2] ++ zeros 61), 0, { col .admitted with lastCollated := some 0 }, by decide +kernel⟩,
   ⟨peerState (ckpt1 .draining) (le 8 2 ++ le 8 1), 0, ckpt1 .draining, by decide +kernel⟩,
   ⟨peerState (ckpt1 .draining) (le 2 3 ++ [1] ++ zeros 5 ++ le 8 1 ++ zeros 32), 0, ckpt1 .draining, by decide +kernel⟩,
   ⟨peerState (ckpt1 .committed) (le 2 0x104 ++ zeros 14 ++ le 8 7 ++ le 8 0), 0, by decide +kernel⟩,
   ⟨peerState (ckpt1 .committed) fetchBytes, 0, 0, by decide +kernel⟩,
   ⟨peerState (ckpt1 .copying) (le 8 6 ++ le 8 1), 0, ckpt1 .copying, by decide +kernel⟩⟩

/-- The hypotheses of StreamPacketsAct. -/
theorem met_StreamPacketsAct :
    (∃ (s : State) (e : EngId) (g : Grant) (x : Sched) (b : Bytes), s.engines[e].hung = false ∧ s.nextPacket e 0 = some (g, x, b)) ∧
    (∃ (s : State) (e : EngId) (g : Grant) (x : Sched) (b : Bytes), s.engines[e].hung = false ∧ s.nextPacket e 1 = some (g, x, b)) ∧
    (∃ (s : State) (e : EngId) (g : Grant) (x : Sched) (b : Bytes), s.engines[e].hung = false ∧ s.nextPacket e 2 = some (g, x, b) ∧ fld b 8 4 = 0) ∧
    (∃ (s : State) (e : EngId) (g : Grant) (x : Sched) (b : Bytes), s.engines[e].hung = false ∧ s.nextPacket e 2 = some (g, x, b) ∧ fld b 8 4 ≠ 0) ∧
    (∃ (s : State) (e : EngId) (g : Grant) (x : Sched) (b : Bytes), s.engines[e].hung = false ∧ s.nextPacket e 3 = some (g, x, b) ∧ fld b 8 4 = 0) ∧
    (∃ (s : State) (e : EngId) (g : Grant) (x : Sched) (b : Bytes), s.engines[e].hung = false ∧ s.nextPacket e 3 = some (g, x, b) ∧ fld b 8 4 ≠ 0 ∧
      fld b 6 1 = 0xFF) ∧
    (∃ (s : State) (e : EngId) (g : Grant) (x : Sched) (b : Bytes) (p : _) (res : _) (h : _) (port : _), s.engines[e].hung = false ∧ s.nextPacket e 3
      = some (g, x, b) ∧ fld b 8 4 ≠ 0 ∧ fld b 6 1 ≠ 0xFF ∧ x.alone g.phase = false ∧ x.image.peers[fld b 6 1]? = some p ∧ (s.countIssue e x).routeOf
      x p.resv = some (res, h) ∧ (s.countIssue e x).routeUp h = true ∧ portId h.outPort = some port) ∧
    (∃ (s : State) (e : EngId) (g : Grant) (x : Sched) (b : Bytes) (ev : List MemEvent), s.engines[e].hung = false ∧ s.nextPacket e 4 = some (g, x, b)
      ∧ let u := s.memEvents ev (pkTag b) (s.unitByte e);
      let n := if fld b 4 1 = 0 then fld b 8 4 else (AMap.get zero32 u.engines[e].regs (fld b 5 1 % 16)).toNat; fld b 4 1 ≤ 1 ∧ n ≤ fld b 0xC 4 ∧ n ≠
      0) ∧
    (∃ (s : State) (e : EngId) (g : Grant) (x : Sched) (b : Bytes) (ev : List MemEvent) (p : _), s.engines[e].hung = false ∧ s.nextPacket e 4 = some
      (g, x, b) ∧ let u := s.memEvents ev (pkTag b) (s.unitByte e);
      let n := if fld b 4 1 = 0 then fld b 8 4 else (AMap.get zero32 u.engines[e].regs (fld b 5 1 % 16)).toNat; fld b 4 1 ≤ 1 ∧ n ≤ fld b 0xC 4 ∧ n =
      0 ∧ x.prog g = some p) ∧
    (∃ (s : State) (e : EngId) (g : Grant) (x : Sched) (b : Bytes) (l : _), s.engines[e].hung = false ∧ s.nextPacket e 5 = some (g, x, b) ∧
      s.engines[e].loops.getLast? = some l) ∧
    (∃ (s : State) (e : EngId) (g : Grant) (x : Sched) (b : Bytes), s.engines[e].hung = false ∧ s.nextPacket e 6 = some (g, x, b)) ∧
    (∃ (s : State) (e : EngId) (t : Entry), (s.engines[e].entries.find? (fun t => pkOp t.packet = 2 && t.waiting) = some t) ∧ fld t.packet 8 4 ≤
      (s.ctr (pkCtr t.packet)).toNat ∧ s.enginesLive = true) ∧
    (∃ (s : State) (e : EngId) (y : Sent), (s.sent.find? (fun y => y.eng = some e && y.token) = some y)) :=
  ⟨⟨atPacket 0 ([0]), 0, grant1, progOn 0, packet ([0]), by decide +kernel⟩,
   ⟨atPacket 0 ([1]), 0, grant1, progOn 0, packet ([1]), by decide +kernel⟩,
   ⟨atPacket 0 ([2]), 0, grant1, progOn 0, packet ([2]), by decide +kernel⟩,
   ⟨atPacket 0 ([2, 1, 0, 0, 0, 0, 0, 0, 1]), 0, grant1, progOn 0, packet ([2, 1, 0, 0, 0, 0, 0, 0, 1]), by decide +kernel⟩,
   ⟨atPacket 0 ([3]), 0, grant1, progOn 0, packet ([3]), by decide +kernel⟩,
   ⟨atPacket 0 ([3, 1, 0, 0, 0, 0, 0xFF, 0, 1]), 0, grant1, progOn 0, packet ([3, 1, 0, 0, 0, 0, 0xFF, 0, 1]), by decide +kernel⟩,
   ⟨atPeer, 0, grant1, peered, packet signalPacket, peer7, 7, hop7 0, 11, by decide +kernel⟩,
   ⟨atPacket 0 ([4] ++ zeros 7 ++ le 4 2 ++ le 4 2), 0, grant1, progOn 0, packet ([4] ++ zeros 7 ++ le 4 2 ++ le 4 2), [], by decide +kernel⟩,
   ⟨atPacket 0 ([4]), 0, grant1, progOn 0, packet ([4]), [], prog0 0, by decide +kernel⟩,
   ⟨{ atPacket 0 [5] with engines := ready.engines.set 0 { engine1 with queue := [packet [5]], loops := [{ idx := 0, cnt := 2, top := 0 }] } }, 0,
     grant1, progOn 0, packet [5], { idx := 0, cnt := 2, top := 0 }, by decide +kernel⟩,
   ⟨atPacket 0 ([6]), 0, grant1, progOn 0, packet ([6]), by decide +kernel⟩,
   ⟨inCommand 0 { entry1 [2] with waiting := true }, 0, { entry1 [2] with waiting := true }, by decide +kernel⟩,
   ⟨{ ready with sent := [sent1] }, 0, sent1, by decide +kernel⟩⟩

/-- The hypotheses of VectorPacketsRun. -/
theorem met_VectorPacketsRun :
    ∃ (s : State) (e : EngId) (units : Nat) (ev : List MemEvent) (p : Instr × Nat) (g : Grant) (x : Sched) (b : Bytes) (o : Opnd), p ∈ vectorCommands
      e units ev ∧ s.nextPacket e 0x40 = some (g, x, b) ∧ vxOp b = p.2 ∧ s.engines[e].hung = false ∧ let u := s.memEvents ev (pkTag b) (s.unitByte e);
      let t := u.entry e b 0; let os := u.vxOpnds x b t.idx; os.getD 0 none = some o ∧ (((List.range 5).any fun k => vxUses p.2 k && (os.getD k
      none).isNone) = false) ∧ u.vxBad b os o.lay.rows o.lay.cols = none ∧ o.lay.rows ≠ 0 ∧ o.lay.cols ≠ 0 :=
  ⟨atPacket 1 absPacket, 1, 0, [], (.abs 1 0 [], 7), grant1, progOn 1, packet absPacket, operand 1 absPacket 6, by simp [vectorCommands],
    by decide +kernel⟩

/-- The hypotheses of ArrayAndCopyPacketsRun. -/
theorem met_ArrayAndCopyPacketsRun :
    (∃ (s : State) (e : EngId) (ev : List MemEvent) (g : Grant) (x : Sched) (b : Bytes) (o : Opnd), s.nextPacket e 0x20 = some (g, x, b) ∧
      s.engines[e].hung = false ∧ let u := s.memEvents ev (pkTag b) (s.unitByte e); (u.engines[e].array.backState = .empty ∨
      u.engines[e].array.backState = .turning) ∧ (llSparse b = 0 ∨ llSplit b = 0) ∧ u.opnd x b 4 (u.entry e b 0).idx = some o ∧ u.badOpnd o o.lay.rows
      o.lay.cols = none ∧ u.opnd x b 7 (u.entry e b 0).idx = none) ∧
    (∃ (s : State) (e : EngId) (ev : List MemEvent) (g : Grant) (x : Sched) (b : Bytes) (l : Leaf) (o d : Opnd), s.nextPacket e 0x21 = some (g, x, b)
      ∧ s.engines[e].hung = false ∧ let u := s.memEvents ev (pkTag b) (s.unitByte e); let idx := (u.entry e b 0).idx;
      let rows := if srRows b = 0xFFFFFFFF then (asRead (srTrans b) o.lay).1 else srRows b; u.opnd x b 4 idx = some o ∧ u.opnd x b 0xA idx = some d ∧
      o.lay.kind ≠ 2 ∧ rows ≠ 0 ∧ (asRead (srTrans b) o.lay).2 ≠ 0 ∧ (srTurn b = true → u.engines[e].array.backState ≠ .empty ∧
      u.engines[e].array.backState ≠ .turning ∧ u.engines[e].entries.any Entry.turn = false) ∧ u.engines[e].meets (srTurn b) = some l ∧ (srSplit b = 0
      ∨ l.split = 0 ∨ srSplit b = l.split) ∧ (asRead (srTrans b) o.lay).2 = l.logk ∧ u.streamBad b o d (u.opnd x b 7 idx) [] rows (asRead (srTrans b)
      o.lay).2 l.next = none) ∧
    (∃ (s : State) (e : EngId) (ev : List MemEvent) (g : Grant) (x : Sched) (b : Bytes) (c d : Opnd), s.nextPacket e 0x60 = some (g, x, b) ∧
      s.engines[e].hung = false ∧ let u := s.memEvents ev (pkTag b) (s.unitByte e); let t := u.entry e b 0; u.opnd x b 4 t.idx = some c ∧ u.opnd x b 7
      t.idx = some d ∧ u.copyBad b c d = none ∧ c.lay.rows ≠ 0 ∧ c.lay.cols ≠ 0) ∧
    (∃ (s t : State) (e : EngId) (ev : List MemEvent) (g : Grant) (x : Sched) (b : Bytes) (c d l : Opnd) (list : List Nat), s.nextPacket e 0x61 = some
      (g, x, b) ∧ s.engines[e].hung = false ∧ let u := s.memEvents ev (pkTag b) (s.unitByte e); let y := u.entry e b 0; u.opnd x b 4 y.idx = some c ∧
      u.opnd x b 7 y.idx = some d ∧ u.opnd x b 0xA y.idx = some l ∧ u.mayRead e x l.listRange = true ∧ u.inMap l.addr 16 = true ∧ u.copyBad b c d =
      none ∧ c.lay.cols ≠ 0 ∧ d.lay.cols ≠ 0 ∧ d.lay.rows ≠ 0 ∧ u.readList none l = (some (false, list), t) ∧ list.any (badEntry l.lay.kind c.lay
      d.lay) = false) ∧
    (∃ (s : State) (e : EngId) (ev : List MemEvent) (g : Grant) (x : Sched) (b : Bytes), s.nextPacket e 0x62 = some (g, x, b) ∧ s.engines[e].hung =
      false ∧ tipLen b ≠ 0 ∧ let u := s.memEvents ev (pkTag b) (s.unitByte e); u.inMap (tipSrc b) (tipLen b) = true ∧ (pkPeer b = 0xFF → u.inMap
      (tipDst b) (tipLen b) = true)) ∧
    (∃ (s : State) (g : Grant) (x : Sched) (t : Entry), pkPeer t.packet = 0xFF ∧ pkChIn t.packet = false ∧ pkChOut t.packet = false ∧ t.chIn = none ∧
      t.chOut = none ∧ x.replaying g.phase = false ∧ s.cpeItems x { t with total := (s.cpeParts x t).length } ≠ 0) :=
  ⟨⟨atPacket 0 leafPacket, 0, [], grant1, progOn 0, packet leafPacket, operand 0 leafPacket 4, by decide +kernel⟩,
   ⟨atPacket 0 rowsPacket, 0, [], grant1, progOn 0, packet rowsPacket, leaf1, operand 0 rowsPacket 4, operand 0 rowsPacket 10, by decide +kernel⟩,
   ⟨atPacket 2 copyPacket, 2, [], grant1, progOn 2, packet copyPacket, operand 2 copyPacket 4, operand 2 copyPacket 7, by decide +kernel⟩,
   ⟨atPacket 2 listPacket, ((atPacket 2 listPacket).readList none (operand 2 listPacket 10)).2, 2, [], grant1, progOn 2, packet listPacket, operand 2
     listPacket 4, operand 2 listPacket 7, operand 2 listPacket 10, [], by decide +kernel, by decide +kernel, by decide +kernel, by decide +kernel,
     by decide +kernel, by decide +kernel, by decide +kernel, by decide +kernel, by decide +kernel, by decide +kernel, by decide +kernel,
     pairOf (by decide +kernel), by decide +kernel⟩,
   ⟨atPacket 2 tipPacket, 2, [], grant1, progOn 2, packet tipPacket, by decide +kernel⟩,
   ⟨atPacket 2 copyPacket, grant1, progOn 2, entry1 copyPacket, by decide +kernel⟩⟩

/-- The hypotheses of UpdateAndRoutePacketsRun. -/
theorem met_UpdateAndRoutePacketsRun :
    (∃ (s : State) (e : EngId) (ev : List MemEvent) (g : Grant) (x : Sched) (b : Bytes) (d : Nat) (u : UpdateE), s.nextPacket e 0x80 = some (g, x, b)
      ∧ s.engines[e].hung = false ∧ x.descOf b = some (d, u) ∧ let v := s.memEvents ev (pkTag b) (s.unitByte e); (((u.regions true ++ u.regions false
      ++ u.inputs).find? fun r => !v.inMap r.1 r.2) = none) ∧ x.probe.pass = true) ∧
    (∃ (s : State) (e : EngId) (ev : List MemEvent) (g : Grant) (x : Sched) (b : Bytes) (d : Nat) (u : UpdateE), s.nextPacket e 0x80 = some (g, x, b)
      ∧ s.engines[e].hung = false ∧ x.descOf b = some (d, u) ∧ let v := s.memEvents ev (pkTag b) (s.unitByte e); (((u.regions true ++ u.regions false
      ++ u.inputs).find? fun r => !v.inMap r.1 r.2) = none) ∧ x.probe.pass = false ∧ u.verso = true) ∧
    (∃ (s : State) (e : EngId) (ev : List MemEvent) (g : Grant) (x : Sched) (b : Bytes) (so lo co : Opnd), s.nextPacket e 0xA0 = some (g, x, b) ∧
      s.engines[e].hung = false ∧ let u := s.memEvents ev (pkTag b) (s.unitByte e); let t := u.entry e b (rtExperts b); u.opnd x b 4 t.idx = some so ∧
      u.opnd x b 7 t.idx = some lo ∧ u.opnd x b 0xA t.idx = some co ∧ u.badOpnd so so.lay.rows so.lay.cols = none ∧ u.badOpnd co 3 (rtExperts b) =
      none ∧ u.inMap lo.addr (listRegion (rtExperts b) lo.lay.rows so.lay.rows (rtTopk b)) = true ∧ let r := u.scores (u.engQuire e) so; ((r.1.any fun
      r => r.vals.any (·.2)) = false)) :=
  ⟨⟨{ atPacket 36 updatePacket with scheds := [probing] }, 36, [], grant1, probing, packet updatePacket, 0, update0 true, by decide +kernel⟩,
   ⟨atPacket 36 updatePacket, 36, [], grant1, progOn 36, packet updatePacket, 0, update0 true, by decide +kernel⟩,
   ⟨atPacket 40 routePacket, 40, [], grant1, progOn 40, packet routePacket, operand 40 routePacket 4, operand 40 routePacket 7, operand 40 routePacket
     10, by decide +kernel⟩⟩

/-- The hypotheses of EngineCommandsEnd. -/
theorem met_EngineCommandsEnd :
    (∃ (s : State) (e : EngId) (pos st : Nat) (t : Entry), s.entryAt e pos = some t ∧ s.enginesLive = true ∧ t.stopAt = none ∧ s.engines[e].wedged =
      false ∧ (∀ y ∈ s.engines[e].entries, y.pos = pos → y = t) ∧ t.work = false ∧ pkOp t.packet ≠ 0x80 ∧ s.endedWith e t = some st) ∧
    (∃ (s : State) (e : EngId) (pos st : Nat) (ev : List MemEvent) (t u : Entry), s.entryAt e pos = some t ∧ s.enginesLive = true ∧ t.stopAt = none ∧
      s.engines[e].wedged = false ∧ let v := (s.memEvents ev (pkTag t.packet) (s.unitByte e)).runAll e t; v.entryAt e pos = some u ∧ v.endedWith e u =
      some st) ∧
    (∃ (s : State) (e : EngId), s.engines[e].stopAt.isSome = true ∧ s.engines[e].noAck = false ∧ s.engines[e].wedged = false) ∧
    (∃ (s : State) (e : EngId) (t0 : Nat), s.engines[e].stopAt = some t0 ∧ t0 + 10000000 ≤ s.clock ∧ s.engines[e].wedged = false ∧ s.binder.run ≠ .off
      ∧ s.guard.resetReq = none) :=
  ⟨⟨inCommand 1 (entry1 absPacket), 1, 0, 0, entry1 absPacket, by decide +kernel⟩,
   ⟨inCommand 1 (entry1 absPacket), 1, 0, 0, [], entry1 absPacket, entry1 absPacket, by decide +kernel⟩,
   ⟨{ ready with engines := ready.engines.set 0 { engine1 with stopAt := some 0 } }, 0, by decide +kernel⟩,
   ⟨{ ready with engines := ready.engines.set 0 { engine1 with stopAt := some 0 }, time.clock := 10000000 }, 0, 0, by decide +kernel⟩⟩

/-- The hypotheses of MessagesOfCopiesAct. -/
theorem met_MessagesOfCopiesAct :
    (∃ (s : State) (p : Port) (h : Hop) (m : PartMsg), s.destHop p m.resId = some h ∧ s.refusesData p m.ctx = false ∧ ((m.pieces.all fun r =>
      s.isOpenTo m.ctx h.peerId r.1 r.2.length) = true)) ∧
    (∃ (s : State) (p : Port) (h : Hop) (m : PartMsg), s.destHop p m.resId = some h ∧ s.refusesData p m.ctx = true) ∧
    (∃ (s : State) (p : Port) (h : Hop) (m : DeclareMsg), s.destHop p m.resId = some h ∧ s.refusesData p m.ctx = false) ∧
    (∃ (s : State) (p : Port) (h : Hop) (res : _), s.destHop p res = some h) ∧
    (∃ (s : State) (p : Port) (h : Hop) (m : TokenMsg), s.destHop p m.resId = some h ∧ s.refusesData p m.ctx = false ∧ s.ownsCounter m.ctx (512 *
      m.folio + m.index) = true) ∧
    (∃ (s : State) (copy : _) (part : _) (y : _) (e : _), (s.sent.find? (fun y => y.copy = copy && !y.token && bit y.parts part && !y.down) = some y)
      ∧ y.eng = some e) :=
  ⟨⟨receiving, 10, hop7 2, part1, by decide +kernel⟩,
   ⟨{ receiving with guard.devState := .resetting }, 10, hop7 2, part1, by decide +kernel⟩,
   ⟨receiving, 10, hop7 2, { resId := 7, copy := 1, ctx := 1, parts := [] }, by decide +kernel⟩,
   ⟨receiving, 10, hop7 2, 7, by decide +kernel⟩,
   ⟨receiving, 10, hop7 2, { resId := 7, ctx := 1, folio := 0, index := 0, inc := 1, tag := 0 }, by decide +kernel⟩,
   ⟨{ ready with sent := [{ sent1 with token := false, parts := 1 }] }, 1, 0, { sent1 with token := false, parts := 1 }, 0, by decide +kernel⟩⟩

/-- The hypotheses of CountersSaturate. -/
theorem met_CountersSaturate :
    (∃ (s : State) (c n : Nat), 0 < n ∧ (s.ctr c).toNat + n < 2 ^ 32) ∧
    (∃ (s : State) (c n : Nat), 0 < n ∧ 2 ^ 32 ≤ (s.ctr c).toNat + n) ∧
    (∃ (s : State) (c : Nat) (n : Nat) (ctx : Nat) (unit : Byte) (tag : W32) (x : _), 0 < n ∧ let t := s.addCtr c n ctx unit tag; 2 ^ 32 ≤ (s.ctr
      c).toNat + n ∧ x ∈ t.scheds ∧ x.collated = true ∧ x.active = true) ∧
    (∃ (c : Nat) (n : Nat) (d : _), 0 < n ∧ d ≠ c) :=
  ⟨⟨ready, 0, 0xFFFFFFFF, by decide +kernel⟩,
   ⟨{ ready with counters := [(0, 1)] }, 0, 0xFFFFFFFF, by decide +kernel⟩,
   ⟨holding { ready with counters := [(0, 1)] } (col .running), 0, 0xFFFFFFFF, 0, 0, 0, { col .running with later := { (col .running).later with flags
     := 8 } }, by decide +kernel⟩,
   ⟨0, 1, 1, by decide +kernel⟩⟩

/-- The hypotheses of MemoryEventsAct. -/
theorem met_MemoryEventsAct :
    (∃ (s : State) (a : Nat), isTier a = true ∧ s.mem.selfRefresh = false ∧ s.fenced (a / 1024) = false) ∧
    (∃ (s : State), s.mem.selfRefresh = false) ∧
    (∃ (s : State) (a : Nat), s.mem.selfRefresh = false ∧ isTier a = true) ∧
    (∃ (s : State) (q : Quire) (a : Nat), s.mem.selfRefresh = false ∧ isTier a = false ∧ s.storeOf a = some (q.val + 2)) ∧
    (∃ (s : State) (r : Region), (s.mem.zeroQ.find? (fun r => !s.protectedIn r.base r.size) = some r) ∧ s.mem.selfRefresh = false) ∧
    (∃ (s : State) (ch t : Nat), (s.chan ch).lowSince = some t ∧ (s.chan ch).warned = true ∧ t + 60000000000 ≤ s.clock) :=
  ⟨⟨ready, nearSize - 1, by decide +kernel⟩,
   ⟨ready, by decide +kernel⟩,
   ⟨ready, farBase, by decide +kernel⟩,
   ⟨ready, 0, scratchBase 0, by decide +kernel⟩,
   ⟨{ ready with mem.zeroQ := [region1] }, region1, by decide +kernel⟩,
   ⟨{ late with mem.chans := [(0, channelLow)] }, 0, 0, by decide +kernel⟩⟩

/-- The hypotheses of TheGuardKeepsItsLimits. -/
theorem met_TheGuardKeepsItsLimits :
    (∃ (s : State) (l : List (Option Int)), s.guard.powered = true ∧ l.length = 40) ∧
    (∃ (s : State) (r : JReport), s.guard.powered = true ∧ r.junction.length = 16) ∧
    (∃ (s : State) (t : _), let g := s.guard.supply; g.capSince = some t ∧ t + 1000000 ≤ s.clock ∧ g.cap < 64) ∧
    (∃ (s : State) (t : _), let g := s.guard.supply; g.capHotSince = some t ∧ t + 1000000 ≤ s.clock) ∧
    (∃ (s : State), let g := s.guard.supply; g.vtarget ≤ g.vcomp + 25 ∧ g.vcomp ≤ g.vtarget + 25) ∧
    (∃ (s : State), let g := s.guard.supply; g.vcomp + 25 < g.vtarget) ∧
    (∃ (s : State), let g := s.guard.supply; g.vtarget + 25 < g.vcomp) ∧
    (∃ (s : State), let g := s.guard.supply; s.guard.powered = true ∧ g.stall = false ∧ s.hotNow.isSome = true ∧ s.ripe g.hotSince = true) ∧
    (∃ (s : State), let u := s.settlePoint; let p := u.guard.supply; u.guard.powered = true ∧ u.guard.cutoff = false ∧ u.guard.overvolt = false ∧
      u.guard.devState ≠ .removed ∧ pointRank p.opPoint = 0 ∧ u.ripe p.floorSince = true) ∧
    (∃ (s : State), let u := s.settlePoint; let p := u.guard.supply; u.guard.powered = true ∧ u.guard.cutoff = false ∧ u.guard.overvolt = false ∧
      u.guard.devState ≠ .removed ∧ pointRank p.opPoint ≠ 0 ∧ pointRank p.opPoint < 3 ∧ u.ripe p.peakSince = true) ∧
    (∃ (s : State), let u := s.settlePoint; let p := u.guard.supply; u.guard.powered = true ∧ u.guard.cutoff = false ∧ u.guard.overvolt = false ∧
      u.guard.devState ≠ .removed ∧ pointRank p.opPoint = 1 ∧ u.ripe p.peakSince = false ∧ u.ripe p.nominalSince = true) ∧
    (∃ (s : State) (w : Nat), s.guard.powered = true ∧ let g := s.guard;
      let d := if g.supply.opPoint = .emergency then 100 else demandOf w s.designPower s.tJ s.tS g.limits.demandMin; g.supply.demand ≤ d) ∧
    (∃ (s : State) (w : Nat), s.guard.powered = true ∧ let g := s.guard;
      let d := if g.supply.opPoint = .emergency then 100 else demandOf w s.designPower s.tJ s.tS g.limits.demandMin; d < g.supply.demand) :=
  ⟨⟨ready, List.replicate 40 (some 400), by decide +kernel⟩,
   ⟨ready, { junction := List.replicate 16 (some 400), inlet := none, outlet := none, powerW := 0, vin10mV := 4800 }, by decide +kernel⟩,
   ⟨{ late with guard.supply := { supply0 with capSince := some 0, cap := 63 } }, 0, by decide +kernel⟩,
   ⟨{ late with guard.supply := { supply0 with capHotSince := some 0 } }, 0, by decide +kernel⟩,
   ⟨ready, by decide +kernel⟩,
   ⟨{ ready with guard.supply := { supply0 with vcomp := 550, vtarget := 800 } }, by decide +kernel⟩,
   ⟨{ ready with guard.supply := { supply0 with vcomp := 800, vtarget := 550 } }, by decide +kernel⟩,
   ⟨hot, by decide +kernel⟩,
   ⟨settling .emergency { supply0 with floorSince := some 0 }, by decide +kernel⟩,
   ⟨settling .floor { supply0 with peakSince := some 0 }, by decide +kernel⟩,
   ⟨settling .floor { supply0 with nominalSince := some 0 }, by decide +kernel⟩,
   ⟨ready, 0, by decide +kernel⟩,
   ⟨{ ready with guard.supply := { supply0 with demand := 100 } }, 0, by decide +kernel⟩⟩

/-- The hypotheses of TheBinderAndThePartitionAreReset. -/
theorem met_TheBinderAndThePartitionAreReset :
    (∃ (s : State), s.binder.run = .running) ∧
    (∃ (s : State), s.binder.run ≠ .off ∧ s.guard.powered = true ∧ s.guard.supply.stall = false ∧ s.binder.lastAlive + 100000000 ≤ s.clock ∧
      ((s.latents.find? fun l => l.type = 0x0D) = none)) ∧
    (∃ (s : State) (c : Option Nat), s.guard.powered = true ∧ s.guard.devState ≠ .removed ∧ s.guard.cutoff = false ∧ s.guard.overvolt = false ∧
      s.guard.refLost = none ∧ s.guard.devState ≠ .booting ∧ s.guard.devState ≠ .resetting ∧ s.guard.resetReq = some (.partition c true)) ∧
    (∃ (s : State) (c : Option Nat), s.guard.powered = true ∧ s.guard.devState ≠ .removed ∧ s.guard.cutoff = false ∧ s.guard.overvolt = false ∧
      s.guard.refLost = none ∧ s.guard.devState ≠ .booting ∧ s.guard.devState ≠ .resetting ∧ let t := { s with guard.resetReq := none };
      s.guard.resetReq = some (.partition c false) ∧ t.countReset.1 = false) ∧
    (∃ (s : State) (c : Option Nat), s.guard.powered = true ∧ s.guard.devState ≠ .removed ∧ s.guard.cutoff = false ∧ s.guard.overvolt = false ∧
      s.guard.refLost = none ∧ s.guard.devState ≠ .booting ∧ s.guard.devState ≠ .resetting ∧ let t := { s with guard.resetReq := none };
      s.guard.resetReq = some (.partition c false) ∧ t.countReset.1 = true) :=
  ⟨⟨ready, by decide +kernel⟩,
   ⟨late, by decide +kernel⟩,
   ⟨resetDue true [], none, by decide +kernel⟩,
   ⟨resetDue false [], none, by decide +kernel⟩,
   ⟨resetDue false [100000000000, 100000000000, 100000000000], none, by decide +kernel⟩⟩

/-- The hypotheses of PhasesAndWindowsOpen. -/
theorem met_PhasesAndWindowsOpen :
    (∃ (s : State) (id phase : Nat) (x y : Sched) (p : PhaseE), (s.settle id).sched id = some x ∧ x.image.phases[phase]? = some p ∧ (s.settle
      id).launchable x phase p = true ∧ (if x.between then (s.settle id).firstLaunch id x.launchStep else s.settle id).sched id = some y) ∧
    (∃ (s : State) (id entry : Nat) (x : Sched) (b : BgE), s.sched id = some x ∧ x.image.bgs[entry]? = some b ∧ x.state = .running ∧ x.coll.state ≠
      .none ∧ x.replay = none ∧ x.cancel ≠ some false ∧ x.bgOpen b s.now = true ∧ s.guard.power.pstate = .run ∧ x.launchedBg.contains entry = false) :=
  ⟨⟨launching, 1, 0, launched, (launching.settle 1 |>.firstLaunch 1 0).sched 1 |>.getD launched, phase0, by decide +kernel, by decide +kernel,
     by decide +kernel, someOf (by decide +kernel)⟩,
   ⟨holding late windowed, 1, 0, windowed, bg1, by decide +kernel⟩⟩

/-- The hypotheses of BarriersAct. -/
theorem met_BarriersAct :
    (∃ (s : State) (id : Nat) (x : Sched) (q : _), let t := (s.settle id).beginEmpty id; t.sched id = some x ∧ x.upReady = true ∧ portId
      x.image.bar.parent = some q) ∧
    (∃ (s : State) (id : Nat) (x : Sched), let t := (s.settle id).beginEmpty id; t.sched id = some x ∧ x.upReady = true ∧ portId x.image.bar.parent =
      none) ∧
    (∃ (s : State) (p : Port) (m : BarrierMsg) (x : Sched), s.ports[p].admitted = true ∧ s.awaits m = some x ∧ x.image.bar.children.getLsbD p.val =
      true ∧ ((x.bar.ups.any fun u => u.1 = p) = false) ∧ (portId x.image.bar.parent).isSome = true) ∧
    (∃ (s : State) (p : Port) (m : BarrierMsg) (x : Sched), s.ports[p].admitted = true ∧ s.awaits m = some x ∧ x.image.bar.children.getLsbD p.val =
      true ∧ ((x.bar.ups.any fun u => u.1 = p) = false) ∧ portId x.image.bar.parent = none) ∧
    (∃ (s : State) (p : Port) (m : BarrierMsg) (x : Sched), s.ports[p].admitted = true ∧ s.awaits m = some x ∧ s.sched x.id = some x ∧ portId
      x.image.bar.parent = some p ∧ x.cancel ≠ some false ∧ m.failed = true) ∧
    (∃ (s : State) (p : Port) (m : BarrierMsg) (x : Sched), s.ports[p].admitted = true ∧ s.awaits m = some x ∧ s.sched x.id = some x ∧ portId
      x.image.bar.parent = some p ∧ x.cancel ≠ some false ∧ m.failed = false ∧ x.bar.upSent = true) ∧
    (∃ (s : State) (p : Port) (m : BarrierMsg), s.ports[p].admitted = true ∧ s.awaits m = none) ∧
    (∃ (s : State) (id : Nat) (x y : Sched), s.sched id = some x ∧ (x.state = .armed ∨ x.state = .running ∨ x.state = .held) ∧ (x.between = true →
      x.image.nSteps ≠ 0 → x.launchStep < x.image.nSteps) ∧ x.coll.state ≠ .escalated ∧ x.bar.failed = false ∧ x.barrierDue ≤ s.now ∧
      s.guard.supply.stall = false ∧ let n := x.launchStep;
      let t := (if x.between = true ∧ x.state ≠ .held then s.firstLaunch id n else s).slip id { tag := 0, kind := 3, cause := 9, phase := 0xFF, unit := 0xFF, step := n, nominal := x.stepStart n + x.image.barrierAt, actual := (if x.between = true ∧ x.state ≠ .held then s.firstLaunch id n else s).now };
      let u := (if x.state = .held then t else (t.nativeE 3 0x0508 x.ctx 0xFF 0 x.missingUps.toNat 0 0).emit (.report 0x0508 x.missingUps.toNat)).holdSched id;
      u.sched id = some y) ∧
    (∃ (s : State) (p : Port) (setId : W64) (step : Nat) (v : VoteEntry) (x : Sched), s.ports[p].admitted = true ∧ ((s.scheds.find? fun x =>
      x.collated && x.active && x.image.setId = setId && x.step = step) = some x) ∧ s.sched x.id = some x ∧ x.image.bar.children.getLsbD p.val = true
      ∧
      let y : Sched := { x with vote := { x.vote with got := x.vote.got.filter (fun z => !(z.1 = p && v.ordinal = z.2.ordinal && v.dev = z.2.dev)) ++ [(p, v)] } };
      (y.subtree v.ordinal = none ∨ y.vote.sentUp.contains v.ordinal = true)) ∧
    (∃ (s : State) (p : Port) (setId : W64) (step : Nat) (v : VoteEntry) (x : Sched) (es : _) (q : _), s.ports[p].admitted = true ∧ ((s.scheds.find?
      fun x => x.collated && x.active && x.image.setId = setId && x.step = step) = some x) ∧ s.sched x.id = some x ∧ x.image.bar.children.getLsbD
      p.val = true ∧
      let y : Sched := { x with vote := { x.vote with got := x.vote.got.filter (fun z => !(z.1 = p && v.ordinal = z.2.ordinal && v.dev = z.2.dev)) ++ [(p, v)] } };
      y.subtree v.ordinal = some es ∧ y.vote.sentUp.contains v.ordinal = false ∧ portId x.image.bar.parent = some q) ∧
    (∃ (s : State) (p : Port) (setId : W64) (step : Nat) (v : VoteEntry) (x : Sched) (es : _), s.ports[p].admitted = true ∧ ((s.scheds.find? fun x =>
      x.collated && x.active && x.image.setId = setId && x.step = step) = some x) ∧ s.sched x.id = some x ∧ x.image.bar.children.getLsbD p.val = true
      ∧
      let y : Sched := { x with vote := { x.vote with got := x.vote.got.filter (fun z => !(z.1 = p && v.ordinal = z.2.ordinal && v.dev = z.2.dev)) ++ [(p, v)] } };
      y.subtree v.ordinal = some es ∧ y.vote.sentUp.contains v.ordinal = false ∧ portId x.image.bar.parent = none) ∧
    (∃ (s : State) (p : Port) (m : VoteMsg) (x : Sched), s.ports[p].admitted = true ∧ m.authOk = true ∧ ((s.scheds.find? fun x => x.collated &&
      x.active && x.image.setId = m.setId && x.step = m.step) = some x) ∧ m.down = true ∧ portId x.image.bar.parent = some p) ∧
    (∃ (s : State) (id : Nat) (entries : List ArmEntry) (x : Sched), s.sched id = some x ∧ x.state = .armed ∧ x.probe.exchange = none ∧
      let es := s.armEntry x :: entries.filter fun a => a.index ≠ imgGroupIndex s.act; (∀ g, g < imgGroupSize s.act → ∃ a ∈ es, a.index = g) ∧
      (x.collated = false ∨ ∀ g, g < imgGroupSize s.act → namers es g = 1)) ∧
    (∃ (s : State) (id : Nat) (entries : List ArmEntry) (x : Sched) (g : _), s.sched id = some x ∧ x.state = .armed ∧ x.probe.exchange = none ∧
      let es := s.armEntry x :: entries.filter fun a => a.index ≠ imgGroupIndex s.act; (∀ g, g < imgGroupSize s.act → ∃ a ∈ es, a.index = g) ∧
      x.collated = true ∧ g < imgGroupSize s.act ∧ namers es g ≠ 1 ∧ (∀ k, k < g → namers es k = 1)) :=
  ⟨⟨holding ready upward, 1, upward, 11, by decide +kernel⟩,
   ⟨holding ready rootward, 1, rootward, by decide +kernel⟩,
   ⟨child 11, 10, barMsg false, tree 11, by decide +kernel⟩,
   ⟨child 0xFF, 10, barMsg false, tree 0xFF, by decide +kernel⟩,
   ⟨child 10, 10, barMsg true, tree 10, by decide +kernel⟩,
   ⟨{ receiving with scheds := [downward] }, 10, barMsg false, downward, by decide +kernel⟩,
   ⟨{ receiving with scheds := [] }, 10, barMsg false, by decide +kernel⟩,
   ⟨holding late running, 1, running, lateHeld, by decide +kernel⟩,
   ⟨child 11, 10, 0, 0, vote1, tree 11, by decide +kernel⟩,
   ⟨{ child 11 with scheds := [voting 11] }, 10, 0, 0, vote1, voting 11, [{ vote1 with dev := 0 }, vote1], 11, by decide +kernel⟩,
   ⟨{ child 0xFF with scheds := [voting 0xFF] }, 10, 0, 0, vote1, voting 0xFF, [{ vote1 with dev := 0 }, vote1], by decide +kernel⟩,
   ⟨child 10, 10, { setId := 0, step := 0, down := true, entries := [] }, tree 10, by decide +kernel⟩,
   ⟨holding pair (col .armed), 1, [{ index := 1, facing := 0, scales := [] }], col .armed, by decide +kernel⟩,
   ⟨holding { single with cfg.active := imgSet single.cfg.active 0x500 1 } (col .armed), 1, [], col .armed, 0, by decide +kernel⟩⟩

/-- The hypotheses of ReplaysAndTestsRun. -/
theorem met_ReplaysAndTestsRun :
    (∃ (s : State) (id : Nat) (x : Sched) (r : Replay), s.sched id = some x ∧ x.replay = some r ∧ r.started = false ∧ r.start ≤ s.now ∧ s.now % 8 = 0
      ∧ x.coll.arbTodo = 0 ∧ x.coll.takes = [] ∧ s.spoiltRanges x = [] ∧ x.cancel ≠ some false) ∧
    (∃ (s : State) (id : Nat) (x y : Sched) (r : Replay), s.sched id = some x ∧ x.replay = some r ∧ r.started = true ∧ r.kind ≠ .group ∧ r.logIdx <
      s.ledger.logIdx ∧ let a := s.logBase + r.logPos; (((List.finRange 44).all fun e => decide (s.memNat (a + 0x40 + 4 * e.val) 4 ≤
      s.engines[e].issue)) = true) ∧ let target := s.memNat (a + 0x18) 8;
      let u := if s.memNat a 4 = 2 then s.addCtr (512 * bits target 9 4 + bits target 0 9) (target / 4294967296) x.ctx 0xFF 0 else s.memWriteP target (s.memRead (a + 256) (s.memNat (a + 4) 4)) fun _ => bit (s.memNat (a + 0x28) 4) 0;
      u.sched id = some y) ∧
    (∃ (s : State) (id : Nat) (x : Sched) (step k : Nat), (s.settle id).sched id = some x ∧ x.diag = some (step, k) ∧ x.replay = none ∧ x.coll.state =
      .collated ∧ x.step = step ∧ x.active = true ∧ (s.settle id).now % 8 = 0) ∧
    (∃ (s : State) (id : Nat) (x : Sched) (d : Nat × Nat) (r : Replay), (s.settle id).sched id = some x ∧ x.diag = some d ∧ x.replay = some r ∧ r.kind
      = .diagnostic ∧ x.learned x.step = true ∧ ((x.runs.any fun p => p.step = x.step && !p.gen && p.stopped) = false) ∧ (x.deviceDigest false).poison
      = false ∧ (x.deviceDigest true).poison = false ∧ (x.deviceDigest false).val = x.coll.recto.val ∧ (x.deviceDigest true).val = x.coll.verso.val) ∧
    (∃ (s : State) (p : Phys) (failed : BitVec 5) (quireFailed : BitVec 2) (l : _), s.katWanted p = true ∧ s.enginesLive = true ∧
      let k := s.raiseSupply.katRun p (failed.toNat + if s.katQuire p then 32 * quireFailed.toNat else 0); s.logOf p = some l ∧ k.2.katAsked l = true) ∧
    (∃ (s : State) (p : Phys) (failed : BitVec 5) (quireFailed : BitVec 2) (l : _), s.katWanted p = true ∧ s.enginesLive = true ∧
      let k := s.raiseSupply.katRun p (failed.toNat + if s.katQuire p then 32 * quireFailed.toNat else 0); s.logOf p = some l ∧ k.2.katAsked l =
      false) ∧
    (∃ (s : State) (p : Phys), s.katWanted p = true ∧ s.enginesLive = true ∧ s.logOf p = none) :=
  ⟨⟨holding ready (replaying .localReplay false), 1, replaying .localReplay false, replay1 .localReplay false, by decide +kernel⟩,
   ⟨{ holding ready (replaying .localReplay true) with ledger.logIdx := 1 }, 1, replaying .localReplay true, replaying .localReplay true, replay1
     .localReplay true, by decide +kernel⟩,
   ⟨holding ready diagDue, 1, diagDue, 0, 0, by decide +kernel⟩,
   ⟨holding ready diagnosed, 1, diagnosed, (0, 0), replay1 .diagnostic true, by decide +kernel⟩,
   ⟨katWaits, 0, 0, 0, 0, by decide +kernel⟩,
   ⟨holding ready { running with coll.arbTodo := 1 }, 0, 0, 0, 0, by decide +kernel⟩,
   ⟨holding ready { running with coll.takes := [(0, 0)] }, 2, by decide +kernel⟩⟩

/-- The hypotheses of ShadowsAndInjectionsAct. -/
theorem met_ShadowsAndInjectionsAct :
    (∃ (s : State) (p : Port) (item : FeedItem) (h : Hop), (s.shadow.status = 1 ∨ s.shadow.status = 2) ∧ s.destHop p s.shadow.resIn = some h ∧
      s.feedStarted.shadow.feedStep = some (feedStepOf item)) ∧
    (∃ (s : State) (d : Nat × Dig × Dig) (x : Sched), let t := s.settle s.shadow.sched; t.sched s.shadow.sched = some x ∧ t.shadow.sched =
      s.shadow.sched ∧ t.shadow.atBase = some d ∧ t.shadowRuns x = true ∧ x.inReplay = true ∧ x.learned x.step = true) ∧
    (∃ (s : State) (d : Nat × Dig × Dig) (x : Sched), let t := s.settle s.shadow.sched; t.sched s.shadow.sched = some x ∧ t.shadow.sched =
      s.shadow.sched ∧ t.shadow.atBase = some d ∧ t.shadowRuns x = true ∧ x.inReplay = false ∧ t.now % 8 = 0) ∧
    (∃ (s : State) (p : Port) (h : Hop), s.hopOf s.shadow.resIn 2 = some h ∧ h.inPort = p.val ∧ s.shadow.feedPort ≠ some p) ∧
    (∃ (s : State) (id : Nat) (i : Inj), ((s.guard.injections.find? fun j => j.id = id) = some i) ∧ i.trigger.toNat ≤ s.now ∧ s.guard.powered = true) ∧
    (∃ (s : State) (n : SlotId) (r : CmdRow), s.slots[n].hdr.state = 2 ∧ cmdRow s.slots[n].hdr.cmd.toNat = some r ∧ r.long = true ∧ s.slots[n].takenAt
      + 60000000000 ≤ s.clock ∧ s.binder.run ≠ .off) :=
  ⟨⟨shadowing spare, 10, .control 0 0 [], hop7 2, by decide +kernel⟩,
   ⟨shadowing spareDone, (0, ⟨0, false⟩, ⟨0, false⟩), spareDone, by decide +kernel⟩,
   ⟨shadowing spare, (0, ⟨0, false⟩, ⟨0, false⟩), spare, by decide +kernel⟩,
   ⟨shadowing spare, 10, hop7 2, by decide +kernel⟩,
   ⟨{ ready with guard.injections := [inj1] }, 1, inj1, by decide +kernel⟩,
   ⟨longSince, 0, (cmdRow 0x0604).get (by decide +kernel), by decide +kernel⟩⟩

/-- The hypotheses of TimingExchangesRun. -/
theorem met_TimingExchangesRun :
    (∃ (s : State) (p : Port), s.times p = true ∧ s.ports[p].timing.lastSync + 1000 ≤ s.clock) ∧
    (∃ (s : State) (p : Port) (m : TimingMsg), s.timingBad p 1 m = none) ∧
    (∃ (s : State) (p : Port) (m : TimingMsg) (w : Nat), s.timingBad p 1 m = some w) ∧
    (∃ (s : State) (p : Port) (m : TimingMsg) (w : Nat), s.timingBad p 2 m = some w) ∧
    (∃ (s : State) (p : Port) (m : TimingMsg), s.timingBad p 2 m = none ∧ let t := s.peerTiming p m;
      let u := t.setPort p { t.ports[p] with timing := { t.ports[p].timing with syncAt := t.ports[p].timing.syncAt.erase m.tA.toNat } }; u.meet 0x07
      p.val = none ∧ u.ports[p].timing.window = []) ∧
    (∃ (s : State) (p : Port) (m : TimingMsg), s.timingBad p 2 m = none ∧ let t := s.peerTiming p m;
      let u := t.setPort p { t.ports[p] with timing := { t.ports[p].timing with syncAt := t.ports[p].timing.syncAt.erase m.tA.toNat } }; u.meet 0x07
      p.val = none ∧ let t1 : Int := m.tA.toNat; let t2 : Int := m.tB.toNat; let t3 : Int := m.tC.toNat; let t4 : Int := s.now16;
      let d2 := (t4 - t1) - (t3 - t2); u.ports[p].timing.window ≠ [] ∧ u.ports[p].timing.minDelay + 128 < d2) ∧
    (∃ (s : State) (p : Port) (m : TimingMsg), s.timingBad p 2 m = none ∧ let t := s.peerTiming p m;
      let u := t.setPort p { t.ports[p] with timing := { t.ports[p].timing with syncAt := t.ports[p].timing.syncAt.erase m.tA.toNat } }; u.meet 0x07
      p.val = none ∧ let t1 : Int := m.tA.toNat; let t2 : Int := m.tB.toNat; let t3 : Int := m.tC.toNat; let t4 : Int := s.now16;
      let d2 := (t4 - t1) - (t3 - t2); u.ports[p].timing.window ≠ [] ∧ u.ports[p].timing.window.length < 16 ∧ d2 ≤ u.ports[p].timing.minDelay + 128) ∧
    (∃ (s : State) (p : Port) (m : TimingMsg), s.timingBad p 2 m = none ∧ let t := s.peerTiming p m;
      let u := t.setPort p { t.ports[p] with timing := { t.ports[p].timing with syncAt := t.ports[p].timing.syncAt.erase m.tA.toNat } }; u.meet 0x07
      p.val = none ∧ let t1 : Int := m.tA.toNat; let t2 : Int := m.tB.toNat; let t3 : Int := m.tC.toNat; let t4 : Int := s.now16;
      let d2 := (t4 - t1) - (t3 - t2); let o2 := (t2 - t1) - (t4 - t3); u.ports[p].timing.window.length = 16 ∧ d2 ≤ u.ports[p].timing.minDelay + 128 ∧
      2 * o2 - u.ports[p].timing.median4 ≤ 512 ∧ -512 ≤ 2 * o2 - u.ports[p].timing.median4) ∧
    (∃ (s : State) (p : Port) (m : TimingMsg), s.timingBad p 2 m = none ∧ let t := s.peerTiming p m;
      let u := t.setPort p { t.ports[p] with timing := { t.ports[p].timing with syncAt := t.ports[p].timing.syncAt.erase m.tA.toNat } }; u.meet 0x07
      p.val = none ∧ let t1 : Int := m.tA.toNat; let t2 : Int := m.tB.toNat; let t3 : Int := m.tC.toNat; let t4 : Int := s.now16;
      let d2 := (t4 - t1) - (t3 - t2); let o2 := (t2 - t1) - (t4 - t3); u.ports[p].timing.window.length = 16 ∧ d2 ≤ u.ports[p].timing.minDelay + 128 ∧
      (512 < 2 * o2 - u.ports[p].timing.median4 ∨ 2 * o2 - u.ports[p].timing.median4 < -512)) :=
  ⟨⟨{ timing [] with time.clock := 1000 }, 11, by decide +kernel⟩,
   ⟨timing [], 11, timed 1, accepted _ _ _ (by decide +kernel) (by decide +kernel) (by decide +kernel) (by decide +kernel)⟩,
   ⟨ready, 0, timed0, 1, by decide +kernel⟩,
   ⟨ready, 0, timed0, 1, by decide +kernel⟩,
   ⟨timing [], 11, timed 2, accepted _ _ _ (by decide +kernel) (by decide +kernel) (by decide +kernel) (by decide +kernel), by decide +kernel⟩,
   ⟨timing [(-200, 0)], 11, timed 2, accepted _ _ _ (by decide +kernel) (by decide +kernel) (by decide +kernel) (by decide +kernel),
     by decide +kernel⟩,
   ⟨timing [(0, 0)], 11, timed 2, accepted _ _ _ (by decide +kernel) (by decide +kernel) (by decide +kernel) (by decide +kernel), by decide +kernel⟩,
   ⟨timing (List.replicate 16 (0, 0)), 11, timed 2, accepted _ _ _ (by decide +kernel) (by decide +kernel) (by decide +kernel) (by decide +kernel),
     by decide +kernel⟩,
   ⟨timing (List.replicate 16 (0, 1000)), 11, timed 2, accepted _ _ _ (by decide +kernel) (by decide +kernel) (by decide +kernel) (by decide +kernel),
     by decide +kernel⟩⟩

/-- The hypotheses of TimeStatesFollowTheClock. -/
theorem met_TimeStatesFollowTheClock :
    (∃ (s : State), s.time.tstate = .locked ∧ s.time.lastSample + 20000 ≤ s.clock) ∧
    (∃ (s : State), s.time.tstate = .locked ∧ s.clock < s.time.lastSample + 20000) ∧
    (∃ (s : State), s.time.tstate = .holdover ∧ s.time.holdSince + 2000000 ≤ s.clock) ∧
    (∃ (s : State) (p : Port) (t : Nat), s.ports[p].timing.barUntil = some t ∧ t ≤ s.clock) ∧
    (∃ (s : State) (p : Port), s.rootConflict = some p ∧ (s.time.conflict = false ∨ s.time.conflictAt + 1000000000 ≤ s.clock)) ∧
    (∃ (s : State), s.onPps = true ∧ s.time.everReady = true ∧ -100 ≤ s.ppsError ∧ s.ppsError ≤ 100) ∧
    (∃ (s : State), s.onPps = true ∧ s.time.everReady = true ∧ (s.ppsError < -100 ∨ 100 < s.ppsError)) ∧
    (∃ (s : State), s.onPps = true ∧ s.time.everReady = false ∧ (s.ppsAway = true ∨ s.now < imgStart s.act)) ∧
    (∃ (s : State) (t : Nat), s.onPps = true ∧ s.time.ppsLast = some t ∧ t + 2000000000 ≤ s.clock) :=
  ⟨⟨{ late with time.tstate := .locked }, by decide +kernel⟩,
   ⟨{ ready with time.tstate := .locked }, by decide +kernel⟩,
   ⟨{ late with time.tstate := .holdover }, by decide +kernel⟩,
   ⟨{ late with ports := ready.ports.set 11 { PortS.reset with timing := { TPort.reset with barUntil := some 0 } } }, 11, 0, by decide +kernel⟩,
   ⟨conflicted, 10, by decide +kernel⟩,
   ⟨rooted 100, by decide +kernel⟩,
   ⟨rooted 101, by decide +kernel⟩,
   ⟨{ rooted 101 with time := { (rooted 101).time with everReady := false } }, by decide +kernel⟩,
   ⟨{ rooted 0 with time := { (rooted 0).time with ppsLast := some 0, clock := 2000000000 } }, 0, by decide +kernel⟩⟩

/-- The hypotheses of PortsTrain. -/
theorem met_PortsTrain :
    (∃ (s : State) (p : Port), s.ports[p].st = .down ∧ s.ports[p].at_ + 1000000000 ≤ s.clock ∧ lnkRole s.act p.val ≠ 0 ∧ s.guard.refLost = none) ∧
    (∃ (s : State) (p : Port), s.ports[p].st = .training ∧ s.isLink p = true) ∧
    (∃ (s : State) (p : Port), s.ports[p].st = .training ∧ s.isLink p = true ∧ s.ports[p].signal = true) ∧
    (∃ (s : State) (p : Port), s.ports[p].st = .quarantined ∧ s.isLink p = true ∧ s.ports[p].signal = false) ∧
    (∃ (s : State) (p : Port), s.ports[p].st = .training ∧ s.isLink p = true ∧ s.ports[p].signal = false ∧ s.ports[p].at_ + 1000000000 ≤ s.clock) ∧
    (∃ (s : State) (p : Port), s.isHost p = true ∧ s.ports[p].st = .training ∧ s.ports[p].signal = true ∧ p.val ≠ 0) ∧
    (∃ (s : State) (p : Port), s.isHost p = true ∧ s.ports[p].st = .training ∧ s.ports[p].signal = true ∧ p.val = 0) :=
  ⟨⟨portIn 0x10 .down false, 11, by decide +kernel⟩,
   ⟨portIn 0x10 .training false, 11, by decide +kernel⟩,
   ⟨portIn 0x10 .training true, 11, by decide +kernel⟩,
   ⟨portIn 0x10 .quarantined false, 11, by decide +kernel⟩,
   ⟨portIn 0x10 .training false, 11, by decide +kernel⟩,
   ⟨hostIn 1 .training true, 1, by decide +kernel⟩,
   ⟨hostIn 0 .training true, 0, by decide +kernel⟩⟩

/-- The hypotheses of PeersAreAdmitted. -/
theorem met_PeersAreAdmitted :
    (∃ (s : State) (p : Port), s.ports[p].st = .admitting ∧ let x := s.ports[p]; x.adm.chain = none) ∧
    (∃ (s : State) (p : Port), s.ports[p].st = .admitting ∧ let x := s.ports[p]; x.adm.chain.isSome = true ∧ x.adm.keys = none ∧
      s.guard.bring.finalFail ≠ some (2, 0)) ∧
    (∃ (s : State) (p : Port), s.ports[p].st = .admitting ∧ let x := s.ports[p]; x.adm.keys.isSome = true ∧ x.adm.sigOk = false) ∧
    (∃ (s : State) (p : Port) (mac : _), s.ports[p].st = .admitting ∧ let x := s.ports[p]; x.adm.sigOk = true ∧ mac = Config.confirmMac x.confirmKey
      false) ∧
    (∃ (s : State) (p : Port) (mac : _), s.ports[p].st = .admitting ∧ let x := s.ports[p]; x.adm.sigOk = true ∧ mac ≠ Config.confirmMac x.confirmKey
      false) ∧
    (∃ (s : State) (k : Soak), s.ports[k.port].st = .qualifying ∧ s.ports[k.port].at_ + 2000000000 ≤ s.clock ∧ soakPass k = true) ∧
    (∃ (s : State) (k : Soak), s.ports[k.port].st = .qualifying ∧ s.ports[k.port].at_ + 2000000000 ≤ s.clock ∧ soakPass k = false) :=
  ⟨⟨admittingWith Adm.reset, 11, by decide +kernel⟩,
   ⟨admittingWith { Adm.reset with chain := some [] }, 11, by decide +kernel⟩,
   ⟨admittingWith { Adm.reset with keys := some ([], []) }, 11, by decide +kernel⟩,
   ⟨admittingWith { Adm.reset with sigOk := true }, 11, Config.confirmMac (admittingWith { Adm.reset with sigOk := true }).ports[(11 :
     Port)].confirmKey false, by decide +kernel, by decide +kernel, rfl⟩,
   ⟨admittingWith { Adm.reset with sigOk := true }, 11, Config.confirmMac (admittingWith { Adm.reset with sigOk := true }).ports[(11 :
     Port)].confirmKey false ++ [0], by decide +kernel, by decide +kernel, fun h => by simpa using congrArg List.length h⟩,
   ⟨portIn 0x10 .qualifying true, soak1 0, by decide +kernel⟩,
   ⟨portIn 0x10 .qualifying true, soak1 1, by decide +kernel⟩⟩

/-- The hypotheses of FramesAndRoutesMove. -/
theorem met_FramesAndRoutesMove :
    (∃ (s : State) (p : Port) (f : Frame), s.ports[p].admitted = true ∧ ((lnkCrypt s.act p.val = true ∧ f.authOk = false) ∨ f.overrun = true ∨ bodyRes
      f.body ≠ some f.resId)) ∧
    (∃ (s : State) (p : Port) (f : Frame), s.ports[p].admitted = true ∧ (lnkCrypt s.act p.val = false ∨ f.authOk = true) ∧ f.overrun = false ∧ bodyRes
      f.body = some f.resId ∧ (s.hops.find? (fun h => h.resId = f.resId && h.role ≠ 0 && h.inPort = p.val && h.vc = f.vc) = none)) ∧
    (∃ (s : State) (p : Port) (f : Frame) (h : _), s.ports[p].admitted = true ∧ (lnkCrypt s.act p.val = false ∨ f.authOk = true) ∧ f.overrun = false ∧
      bodyRes f.body = some f.resId ∧ (s.hops.find? (fun h => h.resId = f.resId && h.role ≠ 0 && h.inPort = p.val && h.vc = f.vc) = some h) ∧ h.role =
      2) ∧
    (∃ (s : State) (p : Port) (f : Frame) (h : _) (q : _), s.ports[p].admitted = true ∧
      let t := s.setPort p { s.ports[p] with frames := s.ports[p].frames + 1 }; (lnkCrypt s.act p.val = false ∨ f.authOk = true) ∧ f.overrun = false ∧
      bodyRes f.body = some f.resId ∧ (s.hops.find? (fun h => h.resId = f.resId && h.role ≠ 0 && h.inPort = p.val && h.vc = f.vc) = some h) ∧ h.role ≠
      2 ∧ portId h.outPort = some q ∧ t.ports[q].admitted = true) ∧
    (∃ (s : State) (p : Port), s.ports[p].carries = true) ∧
    (∃ (s : State) (p : Port), s.ports[p].st = .up) ∧
    (∃ (s : State) (p : Port), s.ports[p].st = .retraining ∧ s.clock ≤ s.ports[p].at_ + 2000000) ∧
    (∃ (s : State) (p : Port), (s.ports[p].carries = true ∨ s.ports[p].st = .training ∧ s.ports[p].signal = true)) ∧
    (∃ (s : State) (p : Port), s.ports[p].st = .quarantined) ∧
    (∃ (s : State) (p : Port) (res : W64) (h : _), s.ports[p].admitted = true ∧ (s.hops.find? (fun h => h.resId = res && h.role ≠ 2 && h.outPort =
      p.val) = some h) ∧ h.role ≠ 1) ∧
    (∃ (s : State) (p : Port) (res : W64) (h : _) (q : _), s.ports[p].admitted = true ∧ (s.hops.find? (fun h => h.resId = res && h.role ≠ 2 &&
      h.outPort = p.val) = some h) ∧ h.role = 1 ∧ portId h.inPort = some q) :=
  ⟨⟨routing 2, 10, frame1 true, by decide +kernel⟩,
   ⟨{ routing 2 with hops := [] }, 10, frame1 false, by decide +kernel⟩,
   ⟨routing 2, 10, frame1 false, hop7 2, by decide +kernel⟩,
   ⟨routing 1, 10, frame1 false, hop7 1, 11, by decide +kernel⟩,
   ⟨routing 2, 10, by decide +kernel⟩,
   ⟨routing 2, 10, by decide +kernel⟩,
   ⟨{ ready with ports := ready.ports.set 11 { PortS.reset with st := .retraining } }, 11, by decide +kernel⟩,
   ⟨routing 2, 10, by decide +kernel⟩,
   ⟨portIn 0x10 .quarantined false, 11, by decide +kernel⟩,
   ⟨routing 0, 11, 7, hop7 0, by decide +kernel⟩,
   ⟨routing 1, 11, 7, hop7 1, 10, by decide +kernel⟩⟩

/-- The hypotheses of LinkWarningsAndHostLinesAct. -/
theorem met_LinkWarningsAndHostLinesAct :
    (∃ (s : State) (k : Soak), s.ports[k.port].st = .up) ∧
    (∃ (s : State) (p : Port) (t : Nat), s.ports[p].lowSince = some t ∧ s.ports[p].warned = true ∧ t + 60000000000 ≤ s.clock) ∧
    (∃ (s : State) (p : Port) (vc : Nat), s.ports[p].carries = true ∧ vc < 8 ∧ lnkVcEn s.act p.val vc = true) ∧
    (∃ (s : State) (p : Port), s.ports[p].admitted = true ∧ (2 ^ 40 ≤ s.ports[p].frames ∨ s.ports[p].keyAt + 3600000000000 ≤ s.clock)) ∧
    (∃ (s : State) (second : Bool), let p : Port := if second then 1 else 0; let x := s.ports[p]; (x.st ≠ .training ∨ s.isHost p = false)) ∧
    (∃ (s : State) (second : Bool), let p : Port := if second then 1 else 0; let x := s.ports[p]; x.st = .training ∧ s.isHost p = true) ∧
    (∃ (s : State) (second : Bool), let p : Port := if second then 1 else 0; s.isHost p = false) ∧
    (∃ (s : State) (second : Bool), let p : Port := if second then 1 else 0; let x := s.ports[p]; s.isHost p = true ∧ x.st = .training) ∧
    (∃ (s : State) (second : Bool), let p : Port := if second then 1 else 0; let x := s.ports[p]; s.isHost p = true ∧ x.st ≠ .training ∧ x.st ≠ .off) ∧
    (∃ (s : State), s.isHost 0 = true ∧ s.ports[(0 : Port)].st ≠ .hostUp ∧ s.ports[(1 : Port)].st = .hostStandby) :=
  ⟨⟨portIn 0x10 .up true, soak1 0, by decide +kernel⟩,
   ⟨{ late with ports := ready.ports.set 11 { PortS.reset with lowSince := some 0, warned := true } }, 11, 0, by decide +kernel⟩,
   ⟨linked, 11, 1, by decide +kernel⟩,
   ⟨{ linked with time.clock := 3600000000000 }, 11, by decide +kernel⟩,
   ⟨hostIn 0 .down false, false, by decide +kernel⟩,
   ⟨hostIn 0 .training false, false, by decide +kernel⟩,
   ⟨ready, true, by decide +kernel⟩,
   ⟨hostIn 1 .training false, true, by decide +kernel⟩,
   ⟨hostIn 0 .hostUp false, false, by decide +kernel⟩,
   ⟨hostIn 1 .hostStandby true, by decide +kernel⟩⟩

/-- The hypotheses of TheGuardTakesAndAnswers. -/
theorem met_TheGuardTakesAndAnswers :
    (∃ (s : State), s.guard.powered = true ∧ s.guard.mbox.hdr.state = 1 ∧ let m := s.guard.mbox; let c := m.hdr.cmd.toNat; m.hdr.seq = m.expSeq ∧
      m.hdr.wellFormed = true ∧ m.hdr.ctx = 0 ∧ ((1 ≤ c ∧ c ≤ 8) ∨ (0x10 ≤ c ∧ c ≤ 0x1C))) ∧
    (∃ (s : State), s.guard.powered = true ∧ s.guard.mbox.hdr.state = 1 ∧ let m := s.guard.mbox; m.hdr.seq ≠ m.expSeq) ∧
    (∃ (s : State) (src : Src) (data : Bytes) (r : GReq), Asks s src 0x01 data r 10 [] ∧ fld r.data 8 2 ≤ 62) ∧
    (∃ (s : State) (src : Src) (data : Bytes) (r : GReq) (d : _), Asks s src 0x02 data r 20 [(1, 7)] ∧ fld r.data 0 1 ≤ 1 ∧ fld r.data 16 4 ≤ 4032 ∧
      fld r.data 8 8 + fld r.data 16 4 ≤ 0x20000000 ∧ fld r.data 16 4 ≠ 0 ∧ (if fld r.data 0 1 = 0 then s.guard.dumps.1 else s.guard.dumps.2) = some
      d) ∧
    (∃ (s : State) (src : Src) (data : Bytes) (r : GReq), Asks s src 0x03 data r 0 []) ∧
    (∃ (s : State) (src : Src) (data : Bytes) (r : GReq), Asks s src 0x18 data r 8 [(0, 8)]) ∧
    (∃ (s : State) (src : Src) (data : Bytes) (r : GReq), Asks s src 0x08 data r 0 []) :=
  ⟨⟨{ ready with guard.mbox := { Slot.reset with hdr := { Hdr.reset with state := 1, seq := 1, cmd := 0x1C } } }, by decide +kernel⟩,
   ⟨{ ready with guard.mbox := { Slot.reset with hdr := { Hdr.reset with state := 1, seq := 2, cmd := 0x1C } } }, by decide +kernel⟩,
   ⟨owned, .mgmt 1 0, (le 8 0 ++ le 2 62), ask 0x01 (le 8 0 ++ le 2 62),
     ⟨by decide +kernel, by decide +kernel, by decide +kernel, by decide +kernel, by decide +kernel⟩, by decide +kernel⟩,
   ⟨{ owned with guard.dumps := (none, some dump1) }, .mgmt 1 0, (le 8 1 ++ le 8 0x1FFFF040 ++ le 4 4032), ask 0x02 (le 8 1 ++ le 8 0x1FFFF040 ++ le 4
     4032), dump1, ⟨by decide +kernel, by decide +kernel, by decide +kernel, by decide +kernel, by decide +kernel⟩, by decide +kernel⟩,
   ⟨owned, .mgmt 1 0, [], ask 0x03 [], ⟨by decide +kernel, by decide +kernel, by decide +kernel, by decide +kernel, by decide +kernel⟩⟩,
   ⟨owned, .mgmt 1 0, (zeros 8), ask 0x18 (zeros 8), ⟨by decide +kernel, by decide +kernel, by decide +kernel, by decide +kernel, by decide +kernel⟩⟩,
   ⟨owned, .mgmt 1 0, [], ask 0x08 [], ⟨by decide +kernel, by decide +kernel, by decide +kernel, by decide +kernel, by decide +kernel⟩⟩⟩

/-- The hypotheses of SettingRequestsSet. -/
theorem met_SettingRequestsSet :
    (∃ (s : State) (src : Src) (data : Bytes) (r : GReq), let u := s.heardBy src; let l := u.guard.limits; let b := r.data; Asks s src 0x10 data r 8
      [(4, 4)] ∧ u.limitOk (fld b 0 2) (fld b 2 1) = true ∧ 25 ≤ fld b 3 1 ∧ fld b 3 1 ≤ 100 ∧ fld b 0 2 ≤ l.bndPlim ∧ l.bndCeil ≤ fld b 2 1) ∧
    (∃ (s : State) (src : Src) (data : Bytes) (r : GReq), let u := s.heardBy src; let l := u.guard.limits; let b := r.data; Asks s src 0x10 data r 8
      [(4, 4)] ∧ u.limitOk (fld b 0 2) (fld b 2 1) = true ∧ 25 ≤ fld b 3 1 ∧ fld b 3 1 ≤ 100 ∧ (l.bndPlim < fld b 0 2 ∨ fld b 2 1 < l.bndCeil)) ∧
    (∃ (s : State) (src : Src) (data : Bytes) (r : GReq), let u := s.heardBy src; let b := r.data; Asks s src 0x11 data r 8 [(3, 5)] ∧ s.isOwner src =
      true ∧ u.limitOk (fld b 0 2) (fld b 2 1) = true) ∧
    (∃ (s : State) (src : Src) (data : Bytes) (r : GReq), let b := r.data; Asks s src 0x12 data r 8 [(1, 3)] ∧ s.isOwner src = true ∧ 1 ≤ fld b 0 1 ∧
      fld b 0 1 ≤ 15 ∧ 60 ≤ fld b 4 4 ∧ fld b 4 4 ≤ 86400) ∧
    (∃ (s : State) (src : Src) (data : Bytes) (r : GReq), let u := s.heardBy src; Asks s src 0x13 data r 8 [(0, 8)] ∧ s.isOwner src = true ∧
      (u.guard.log ≠ [] ∨ u.guard.pinned ≠ [])) ∧
    (∃ (s : State) (src : Src) (data : Bytes) (r : GReq), Asks s src 0x11 data r 8 [(3, 5)] ∧ s.isOwner src = false) ∧
    (∃ (s : State) (src : Src) (data : Bytes) (r : GReq) (k : Fin 16), let u := s.heardBy src; let b := r.data; Asks s src 0x14 data r 40 [(1, 7)] ∧
      s.isOwner src = true ∧ fld b 0 1 = k.val ∧ u.keyInUse k.val = false) ∧
    (∃ (s : State) (src : Src) (data : Bytes) (r : GReq) (k : Fin 16), let u := s.heardBy src; let b := r.data; Asks s src 0x15 data r 8 [(1, 7)] ∧
      s.isOwner src = true ∧ fld b 0 1 = k.val ∧ u.keyInUse k.val = false) ∧
    (∃ (s : State) (src : Src) (data : Bytes) (r : GReq), Asks s src 0x16 data r 8 [(4, 4)] ∧ s.isOwner src = true) ∧
    (∃ (s : State) (src : Src) (data : Bytes) (r : GReq), let u := s.heardBy src; let b := r.data; Asks s src 0x17 data r 16 [(12, 4)] ∧ s.isOwner src
      = true ∧ u.guard.bring.resetRec = none ∧ let off := fld b 0 8; let n := fld b 8 4; n ≤ 4000 ∧ fld b 12 4 = 0 ∧ 16 + n ≤ b.length ∧ off + n ≤
      bankSize) ∧
    (∃ (s : State) (src : Src) (data : Bytes) (r : GReq), Asks s src 0x19 data r 133 [] ∧ s.fromMgmt src = true ∧ s.guard.owner = none ∧ (∀ n t, src =
      .mgmt n t → ((s.guard.sess n).map Sess.mutualAsked) = some false)) ∧
    (∃ (s : State) (src : Src) (data : Bytes) (r : GReq), Asks s src 0x1A data r 8 [(0, 8)] ∧ s.isOwner src = true) ∧
    (∃ (s : State) (src : Src) (data : Bytes) (r : GReq), Asks s src 0x1B data r 24 [(20, 4)] ∧ s.isOwner src = true) :=
  ⟨⟨owned, .mgmt 1 0, (le 2 1600 ++ [2, 100] ++ zeros 4), ask 0x10 (le 2 1600 ++ [2, 100] ++ zeros 4),
     ⟨by decide +kernel, by decide +kernel, by decide +kernel, by decide +kernel, by decide +kernel⟩, by decide +kernel⟩,
   ⟨{ owned with guard.limits := { ready.guard.limits with bndPlim := 1599 } }, .mgmt 1 0, (le 2 1600 ++ [2, 25] ++ zeros 4), ask 0x10 (le 2 1600 ++
     [2, 25] ++ zeros 4), ⟨by decide +kernel, by decide +kernel, by decide +kernel, by decide +kernel, by decide +kernel⟩, by decide +kernel⟩,
   ⟨owned, .mgmt 1 0, (le 2 800 ++ zeros 6), ask 0x11 (le 2 800 ++ zeros 6),
     ⟨by decide +kernel, by decide +kernel, by decide +kernel, by decide +kernel, by decide +kernel⟩, by decide +kernel⟩,
   ⟨owned, .mgmt 1 0, (le 4 15 ++ le 4 86400), ask 0x12 (le 4 15 ++ le 4 86400),
     ⟨by decide +kernel, by decide +kernel, by decide +kernel, by decide +kernel, by decide +kernel⟩, by decide +kernel⟩,
   ⟨logged, .mgmt 1 0, (zeros 8), ask 0x13 (zeros 8), ⟨by decide +kernel, by decide +kernel, by decide +kernel, by decide +kernel, by decide +kernel⟩,
     by decide +kernel⟩,
   ⟨{ owned with guard.owner := none }, .mgmt 1 0, (le 2 800 ++ zeros 6), ask 0x11 (le 2 800 ++ zeros 6),
     ⟨by decide +kernel, by decide +kernel, by decide +kernel, by decide +kernel, by decide +kernel⟩, by decide +kernel⟩,
   ⟨owned, .mgmt 1 0, ([15] ++ zeros 39), ask 0x14 ([15] ++ zeros 39), 15,
     ⟨by decide +kernel, by decide +kernel, by decide +kernel, by decide +kernel, by decide +kernel⟩, by decide +kernel⟩,
   ⟨owned, .mgmt 1 0, ([15] ++ zeros 7), ask 0x15 ([15] ++ zeros 7), 15,
     ⟨by decide +kernel, by decide +kernel, by decide +kernel, by decide +kernel, by decide +kernel⟩, by decide +kernel⟩,
   ⟨owned, .mgmt 1 0, (le 8 0x4000), ask 0x16 (le 8 0x4000),
     ⟨by decide +kernel, by decide +kernel, by decide +kernel, by decide +kernel, by decide +kernel⟩, by decide +kernel⟩,
   ⟨owned, .mgmt 1 0, (zeros 16), ask 0x17 (zeros 16),
     ⟨by decide +kernel, by decide +kernel, by decide +kernel, by decide +kernel, by decide +kernel⟩, by decide +kernel⟩,
   ⟨unowned, .mgmt 1 0, (zeros 133), ask 0x19 (zeros 133),
     ⟨by decide +kernel, by decide +kernel, by decide +kernel, by decide +kernel, by decide +kernel⟩, by decide +kernel, by decide +kernel,
     fun n t h => by cases h; decide +kernel⟩,
   ⟨owned, .mgmt 1 0, (zeros 8), ask 0x1A (zeros 8), ⟨by decide +kernel, by decide +kernel, by decide +kernel, by decide +kernel, by decide +kernel⟩,
     by decide +kernel⟩,
   ⟨owned, .mgmt 1 0, (zeros 24), ask 0x1B (zeros 24),
     ⟨by decide +kernel, by decide +kernel, by decide +kernel, by decide +kernel, by decide +kernel⟩, by decide +kernel⟩⟩

/-- The hypotheses of RelayedPostsAct. -/
theorem met_RelayedPostsAct :
    (∃ (s : State) (src : Src) (data : Bytes) (r : GReq), Asks s src 0x1C data r 0x18 postResv ∧ s.mayPost r = true ∧ postOk r.data = true ∧
      let u := s.heardBy src; let b := r.data; let n := ctxId (fld b 0 1); let x := u.slots[n]; imgClass u.act n.val = 3 ∧ fld b 2 2 ≠ 0 ∧ x.hdr.state
      = 0) ∧
    (∃ (s : State) (src : Src) (data : Bytes) (r : GReq) (off : _), Asks s src 0x1C data r 0x18 postResv ∧ s.mayPost r = true ∧ postOk r.data = true ∧
      let u := s.heardBy src; let b := r.data; let n := ctxId (fld b 0 1); let x := u.slots[n]; imgClass u.act n.val = 3 ∧ fld b 2 2 = 0 ∧
      u.guard.mheld = [(n, off)] ∧ x.hdr.state = 3 ∧ x.hdr.rlen.toNat ≤ off + 4024 ∧ off ≤ x.hdr.rlen.toNat) ∧
    (∃ (s : State) (m : MPost), s.guard.mposts = [m] ∧ m.deadline ≤ s.clock ∧ let x := s.slots[m.slot]; x.hdr.state = 1) ∧
    (∃ (s : State) (m : MPost), s.guard.mposts = [m] ∧ m.deadline ≤ s.clock ∧ let x := s.slots[m.slot]; x.hdr.state ≠ 1) :=
  ⟨⟨mgmtSlot, .mgmt 1 0, postBytes, ask 0x1C postBytes,
     ⟨by decide +kernel, by decide +kernel, by decide +kernel, by decide +kernel, by decide +kernel⟩, by decide +kernel⟩,
   ⟨fetching, .mgmt 1 0, fetchPost, ask 0x1C fetchPost, 0,
     ⟨by decide +kernel, by decide +kernel, by decide +kernel, by decide +kernel, by decide +kernel⟩, by decide +kernel⟩,
   ⟨{ posted 1 with guard.mposts := [mpost1] }, mpost1, by decide +kernel⟩,
   ⟨{ ready with guard.mposts := [mpost1] }, mpost1, by decide +kernel⟩⟩

/-- The hypotheses of PowerStatesChange. -/
theorem met_PowerStatesChange :
    (∃ (s : State) (src : Src) (data : Bytes) (r : GReq), Asks s src 0x04 data r 8 powerResv ∧ fld r.data 1 1 ≤ 1 ∧ s.guard.cutoff = false ∧
      s.guard.overvolt = false ∧ s.guard.devState ≠ .booting ∧ s.guard.devState ≠ .resetting ∧ s.guard.resetReq = none ∧ fld r.data 0 1 = 1 ∧
      s.guard.power.pstate = .run) ∧
    (∃ (s : State) (src : Src) (data : Bytes) (r : GReq), Asks s src 0x04 data r 8 powerResv ∧ fld r.data 1 1 ≤ 1 ∧ s.guard.cutoff = false ∧
      s.guard.overvolt = false ∧ s.guard.devState ≠ .booting ∧ s.guard.devState ≠ .resetting ∧ s.guard.resetReq = none ∧ fld r.data 0 1 = 2 ∧
      (s.guard.power.pstate = .run ∨ s.guard.power.pstate = .nap)) ∧
    (∃ (s : State) (src : Src) (data : Bytes) (r : GReq), Asks s src 0x04 data r 8 powerResv ∧ fld r.data 1 1 ≤ 1 ∧ s.guard.cutoff = false ∧
      s.guard.overvolt = false ∧ s.guard.devState ≠ .booting ∧ s.guard.devState ≠ .resetting ∧ s.guard.resetReq = none ∧ fld r.data 0 1 = 0 ∧
      (s.guard.power.pstate = .nap ∨ s.guard.power.pstate = .hold)) ∧
    (∃ (s : State) (r : GReq), s.guard.power.pstate = .entering ∧ s.guard.power.req = some r ∧ (s.scheds.any Sched.inProgress) = false) ∧
    (∃ (s : State) (r : GReq), s.guard.power.pstate = .entering ∧ s.guard.power.req = some r ∧ s.guard.power.entryAt + 1000000000 < s.clock) ∧
    (∃ (s : State) (t : Nat), s.guard.power.wakeAt = some t ∧ t ≤ s.clock ∧ s.guard.powered = true ∧ (s.guard.power.pstate = .nap ∨
      s.guard.power.pstate = .hold)) ∧
    (∃ (s : State) (src : Src) (data : Bytes) (r : GReq), Asks s src 0x07 data r 3 [] ∧ fld r.data 0 2 ≤ 0xFFF ∧ fld r.data 0 2 ≠ 0 ∧ fld r.data 2 1 =
      0) ∧
    (∃ (s : State) (src : Src) (data : Bytes) (r : GReq), Asks s src 0x07 data r 3 [] ∧ fld r.data 0 2 ≤ 0xFFF ∧ fld r.data 0 2 ≠ 0 ∧ fld r.data 2 1 =
      1) :=
  ⟨⟨owned, .mgmt 1 0, (le 8 1), ask 0x04 (le 8 1), ⟨by decide +kernel, by decide +kernel, by decide +kernel, by decide +kernel, by decide +kernel⟩,
     by decide +kernel⟩,
   ⟨owned, .mgmt 1 0, (le 8 2), ask 0x04 (le 8 2), ⟨by decide +kernel, by decide +kernel, by decide +kernel, by decide +kernel, by decide +kernel⟩,
     by decide +kernel⟩,
   ⟨{ owned with guard.power := { ready.guard.power with pstate := .hold } }, .mgmt 1 0, (zeros 8), ask 0x04 (zeros 8),
     ⟨by decide +kernel, by decide +kernel, by decide +kernel, by decide +kernel, by decide +kernel⟩, by decide +kernel⟩,
   ⟨{ owned with guard.power := { ready.guard.power with pstate := .entering, req := some (ask 4 []) } }, ask 4 [], by decide +kernel⟩,
   ⟨{ owned with guard.power := { ready.guard.power with pstate := .entering, req := some (ask 4 []) } }, ask 4 [], by decide +kernel⟩,
   ⟨{ owned with guard.power := { ready.guard.power with pstate := .nap, wakeAt := some 0 } }, 0, by decide +kernel⟩,
   ⟨owned, .mgmt 1 0, (le 3 0xFFF), ask 0x07 (le 3 0xFFF),
     ⟨by decide +kernel, by decide +kernel, by decide +kernel, by decide +kernel, by decide +kernel⟩, by decide +kernel⟩,
   ⟨owned, .mgmt 1 0, (le 3 0x10001), ask 0x07 (le 3 0x10001),
     ⟨by decide +kernel, by decide +kernel, by decide +kernel, by decide +kernel, by decide +kernel⟩, by decide +kernel⟩⟩

/-- The hypotheses of RecordsReachTheCollector. -/
theorem met_RecordsReachTheCollector :
    (∃ (s : State), s.mgmtUp = true ∧ s.stillKept s.guard.unsent ≠ []) ∧
    (∃ (s : State), s.mgmtUp = true ∧ s.guard.unacked ≠ [] ∧ s.guard.repeatAt + 100000000 ≤ s.clock) ∧
    (∃ (s : State), s.mgmtUp = true) ∧
    (∃ (s : State), s.guard.powered = true ∧ s.guard.summaryAt + 10000000000 ≤ s.clock) :=
  ⟨⟨logged, by decide +kernel⟩,
   ⟨logged, by decide +kernel⟩,
   ⟨logged, by decide +kernel⟩,
   ⟨logged, by decide +kernel⟩⟩

/-- The hypotheses of SpdmMessagesAct. -/
theorem met_SpdmMessagesAct :
    (∃ (s : State) (src : Src), s.guard.powered = true ∧ s.spdmServed = true ∧ src ≠ .mailbox) ∧
    (∃ (s : State) (src : Src) (v : _), s.guard.powered = true ∧ s.spdmServed = true ∧ src ≠ .mailbox ∧ (v = 0x12 ∨ v = 0x13)) ∧
    (∃ (s : State) (src : Src) (a : SpdmAlgs), s.guard.powered = true ∧ s.spdmServed = true ∧ src ≠ .mailbox ∧ let x := s.conn src; x.caps = true ∧
      a.ecdsaP521 = true ∧ a.sha512 = true ∧ a.secp521r1 = true ∧ a.aes256gcm = true) ∧
    (∃ (s : State) (src : Src), s.guard.powered = true ∧ s.spdmServed = true ∧ src ≠ .mailbox ∧ let x := s.conn src; x.algs = true) ∧
    (∃ (s : State) (src : Src) (index : _), s.guard.powered = true ∧ s.spdmServed = true ∧ src ≠ .mailbox ∧ let x := s.conn src; x.algs = true ∧
      (index ≤ 9 ∨ index = 0xFF)) ∧
    (∃ (s : State) (src : Src) (h : _) (n : _) (c : _), s.guard.powered = true ∧ s.spdmServed = true ∧ src ≠ .mailbox ∧ let x := s.conn src; x.chunkIn
      = some (h, n, c) ∧ n ≠ 0) ∧
    (∃ (s : State) (src : Src) (h : _) (n : _) (c : _), s.guard.powered = true ∧ s.spdmServed = true ∧ src ≠ .mailbox ∧ let x := s.conn src;
      x.chunkOut = some (h, n, c)) ∧
    (∃ (s : State) (src : Src) (n : Nat), s.guard.powered = true ∧ src ≠ .mailbox ∧ s.spdmServed = true ∧ overMgmt src = true ∧ (s.conn src).algs =
      true ∧ s.guard.sessions.length < 2 ∧ s.guard.sess n = none) ∧
    (∃ (s : State) (n : Nat) (x : Sess) (chain sig : Bytes), s.guard.powered = true ∧ s.guard.sess n = some x ∧ x.established = false ∧ (x.mutualAsked
      = false ∨ Config.chainVerify chain (Config.spdmTranscript n) sig = true)) ∧
    (∃ (s : State) (n : Nat) (x : Sess), s.guard.powered = true ∧ s.guard.sess n = some x ∧ x.established = true) ∧
    (∃ (s : State) (n : Nat) (x : Sess), s.guard.powered = true ∧ s.guard.sess n = some x ∧ x.last + 60000000000 ≤ s.clock) :=
  ⟨⟨ready, .i3c 0, by decide +kernel⟩,
   ⟨ready, .i3c 0, 0x12, by decide +kernel⟩,
   ⟨speaking, .mgmt 0 0, algs1, by decide +kernel⟩,
   ⟨speaking, .mgmt 0 0, by decide +kernel⟩,
   ⟨speaking, .mgmt 0 0, 9, by decide +kernel⟩,
   ⟨{ ready with guard.spdm := [{ agreed with chunkIn := some (1, 1, []) }] }, .mgmt 0 0, 1, 1, [], by decide +kernel⟩,
   ⟨speaking, .mgmt 0 0, 1, 0, [], by decide +kernel⟩,
   ⟨speaking, .mgmt 0 0, 1, by decide +kernel⟩,
   ⟨{ ready with guard.sessions := [newSession] }, 2, newSession, [], [], by decide +kernel⟩,
   ⟨owned, 1, { id := 1, established := true, owner := true, mutualAsked := true, last := 0, keyGen := 0 }, by decide +kernel⟩,
   ⟨owned, 1, { id := 1, established := true, owner := true, mutualAsked := true, last := 0, keyGen := 0 }, by decide +kernel⟩⟩

/-- The hypotheses of BringUpAndPowerLoss. -/
theorem met_BringUpAndPowerLoss :
    (∃ (s : State), (s.guard.powered = false ∨ s.guard.bring.running = true)) ∧
    (∃ (s : State), s.guard.powered = true ∧ (s.guard.devState = .notReady ∨ s.guard.devState = .booting) ∧ s.guard.bring.running = false ∧
      s.readyFail = none ∧ s.guard.cutoff = false ∧ s.guard.overvolt = false) ∧
    (∃ (s : State), s.guard.powered = true ∧ s.guard.devState = .booting ∧ s.guard.bring.running = false ∧ s.guard.bring.b0 + 10500000000 ≤ s.clock ∧
      s.readyFail.isSome = true) :=
  ⟨⟨State.reset, by decide +kernel⟩,
   ⟨notYet, by decide +kernel⟩,
   ⟨{ notYet with guard.bring := { notYet.guard.bring with finalFail := some (1, 0) }, time.clock := 10500000000 }, by decide +kernel⟩⟩

/-- The hypotheses of ResetRequestsReset. -/
theorem met_ResetRequestsReset :
    (∃ (s : State) (src : Src) (data : Bytes) (r : GReq), s.guard.cutoff = false ∧ s.guard.devState ≠ .booting ∧ s.guard.devState ≠ .resetting ∧ fld
      r.data 0 1 ≤ 3 ∧ Asks s src 0x05 data r 1 [] ∧ s.guard.overvolt = false ∧ (s.binder.run ≠ .off ∨ s.guard.power.pstate = .hold) ∧ bit (fld r.data
      0 1) 0 = true) ∧
    (∃ (s : State) (src : Src) (data : Bytes) (r : GReq), let u := s.heardBy src; s.guard.cutoff = false ∧ s.guard.devState ≠ .booting ∧
      s.guard.devState ≠ .resetting ∧ fld r.data 0 1 ≤ 3 ∧ Asks s src 0x05 data r 1 [] ∧ s.guard.overvolt = false ∧ (s.binder.run ≠ .off ∨
      s.guard.power.pstate = .hold) ∧ bit (fld r.data 0 1) 0 = false ∧ u.countReset.1 = false) ∧
    (∃ (s : State) (src : Src) (data : Bytes) (r : GReq), let u := s.heardBy src; s.guard.cutoff = false ∧ s.guard.devState ≠ .booting ∧
      s.guard.devState ≠ .resetting ∧ fld r.data 0 1 ≤ 3 ∧ Asks s src 0x05 data r 1 [] ∧ s.guard.overvolt = false ∧ (s.binder.run ≠ .off ∨
      s.guard.power.pstate = .hold) ∧ bit (fld r.data 0 1) 0 = false ∧ u.countReset.1 = true) ∧
    (∃ (s : State) (src : Src) (data : Bytes) (r : GReq), s.guard.cutoff = false ∧ s.guard.devState ≠ .booting ∧ s.guard.devState ≠ .resetting ∧ fld
      r.data 0 1 ≤ 3 ∧ Asks s src 0x06 data r 1 [] ∧ fld r.data 0 1 = 1) ∧
    (∃ (s : State) (src : Src) (data : Bytes) (r : GReq), s.guard.cutoff = false ∧ s.guard.devState ≠ .booting ∧ s.guard.devState ≠ .resetting ∧ fld
      r.data 0 1 ≤ 3 ∧ Asks s src 0x06 data r 1 [] ∧ bit (fld r.data 0 1) 1 = true ∧ (if s.guard.owner.isSome then s.isOwner src else s.fromMgmt src)
      = true) :=
  ⟨⟨owned, .mgmt 1 0, [1], ask 0x05 [1], by decide +kernel, by decide +kernel, by decide +kernel, by decide +kernel,
     ⟨by decide +kernel, by decide +kernel, by decide +kernel, by decide +kernel, by decide +kernel⟩, by decide +kernel⟩,
   ⟨owned, .mgmt 1 0, [0], ask 0x05 [0], by decide +kernel, by decide +kernel, by decide +kernel, by decide +kernel,
     ⟨by decide +kernel, by decide +kernel, by decide +kernel, by decide +kernel, by decide +kernel⟩, by decide +kernel⟩,
   ⟨resetAfter [100000000000, 100000000000, 100000000000], .mgmt 1 0, [0], ask 0x05 [0], by decide +kernel, by decide +kernel, by decide +kernel,
     by decide +kernel, ⟨by decide +kernel, by decide +kernel, by decide +kernel, by decide +kernel, by decide +kernel⟩, by decide +kernel⟩,
   ⟨owned, .mgmt 1 0, [1], ask 0x06 [1], by decide +kernel, by decide +kernel, by decide +kernel, by decide +kernel,
     ⟨by decide +kernel, by decide +kernel, by decide +kernel, by decide +kernel, by decide +kernel⟩, by decide +kernel⟩,
   ⟨owned, .mgmt 1 0, [3], ask 0x06 [3], by decide +kernel, by decide +kernel, by decide +kernel, by decide +kernel,
     ⟨by decide +kernel, by decide +kernel, by decide +kernel, by decide +kernel, by decide +kernel⟩, by decide +kernel⟩⟩

/-- The hypotheses of RailsAndReferenceAct. -/
theorem met_RailsAndReferenceAct :
    (∃ (s : State) (rail : Nat), s.guard.powered = true ∧ s.guard.cutoff = false ∧ s.guard.overvolt = false ∧ s.guard.devState ≠ .removed ∧ rail ≤ 7) ∧
    (∃ (s : State), s.guard.powered = true ∧ s.guard.overvolt = false) ∧
    (∃ (s : State), s.guard.powered = true ∧ s.guard.cutoff = false) ∧
    (∃ (s : State) (r : GReq), s.guard.power.heldReset = some r ∧ s.guard.powered = true ∧ s.guard.cutoff = true ∧ s.stillHot = false ∧ fld r.data 0 1
      = 1) ∧
    (∃ (s : State), s.guard.powered = true ∧ s.guard.bring.running = false ∧ s.guard.refLost = none ∧ s.guard.cutoff = false ∧ s.guard.overvolt =
      false) ∧
    (∃ (s : State), s.guard.powered = true ∧ s.guard.bring.refAbsent = true) ∧
    (∃ (s : State) (q : Nat), s.guard.powered = true ∧ s.guard.bring.refAbsent = false ∧ s.guard.refLost = some q ∧
      let t := ({ s with guard.refLost := none } : State).endStall; t.guard.devState ≠ .removed ∧ t.guard.cutoff = false ∧ t.guard.overvolt = false ∧
      t.guard.devState ≠ .booting ∧ t.guard.devState ≠ .resetting ∧ t.countReset.1 = false) :=
  ⟨⟨ready, 7, by decide +kernel⟩,
   ⟨ready, by decide +kernel⟩,
   ⟨ready, by decide +kernel⟩,
   ⟨{ ready with guard.cutoff := true, guard.power := { ready.guard.power with heldReset := some (ask 6 [1]) }, guard.sensors := cool }, ask 6 [1],
     by decide +kernel⟩,
   ⟨ready, by decide +kernel⟩,
   ⟨{ ready with guard.bring := { ready.guard.bring with refAbsent := true } }, by decide +kernel⟩,
   ⟨{ ready with guard.refLost := some 0 }, 0, by decide +kernel⟩⟩

/-- The hypotheses of JtagInstructionsAct. -/
theorem met_JtagInstructionsAct :
    (∃ (s : State), (s.guard.devState = .notReady ∨ s.guard.devState = .removed)) ∧
    (∃ (s : State), s.guard.devState ≠ .notReady ∧ s.guard.devState ≠ .removed) :=
  ⟨⟨{ ready with guard.devState := .removed }, by decide +kernel⟩,
   ⟨ready, by decide +kernel⟩⟩

/-- The hypotheses of CheckpointsCopyAndDrain. -/
theorem met_CheckpointsCopyAndDrain :
    (∃ (s : State) (k : Ckpt), s.liveCkpt = some k ∧ k.st = .copying ∧ (s.running = false ∨ s.bgWindow 2 = true)) ∧
    (∃ (s : State) (a t : Nat) (rest : List (Nat × Nat)) (k : Ckpt), s.held = (a, t) :: rest ∧ s.liveCkpt = some k) ∧
    (∃ (s : State) (k : Ckpt) (i : Nat), s.liveCkpt = some k ∧ k.st = .draining ∧ 0 < i ∧ i < imgGroupSize s.act ∧ k.acked.contains i = false ∧
      let g := (imgGroupIndex s.act + i) % imgGroupSize s.act; let res := imgCkpRes s.act g; (s.running = false ∨ (s.bgWindow 3 = true ∧ s.peerWindow
      k g = true)) ∧ s.routeOpen res = true) ∧
    (∃ (s : State) (k : Ckpt) (i : Nat) (a : PieceAck), s.liveCkpt = some k ∧ k.st = .draining ∧ 0 < i ∧ i < imgGroupSize s.act ∧ k.acked.contains i =
      false ∧ let g := (imgGroupIndex s.act + i) % imgGroupSize s.act; let res := imgCkpRes s.act g; (s.running = false ∨ (s.bgWindow 3 = true ∧
      s.peerWindow k g = true)) ∧ s.routeOpen res = true ∧ a ≠ .interrupted ∧ a ≠ .matching ∧ AMap.get zeroN k.resends i < 3) ∧
    (∃ (s : State) (k : Ckpt) (i : Nat) (a : PieceAck), s.liveCkpt = some k ∧ k.st = .draining ∧ 0 < i ∧ i < imgGroupSize s.act ∧ k.acked.contains i =
      false ∧ let g := (imgGroupIndex s.act + i) % imgGroupSize s.act; let res := imgCkpRes s.act g; (s.running = false ∨ (s.bgWindow 3 = true ∧
      s.peerWindow k g = true)) ∧ s.routeOpen res = true ∧ a ≠ .interrupted ∧ a ≠ .matching ∧ 3 ≤ AMap.get zeroN k.resends i) ∧
    (∃ (s : State) (id : Nat) (k : Ckpt), s.liveOf id = some k ∧ k.st ≠ .begun ∧ k.cutAt + imgCkpLimit s.act * 1000000000 ≤ s.clock) :=
  ⟨⟨{ ready with ckpts := [ckpt1 .copying] }, ckpt1 .copying, by decide +kernel⟩,
   ⟨{ ready with ckpts := [ckpt1 .copying], held := [(1, 0)] }, 1, 0, [], ckpt1 .copying, by decide +kernel⟩,
   ⟨drained [], draining [], 1, by decide +kernel⟩,
   ⟨drained [(1, 2)], draining [(1, 2)], 1, .differs, by decide +kernel⟩,
   ⟨drained [(1, 3)], draining [(1, 3)], 1, .differs, by decide +kernel⟩,
   ⟨{ ready with ckpts := [ckpt1 .copying], time.clock := 600000000000 }, 1, ckpt1 .copying, by decide +kernel⟩⟩

/-- The hypotheses of MemoryHoldsWhatIsWritten. -/
theorem met_MemoryHoldsWhatIsWritten :
    (∃ (s : State) (a : Nat) (d : Bytes), s.mem.wf = true ∧ (∀ i, i < d.length → s.fenced ((a + i) / 1024) = false)) ∧
    (∃ (s : State), s.mem.wf = true) :=
  ⟨⟨ready, farBase, [1], by decide +kernel⟩,
   ⟨ready, by decide +kernel⟩⟩

/-- The hypotheses of MarksFollowTheirSheets. -/
theorem met_MarksFollowTheirSheets :
    (∃ (s : State) (a : Nat), s.mem.wf = true ∧ s.fenced (a / 1024) = false) ∧
    (∃ (s : State) (a : Nat) (sheet : _), s.mem.wf = true ∧ s.fenced (a / 1024) = false ∧ sheet ≠ a / 1024) ∧
    (∃ (s : State) (a : Nat), s.fenced (a / 1024) = true) :=
  ⟨⟨ready, 0, by decide +kernel⟩,
   ⟨ready, 0, 1, by decide +kernel⟩,
   ⟨fencedFar, 0, by decide +kernel⟩⟩

/-- The hypotheses of AResponseIsReadBack. -/
theorem met_AResponseIsReadBack :
    ∃ (s t : State) (n : SlotId) (status detail : Nat) (resp : Bytes), Answered s t n status detail resp ∧ AMap.wf zeroB s.slots[n].payload = true ∧
      resp.length < 65536 :=
  ⟨at0 0x0103 0 [], (at0 0x0103 0 []).complete 0 stOk 0 [1], 0, stOk, 0, [1], (State.complete_answered (by decide +kernel) (by decide +kernel)).1,
    by decide +kernel⟩

/-- The hypotheses of ElementFieldsRoundTrip. -/
theorem met_ElementFieldsRoundTrip :
    ∃ f v, isFloat f = true ∧ v < 2 ^ elemBits f ∧ FV.isNan (decodeElem f v) = false :=
  ⟨1, 0xFF7F, by decide +kernel⟩

/-- The hypotheses of ScaleBytesScaleTheirBlocks. -/
theorem met_ScaleBytesScaleTheirBlocks :
    (∃ b, b < 0xFF) ∧
    (∃ f n b sc i v, isMX f = true ∧ (decodeRow f n b sc).1[i]? = some v ∧ fld sc (i / 32) 1 = 0xFF) ∧
    (∃ f n b sc i v, isMX f = true ∧ (decodeRow f n b sc).1[i]? = some v ∧ fld sc (i / 32) 1 ≠ 0xFF) :=
  ⟨⟨0xFE, by decide +kernel⟩,
   ⟨10, 32, zeros 16, [0xFF], 31, .nan, by decide +kernel⟩,
   ⟨10, 32, zeros 16, [0xFE], 31, (decodeRow 10 32 (zeros 16) [0xFE]).1.getD 31 .nan, by decide +kernel⟩⟩

/-- The hypotheses of WideningIsExact. -/
theorem met_WideningIsExact :
    (∃ f g v, (f, g) ∈ ([(1, 0), (2, 0), (3, 0), (4, 0), (3, 1), (4, 1), (3, 2), (4, 2)] : List (Nat × Nat)) ∧ v < 2 ^ elemBits f ∧
      let x := decodeElem f v; FV.isNan x = false) ∧
    (∃ f g v, (f, g) ∈ ([(1, 0), (2, 0), (3, 0), (4, 0), (3, 1), (4, 1), (3, 2), (4, 2)] : List (Nat × Nat)) ∧ v < 2 ^ elemBits f ∧
      let x := decodeElem f v; FV.isNan x = true) :=
  ⟨⟨4, 2, 0x7B, by decide +kernel⟩,
   ⟨3, 0, 0x7F, by decide +kernel⟩⟩

/-! ## The spec's worked examples -/

/-- 03_formats, Why internal stages round to odd: INT32 16,973,823 to BF16 is 0x4B81. -/
theorem test_int_to_bf16_rounds_once : encodeElem 1 (narrow 1 false (.fin false 16973823 0)).1 = 0x4B81 := by decide +kernel

/-- 03_formats Table 03-4, order 3: 2^24 + 1 rounds to 2^24 in FP32. -/
theorem test_fp32_tie_to_even : encodeElem 0 (narrow 0 false (.fin false (2 ^ 24 + 1) 0)).1 = 0x4B800000 := by decide +kernel

/-- 10_numerics Table 10-3, order 2: the value 500 is stored as 448 in E4M3, with OVF; R87 gives -448 on the other side. -/
theorem test_e4m3_saturates : (narrow 3 false (.fin false 500 0)).1 = (narrow 3 false (.fin false 448 0)).1 ∧
    (narrow 3 false (.fin false 500 0)).2 ≠ 0 ∧ encodeElem 3 (narrow 3 false (.fin true 500 0)).1 = 0xFE := by decide +kernel

/-- 10_numerics, An update below the BF16 spacing: 1 - 2^-8 narrows to 0x3F7F, and nothing is raised. -/
theorem test_working_copy_is_exact : encodeElem 1 (narrow 1 false (.fin false 255 (-8))).1 = 0x3F7F ∧
    (narrow 1 false (.fin false 255 (-8))).2 = 0 := by decide +kernel

/-- 03_formats R84, note: with a = 487 the scale of an MXFP8 E4M3 block is 2^0, and the element saturates to 448 (field 0x7E). -/
theorem test_mx_block_saturates :
    (encodeRow 6 false false 0 false 32 (.fin false 487 0 :: List.replicate 31 FV.zero)).1.take 2 = [0x7E, 0] ∧
    (encodeRow 6 false false 0 false 32 (.fin false 487 0 :: List.replicate 31 FV.zero)).2.1 = [127] := by decide +kernel

/-- 03_formats Table 03-3: the canonical NaNs of FP32, BF16, FP16, E4M3 and E5M2. -/
theorem test_canonical_nans : [0, 1, 2, 3, 4].map (fun f => encodeElem f .nan) = [0x7FC00000, 0x7FC0, 0x7E00, 0x7F, 0x7E] := by decide +kernel

/-- The entry of 10_numerics, Estimate, overflow and recovery: E4M3, HLEN 4, codes 129, 129, 129 and 128. -/
def entryE4 : ScaleEnt :=
  { exp := -3, valid := true, ovfLast := false, probedLast := false, resv := 0, fmt := 3, hlen := 4, hpos := 0, hist := [129, 129, 129, 128], ovfCount := 0 }

/-- Table 10-3, orders 1 to 3: after code 132 the exponent is 0, and after code 135 with OVF it is 3. -/
theorem test_scale_history : (entryE4.update 132 false false).exp = 0 ∧ ((entryE4.update 132 false false).update 135 true false).exp = 3 ∧
    ((entryE4.update 132 false false).update 135 true false).ovfCount = 1 := by decide +kernel

/-! ## Commands by hand -/

/-- SYS_NOP answers its payload and completes with OK (02_binder). -/
theorem test_sys_nop_echoes : ∃ t, step { at0 0x0103 0 [1, 2, 3] with pending := [.sysNop 0] } = .next t ∧
    rdMap t.slots[(0 : SlotId)].payload 0 3 = [1, 2, 3] ∧ t.slots[(0 : SlotId)].hdr.state = 3 ∧ t.slots[(0 : SlotId)].hdr.status = 0 := by
  refine ⟨_, rfl, ?_⟩; decide +kernel

/-- A post with the expected SEQ is taken, and the next one is expected (02_binder R49 R51). -/
theorem test_binder_takes : ∃ t, exec .binderTake (posted 1) = .next t ∧ t.slots[(0 : SlotId)].hdr.state = 2 ∧ t.slots[(0 : SlotId)].expSeq = 2 := by
  refine ⟨_, rfl, ?_⟩; decide +kernel

/-- A post with another SEQ completes with REFUSED_SEQUENCE, and DETAIL holds the expected one (02_binder R51). -/
theorem test_binder_refuses_sequence : ∃ t, exec .binderTake (posted 7) = .next t ∧ t.slots[(0 : SlotId)].hdr.state = 3 ∧
    t.slots[(0 : SlotId)].hdr.detail = 1 ∧ t.slots[(0 : SlotId)].expSeq = 1 := by
  refine ⟨_, rfl, ?_⟩; decide +kernel

/-- A written word is read back low byte first, and the bytes beside it stay (00_scope R9). -/
theorem test_memory_reads_back : ((ready.memWrite 0x1000 [1, 2, 3, 4]).memNat 0x1000 4 = 0x04030201) ∧
    (ready.memWrite 0x1000 [1, 2, 3, 4]).memByte 0x1004 = 0 := by decide +kernel

/-- A counter saturates (06_programs R188). -/
theorem test_counter_saturates : ((({ ready with counters := [(5, 0xFFFFFFFE)] } : State).addCtr 5 7 0 0 0).ctr 5) = 0xFFFFFFFF := by decide +kernel

/-- IDCODE reads 0x10512A6B (17_physical R521). -/
theorem test_idcode : ∃ t, step { ready with pending := [.idcode] } = .next t ∧ t.out = [.tdo 0x10512A6B] ∧ t.guard.jtag = .idcode := by
  refine ⟨_, rfl, ?_⟩; decide +kernel

/-- EXTEST acts as BYPASS at READY, and takes effect in REMOVED (17_physical R521). -/
theorem test_extest_at_ready : ∃ t, exec .extest ready = .next t ∧ t.jtagActs = .bypass ∧
    ({ t with guard.devState := .removed } : State).jtagActs = .extest := by refine ⟨_, rfl, ?_⟩; decide +kernel

/-- 05_vector_optimizer, the worked example of R146: LNORM takes 60 beats a row and LNORM_BWD, whose column sums are FP32, 88. -/
theorem test_vxe_beats :
    let i := { image0 with layouts := [{ lay 0 512 0 with cols := 8192 }, lay 0 1 2] }
    i.vxBeats (packet ([0x40, 1, 0, 0, 0x3A, 0] ++ desc 0 1 ++ desc 0 1 ++ desc 0 1 ++ desc 0 1 ++ unused)) = 60 * 512 ∧
    i.vxBeats (packet ([0x40, 1, 0, 0, 0x3C, 0] ++ desc 0 1 ++ desc 0 1 ++ desc 0 1 ++ desc 0 1 ++ desc 1 0)) = 88 * 512 := by decide +kernel

/-- An entry of TYPE 7 with nothing reserved set; TYPE 8, and a ninth spare row of a bank, do not exist (17_physical R516 R517). -/
theorem test_repair_entries : repairEntryOk ([7, 0, 7, 0, 0xFF, 0xFF] ++ zeros 10) = true ∧ repairEntryOk ([8] ++ zeros 15) = false ∧
    repairEntryOk ([1, 0, 0, 0, 0, 0, 0, 0, 8] ++ zeros 7) = false := by decide +kernel

/-- An idle step lets 1 ns pass. -/
theorem test_idle_step : ∃ t, step ready = .next t ∧ t.time.clock = 1 ∧ t.time.stitch = 1 := by refine ⟨_, rfl, ?_⟩; decide +kernel

/-- The table gives no bits: no word spells a command, and nothing is put in the queue. -/
theorem test_no_word_spells_a_command (s : State) (nbits w : Nat) : decodeTableWord nbits w = none ∧ s.withFetchWord nbits w = s := ⟨rfl, rfl⟩

/-! ## Ill-formed commands: one for each check of Instr.wellFormed -/

/-- Accesses beyond their windows or of a wrong width, and relays beyond the group. -/
theorem test_ill_formed_accesses :
    [Instr.slotWrite .host (.slot 0) 4096 8 0, .slotWrite .host (.slot 0) 64 3 0, .registerWrite .host 0x200000 8 0 false, .registerWrite .host 0x2000000 8 0 true,
     .registerWrite .host 0 16 0 false,
     .guardRegisterWrite .host 0x10000 8 0, .guardRegisterWrite .host 0 0 0, .absentApertureAccess 1 0x200000 true, .hostRelay 0 16 (.read 0 8),
     .hostRelay 0 0 (.read 0 3), .hostRelay 0 0 (.write 0x200000 8 0), .hostRelay 0 0 (.copyIn (2 ^ 64) [0]), .hostRelay 0 0 (.copyOut (2 ^ 64) 1),
     .peerMailboxPost 0 0 4096 8 0, .peerMailboxPost 0 0 64 5 0].all (fun c => !c.wellFormed) = true := by decide +kernel

/-- Schedules, group indices, kinds, parts and pieces out of range. -/
theorem test_ill_formed_numbers :
    [Instr.armExchangeReceive 65536 [], .armExchangeReceive 1 [{ index := 16, facing := 0, scales := [] }],
     .armExchangeReceive 1 [{ index := 0, facing := 16, scales := [] }], .diagnosticReplay 65536, .phaseLaunch 65536 0, .backgroundWindow 65536 0,
     .barrierUpSend 65536, .barrierLimitExpiry 65536, .replayStart 65536, .logItemInject 65536,
     .colAdmitDeviceLoad 0 [{ kind := 5, index := 0, missing := [], data := [], step := 0, half := false, digest := 0, folios := 8 }],
     .colAdmitDeviceShadow 0 [{ kind := 0, index := 0, missing := [], data := [], step := 0, half := false, digest := 0, folios := 8 }],
     .ckpBegin 0 [{ index := 16, devId := 0, highest := 0, imageLen := 0, winStart := 0, winEnd := 0, accept := true, resOk := true, fits := true }],
     .ckpLoad 0 none [{ src := 16, piece := 0, data := none }], .ckpLoad 0 none [{ src := 0, piece := 16, data := none }], .drain 16 .matching,
     .partAcknowledge 0 64 true].all (fun c => !c.wellFormed) = true := by decide +kernel

/-- Engine commands on an instance of another class. -/
theorem test_ill_formed_classes :
    ([Instr.leafLoad 1 0 [], .streamRows 1 0 [], .copy 0 0 [], .copyList 0 0 [], .tip 0 0 [], .update 0 0 [], .route 0 0 [], .update 40 0 [], .route 36 0 []] ++
     (vectorCommands 0 0 []).map (·.1)).all (fun c => !c.wellFormed) = true := by decide +kernel

/-- Memory events, channels and sensor reports out of range. -/
theorem test_ill_formed_events :
    [Instr.streamRows 0 0 [.corrected (2 ^ 40)], .copy 2 0 [.uncorrectable (2 ^ 40)], .update 36 0 [.crc 1024 1], .copy 2 0 [.crc 0 9],
     .leafLoad 0 0 [.corrected (2 ^ 40)], .add 1 0 [.crc 1024 1], .copyList 2 0 [.crc 0 9], .tip 2 0 [.staging 0 (2 ^ 30)], .route 40 0 [.crc 1024 1],
     .loop 0 [.corrected (2 ^ 40)], .memHostCopy 0 [] [] 0 [.crc 1024 1], .engineCommandComplete 0 0 [.crc 0 9],
     .correctedErrorWarningClear 0x1200, .patrolScrub (2 ^ 40) .clean, .stagingScrub 0 (some (2 ^ 40)) .clean, .stackSensorReport [],
     .junctionSensorReport { junction := [], inlet := none, outlet := none, powerW := 0, vin10mV := 0 }, .coolantDemand 65536].all
      (fun c => !c.wellFormed) = true := by decide +kernel

/-- Messages, frames and soaks out of range. -/
theorem test_ill_formed_messages :
    [Instr.tokenMessageReceive 0 { resId := 0, ctx := 64, folio := 0, index := 0, inc := 0, tag := 0 },
     .tokenMessageReceive 0 { resId := 0, ctx := 0, folio := 12, index := 0, inc := 0, tag := 0 },
     .tokenMessageReceive 0 { resId := 0, ctx := 0, folio := 0, index := 512, inc := 0, tag := 0 }, .dataPartReceive 0 { part1 with part := 64 },
     .dataPartReceive 0 { part1 with ctx := 64 }, .dataPartReceive 0 { part1 with pieces := [(2 ^ 64, [0])] },
     .remoteCopyDeclare 0 { resId := 0, copy := 0, ctx := 64, parts := [] }, .remoteCopyDeclare 0 { resId := 0, copy := 0, ctx := 0, parts := [(64, [])] },
     .barrierUpReceive 0 { barMsg false with entries := [{ index := 16, recto := ⟨0, false⟩, verso := ⟨0, false⟩, flags := 0 }] },
     .barrierDownReceive 0 { barMsg false with entries := [{ index := 16, recto := ⟨0, false⟩, verso := ⟨0, false⟩, flags := 0 }] },
     .voteReceive 0 { setId := 0, step := 0, down := false, entries := [{ dev := 4096, ordinal := 0, nonfinite := false, poison := false, n2 := 0 }] },
     .voteReceive 0 { setId := 0, step := 0, down := false, entries := [{ dev := 0, ordinal := 64, nonfinite := false, poison := false, n2 := 0 }] },
     .dataFrameReceive 0 { frame1 false with vc := 8 }, .dataFrameReceive 0 { frame1 false with body := .part { part1 with part := 64 } },
     .qualificationSoakEnd { soak1 0 with lane := 8 }, .linkWarning { soak1 0 with lane := 8 }, .liveSoakEnd 0 [{ soak1 0 with lane := 8 }],
     .noSignal 0 8, .vcCreditStall 0 8].all (fun c => !c.wellFormed) = true := by decide +kernel

/-- Requests to the Guard longer than the mailbox's payload. -/
theorem test_ill_formed_requests :
    let b := zeros 4033
    [Instr.logRead .mailbox b, .crashDumpRead .mailbox b, .sensorRead .mailbox b, .powerStateChangeNap .mailbox b, .powerStateChangeHold .mailbox b,
     .powerStateChangeRun .mailbox b { stages := [] }, .binderReset .mailbox b { stages := [] }, .fullDeviceReset .mailbox b bring1,
     .returnToService .mailbox b bring1, .linkHoldSet .mailbox b, .linkHoldRelease .mailbox b, .attestation .mailbox b, .setLimit .mailbox b,
     .setBound .mailbox b, .setResetPolicy .mailbox b, .clearLog .mailbox b, .keyInstall .mailbox b, .keyErase .mailbox b, .issueTicket .mailbox b,
     .fwStage .mailbox b, .fwStatus .mailbox b, .takeOwner .mailbox b, .releaseOwner .mailbox b, .mgmtConfig .mailbox b, .mgmtPost .mailbox b,
     .mgmtPostFetch .mailbox b].all (fun c => !c.wellFormed) = true := by decide +kernel

/-- Findings, sessions, slots and rails out of range. -/
theorem test_ill_formed_findings :
    let k : PartitionKat := { stages := [(12, 1)] }
    [Instr.powerStateChangeRun .mailbox [] k, .wakeAfterExpiry k, .binderReset .mailbox [] k, .computePartitionReset k, .referenceRestored k,
     .fullDeviceReset .mailbox [] { bring1 with stages := [(12, 1)] }, .returnToService .mailbox [] { bring1 with badChannels := [1024] },
     .powerUp { bring1 with railFault := some 8 }, .cutoffCooldown { bring1 with stages := [(12, 1)] }, .supplyFault 8, .sessionTimeout (2 ^ 32),
     .getCertificate .mailbox 8 0 0, .challenge .mailbox 8 [], .getMeasurements .mailbox 256 false [], .keyExchange .mailbox (2 ^ 32) [] false,
     .finish (2 ^ 32) [] [] true, .heartbeat (2 ^ 32), .keyUpdate (2 ^ 32), .endSession (2 ^ 32)].all (fun c => !c.wellFormed) = true := by
  decide +kernel

/-- Well-formed commands at the ends of their ranges. -/
theorem test_well_formed_bounds :
    [Instr.slotWrite .host (.slot 63) 4095 1 0, .registerWrite .host 0x1FFFFF 1 0 false, .registerWrite .host 0x1FFFFFF 1 0 true,
     .hostRelay 11 15 (.read 0x1FFFFF 1), .leafLoad 33 0 [.staging 3 (2 ^ 30 - 1)], .add 34 0 [], .copy 35 0 [], .update 39 0 [.crc 0x2003 8], .route 43 0 [], .drain 15 .matching, .supplyFault 7, .noSignal 11 7].all Instr.wellFormed = true := by decide +kernel

end Sys2Proof.Tests
end

/-! # Accesses of the mailboxes and of the device aperture

What a write to a slot, to the Guard mailbox and to each window of the aperture does, one lemma per case of the model's functions, and the
statements of the family 00_scope settled from them. -/

section
namespace Sys2Proof.Machine

/-! ## The commands, as their operations on the state -/

@[simp] theorem exec_slotWrite (s : State) (who : Agent) (mb : Mbox) (off width : Nat) (v : W64) :
    exec (.slotWrite who mb off width v) s = .next (s.slotAccess who mb off width v.toNat) := rfl

@[simp] theorem exec_slotPost (s : State) (who : Agent) (mb : Mbox) (resv : BitVec 6) (upper : Option W32) :
    exec (.slotPost who mb resv upper) s = .next (s.stateWrite who mb 1 resv upper) := rfl

@[simp] theorem exec_slotRelease (s : State) (who : Agent) (mb : Mbox) (resv : BitVec 6) (upper : Option W32) :
    exec (.slotRelease who mb resv upper) s = .next (s.stateWrite who mb 0 resv upper) := rfl

@[simp] theorem exec_slotWithdraw (s : State) (who : Agent) (mb : Mbox) (resv : BitVec 6) (upper : Option W32) :
    exec (.slotWithdraw who mb resv upper) s = .next (s.stateWrite who mb 0 resv upper) := rfl

theorem exec_peerMailboxPost_of_admitted {s : State} {p : Port} (h : s.ports[p].admitted = true) (n : SlotId) (off width : Nat) (v : W64) :
    exec (.peerMailboxPost p n off width v) s = exec (.slotWrite (.peer p) (.slot n) off width v) s :=
  if_pos h

@[simp] theorem exec_guardRegisterWrite (s : State) (who : Agent) (off width : Nat) (v : W64) :
    exec (.guardRegisterWrite who off width v) s = .next (s.gdwWrite who off width v.toNat) := rfl

@[simp] theorem exec_registerWrite_bar0 (s : State) (who : Agent) (off width : Nat) (v : W64) :
    exec (.registerWrite who off width v false) s = .next (s.write who off width v.toNat) := rfl

@[simp] theorem exec_registerWrite_bar2 (s : State) (off width : Nat) (v : W64) :
    exec (.registerWrite .host off width v true) s = .next (s.bar2Write off width v) := rfl

theorem exec_absentApertureAccess_of_master {s : State} {i : Fin 16} (hm : imgMaster s.act = true) (hi : imgGroupIndex s.act ≠ i.val)
    (off : Nat) (write : Bool) : exec (.absentApertureAccess i off write) s = .next (s.absentAccess i.val off write) :=
  if_pos (by simp [hm, hi])

/-! ## A slot: the payload and the first header word -/

/-- A write of 1 to 8 bytes in the payload: aligned, and inside the slot (00_scope R9). -/
def PayloadWrite (off width : Nat) : Prop :=
  (width = 1 ∨ width = 2 ∨ width = 4 ∨ width = 8) ∧ off % width = 0 ∧ 64 ≤ off ∧ off + width ≤ 4096

theorem Slot.access_payload {x : Slot} {off width : Nat} (h : PayloadWrite off width) (v : Nat) :
    x.access off width v = if x.hdr.state = 1 ∨ x.hdr.state = 2 then x.violate else
      { x with payload := wrMap x.payload (off - 64) (le width (v % 2 ^ (8 * width))) } := by
  obtain ⟨hw, ha, h64, hend⟩ := h
  have hok : ((width = 1 || width = 2 || width = 4 || width = 8) && off % width = 0 && decide (off + width ≤ 4096)) = true := by
    simp [hw, ha, hend, or_assoc]
  simp only [Slot.access, if_neg (Nat.not_lt.2 h64), if_pos hok, Bool.or_eq_true, decide_eq_true_eq]

/-- A slot that its poster owns, free or done, takes the bytes (R48). -/
theorem Slot.access_payload_of_owned {x : Slot} {off width : Nat} (hs : x.hdr.state = 0 ∨ x.hdr.state = 3) (h : PayloadWrite off width)
    (v : Nat) : x.access off width v = { x with payload := wrMap x.payload (off - 64) (le width (v % 2 ^ (8 * width))) } := by
  rw [Slot.access_payload h, if_neg]
  rcases hs with hs | hs <;> simp [hs]

theorem Slot.access_firstWord (x : Slot) (v : Nat) : x.access 0 4 v = x.commit (v % 2 ^ 32) := rfl

theorem firstWord_lt {st : Nat} (h : st < 4) (resv : BitVec 6) : st + 4 * resv.toNat < 2 ^ 32 := by omega

/-- A 32-bit write of STATE and the reserved bits commits them: nothing of the word is cut off. -/
theorem Slot.access_stateWord (x : Slot) {st : Nat} (h : st < 4) (resv : BitVec 6) :
    x.access 0 4 (st + 4 * resv.toNat) = x.commit (st + 4 * resv.toNat) := by
  rw [Slot.access_firstWord, Nat.mod_eq_of_lt (firstWord_lt h resv)]

theorem stateWord_resv {st : Nat} (h : st < 4) (resv : BitVec 6) : BitVec.ofNat 6 ((st + 4 * resv.toNat) / 4) = resv := by
  rw [show (st + 4 * resv.toNat) / 4 = resv.toNat by omega, BitVec.ofNat_toNat, BitVec.setWidth_eq]

theorem stateWord_state {st : Nat} (h : st < 4) (resv : BitVec 6) : (st + 4 * resv.toNat) % 4 = st := by omega

/-- Post (R47): a free slot becomes POSTED and VIOL counts anew. -/
theorem Slot.commit_post {x : Slot} (h : x.hdr.state = 0) (resv : BitVec 6) :
    x.commit (1 + 4 * resv.toNat) = { x with hdr := { x.hdr with state := 1, resv0 := resv, viol := 0 } } := by
  simp [Slot.commit, h, stateWord_resv (st := 1), stateWord_state (st := 1)]

/-- Release and withdraw (R47 R49): a done slot, or a posted one that the Binder has not taken, becomes free. -/
theorem Slot.commit_free {x : Slot} (h : x.hdr.state = 3 ∨ x.hdr.state = 1) (resv : BitVec 6) :
    x.commit (0 + 4 * resv.toNat) = { x with hdr := { x.hdr with state := 0, resv0 := resv } } := by
  rcases h with h | h <;> simp [Slot.commit, h]

/-! ## Who reaches a mailbox -/

theorem State.slotAccess_of_mayWrite {s : State} {who : Agent} {n : SlotId} (hd : s.windowsDead = false) (hw : s.mayWrite who n = true)
    (off width v : Nat) : s.slotAccess who (.slot n) off width v = s.setSlot n (s.slots[n].access off width v) := by
  simp [State.slotAccess, hd, hw]

theorem State.slotAccess_guard_host {s : State} (hp : s.guard.powered = true) (off width v : Nat) :
    s.slotAccess .host .guard off width v = { s with guard.mbox := s.guard.mbox.access off width v } := by
  simp [State.slotAccess, hp]

theorem State.slotAccess_guard_of_ne_host {s : State} {who : Agent} (hp : s.guard.powered = true) (hw : who ≠ .host) (off width v : Nat) :
    s.slotAccess who .guard off width v = { s with guard.mbox := s.guard.mbox.violate } := by
  simp [State.slotAccess, hp, hw]

theorem State.stateWrite_guard_host {s : State} (hp : s.guard.powered = true) {st : Nat} (h : st < 4) (resv : BitVec 6) :
    s.stateWrite .host .guard st resv none = { s with guard.mbox := s.guard.mbox.commit (st + 4 * resv.toNat) } := by
  rw [State.stateWrite, State.slotAccess_guard_host hp, Slot.access_stateWord _ h]

/-! ## Bytes written to a payload are read back -/

theorem le_length (n v : Nat) : (le n v).length = n := by
  induction n generalizing v with
  | zero => rfl
  | succ n ih => simp [le, ih]

theorem rdMap_wrMap_le {m : AMap Byte} (h : AMap.wf zeroB m = true) (a n v : Nat) : rdMap (wrMap m a (le n v)) a n = le n v := by
  have hr := rdMap_wrMap (le n v) a h
  rwa [le_length] at hr

/-- Settles O9: the payload, the peer's port, and the Guard mailbox clause by clause. -/
theorem slotWritesStoreTheirBytes : Obligations.SlotWritesStoreTheirBytes := by
  unfold Obligations.SlotWritesStoreTheirBytes
  constructor
  · intro s who n off width v hd hw hs hwidth halign h64 hend
    have hstore : exec (.slotWrite who (.slot n) off width v) s = .next (s.setSlot n
        { s.slots[n] with payload := wrMap s.slots[n].payload (off - 64) (le width (v.toNat % 2 ^ (8 * width))) }) := by
      rw [exec_slotWrite, State.slotAccess_of_mayWrite hd hw, Slot.access_payload_of_owned hs ⟨hwidth, halign, h64, hend⟩]
    refine ⟨hstore, ?_⟩
    rintro p rfl hp
    rw [exec_peerMailboxPost_of_admitted hp, hstore]
  · intro s resv hp
    refine ⟨fun h => ?post, fun h => ?release, fun h => ?withdraw, fun who off width v hw => ?other, fun off v h ha h64 hend hwf => ?payload⟩
    case post => rw [exec_slotPost, State.stateWrite_guard_host hp (by omega), Slot.commit_post h]
    case release => rw [exec_slotRelease, State.stateWrite_guard_host hp (by omega), Slot.commit_free (.inl h)]
    case withdraw => rw [exec_slotWithdraw, State.stateWrite_guard_host hp (by omega), Slot.commit_free (.inr h)]
    case other => rw [exec_slotWrite, State.slotAccess_guard_of_ne_host hp hw]
    case payload =>
      refine ⟨_, exec_slotWrite s .host .guard off 8 v, ?_⟩
      rw [State.slotAccess_guard_host hp, Slot.access_payload_of_owned (.inl h) ⟨by simp, ha, h64, hend⟩,
        Nat.mod_eq_of_lt v.isLt]
      exact rdMap_wrMap_le hwf (off - 64) 8 v.toNat

/-! ## The windows of the aperture -/

theorem State.write_shadow {off : Nat} (hlo : 0x100000 ≤ off) (hhi : off < 0x180000) (s : State) (who : Agent) (width v : Nat) :
    s.write who off width v = s.scwWrite who (off - 0x100000) width v := by
  rw [State.write, if_neg (by omega), if_neg, if_pos]
  · simp [hlo, hhi]
  · simp only [Bool.and_eq_true, decide_eq_true_eq]
    omega

/-- The host sets a register's writable bits at its own width (00_scope R12). -/
theorem State.scwWrite_register {s : State} {off width : Nat} {r : Reg} (hr : regAt off = some r) (hw : r.width = 8 * width)
    (hd : s.windowsDead = false) (v : Nat) :
    s.scwWrite .host off width v = { s with cfg.shadow := imgSet s.cfg.shadow off ((v % 2 ^ (8 * width)).land r.mask) } := by
  simp [State.scwWrite, hr, hw, hd]

/-- A write to a Guard-owned register below the mailbox is dropped (16_guard R478). -/
theorem State.gdwWrite_register {s : State} {who : Agent} {off width : Nat} (hp : s.guard.powered = true) (hw : who ≠ .guard)
    (hoff : off < 0x8000) (hr : gdwIsReg off width = true) (v : Nat) : s.gdwWrite who off width v = s.gdwDrop off := by
  simp [State.gdwWrite, hp, hw, hr, Nat.not_le.2 hoff]

/-- BAR2 holds one aperture of 2 MiB for each index: an offset names its index and the offset in that aperture (R42). -/
theorem bar2_index {off : Nat} (h : off < 0x200000) (i : Nat) : (0x200000 * i + off) / 0x200000 = i := by omega

theorem bar2_offset {off : Nat} (h : off < 0x200000) (i : Nat) : (0x200000 * i + off) % 0x200000 = off := by omega

theorem State.bar2Write_forward {s : State} {i off : Nat} {p : Port} (hm : imgMaster s.act = true) (hi : i < 16)
    (hne : i ≠ imgGroupIndex s.act) (hoff : off < 0x200000) (hp : (List.finRange 12).find? (fun p => s.ports[p].admitted) = some p)
    (width : Nat) (v : W64) : s.bar2Write (0x200000 * i + off) width v = s.emit (.relayForward p i (.write off width v)) := by
  have hin : (!imgMaster s.act || decide (16 ≤ i)) = false := by simp [hm, hi]
  simp only [State.bar2Write, bar2_index hoff, bar2_offset hoff, hin, if_neg hne, hp, Bool.false_eq_true, if_false]

/-! ## Relayed accesses (12_links R367) -/

theorem exec_hostRelay_onward {s : State} {p : Port} {dest : Nat} (hp : s.ports[p].admitted = true) (hd : dest ≠ imgGroupIndex s.act)
    (body : RelayBody) : exec (.hostRelay p dest body) s = .next (s.emit (.relayForward p dest body)) :=
  (if_neg (by simpa using hp)).trans (if_pos hd)

/-- What a relayed access does on the device that it names. -/
def State.relayedHere (s : State) (p : Port) : RelayBody → State
  | .read off width => s.emit (.relayReply p (s.read off width))
  | .write off width v => s.write .host off width v.toNat
  | .copyIn a d => if s.copyCovers 0 a d.length then s.memWrite a d else s
  | .copyOut a n => if s.copyCovers 1 a n then s.emit (.relayData p (s.memRead a n)) else s

theorem exec_hostRelay_here {s : State} {p : Port} {dest : Nat} (hp : s.ports[p].admitted = true) (hd : dest = imgGroupIndex s.act)
    (body : RelayBody) : exec (.hostRelay p dest body) s = .next (s.relayedHere p body) := by
  refine ((if_neg (by simpa using hp)).trans (if_neg (by simp [hd]))).trans ?_
  cases body with
  | read off width => rfl
  | write off width v => rfl
  | copyIn a d => exact (apply_ite Host.Outcome.next _ _ _).symm
  | copyOut a n => exact (apply_ite Host.Outcome.next _ _ _).symm

/-- Settles O14: one lemma of the window or of the relay for each clause. -/
theorem apertureAccessesAct : Obligations.ApertureAccessesAct := by
  unfold Obligations.ApertureAccessesAct
  refine ⟨?shadow, ?bar2, ?guard, ?absent, ?relay⟩
  case shadow =>
    intro s off width v r hlo hhi hr hw hd
    rw [exec_registerWrite_bar0, State.write_shadow hlo hhi, State.scwWrite_register hr hw hd]
  case bar2 =>
    intro s i off width v p hm hi hne hoff hp
    rw [exec_registerWrite_bar2, State.bar2Write_forward hm hi hne hoff hp]
  case guard =>
    intro s off width v hp hoff hr
    rw [exec_guardRegisterWrite, State.gdwWrite_register hp (by simp) hoff hr]
  case absent =>
    intro s i off hm hi
    exact ⟨exec_absentApertureAccess_of_master hm hi off true, exec_absentApertureAccess_of_master hm hi off false⟩
  case relay =>
    intro s p dest off width v hp
    refine ⟨fun hd body => exec_hostRelay_onward hp hd body, fun hd => exec_hostRelay_here hp hd _, fun hd => exec_hostRelay_here hp hd _,
      fun a d hd hc => ?_, fun a k hd hc => ?_⟩
    · rw [exec_hostRelay_here hp hd, State.relayedHere, if_pos hc]
    · rw [exec_hostRelay_here hp hd, State.relayedHere, if_pos hc]

end Sys2Proof.Machine
end

/-! # The Guard's limits

What a sensor report, a step of the cap, of the supply and of the operating point, and the coolant demand do (01_step R20 R22, 09_memory R266,
16_guard R499 R500), one lemma per case of the model's functions, and the statement of the family 01_step settled from them. -/

section
namespace Sys2Proof.Machine

/-! ## Sensor reports -/

theorem exec_stackSensorReport_of_powered {s : State} {l : List (Option Int)} (hp : s.guard.powered = true) (hl : l.length = 40) :
    exec (.stackSensorReport l) s =
      .next (({ s with guard := { s.guard with sensors := { s.guard.sensors with dram := l } } } : State).settleCap.settlePoint) :=
  if_neg (by simp [hp, hl])

theorem exec_junctionSensorReport_of_powered {s : State} {r : JReport} (hp : s.guard.powered = true) (hl : r.junction.length = 16) :
    exec (.junctionSensorReport r) s = .next (({ s with guard := { s.guard with
      sensors := { s.guard.sensors with junction := r.junction, inlet := r.inlet, outlet := r.outlet, powerW := r.powerW, vin10mV := r.vin10mV }
      supply := { s.guard.supply with supplyFault := s.guard.supply.supplyFault && decide (r.vin10mV < 4000) } } } :
        State).settlePoint.powerRecord.inletRecord) :=
  if_neg (by simp [hp, hl])

/-! ## The bandwidth cap (09_memory R266) -/

/-- The cap one band higher. -/
def raisedCap (cap : Nat) : Nat := if cap < 40 then 40 else cap + 8

theorem exec_throttleBandRaise_of_due {s : State} {t : Nat} (ht : s.guard.supply.capSince = some t) (hdue : t + 1000000 ≤ s.clock)
    (hcap : s.guard.supply.cap < 64) :
    exec .throttleBandRaise s = .next { s with guard.supply := { s.guard.supply with
      cap := raisedCap s.guard.supply.cap, capSince := s.capCool (raisedCap s.guard.supply.cap) none } } := by
  change execThrottleBandRaise s = _
  simp only [execThrottleBandRaise, ok, ht, hdue, hcap, decide_true, Bool.and_self, if_true, raisedCap]

theorem exec_throttleStepDown_of_due {s : State} {t : Nat} (ht : s.guard.supply.capHotSince = some t) (hdue : t + 1000000 ≤ s.clock) :
    exec .throttleStepDown s = .next { s with
      guard.supply := { s.guard.supply with cap := max 16 (s.guard.supply.cap - 8), capHotSince := some s.clock } } := by
  change execThrottleStepDown s = _
  simp only [execThrottleStepDown, ok, ht, hdue, if_true]

/-! ## The compute supply and the stall (01_step R22, 16_guard R499) -/

/-- The supply after one step of 25 mV from `v` towards its target. -/
def steppedVolts (v target : Nat) : Nat :=
  if v < target then min target (v + 25) else if target < v then max target (v - 25) else v

theorem steppedVolts_of_near {v target : Nat} (hup : target ≤ v + 25) (hdown : v ≤ target + 25) : steppedVolts v target = target := by
  unfold steppedVolts
  split_ifs <;> omega

theorem steppedVolts_of_far_below {v target : Nat} (h : v + 25 < target) : steppedVolts v target = v + 25 := by
  rw [steppedVolts, if_pos (by omega), min_eq_right h.le]

theorem steppedVolts_of_far_above {v target : Nat} (h : target + 25 < v) : steppedVolts v target = v - 25 := by
  rw [steppedVolts, if_neg (by omega), if_pos (by omega), max_eq_right (by omega)]

/-- The state with the supply one step nearer to its target. -/
def State.stepVolts (s : State) : State :=
  { s with guard.supply.vcomp := steppedVolts s.guard.supply.vcomp s.guard.supply.vtarget }

theorem exec_voltageStep (s : State) :
    exec .voltageStep s = .next { s.stepVolts with guard.supply := { s.stepVolts.guard.supply with hotSince := s.stepVolts.hotNow } } := rfl

theorem exec_thermalStall_of_due {s : State} (hp : s.guard.powered = true) (hn : s.guard.supply.stall = false) (hhot : s.hotNow.isSome = true)
    (hdue : s.ripe s.guard.supply.hotSince = true) :
    exec .thermalStall s = .next { s with guard.supply := { s.guard.supply with stall := true, stallSince := s.clock } } :=
  if_pos (by simp [hp, hn, hhot, hdue])

/-! ## The return to a higher operating point (01_step R20 R23) -/

/-- The Guard and the rails are on, so that there is an operating point to choose. -/
def State.HasPoint (s : State) : Prop :=
  s.guard.powered = true ∧ s.guard.cutoff = false ∧ s.guard.overvolt = false ∧ s.guard.devState ≠ .removed

/-- The return to the highest point whose conditions have held with the margin for long enough; from the emergency point to the floor. -/
def State.returnPoint (s : State) : State :=
  if pointRank s.guard.supply.opPoint = 0 then (if s.ripe s.guard.supply.floorSince then s.setPoint .floor else s)
  else if s.ripe s.guard.supply.peakSince && decide (pointRank s.guard.supply.opPoint < 3) then s.setPoint .peak
  else if s.ripe s.guard.supply.nominalSince && decide (pointRank s.guard.supply.opPoint < 2) then s.setPoint .nominal
  else s

theorem exec_operatingPointReturn_of_hasPoint {s : State} (h : s.settlePoint.HasPoint) :
    exec .operatingPointReturn s = .next s.settlePoint.returnPoint := by
  obtain ⟨hpow, hcut, hover, hdev⟩ := h
  refine (if_neg (by simp [hpow, hcut, hover, hdev])).trans ?_
  simp only [State.returnPoint, ok, apply_ite Host.Outcome.next]

theorem State.returnPoint_of_emergency {s : State} (hr : pointRank s.guard.supply.opPoint = 0) (hf : s.ripe s.guard.supply.floorSince = true) :
    s.returnPoint = s.setPoint .floor := by
  rw [State.returnPoint, if_pos hr, if_pos hf]

theorem State.returnPoint_of_ripe_peak {s : State} (hne : pointRank s.guard.supply.opPoint ≠ 0) (hlt : pointRank s.guard.supply.opPoint < 3)
    (hp : s.ripe s.guard.supply.peakSince = true) : s.returnPoint = s.setPoint .peak := by
  rw [State.returnPoint, if_neg hne, if_pos (by simp [hp, hlt])]

theorem State.returnPoint_of_ripe_nominal {s : State} (hr : pointRank s.guard.supply.opPoint = 1)
    (hp : s.ripe s.guard.supply.peakSince = false) (hn : s.ripe s.guard.supply.nominalSince = true) :
    s.returnPoint = s.setPoint .nominal := by
  rw [State.returnPoint, if_neg (by omega), if_neg (by simp [hp]), if_pos (by simp [hn, hr])]

/-! ## The coolant demand (16_guard R500) -/

/-- D for a power: 100 % in the emergency point, and otherwise the largest of the shares. -/
def State.demandWanted (s : State) (w : Nat) : Nat :=
  if s.guard.supply.opPoint = .emergency then 100 else demandOf w s.designPower s.tJ s.tS s.guard.limits.demandMin

/-- The points by which the demand falls: no more than the difference, and one for each 200 ms. -/
def State.demandFall (s : State) (w : Nat) : Nat :=
  min (s.guard.supply.demand - s.demandWanted w) ((s.clock - s.guard.supply.demandAt) / 200000000)

/-- The supply's record with the demand for a power: it rises at once and falls by its points. -/
def State.demandSettled (s : State) (w : Nat) : Supply :=
  if s.guard.supply.demand ≤ s.demandWanted w then { s.guard.supply with demand := s.demandWanted w, demandAt := s.clock }
  else { s.guard.supply with
    demand := s.guard.supply.demand - s.demandFall w, demandAt := s.guard.supply.demandAt + 200000000 * s.demandFall w }

theorem exec_coolantDemand_of_powered {s : State} (hp : s.guard.powered = true) (w : Nat) :
    exec (.coolantDemand w) s = .next { s with guard.supply := s.demandSettled w } :=
  if_neg (by simp [hp])

theorem exec_coolantDemand_of_rise {s : State} {w : Nat} (hp : s.guard.powered = true) (h : s.guard.supply.demand ≤ s.demandWanted w) :
    exec (.coolantDemand w) s = .next { s with guard.supply := { s.guard.supply with
      demand := s.demandWanted w, demandAt := s.clock } } := by
  rw [exec_coolantDemand_of_powered hp, State.demandSettled, if_pos h]

theorem exec_coolantDemand_of_fall {s : State} {w : Nat} (hp : s.guard.powered = true) (h : s.demandWanted w < s.guard.supply.demand) :
    exec (.coolantDemand w) s = .next { s with guard.supply := { s.guard.supply with
      demand := s.guard.supply.demand - s.demandFall w, demandAt := s.guard.supply.demandAt + 200000000 * s.demandFall w } } := by
  rw [exec_coolantDemand_of_powered hp, State.demandSettled, if_neg (Nat.not_le.2 h)]

/-- Settles O32: one lemma of the report, the cap, the supply, the point or the demand for each clause. -/
theorem theGuardKeepsItsLimits : Obligations.TheGuardKeepsItsLimits := by
  unfold Obligations.TheGuardKeepsItsLimits
  refine ⟨⟨fun s l => exec_stackSensorReport_of_powered, fun s r => exec_junctionSensorReport_of_powered⟩,
    fun s => ⟨?raise, ?stepDown, ?volts, ?stall, ?point⟩, fun s w hp => ⟨?rise, ?fall⟩⟩
  case raise => exact fun t => exec_throttleBandRaise_of_due
  case stepDown => exact fun t => exec_throttleStepDown_of_due
  case volts => exact ⟨exec_voltageStep s, steppedVolts_of_near, steppedVolts_of_far_below, steppedVolts_of_far_above⟩
  case stall => exact exec_thermalStall_of_due
  case point =>
    intro u p hpow hcut hover hdev
    have hret : exec .operatingPointReturn s = .next u.returnPoint := exec_operatingPointReturn_of_hasPoint ⟨hpow, hcut, hover, hdev⟩
    refine ⟨fun hr hf => ?_, fun hne hlt hpeak => ?_, fun hr hpeak hn => ?_⟩
    · rw [hret, State.returnPoint_of_emergency hr hf]
    · rw [hret, State.returnPoint_of_ripe_peak hne hlt hpeak]
    · rw [hret, State.returnPoint_of_ripe_nominal hr hpeak hn]
  case rise => exact exec_coolantDemand_of_rise hp
  case fall => exact exec_coolantDemand_of_fall hp

end Sys2Proof.Machine
end

/-! # The mailbox slots and the Binder's take

What a write to a slot commits, ignores or counts, what the Binder does with the next posted slot, and the state at the start of bring-up
(02_binder R45 R47 to R51 R54 R55): one lemma per case of the model's functions, and the statements that follow from them. -/

section
namespace Sys2Proof.Machine

/-! ## The first header word, alone or with the second -/

theorem Slot.access_firstWords (x : Slot) (v : Nat) :
    x.access 0 8 v = (x.writeWord 1 (v % 2 ^ 64 / 4294967296)).commit (v % 2 ^ 64 % 4294967296) := rfl

/-- A 64-bit write at offset 0 writes its upper half first, then commits its lower half (R47). -/
theorem Slot.access_stateWord64 (x : Slot) {st : Nat} (h : st < 4) (resv : BitVec 6) (u : W32) :
    x.access 0 8 (st + 4 * resv.toNat + 4294967296 * u.toNat) = (x.writeWord 1 u.toNat).commit (st + 4 * resv.toNat) := by
  have hlow := firstWord_lt h resv
  have hv : (st + 4 * resv.toNat + 4294967296 * u.toNat) % 2 ^ 64 = st + 4 * resv.toNat + 4294967296 * u.toNat :=
    Nat.mod_eq_of_lt (by omega)
  have hhi : (st + 4 * resv.toNat + 4294967296 * u.toNat) / 4294967296 = u.toNat := by omega
  have hlo : (st + 4 * resv.toNat + 4294967296 * u.toNat) % 4294967296 = st + 4 * resv.toNat := by omega
  rw [Slot.access_firstWords, hv, hhi, hlo]

/-- A slot that its poster owns, free or done, takes a header word (R48). -/
theorem Slot.writeWord_of_owned {x : Slot} (hs : x.hdr.state = 0 ∨ x.hdr.state = 3) (i v : Nat) :
    x.writeWord i v = { x with hdr := x.hdr.setWord i v } := by
  rcases hs with hs | hs <;> simp [Slot.writeWord, hs]

/-- The commit of a slot in STATE 2 leaves it there: a withdrawal comes too late (R49). -/
theorem Slot.commit_state_of_taken {x : Slot} (h : x.hdr.state = 2) (v : Nat) : (x.commit v).hdr.state = 2 := by
  simp [Slot.commit, h]

/-- The header with which a write of STATE commits: with a 64-bit write, the second word is the upper half. -/
def Slot.committed (x : Slot) (upper : Option W32) : Slot :=
  { x with hdr := (upper.map fun u => x.hdr.setWord 1 u.toNat).getD x.hdr }

@[simp] theorem Slot.committed_none (x : Slot) : x.committed none = x := rfl

@[simp] theorem Slot.committed_state (x : Slot) (upper : Option W32) : (x.committed upper).hdr.state = x.hdr.state := by
  cases upper <;> rfl

/-- A write of STATE by the agent of a slot that the poster owns commits, after the second word where the write has 64 bits. -/
theorem State.stateWrite_slot_of_owned {s : State} {who : Agent} {n : SlotId} (hd : s.windowsDead = false) (hw : s.mayWrite who n = true)
    (hs : s.slots[n].hdr.state = 0 ∨ s.slots[n].hdr.state = 3) {st : Nat} (h : st < 4) (resv : BitVec 6) (upper : Option W32) :
    s.stateWrite who (.slot n) st resv upper = s.setSlot n ((s.slots[n].committed upper).commit (st + 4 * resv.toNat)) := by
  cases upper with
  | none => rw [State.stateWrite, State.slotAccess_of_mayWrite hd hw, Slot.access_stateWord _ h, Slot.committed_none]
  | some u =>
    rw [State.stateWrite, State.slotAccess_of_mayWrite hd hw, Slot.access_stateWord64 _ h, Slot.writeWord_of_owned hs]
    rfl

/-- A 32-bit write of STATE by the agent of a slot commits. -/
theorem State.stateWrite_slot_word {s : State} {who : Agent} {n : SlotId} (hd : s.windowsDead = false) (hw : s.mayWrite who n = true)
    {st : Nat} (h : st < 4) (resv : BitVec 6) :
    s.stateWrite who (.slot n) st resv none = s.setSlot n (s.slots[n].commit (st + 4 * resv.toNat)) := by
  rw [State.stateWrite, State.slotAccess_of_mayWrite hd hw, Slot.access_stateWord _ h]

/-- Settles O8: the post and the release commit the header with its second word, and the withdrawal commits the first word alone. -/
theorem theStateWriteCommits : Obligations.TheStateWriteCommits := by
  unfold Obligations.TheStateWriteCommits
  intro s who n resv upper hd hw x h
  refine ⟨fun hs => ?post, fun hs => ?release, ?withdraw, ?late⟩
  case post =>
    rw [exec_slotPost, State.stateWrite_slot_of_owned hd hw (.inl hs) (by omega), Slot.commit_post ((Slot.committed_state _ _).trans hs)]
    rfl
  case release =>
    rw [exec_slotRelease, State.stateWrite_slot_of_owned hd hw (.inr hs) (by omega), Slot.commit_free (.inl ((Slot.committed_state _ _).trans hs))]
    rfl
  case withdraw =>
    rintro hs rfl
    rw [exec_slotWithdraw, State.stateWrite_slot_word hd hw (by omega), Slot.commit_free (.inr hs)]
  case late =>
    rintro hs rfl
    refine ⟨_, exec_slotWithdraw .., ?_⟩
    rw [State.stateWrite_slot_word hd hw (by omega), State.setSlot_same]
    exact Slot.commit_state_of_taken hs _

/-! ## Writes that count in VIOL (R45 R48) -/

theorem Slot.violate_eq (x : Slot) :
    x.violate = { x with hdr.viol := if x.hdr.viol = 0xFFFF then 0xFFFF else x.hdr.viol + 1 } := by
  unfold Slot.violate
  split_ifs with h
  · rw [← h]
  · rfl

/-- A write inside the slot, at a width of its part of the slot, that does not reach the first header word (00_scope R9). -/
def OtherWrite (off width : Nat) : Prop :=
  off % width = 0 ∧ 4 ≤ off ∧ off + width ≤ 4096 ∧
    ((off < 64 ∧ (width = 4 ∨ width = 8)) ∨ (64 ≤ off ∧ (width = 1 ∨ width = 2 ∨ width = 4 ∨ width = 8)))

/-- While STATE is 1 or 2, every other write is ignored and counts (R48). -/
theorem Slot.access_of_taken {x : Slot} {off width : Nat} (hs : x.hdr.state = 1 ∨ x.hdr.state = 2) (h : OtherWrite off width) (v : Nat) :
    x.access off width v = x.violate := by
  obtain ⟨ha, h4, hend, hpart⟩ := h
  have hne : off ≠ 0 := by omega
  rcases hpart with ⟨h64, hw | hw⟩ | ⟨h64, hw⟩
  · subst hw
    rcases hs with hs | hs <;> simp [Slot.access, Slot.writeWord, h64, ha, hne, hs]
  · subst hw
    rcases hs with hs | hs <;> simp [Slot.access, h64, ha, hne, hs]
  · rw [Slot.access_payload ⟨hw, ha, h64, hend⟩, if_pos hs]

/-- Settles O10: the write is a word of the header or bytes of the payload, and both count. -/
theorem writesToTakenSlotsCount : Obligations.WritesToTakenSlotsCount := by
  unfold Obligations.WritesToTakenSlotsCount
  intro s who n off width v hd hw hs ha h4 hend hpart
  rw [exec_slotWrite, State.slotAccess_of_mayWrite hd hw, Slot.access_of_taken hs ⟨ha, h4, hend, hpart⟩, Slot.violate_eq]

theorem State.slotAccess_of_not_mayWrite {s : State} {who : Agent} {n : SlotId} (hd : s.windowsDead = false) (hw : s.mayWrite who n = false)
    (off width v : Nat) : s.slotAccess who (.slot n) off width v = s.setSlot n s.slots[n].violate := by
  simp [State.slotAccess, hd, hw]

/-- Settles O11: whatever it names in the slot, the write only counts. -/
theorem writesByOthersAreIgnored : Obligations.WritesByOthersAreIgnored := by
  unfold Obligations.WritesByOthersAreIgnored
  intro s who n off width v hd hw
  rw [exec_slotWrite, State.slotAccess_of_not_mayWrite hd hw, Slot.violate_eq]

/-! ## The Binder takes a post (R50 R51 R54) -/

theorem exec_binderTake_of_posted {s : State} {n : SlotId} (hn : s.nextPosted = some n) (hr : s.binder.run ≠ .off) :
    exec .binderTake s = .next (s.take n) := by
  change execBinderTake s = _
  simp only [execBinderTake, hn, if_neg hr, ok]

/-- The state in which the scan stands at a slot and the post's SEQ is used up. -/
def State.useSeq (s : State) (n : SlotId) : State :=
  ({ s with binder.scanPos := n } : State).setSlot n { s.slots[n] with expSeq := s.slots[n].expSeq + 1 }

theorem State.useSeq_slot (s : State) (n : SlotId) : (s.useSeq n).slots[n] = { s.slots[n] with expSeq := s.slots[n].expSeq + 1 } :=
  State.setSlot_same _ _ _

/-- The checks of a post look at no expected SEQ and at no scan position. -/
theorem State.useSeq_postCheck (s : State) (n : SlotId) : (s.useSeq n).postCheck n = s.postCheck n := by
  simp only [State.postCheck, State.ctxOk, State.useSeq_slot]
  rfl

/-- A post with the expected SEQ that passes its checks uses the SEQ up, reaches STATE 2 and joins the taken commands. -/
theorem State.take_of_passed {s : State} {n : SlotId} (hseq : s.slots[n].hdr.seq = s.slots[n].expSeq) (hc : s.postCheck n = none)
    (hr : s.slots[n].ctxNo = 0 ∨ s.ctxs[ctxId s.slots[n].ctxNo].resetting = false) :
    s.take n = { s.setSlot n { s.slots[n] with
        expSeq := s.slots[n].expSeq + 1, hdr.state := 2, takenAt := s.clock, held := .none } with
      binder.taken := s.binder.taken ++ [n], binder.scanPos := n } := by
  have hnot : (decide (s.slots[n].ctxNo ≠ 0) && s.ctxs[ctxId s.slots[n].ctxNo].resetting && decide (s.slots[n].hdr.cmd ≠ 0x0203)) = false := by
    rcases hr with h | h <;> simp only [h, ne_eq, not_true_eq_false, decide_false, Bool.false_and, Bool.and_false]
  refine (if_neg (not_not.2 hseq)).trans ?_
  change (match (s.useSeq n).postCheck n with | some (st, d) => _ | none => _) = _
  rw [State.useSeq_postCheck, hc]
  refine (if_neg (by simpa using hnot)).trans ?_
  change { (s.useSeq n).setSlot n { (s.useSeq n).slots[n] with hdr.state := 2, takenAt := s.clock, held := .none } with
    binder.taken := s.binder.taken ++ [n] } = _
  rw [State.useSeq_slot]
  simp only [State.useSeq, State.setSlot, Vector.set_set]

/-- Settles O12: the scan finds the slot, and the take passes every check. -/
theorem theBinderTakesAPost : Obligations.TheBinderTakesAPost := by
  unfold Obligations.TheBinderTakesAPost
  intro s n hn hrun hseq hc hr
  rw [exec_binderTake_of_posted hn hrun, State.take_of_passed hseq hc hr]

/-! ## A completion outside class PEER, refused or not (R47 R51) -/

theorem State.relayDone_of_notRelayed {s : State} {n : SlotId} (hm : s.notRelayed n) : s.relayDone n = s := by
  have hnone : s.guard.mposts.find? (fun m => m.slot = n) = none := by
    simpa only [List.find?_eq_none, decide_eq_true_eq] using hm
  simp only [State.relayDone, hnone]

theorem State.notify_notRelayed {s : State} {n : SlotId} (hm : s.notRelayed n) : (s.notify n).notRelayed n := by
  unfold State.notify
  split <;> exact hm

/-- The slot as the completion leaves it, the command out of the taken ones, and the message to the host. -/
theorem State.complete_of_notPeer {s : State} {n : SlotId} (hm : s.notRelayed n) (hc : imgClass s.act n.val ≠ 2) (st d : Nat) (r : Bytes) :
    ∃ ts, s.complete n st d r = ({ s.setSlot n { s.slots[n].finish s.time.stitch st d r with refusals := ts } with
      binder.taken := s.binder.taken.filter fun m => m ≠ n } : State).notify n := by
  unfold State.complete
  extract_lets x ts u0 b u v
  refine ⟨ts.drop (ts.length - 16), ?_⟩
  have hv : v = u.notify n := State.relayDone_of_notRelayed (State.notify_notRelayed hm)
  have key : ∀ p : Port,
      (if (decide (16 ≤ ts.length) && decide (imgClass v.act n.val = 2) && isRefused st) = true then v.malformedNow p 9 else v) = v := by
    intro p
    have hact : v.act = s.act := by
      rw [hv]
      unfold State.notify
      split <;> rfl
    simp [hact, hc]
  split
  · rw [key, hv]
  · rw [hv]

/-- The message to the host leaves the slots, the Binder and the rest of the answer as they are. -/
theorem Answered.notify {s t : State} {n : SlotId} {st d : Nat} {r : Bytes} (h : Answered s t n st d r) : Answered s (t.notify n) n st d r := by
  unfold State.notify
  split
  · exact ⟨h.header, h.payload, h.released, h.others, h.taken⟩
  · exact h

@[simp] theorem State.notify_slots (s : State) (n : SlotId) : (s.notify n).slots = s.slots := by
  unfold State.notify
  split <;> rfl

/-- A completion outside class PEER answers its slot, with a refusal too, and leaves the expected SEQ. -/
theorem State.complete_answered_of_notPeer {s : State} {n : SlotId} (hm : s.notRelayed n) (hc : imgClass s.act n.val ≠ 2) (st d : Nat) (r : Bytes) :
    Answered s (s.complete n st d r) n st d r ∧ (s.complete n st d r).slots[n].expSeq = s.slots[n].expSeq := by
  obtain ⟨ts, e⟩ := State.complete_of_notPeer hm hc st d r
  have hsame := State.setSlot_same s n { s.slots[n].finish s.time.stitch st d r with refusals := ts }
  rw [e]
  refine ⟨Answered.notify ⟨?_, ?_, ?_, fun m h => State.setSlot_other s n m _ h, rfl⟩, ?_⟩
  · exact congrArg Slot.hdr hsame
  · exact congrArg Slot.payload hsame
  · exact congrArg Slot.held hsame
  · rw [State.notify_slots]
    exact (congrArg Slot.expSeq hsame :)

theorem State.take_of_wrong_seq {s : State} {n : SlotId} (h : s.slots[n].hdr.seq ≠ s.slots[n].expSeq) :
    s.take n = ({ s with binder.scanPos := n } : State).complete n stSequence (s.slots[n].expSeq.toNat % 65536) [] :=
  if_pos h

/-- Settles O13: the take completes the slot, and its completion leaves the expected SEQ. -/
theorem aWrongSequenceIsRefused : Obligations.AWrongSequenceIsRefused := by
  unfold Obligations.AWrongSequenceIsRefused
  intro s n hn hrun hseq hc hm
  obtain ⟨h, hexp⟩ := State.complete_answered_of_notPeer (s := { s with binder.scanPos := n }) hm hc stSequence (s.slots[n].expSeq.toNat % 65536) []
  refine ⟨_, (exec_binderTake_of_posted hn hrun).trans (congrArg _ (State.take_of_wrong_seq hseq)), ?_, hexp⟩
  exact ⟨h.header, h.payload, h.released, h.others, h.taken⟩

/-! ## The start of bring-up (R55; log entry 1) -/

theorem reset_logBounded : State.reset.logBounded := ⟨Nat.zero_le _, Nat.zero_le _⟩

theorem reset_slot (n : SlotId) : State.reset.slots[n] = Slot.reset := by simp [State.reset]

theorem reset_ctx (c : Fin 64) : State.reset.ctxs[c] = Ctx.reset := by simp [State.reset]

theorem reset_port (p : Port) : State.reset.ports[p] = PortS.reset := by simp [State.reset]

theorem reset_engine (e : EngId) : State.reset.engines[e] = Engine.reset := by simp [State.reset]

/-- Nothing is written and nothing is undefined, so a byte reads zero in a fenced channel and outside. -/
theorem reset_memByte (a : Nat) : State.reset.memByte a = 0 := by
  unfold State.memByte
  split <;> rfl

/-- Settles O7: each part of the reset state is given by its own reset value. -/
theorem theResetStateIsSound : Obligations.TheResetStateIsSound := by
  unfold Obligations.TheResetStateIsSound
  refine ⟨⟨reset_mem_wf, reset_logBounded⟩, rfl, fun n => ?slot, fun c => ?ctx, rfl, fun p => ?port, fun e => ?engine, reset_memByte, rfl⟩
  case slot => rw [reset_slot]; exact ⟨rfl, rfl, rfl⟩
  case ctx => rw [reset_ctx]; rfl
  case port => rw [reset_port]; rfl
  case engine => rw [reset_engine]; rfl

end Sys2Proof.Machine
end

/-! # Commands that read

What the commands that only read complete with (02_binder R63 R64 R68, and the rows of the other blocks): each runs its meaning, which is a
completion of the state as it is. -/

section
namespace Sys2Proof.Machine

/-! ## From a command that runs to its completion -/

/-- A command whose slot is ready serves what its meaning gives. -/
theorem Serves.of_runs {s t : State} {c : Instr} {n : SlotId} {cmd : Nat} {e : Res} {f : Slot → State} (he : exec c s = e)
    (hf : e = s.serloth n cmd f) (hr : s.runs n cmd = true) (ht : f s.slots[n] = t) : Serves s c n t := by
  rw [Serves, he, hf, State.serloth_of_runs hr, ht]

/-- A command on the stores whose slot is ready serves what its meaning gives, outside self-refresh (09_memory R284). -/
theorem Serves.of_runsMem {s t : State} {c : Instr} {n : SlotId} {cmd : Nat} {e : Res} {f : Slot → State} (he : exec c s = e)
    (hf : e = s.serlothMem n cmd f) (hm : s.mem.selfRefresh = false) (hr : s.runs n cmd = true) (ht : f s.slots[n] = t) : Serves s c n t :=
  Serves.of_runs he (hf.trans (by rw [State.serlothMem, hm]; rfl)) hr ht

/-- A command that serves a completion of the state as it is answers, and changes nothing else. -/
theorem Completes.of_read {s : State} {c : Instr} {n : SlotId} {st : Nat} {r : Bytes} (hm : s.notRelayed n) (hs : isRefused st = false)
    (e : Serves s c n (s.complete n st 0 r)) : Completes s c n st r id :=
  Completes.of_serves (g := id) e hm hs ⟨rfl, rfl, rfl⟩

/-- Neither of two refusals applies. -/
theorem not_decide_or {p q : Prop} [Decidable p] [Decidable q] (hp : ¬p) (hq : ¬q) : ¬(decide p || decide q) = true := by simp [hp, hq]

/-! ## Reads of the state, of tables and of buffers -/

/-- Settles O15: each command's checks pass, and its meaning is the completion. -/
theorem readCommandsAnswer : Obligations.ReadCommandsAnswer := by
  unfold Obligations.ReadCommandsAnswer
  refine ⟨fun s n hm => ⟨?sysInfo, ?sysReady, ?sysNop, ?ctxStatus, ?cfgCheck, ?schStatus, ?schSlips, ?lnkStatus, ?timStatus, ?colStatus, ?ckpStatus⟩,
    fun s n hm => ⟨?poisonScan, ?scalesRead, ?trcRead, ?fltRecords⟩⟩
  case sysInfo => exact fun hr => .of_read hm rfl (.of_runs (e := execSysInfo n s) rfl rfl hr rfl)
  case sysReady => exact fun hr => .of_read hm rfl (.of_runs (e := execSysReady n s) rfl rfl hr rfl)
  case sysNop => exact fun hr => .of_read hm (by split <;> rfl) (.of_runs (e := execSysNop n s) rfl rfl hr rfl)
  case ctxStatus => exact fun hr hc => .of_read hm rfl (.of_runs (e := execCtxStatus n s) rfl rfl hr (if_neg hc))
  case cfgCheck =>
    intro hr hb h0 hf
    refine .of_read hm rfl (.of_runs (e := execCfgCheck n s) rfl rfl hr ?_)
    simp only [if_neg h0, hb, hf, Bool.false_eq_true, ne_eq, not_true_eq_false, if_false]
  case schStatus =>
    intro y hr hy
    refine .of_read hm rfl (.of_runs (e := execSchStatus n s) rfl rfl hr ?_)
    simp only [hy]
  case schSlips =>
    intro y hr hy hcount h0 hfirst
    refine .of_read hm rfl (.of_runs (e := execSchSlips n s) rfl rfl hr ?_)
    simp only [hy, if_neg (Nat.not_lt.2 hcount)]
    exact if_neg (not_decide_or h0 (Nat.not_le.2 hfirst))
  case lnkStatus => exact fun hr h0 => .of_read hm rfl (.of_runs (e := execLnkStatus n s) rfl rfl hr (if_neg h0))
  case timStatus => exact fun hr => .of_read hm rfl (.of_runs (e := execTimStatus n s) rfl rfl hr rfl)
  case colStatus =>
    intro y hr hy
    refine .of_read hm rfl (.of_runs (e := execColStatus n s) rfl rfl hr ?_)
    simp only [hy]
  case ckpStatus =>
    intro k hr h0 hk
    refine .of_read hm rfl (.of_runs (e := execCkpStatus n s) rfl rfl hr ?_)
    simp only [if_neg h0, hk]
  case poisonScan =>
    intro hr hf h0 hmap
    refine .of_read hm rfl (.of_runsMem (e := execMemPoisonScan n s) rfl rfl hf hr ?_)
    exact (if_neg h0).trans (if_neg (by rw [hmap]; simp))
  case scalesRead =>
    intro y hr hf hop hbad hy
    refine .of_read hm (by split <;> rfl) (.of_runsMem (e := execNumScalesRead n s) rfl (if_neg hop) hf hr ?_)
    simp only [hbad, hy]
  case trcRead =>
    intro t hr hcount h0 ht hnext
    refine .of_read hm rfl (.of_runs (e := execTrcRead n s) rfl rfl hr ?_)
    simp only [if_neg (Nat.not_lt.2 hcount), ht]
    exact if_neg (not_decide_or h0 (Nat.not_le.2 hnext))
  case fltRecords =>
    intro hr hcount hclass hst
    refine .of_read hm rfl (.of_runs (e := execFltRecords n s) rfl rfl hr ?_)
    simp only [if_neg (Nat.not_lt.2 hcount), hclass, decide_false, Bool.not_false, Bool.true_or, if_false, hst]

end Sys2Proof.Machine
end

/-! # Commands that set, and the contexts

What the commands that set a part of a context, of the shadow image or of a table do, and what CTX_OPEN, CTX_CLOSE and CTX_RESET do
(02_binder R61 R64 R68, 10_numerics R297 R307, 13_collation R415 R416, 15_faults R454 R456 R474; log entries 24, 25 and 101). -/

section
namespace Sys2Proof.Machine

/-- A ticket of this device that has its time, its scope and its count passes the checks of R474 where its signature does. -/
theorem State.injectBad_of_allowed {s : State} {b : Bytes} (hlo : fld b 0x28 8 ≤ s.now) (hhi : s.now ≤ fld b 0x28 8 + 600000000000)
    (hscope : bit (fld b 0x30 4) (fld b 0 2) = true) (hnoesc : bit (fld b 2 2) 0 = true → bit (fld b 0x30 4) 31 = true)
    (ht1 : 1 ≤ fld b 0 2) (ht2 : fld b 0 2 ≤ 0x0E) (hc1 : 1 ≤ fld b 4 4) (hc2 : fld b 4 4 ≤ 1024) (hp : paramOk (fld b 0 2) (fld b 0x18 8) = true)
    (hlen : s.guard.injections.length < 16) (huse : s.guard.ticketUse (BitVec.ofNat 64 (fld b 0x28 8)) (BitVec.ofNat 32 (fld b 0x30 4)) < 16) :
    s.injectBad b = if fld b 0x20 8 = Config.devId.toNat ∧ Config.identityVerify (sha512v (sub b 0x20 24)) (sub b 0x38 132) = true then none
      else some (stAuth, 1) := by
  have htime : (decide (fld b 0x28 8 + 600000000000 < s.now) || decide (s.now < fld b 0x28 8)) = false := by
    simp [hlo, hhi]
  have hcount : (decide (16 ≤ s.guard.ticketUse (BitVec.ofNat 64 (fld b 0x28 8)) (BitVec.ofNat 32 (fld b 0x30 4))) ||
      decide (16 ≤ s.guard.injections.length)) = false := by
    simp [hlen, huse]
  have hallowed : (!bit (fld b 0x30 4) (fld b 0 2) || decide (31 ≤ fld b 0 2) || (bit (fld b 2 2) 0 && !bit (fld b 0x30 4) 31)) = false := by
    have : ¬31 ≤ fld b 0 2 := by omega
    cases he : bit (fld b 2 2) 0 <;> simp_all
  have hformed : (decide (fld b 0 2 = 0) || decide (0x0E < fld b 0 2) || decide (fld b 4 4 = 0) || decide (1024 < fld b 4 4) ||
      !paramOk (fld b 0 2) (fld b 0x18 8)) = false := by
    simp only [hp, Bool.not_true, Bool.or_false, Bool.or_eq_false_iff, decide_eq_false_iff_not]
    omega
  have hrest : s.injectBad b = if (decide (fld b 0x20 8 ≠ Config.devId.toNat) || decide (fld b 0x28 8 + 600000000000 < s.now) ||
      decide (s.now < fld b 0x28 8) || !Config.identityVerify (sha512v (sub b 0x20 24)) (sub b 0x38 132)) = true then some (stAuth, 1) else none := by
    unfold State.injectBad
    simp only [hcount, hallowed, hformed, Bool.false_eq_true, if_false]
  rw [hrest, Bool.or_assoc (decide _), htime, Bool.or_false]
  by_cases hd : fld b 0x20 8 = Config.devId.toNat
  · cases hv : Config.identityVerify (sha512v (sub b 0x20 24)) (sub b 0x38 132) <;> simp [hd]
  · simp [hd]

/-- Settles O16: each command's checks pass, and its meaning completes the state with the part set. -/
theorem settingCommandsSet : Obligations.SettingCommandsSet := by
  unfold Obligations.SettingCommandsSet
  intro s n hm
  refine ⟨?timeout, ?revert, ?monitor, ?scales, ?inject, ?feed, ?endFeed⟩
  case timeout =>
    intro hr hc hlo hhi
    refine .of_serves (.of_runs (e := execCtxTimeout n s) rfl rfl hr ?_) hm rfl ⟨rfl, rfl, rfl⟩
    exact (if_neg hc).trans (if_neg (not_decide_or (Nat.not_lt.2 hlo) (Nat.not_lt.2 hhi)))
  case revert =>
    intro hr hb h0
    refine .of_serves (.of_runs (e := execCfgRevert n s) rfl rfl hr ?_) hm rfl ⟨rfl, rfl, rfl⟩
    exact (if_neg (Bool.eq_false_iff.1 hb)).trans (if_neg h0)
  case monitor =>
    exact fun hr => .of_serves (.of_runs (e := execNumMonitor n s) rfl rfl hr rfl) hm rfl ⟨rfl, rfl, rfl⟩
  case scales =>
    intro y hr hf hop hbad hy hact hok
    refine .of_runsMem (e := execNumScalesWrite n s) rfl (if_neg (not_not.2 hop)) hf hr ?_
    simp only [hbad, hy]
    exact (if_neg (Bool.eq_false_iff.1 hact)).trans (if_neg (by rw [hok]; exact Bool.false_ne_true))
  case inject =>
    intro hr b mine hlo hhi hscope hnoesc ht1 ht2 hc1 hc2 hp hlen huse i t
    refine .of_runs (e := execFltInject n s) rfl rfl hr ?_
    have hbad : s.injectBad s.slots[n].req = if mine then none else some (stAuth, 1) :=
      State.injectBad_of_allowed hlo hhi hscope hnoesc ht1 ht2 hc1 hc2 hp hlen huse
    by_cases hmine : mine
    · rw [if_pos hmine] at hbad
      rw [if_pos hmine]
      simp only [hbad]
      rfl
    · rw [if_neg hmine] at hbad
      rw [if_neg hmine]
      simp only [hbad]
  case feed =>
    intro y h hr hf hk hy hh f
    refine .of_serves (.of_runsMem (e := execStartShadowFeed n s) rfl rfl hf hr ?_) hm rfl ⟨rfl, rfl, rfl⟩
    simp only [hk, hy, hh, ne_eq, not_true_eq_false, if_false]
    rfl
  case endFeed =>
    intro hr hf hk
    refine .of_runsMem (e := execEndShadowFeed n s) rfl rfl hf hr ?_
    exact if_neg (not_not.2 hk)

/-! ## Contexts -/

/-- Settles O17: the checks pass in the order of their functions, and what remains is the next state. -/
theorem contextsOpenAndClose : Obligations.ContextsOpenAndClose := by
  unfold Obligations.ContextsOpenAndClose
  intro s n
  refine ⟨?openNamed, ?close, ?reset, ?again⟩
  case openNamed =>
    intro hr h0 hfree hnear hfar hclass hbound t
    refine .of_runs (e := execCtxOpen n s) rfl rfl hr ?_
    unfold State.ctxOpen
    simp only [hclass, not_decide_or (Nat.not_lt.2 hnear) (Nat.not_lt.2 hfar), if_neg h0, hfree, hbound, Bool.false_eq_true, if_false]
    rfl
  case close =>
    intro hr hc hact hpin hprot t u
    refine .of_runs (e := execCtxClose n s) rfl rfl hr ?_
    unfold State.ctxClose
    simp only [if_neg hc, hact, hpin, hprot, ne_eq, not_true_eq_false, decide_false, Bool.or_false, Bool.false_eq_true, if_false]
    rfl
  case reset =>
    intro hr hc hres t
    refine .of_runs (e := execCtxReset n s) rfl rfl hr ?_
    exact (if_neg hc).trans (if_neg (Bool.eq_false_iff.1 hres))
  case again =>
    intro hr hc hres
    refine .of_runs (e := execCtxReset n s) rfl rfl hr ?_
    exact (if_neg hc).trans (if_pos hres)

end Sys2Proof.Machine
end

/-! # Presses and the link commands

What CFG_PRESS and LNK_PRESS do with their snapshot, and what LNK_RESERVE, LNK_QUALIFY and LNK_QUARANTINE do (02_binder R66 R67, 12_links R352
R356 R369 R378; log entry 26 for the blocks in use). -/

section
namespace Sys2Proof.Machine

/-! ## The pending image of a press -/

/-- The image that a press keeps for its slot. -/
def State.snapshot (s : State) (n : SlotId) (mask : W64) : Pending :=
  { mask := mask, image := imgMerge mask s.cfg.shadow [], slot := some n }

/-- The state in which a press waits in its slot with its pending image. -/
def State.pressWaits (s : State) (n : SlotId) (mask : W64) (skip : BitVec 12) : State :=
  ({ s with cfg.pendings := s.cfg.pendings ++ [s.snapshot n mask] } : State).hold n (.press skip)

theorem State.pressWaits_slot (s : State) (n : SlotId) (mask : W64) (skip : BitVec 12) :
    (s.pressWaits n mask skip).slots[n] = { s.slots[n] with held := .press skip } := State.setSlot_same _ _ _

/-- What the pending image would leave is what the shadow image would. -/
theorem State.pressWaits_merged (s : State) (n : SlotId) (mask : W64) (skip : BitVec 12) :
    (s.pressWaits n mask skip).merged (s.snapshot n mask).mask (s.snapshot n mask).image = s.merged mask s.cfg.shadow :=
  s.merged_snap mask s.cfg.shadow

/-- The state in which the pending image of a press has taken effect. -/
def State.pressed (s : State) (n : SlotId) (mask : W64) : State :=
  (((s.pressWaits n mask 0).unlist (s.snapshot n mask)).pressEffect mask (s.merged mask s.cfg.shadow))

/-- A press of blocks outside the links takes effect at once, and completes its command. -/
theorem State.applyPending_core {s : State} {n : SlotId} {mask : W64} (hl : mask.toNat < 65536)
    (hf : firstFailing s.guard.keys (s.merged mask s.cfg.shadow) = 0) :
    (s.pressWaits n mask 0).applyPending (s.snapshot n mask) =
      (((s.pressed n mask).complete n stOk 0 ((s.pressed n mask).pressResp (s.pressed n mask).now 0 0)).reReady).tagFrom s.guard.logNext
        s.slots[n].hdr.tag := by
  have hm := s.pressWaits_merged n mask 0
  change ((s.pressWaits n mask 0).pendingEffect (s.snapshot n mask)).tagFrom s.guard.logNext (s.pressWaits n mask 0).slots[n].hdr.tag = _
  rw [State.pendingEffect_core rfl hl (by rw [hm]; exact hf), State.pressWaits_slot, hm]
  rfl

/-- A press whose snapshot agrees, and that no condition keeps out. -/
structure State.Presses (s : State) (mask : W64) : Prop where
  free : (s.cfg.pendings.any fun r => r.mask &&& mask ≠ 0) = false
  agrees : firstFailing s.guard.keys (s.merged mask s.cfg.shadow) = 0
  idle : s.pressBusy mask (s.merged mask s.cfg.shadow) = none

/-- Such a press waits for the compute-partition reset where it names MODE, and else waits in its slot or takes effect. -/
theorem State.press_of_presses {s : State} {mask : W64} (h : s.Presses mask) (n : SlotId) :
    s.press n mask =
      if bit mask.toNat 0 then
        ({ s with cfg.pendings := s.cfg.pendings ++ [{ s.snapshot n mask with slot := none }] } : State).complete n stOk 0 (s.pressResp 0 0 0)
      else if s.maskInUse mask then s.pressWaits n mask 0 else (s.pressWaits n mask 0).applyPending (s.snapshot n mask) := by
  obtain ⟨hfree, hagrees, hidle⟩ := h
  unfold State.press
  simp only [hfree, State.merged_snap, hagrees, hidle, Bool.false_eq_true, ne_eq, not_true_eq_false, if_false]
  rfl

/-! ## CFG_PRESS -/

/-- A mask that CFG_PRESS takes names no block above bit 15 (R65 R71). -/
theorem mask_lt_of_core {v : Nat} (h : maskBad v false = false) : (BitVec.ofNat 64 v).toNat < 65536 := by
  simp only [maskBad, Bool.not_false, Bool.true_and, Bool.or_eq_false_iff] at h
  obtain ⟨⟨-, hresv⟩, hlinks⟩ := h
  have hhigh : v / 0x10000000 = 0 := not_not.1 (of_decide_eq_false hresv)
  have hlink : v / 2 ^ 16 % 2 ^ 12 = 0 := not_not.1 (of_decide_eq_false hlinks)
  rw [BitVec.toNat_ofNat]
  omega

theorem serves_cfgPress {s : State} {n : SlotId} (hr : s.runs n 0x0301 = true) (hb : maskBad (fld s.slots[n].req 0 8) false = false)
    (h0 : fld s.slots[n].req 0 8 ≠ 0) : Serves s (.cfgPress n) n (s.press n (BitVec.ofNat 64 (fld s.slots[n].req 0 8))) :=
  .of_runs (e := execCfgPress n s) rfl rfl hr ((if_neg (Bool.eq_false_iff.1 hb)).trans (if_neg h0))

/-! ## The ports of a mask (12_links R352) -/

/-- The mask of one port among the link blocks. -/
def linkBlock (q : Port) : W64 := BitVec.ofNat 64 (2 ^ (q.val + 16))

theorem linkBlock_toNat (q : Port) : (linkBlock q).toNat = 2 ^ (q.val + 16) := by
  rw [linkBlock, BitVec.toNat_ofNat]
  exact Nat.mod_eq_of_lt (Nat.pow_lt_pow_right (by omega) (by omega))

theorem linkBlock_ge (q : Port) : 65536 ≤ (linkBlock q).toNat := by
  rw [linkBlock_toNat]
  exact (Nat.pow_le_pow_right (by decide) (Nat.le_add_left 16 q.val) : 2 ^ 16 ≤ 2 ^ (q.val + 16))

theorem linkBlock_bit_of_lt (q : Port) {b : Nat} (h : b < 16) : bit (linkBlock q).toNat b = false := by
  rw [bit, linkBlock_toNat, Nat.testBit_two_pow_of_ne (by omega)]

theorem linkBlock_div (q : Port) : (linkBlock q).toNat / 65536 = 2 ^ q.val := by
  rw [linkBlock_toNat, Nat.pow_add]
  exact Nat.mul_div_cancel _ (by decide)

theorem linkBlock_eq_mul (q : Port) : BitVec.ofNat 64 (2 ^ q.val * 65536) = linkBlock q := by
  rw [linkBlock, Nat.pow_add]

theorem bitList_port (q : Port) : bitList (2 ^ q.val) 12 = [q.val] := by
  revert q
  decide

/-- The mask of one port among the ports. -/
def portMask (q : Port) : BitVec 12 := BitVec.ofNat 12 (2 ^ q.val)

theorem portMask_toNat (q : Port) : (portMask q).toNat = 2 ^ q.val := by
  rw [portMask, BitVec.toNat_ofNat]
  exact Nat.mod_eq_of_lt (Nat.pow_lt_pow_right (by omega) q.isLt)

theorem portId_val (q : Port) : portId q.val = some q := by simp [portId]

/-! ## The effect of a link press -/

/-- A press of one port's block changes the active image, CFG_EPOCH and measurement 9 of the state that waits. -/
theorem State.pressed_link (s : State) (n : SlotId) (q : Port) :
    s.pressed n (linkBlock q) = ({ (s.pressWaits n (linkBlock q) 0).unlist (s.snapshot n (linkBlock q)) with
      cfg.active := s.merged (linkBlock q) s.cfg.shadow, cfg.epoch := s.cfg.epoch + 1
      cfg.retained := some (s.merged (linkBlock q) s.cfg.shadow) } : State).measure9 :=
  State.pressEffect_link fun _ hb => linkBlock_bit_of_lt q (by omega)

section
variable (s : State) (n : SlotId) (q : Port)

theorem State.pressed_link_ports : (s.pressed n (linkBlock q)).ports = s.ports := by rw [State.pressed_link]; rfl

theorem State.pressed_link_scheds : (s.pressed n (linkBlock q)).scheds = s.scheds := by rw [State.pressed_link]; rfl

theorem State.pressed_link_act : (s.pressed n (linkBlock q)).act = s.merged (linkBlock q) s.cfg.shadow := by rw [State.pressed_link]; rfl

theorem State.pressed_link_dev : (s.pressed n (linkBlock q)).guard.devState = s.guard.devState := by rw [State.pressed_link]; rfl

theorem State.pressed_link_held : (s.pressed n (linkBlock q)).slots[n].held = .press 0 := by
  have h : (s.pressed n (linkBlock q)).slots = (s.pressWaits n (linkBlock q) 0).slots := by rw [State.pressed_link]; rfl
  rw [h, State.pressWaits_slot]

end

/-- A press of one port takes effect at once, and its port is handled. -/
theorem State.applyPending_link {s : State} {n : SlotId} {q : Port} (hf : firstFailing s.guard.keys (s.merged (linkBlock q) s.cfg.shadow) = 0) :
    (s.pressWaits n (linkBlock q) 0).applyPending (s.snapshot n (linkBlock q)) =
      (((s.pressed n (linkBlock q)).linkEffect s.act (linkBlock q) 0 (some n)).reReady).tagFrom s.guard.logNext s.slots[n].hdr.tag := by
  have hm := s.pressWaits_merged n (linkBlock q) 0
  have hheld := s.pressed_link_held n q
  change ((s.pressWaits n (linkBlock q) 0).pendingEffect (s.snapshot n (linkBlock q))).tagFrom s.guard.logNext
    (s.pressWaits n (linkBlock q) 0).slots[n].hdr.tag = _
  have hge : 65536 ≤ (s.snapshot n (linkBlock q)).mask.toNat := linkBlock_ge q
  rw [State.pendingEffect_link (n := n) (k := 0) rfl hge (by rw [hm]; exact hf) (by rw [hm]; exact hheld), State.pressWaits_slot, hm]
  rfl

/-- The last step of a LNK_PRESS of one port: it completes with the port's record, or keeps its slot while the port trains. -/
theorem State.endTraining_port (s : State) (n : SlotId) (q : Port) :
    s.endTraining n (portMask q) 0 =
      if s.ports[q].settled then s.complete n stOk 0 (s.trainRecord q none true) else s.hold n (.training (portMask q) 0) := by
  have hskip : bit (0 : BitVec 12).toNat q.val = false := by simp [bit]
  unfold State.endTraining
  simp only [portMask_toNat, bitList_port, portId_val, hskip, List.filter_cons, List.filter_nil, List.all_cons, List.all_nil, List.flatMap_cons,
    List.flatMap_nil, Bool.not_false, if_true, Bool.and_true, Bool.false_eq_true, if_false, List.append_nil]

/-- The ADMITTED schedules that name one of some ports lose their admission (11_time R340). -/
def State.dropAdmissions (s : State) (ps : List Nat) : State :=
  { s with scheds := s.scheds.map fun x =>
      if x.state = .admitted && (s.hops.any fun h => (x.image.resvs.any fun r => r.resId = h.resId) &&
          (ps.contains h.inPort || ps.contains h.outPort)) then { x with state := .loaded } else x }

theorem State.dropAdmissions_nil (s : State) : s.dropAdmissions [] = s := by
  simp [State.dropAdmissions]

theorem State.dropAdmissions_of_no_scheds {s : State} (h : s.scheds = []) (ps : List Nat) : s.dropAdmissions ps = s :=
  congrArg (fun l => { s with scheds := l }) (by rw [h]; rfl : s.scheds.map _ = s.scheds)

/-- A port whose block changed, or that is DOWN, trains (R352). -/
def State.trainPort (s : State) (old : AMap W64) (q : Port) : State :=
  if portChanges old s.act q.val || decide (s.ports[q].st = .down) then s.startTraining q else s

theorem State.linkEffect_port (s : State) (old : AMap W64) (n : SlotId) (q : Port) :
    s.linkEffect old (linkBlock q) 0 (some n) =
      ((s.dropAdmissions ([q.val].filter fun p => lnkGen old p ≠ lnkGen s.act p)).trainPort old q).endTraining n (portMask q) 0 := by
  unfold State.linkEffect
  simp only [linkBlock_div, bitList_port, portId_val, List.foldl_cons, List.foldl_nil]
  rw [show BitVec.ofNat 12 (2 ^ q.val) ||| 0 = portMask q from BitVec.or_zero]
  rfl

/-- A press that leaves its port as it is handles nothing. -/
theorem State.linkEffect_of_same {s : State} {old : AMap W64} {n : SlotId} {q : Port} (hc : portChanges old s.act q.val = false)
    (hd : s.ports[q].st ≠ .down) : s.linkEffect old (linkBlock q) 0 (some n) = s.endTraining n (portMask q) 0 := by
  have hgen : ([q.val].filter fun p => lnkGen old p ≠ lnkGen s.act p) = [] := by
    simp only [portChanges, Bool.or_eq_false_iff] at hc
    obtain ⟨⟨⟨⟨hg, -⟩, -⟩, -⟩, -⟩ := hc
    exact List.filter_cons_of_neg (Bool.eq_false_iff.1 hg)
  rw [State.linkEffect_port, hgen, State.dropAdmissions_nil, State.trainPort, if_neg]
  rw [hc, decide_eq_false hd]
  exact Bool.false_ne_true

/-- A press that changes its port trains it. -/
theorem State.linkEffect_of_changed {s : State} {old : AMap W64} {n : SlotId} {q : Port} (hc : portChanges old s.act q.val = true)
    (hs : s.scheds = []) :
    s.linkEffect old (linkBlock q) 0 (some n) = (s.startTraining q).endTraining n (portMask q) 0 := by
  rw [State.linkEffect_port, State.dropAdmissions_of_no_scheds hs, State.trainPort, hc, Bool.true_or, if_pos rfl]

/-- A port that starts to train is not settled, so its LNK_PRESS keeps its slot. -/
theorem State.endTraining_of_started {s : State} {q : Port} (hc : s.ports[q].carries = false) (hr : lnkRole s.act q.val ≠ 0) (n : SlotId) :
    (s.startTraining q).endTraining n (portMask q) 0 = (s.startTraining q).hold n (.training (portMask q) 0) := by
  have hst : (s.startTraining q).ports[q].st = .training := by rw [State.startTraining_st hc, if_neg hr]
  rw [State.endTraining_port, if_neg]
  simp only [PortS.settled, hst, ne_eq, not_true_eq_false, decide_false, Bool.false_and, Bool.false_eq_true, not_false_eq_true]

theorem State.reReady_of_ready {s : State} (h : s.guard.devState = .ready) : s.reReady = s := by
  simp [State.reReady, h]

/-- A press that leaves a settled port as it is completes with the port's record. -/
theorem State.applyPending_link_of_same {s : State} {n : SlotId} {q : Port} (hf : firstFailing s.guard.keys (s.merged (linkBlock q) s.cfg.shadow) = 0)
    (hc : portChanges s.act (s.merged (linkBlock q) s.cfg.shadow) q.val = false) (hset : s.ports[q].settled = true) (hdown : s.ports[q].st ≠ .down) :
    (s.pressWaits n (linkBlock q) 0).applyPending (s.snapshot n (linkBlock q)) =
      (((s.pressed n (linkBlock q)).complete n stOk 0 ((s.pressed n (linkBlock q)).trainRecord q none true)).reReady).tagFrom s.guard.logNext
        s.slots[n].hdr.tag := by
  rw [State.applyPending_link hf, State.linkEffect_of_same (by rw [State.pressed_link_act]; exact hc) (by rw [State.pressed_link_ports]; exact hdown),
    State.endTraining_port, if_pos (by rw [State.pressed_link_ports]; exact hset)]

/-- A press that changes a port of a ready device trains the port, and keeps its slot. -/
theorem State.applyPending_link_of_changed {s : State} {n : SlotId} {q : Port}
    (hf : firstFailing s.guard.keys (s.merged (linkBlock q) s.cfg.shadow) = 0)
    (hc : portChanges s.act (s.merged (linkBlock q) s.cfg.shadow) q.val = true) (hcar : s.ports[q].carries = false)
    (hrole : lnkRole (s.merged (linkBlock q) s.cfg.shadow) q.val ≠ 0) (hsched : s.scheds = []) (hdev : s.guard.devState = .ready) :
    (s.pressWaits n (linkBlock q) 0).applyPending (s.snapshot n (linkBlock q)) =
      (((s.pressed n (linkBlock q)).startTraining q).hold n (.training (portMask q) 0)).tagFrom s.guard.logNext s.slots[n].hdr.tag := by
  have hcar' : (s.pressed n (linkBlock q)).ports[q].carries = false := by rw [State.pressed_link_ports]; exact hcar
  have hready : (((s.pressed n (linkBlock q)).startTraining q).hold n (.training (portMask q) 0)).guard.devState = .ready :=
    (State.startTraining_dev hcar').trans ((s.pressed_link_dev n q).trans hdev)
  rw [State.applyPending_link hf,
    State.linkEffect_of_changed (by rw [State.pressed_link_act]; exact hc) ((s.pressed_link_scheds n q).trans hsched),
    State.endTraining_of_started hcar' (by rw [State.pressed_link_act]; exact hrole), State.reReady_of_ready hready]

/-! ## LNK_PRESS -/

theorem serves_lnkPress {s : State} {n : SlotId} (hr : s.runs n 0x0601 = true) (h0 : fld s.slots[n].req 0 2 ≠ 0) :
    Serves s (.lnkPress n) n (s.lnkPress n (fld s.slots[n].req 0 2)) :=
  .of_runs (e := execLnkPress n s) rfl rfl hr (if_neg h0)

/-- No block of an empty mask is in use. -/
theorem State.maskInUse_zero (s : State) : s.maskInUse 0 = false := by
  simp [State.maskInUse, State.usesMask, bitList]

/-- Where the block of a port is not in use, what changes of it is not. -/
theorem State.maskInUse_changed (s : State) {q : Port} (h : s.maskInUse (linkBlock q) = false) (c : Bool) :
    s.maskInUse (BitVec.ofNat 64 ((if c then [q.val] else []).foldl (fun a p => a + 2 ^ (p + 16)) 0)) = false := by
  cases c with
  | false => exact s.maskInUse_zero
  | true =>
    rw [if_pos rfl, List.foldl_cons, List.foldl_nil, Nat.zero_add]
    exact h

/-- A press of a port that no active schedule names takes its whole block. -/
theorem State.lnkPress_port {s : State} {q : Port} (hfree : (s.cfg.pendings.any fun r => r.mask &&& linkBlock q ≠ 0) = false)
    (hrow : s.linkRow (s.merged (linkBlock q) s.cfg.shadow) = 0) (huse : s.maskInUse (linkBlock q) = false) (hname : s.portNamed q.val = false)
    (n : SlotId) : s.lnkPress n (2 ^ q.val) = (s.pressWaits n (linkBlock q) 0).applyPending (s.snapshot n (linkBlock q)) := by
  unfold State.lnkPress
  simp only [linkBlock_eq_mul, hfree, State.merged_snap, hrow, bitList_port, hname, Bool.and_false, List.filter_cons, List.filter_nil,
    Bool.false_eq_true, if_false, ne_eq, not_true_eq_false, List.contains_nil, Bool.not_false, if_true, List.foldl_cons, List.foldl_nil, Nat.zero_add]
  have hsnap : imgMerge (BitVec.ofNat 64 (2 ^ (q.val + 16))) (imgMerge (linkBlock q) s.cfg.shadow []) [] = imgMerge (linkBlock q) s.cfg.shadow [] :=
    imgMerge_snap ..
  rw [hsnap, if_neg (List.cons_ne_nil _ _)]
  exact if_neg (Bool.eq_false_iff.1 (s.maskInUse_changed huse _))

/-- A press of ports that each change and are named by an active schedule handles none of them. -/
theorem State.lnkPress_all_named {s : State} {mask : Nat}
    (hfree : (s.cfg.pendings.any fun r => r.mask &&& BitVec.ofNat 64 (mask * 65536) ≠ 0) = false)
    (hrow : s.linkRow (s.merged (BitVec.ofNat 64 (mask * 65536)) s.cfg.shadow) = 0)
    (hall : ∀ q ∈ bitList mask 12, portChanges s.act (s.merged (BitVec.ofNat 64 (mask * 65536)) s.cfg.shadow) q = true ∧ s.portNamed q = true)
    (n : SlotId) : s.lnkPress n mask = s.complete n stPartial 0 ((portsOf mask).flatMap fun q => s.trainRecord q (some 15) false) := by
  have hskip : ((bitList mask 12).filter fun p =>
      portChanges s.act (s.merged (BitVec.ofNat 64 (mask * 65536)) s.cfg.shadow) p && s.portNamed p) = bitList mask 12 :=
    List.filter_eq_self.2 fun q hq => by rw [(hall q hq).1, (hall q hq).2, Bool.and_self]
  have hrest : ((bitList mask 12).filter fun p => !(bitList mask 12).contains p) = [] :=
    List.filter_eq_nil_iff.2 fun q hq => by simp [hq]
  unfold State.lnkPress
  simp only [hfree, State.merged_snap, hrow, hskip, hrest, Bool.false_eq_true, if_false, ne_eq, not_true_eq_false, if_true]

/-! ## LNK_RESERVE -/

/-- Where each record passes its checks beside those before it, the whole list is installed. -/
theorem State.installHops_of_good {s : State} {b : Bytes} {count : Nat}
    (h : ∀ i, i < count → ({ s with hops := s.hops ++ (List.range i).map (hopAt b) } : State).hopBad (hopAt b i) = none) :
    s.installHops b count = .inr { s with hops := s.hops ++ (List.range count).map (hopAt b) } := by
  induction count with
  | zero => simp [State.installHops]
  | succ k ih =>
    have hk := ih fun i hi => h i (by omega)
    unfold State.installHops at hk ⊢
    rw [List.range_succ, List.foldl_append, hk]
    simp only [List.foldl_cons, List.foldl_nil, h k (by omega), List.map_append, List.map_cons, List.map_nil, List.append_assoc]

theorem State.releaseBad_of_idle {s : State} {r : W64} {done : List W64} (hin : ∃ h ∈ s.hops, h.resId = r) (hdone : r ∉ done)
    (hidle : ∀ x ∈ s.scheds, x.active = true → x.namesRes r = false) : s.releaseBad done r = none := by
  have hany : (s.hops.any fun h => decide (h.resId = r)) = true := by simpa using hin
  have hact : (s.scheds.any fun x => x.active && x.namesRes r) = false := by
    simpa using hidle
  simp [State.releaseBad, hany, hdone, hact]

/-- A list of installed reservations, each once, that no active schedule names passes the checks of a release. -/
theorem State.releaseFail_of_idle {s : State} {ids : List W64} {i : Nat} {done : List W64} (hnew : ∀ r ∈ ids, r ∉ done) (hnodup : ids.Nodup)
    (h : ∀ r ∈ ids, (∃ h ∈ s.hops, h.resId = r) ∧ ∀ x ∈ s.scheds, x.active = true → x.namesRes r = false) :
    s.releaseFail ids i done = none := by
  induction ids generalizing i done with
  | nil => rfl
  | cons r rs ih =>
    obtain ⟨hr, hrs⟩ := List.nodup_cons.1 hnodup
    obtain ⟨hin, hidle⟩ := h r List.mem_cons_self
    have hrest : ∀ x ∈ rs, x ∉ r :: done := fun x hx => by
      rw [List.mem_cons, not_or]
      exact ⟨fun e => hr (e ▸ hx), hnew x (List.mem_cons_of_mem _ hx)⟩
    rw [State.releaseFail, State.releaseBad_of_idle hin (hnew r List.mem_cons_self) hidle]
    exact ih hrest hrs fun x hx => h x (List.mem_cons_of_mem _ hx)

/-! ## LNK_QUALIFY and LNK_QUARANTINE -/

/-- A soak in which every measured port passes warns of none (R356 R357). -/
theorem State.endQualify_of_passed {s : State} {soaks : List Soak} (h : ∀ k ∈ soaks, soakPass k = true) (n : SlotId) (mask : Nat) :
    s.endQualify n mask soaks = s.complete n (if (portsOf mask).all fun p => s.ports[p].st = .up && soaks.any fun k => k.port = p then stOk else stPartial)
      0 ((portsOf mask).flatMap (s.soakRecord soaks)) := by
  have hquiet : soaks.foldl (fun s k => if (portsOf mask).contains k.port && s.ports[k.port].st = .up && !soakPass k then s.warnLink k.port k.cber
      else s) s = s := by
    induction soaks with
    | nil => rfl
    | cons k ks ih =>
      rw [List.foldl_cons, if_neg (by simp [h k List.mem_cons_self])]
      exact ih fun x hx => h x (List.mem_cons_of_mem _ hx)
  unfold State.endQualify
  simp only [hquiet]

theorem exec_liveSoakEnd_of_due {s : State} {n : SlotId} {mask : BitVec 12} {t : Nat} {soaks : List Soak} (hheld : s.slots[n].held = .qualify mask t)
    (hst : s.slots[n].hdr.state = 2) (ht : t ≤ s.clock) : exec (.liveSoakEnd n soaks) s = .next (s.endQualify n mask.toNat soaks) := by
  change execLiveSoakEnd n soaks s = _
  simp only [execLiveSoakEnd, hheld, hst, ht, decide_true, Bool.and_self, if_true, ok]

/-- Settles O18: a lemma of the press, of the port, of the list of reservations or of the soak for each clause. -/
theorem pressesAndLinkCommandsAct : Obligations.PressesAndLinkCommandsAct := by
  unfold Obligations.PressesAndLinkCommandsAct
  refine ⟨⟨fun s n => ?cfg, fun s n q => ?lnk, fun s n => ?named⟩,
    fun s n hm => ⟨?install, ?release, ?qualify, ?soakEnd, ?quarantine, ?unquarantine⟩⟩
  case cfg =>
    intro mask m p hr hb h0 hfree hagrees hidle
    have hpress := State.press_of_presses ⟨hfree, hagrees, hidle⟩ n
    have hserves := serves_cfgPress hr hb h0
    refine ⟨fun hmode hm => ?_, fun hmode huse => ?_, fun hmode huse => ?_⟩
    · refine .of_serves ?_ hm rfl ⟨rfl, rfl, rfl⟩
      rw [hpress, if_pos hmode] at hserves
      exact hserves
    · rw [hpress, if_neg (Bool.eq_false_iff.1 hmode), if_neg (Bool.eq_false_iff.1 huse),
        State.applyPending_core (mask_lt_of_core hb) hagrees] at hserves
      exact hserves
    · rw [hpress, if_neg (Bool.eq_false_iff.1 hmode), if_pos huse] at hserves
      exact hserves
  case lnk =>
    intro full m p hr hmask hfree hagrees hrow huse hname u
    have hserves := serves_lnkPress hr (by rw [hmask]; positivity)
    rw [hmask, State.lnkPress_port hfree hrow huse hname] at hserves
    refine ⟨fun hc hset hdown => ?_, fun hc hcar hrole hsched hdev => ?_⟩
    · rw [State.applyPending_link_of_same hagrees hc hset hdown] at hserves
      exact hserves
    · rw [State.applyPending_link_of_changed hagrees hc hcar hrole hsched hdev] at hserves
      exact hserves
  case named =>
    intro mask full m hr h0 hfree hrow hm hall
    refine .of_read hm rfl ?_
    rw [← State.lnkPress_all_named hfree hrow hall]
    exact serves_lnkPress hr h0
  case install =>
    intro hr hop h0 hmax hlen hgood
    refine .of_serves (.of_runs (e := execLnkReserveInstall n s) rfl rfl hr ?_) hm rfl ⟨rfl, rfl, rfl⟩
    have hformed : ((List.range (fld s.slots[n].req 2 2)).all fun i => (hopAt s.slots[n].req i).formed) = true :=
      List.all_eq_true.2 fun i hi => (hgood i (List.mem_range.1 hi)).1
    simp only [hop, h0, hformed, Nat.not_lt.2 hmax, Nat.not_lt.2 hlen, State.installHops_of_good fun i hi => (hgood i hi).2]
    rfl
  case release =>
    intro hr hop h0 hmax hlen hnodup hidle
    refine .of_runs (e := execLnkReserveRelease n s) rfl rfl hr ?_
    have hzero : ((List.range (fld s.slots[n].req 2 2)).map fun i => (hopAt s.slots[n].req i).resId).contains 0 = false :=
      Bool.eq_false_iff.2 fun h => (hidle 0 (List.contains_iff_mem.1 h)).1 rfl
    have hfail := State.releaseFail_of_idle (i := 0) (done := []) (fun _ _ => List.not_mem_nil) hnodup fun r h => (hidle r h).2
    simp only [hop, h0, hzero, Nat.not_lt.2 hmax, Nat.not_lt.2 hlen, hfail]
    rfl
  case qualify =>
    intro hr hlo hhi h0
    have htime := not_decide_or (Nat.not_lt.2 hlo) (Nat.not_lt.2 hhi)
    refine ⟨fun ⟨p, hp, hup⟩ => ?_, fun hne hdown => ?_⟩
    · refine .of_runs (e := execLnkQualify n s) rfl rfl hr ((if_neg htime).trans ((if_neg h0).trans (if_neg fun hall => ?_)))
      exact of_decide_eq_true (List.all_eq_true.1 hall p hp) hup
    · refine .of_read hm rfl (.of_runs (e := execLnkQualify n s) rfl rfl hr ((if_neg htime).trans ((if_neg h0).trans ((if_pos ?_).trans ?_))))
      · exact List.all_eq_true.2 fun p hp => decide_eq_true (hdown p hp)
      · rw [State.endQualify_of_passed (fun _ h => absurd h List.not_mem_nil), if_neg]
        · rfl
        · obtain ⟨p, hp⟩ := List.exists_mem_of_ne_nil _ hne
          exact fun hall => by simpa using List.all_eq_true.1 hall p hp
  case soakEnd =>
    intro mask t soaks hheld hst ht hpass done
    have hexec := exec_liveSoakEnd_of_due (soaks := soaks) hheld hst ht
    have hok : isRefused (if done then stOk else stPartial) = false := by split <;> rfl
    exact ⟨_, hexec.trans (by rw [State.endQualify_of_passed hpass]), State.complete_answered hm hok⟩
  case quarantine =>
    intro hr hrel hlt h0 hhost
    refine .of_runs (e := execLnkQuarantine n s) rfl rfl hr ?_
    exact (if_neg (Bool.eq_false_iff.1 hrel)).trans ((if_neg (not_not.2 (Nat.div_eq_of_lt hlt))).trans
      ((if_neg h0).trans (if_neg (Bool.eq_false_iff.1 hhost))))
  case unquarantine =>
    intro hr hrel hlt h0 hbusy
    refine .of_runs (e := execLnkQuarantineRelease n s) rfl rfl hr ?_
    exact (if_neg (by rw [hrel]; exact Bool.false_ne_true)).trans ((if_neg (not_not.2 (Nat.div_eq_of_lt hlt))).trans
      ((if_neg h0).trans (if_neg (Bool.eq_false_iff.1 hbusy))))

end Sys2Proof.Machine
end

/-! # Shadow mode, injections, long commands and the reset requests

What a shadow does with its feed, what an injection does when it fires and what ends a long command (02_binder R53, 13_collation R415 R416,
15_faults R475), and what the reset requests do (02_binder R55, 15_faults R459 R460 R463; log entries 127 to 129). -/

section
namespace Sys2Proof.Machine

/-! ## Shadow mode -/

/-- An item of the step that the feed is in lands, and the command that waits for the feed to start completes. -/
theorem exec_shadowFeedReceive_of_step {s : State} {p : Port} {item : FeedItem} {h : Hop} (hst : s.shadow.status = 1 ∨ s.shadow.status = 2)
    (hh : s.destHop p s.shadow.resIn = some h) (hstep : s.feedStarted.shadow.feedStep = some (feedStepOf item)) :
    exec (.shadowFeedReceive p s.shadow.resIn item) s = .next (s.feedStarted.feedItem item) := by
  change execShadowFeedReceive p s.shadow.resIn item s = _
  have hmine : (!(decide (s.shadow.status = 1) || decide (s.shadow.status = 2)) || decide (s.shadow.resIn ≠ s.shadow.resIn)) = false := by
    rcases hst with h | h <;> simp [h]
  simp only [execShadowFeedReceive, hh, hmine, hstep, Bool.false_eq_true, if_false, if_true, ok]

/-- The stall of the port on which a shadow receives its feed ends its side. -/
theorem exec_shadowFeedStall_of_receiver {s : State} {p : Port} {h : Hop} (hh : s.hopOf s.shadow.resIn 2 = some h) (hp : h.inPort = p.val)
    (hf : s.shadow.feedPort ≠ some p) : exec (.shadowFeedStall p) s = .next (s.endShadow 3) := by
  change execShadowFeedStall p s = _
  simp only [execShadowFeedStall, if_neg hf, hh, if_pos hp, ok]

/-- The replay of a fed step from its base begins. -/
def State.replayFed (t : State) (x : Sched) (step : Nat) : State :=
  let y := { x with step := step, coll := { Coll.start with state := .localReplay } }
  ((t.restore y).setSched (y.replayPass { Replay.at .localReplay t.now step with started := true })).clearIssue y

/-- What a shadow does with the fed step at its base: it compares once the step's replay has learned, and replays it from a granule on. -/
def State.shadowFed (t : State) (x : Sched) (d : Nat × Dig × Dig) : State :=
  if x.inReplay then (if x.learned x.step then t.shadowCompare x d else t)
  else if t.now % 8 ≠ 0 then t
  else t.replayFed x d.1

theorem exec_shadowStep_of_based {s : State} {d : Nat × Dig × Dig} {x : Sched}
    (hx : (s.settle s.shadow.sched).sched s.shadow.sched = some x) (hsame : (s.settle s.shadow.sched).shadow.sched = s.shadow.sched)
    (hd : (s.settle s.shadow.sched).shadow.atBase = some d) (hr : (s.settle s.shadow.sched).shadowRuns x = true) :
    exec (.shadowStep d.1) s = .next ((s.settle s.shadow.sched).shadowFed x d) := by
  change execShadowStep d.1 s = _
  simp only [execShadowStep, hsame, hx, hd]
  refine (if_neg (by rw [hr]; simp)).trans ?_
  simp only [State.shadowFed, ok, apply_ite Host.Outcome.next]
  rfl

/-! ## Injections and the time limit of long commands -/

/-- The injections after one firing of one: a last firing ends it. -/
def Inj.afterFiring (i : Inj) (id : Nat) (js : List Inj) : List Inj :=
  js.flatMap fun j => if j.id = id then (if i.left ≤ 1 || i.type = 0x0E then [] else [{ j with left := j.left - 1 }]) else [j]

theorem exec_injectionFire_of_due {s : State} {id : Nat} {i : Inj} (hi : (s.guard.injections.find? fun j => j.id = id) = some i)
    (ht : i.trigger.toNat ≤ s.now) (hp : s.guard.powered = true) :
    exec (.injectionFire id) s =
      .next (((({ s with guard := { s.guard with injections := i.afterFiring id s.guard.injections } } : State).fire i).native 0 0x0901 i.id
        i.target.toNat i.type).injectedFrom s.guard.logNext) := by
  change execInjectionFire id s = _
  simp only [execInjectionFire, hi]
  exact if_neg (by simp [ht, hp])

theorem exec_longCommandTimeout_of_due {s : State} {n : SlotId} {r : CmdRow} (hst : s.slots[n].hdr.state = 2)
    (hrow : cmdRow s.slots[n].hdr.cmd.toNat = some r) (hlong : r.long = true) (ht : s.slots[n].takenAt + 60000000000 ≤ s.clock)
    (hrun : s.binder.run ≠ .off) : exec (.longCommandTimeout n) s = .next ((s.stopHeld n).refuse n stTimeout 0) := by
  change execLongCommandTimeout n s = _
  simp only [execLongCommandTimeout, hst, hrow, Option.map_some, Option.getD_some, hlong, ht, hrun, ne_eq, not_false_eq_true, decide_true, Bool.and_self,
    if_true, ok]

/-- Settles O37: a lemma of the feed, of the fed step, of the firing and of the time limit for each clause. -/
theorem shadowsAndInjectionsAct : Obligations.ShadowsAndInjectionsAct := by
  unfold Obligations.ShadowsAndInjectionsAct
  refine ⟨⟨?feed, ?step, ?stall⟩, ?inject, ?timeout⟩
  case feed => exact fun s p item h hst hh hstep => exec_shadowFeedReceive_of_step hst hh hstep
  case stall => exact fun s p h hh hp hf => exec_shadowFeedStall_of_receiver hh hp hf
  case step =>
    intro s d x t hx hsame hd hruns
    have hexec := exec_shadowStep_of_based hx hsame hd hruns
    refine ⟨fun hin hlearned => hexec.trans ?_, fun hin hnow => hexec.trans ?_⟩
    · rw [State.shadowFed, if_pos hin, if_pos hlearned]
    · rw [State.shadowFed, if_neg (Bool.eq_false_iff.1 hin), if_neg (not_not.2 hnow)]
      rfl
  case inject => exact fun s id i hi ht hp => exec_injectionFire_of_due hi ht hp
  case timeout => exact fun s n r hst hrow hlong ht hrun => exec_longCommandTimeout_of_due hst hrow hlong ht hrun

/-! ## The reset requests (15_faults R459 R460 R463) -/

theorem State.heardBy_keeps (s : State) (src : Src) :
    (s.heardBy src).guard.cutoff = s.guard.cutoff ∧ (s.heardBy src).guard.overvolt = s.guard.overvolt ∧ (s.heardBy src).binder = s.binder := by
  cases src <;> exact ⟨rfl, rfl, rfl⟩

/-- The rails are on and no bring-up or larger reset runs. -/
def State.ResetsNow (s : State) : Prop := s.guard.cutoff = false ∧ s.guard.devState ≠ .booting ∧ s.guard.devState ≠ .resetting

theorem State.heardBy_resetsNow {s : State} (h : s.ResetsNow) (src : Src) : (s.heardBy src).ResetsNow := by
  obtain ⟨hcut, hboot, hreset⟩ := h
  obtain ⟨-, hdev, -⟩ := s.heardBy_same src
  refine ⟨(s.heardBy_keeps src).1.trans hcut, ?_, ?_⟩ <;> rw [hdev] <;> assumption

theorem State.ResetsNow.not_absorbed {s : State} (h : s.ResetsNow) :
    ¬(decide (s.guard.devState = .booting) || decide (s.guard.devState = .resetting)) = true :=
  not_decide_or h.2.1 h.2.2

/-- A Binder reset whose count gives whether the limit is reached, and the state with the count. -/
def restartBinder (c : Bool × State) (r : GReq) (k : PartitionKat) (planned : Bool) : State :=
  if c.1 then (c.2.answer r.src stState 0 []).removeFromService none
  else ((c.2.wake k).binderReset none planned).answer r.src stOk 0 []

/-- The checks of a Binder reset pass, and it counts unless it is planned. -/
theorem State.binderReq_of_resetsNow {u : State} {r : GReq} (hop : fld r.data 0 1 ≤ 3) (h : u.ResetsNow) (hov : u.guard.overvolt = false)
    (hb : u.binder.run ≠ .off ∨ u.guard.power.pstate = .hold) (k : PartitionKat) :
    u.binderReq r k = restartBinder (if bit (fld r.data 0 1) 0 then (false, u) else u.countReset) r k (bit (fld r.data 0 1) 0) := by
  have hoff : ¬(decide (u.binder.run = .off) && decide (u.guard.power.pstate ≠ .hold)) = true := by
    rcases hb with hb | hb <;> simp [hb]
  unfold State.binderReq
  simp only [Nat.not_lt.2 hop, h.1, hov, if_neg h.not_absorbed, if_neg hoff, Bool.false_eq_true, if_false]
  rfl

/-- The state in which a reset request waits for the end of bring-up. -/
def State.joinBringUp (u : State) (r : GReq) : State := ({ u with guard.bring.reqs := u.guard.bring.reqs ++ [r] } : State).keepReq r.src

/-- A planned full reset counts nothing. -/
theorem State.resetReq_of_planned {u : State} {r : GReq} (hr : bit (fld r.data 0 1) 1 = false) (hp : bit (fld r.data 0 1) 0 = true) (h : u.ResetsNow)
    (b : BringUp) : u.resetReq r b = (u.joinBringUp r).fullReset true b := by
  have hcool : ¬(u.guard.cutoff && u.stillHot) = true := by
    rw [h.1]
    exact Bool.false_ne_true
  unfold State.resetReq
  simp only [hr, hp, Bool.false_eq_true, if_false, if_neg hcool, if_neg h.not_absorbed, Bool.true_or, if_true]
  rfl

/-- A return to service counts nothing and clears the count. -/
theorem State.resetReq_of_return {u : State} {r : GReq} (hr : bit (fld r.data 0 1) 1 = true) (h : u.ResetsNow) (b : BringUp) :
    u.resetReq r b = (({ u with guard.limits.resetTimes := [] } : State).joinBringUp r).fullReset (bit (fld r.data 0 1) 0) b := by
  unfold State.resetReq
  simp only [hr, h.1, if_true, Bool.false_and, Bool.false_eq_true, if_neg h.not_absorbed, Bool.or_true, if_false]
  rfl

/-- What a full reset clears, and what of the Guard it keeps (R55 R459; log entry 129). -/
theorem State.wiped_clears_and_keeps (s : State) :
    s.wiped.slots = Vector.replicate 64 Slot.reset ∧ s.wiped.ctxs = State.reset.ctxs ∧ s.wiped.scheds = [] ∧
      s.wiped.engines = State.reset.engines ∧ s.wiped.counters = [] ∧ s.wiped.hops = [] ∧ s.wiped.traces = [] ∧ s.wiped.mem.regions = [] ∧ s.wiped.pending = s.pending ∧
      s.wiped.guard.log = s.guard.log ∧ s.wiped.guard.pinned = s.guard.pinned ∧ s.wiped.guard.owner = s.guard.owner ∧
      s.wiped.guard.tickets = s.guard.tickets ∧ s.wiped.guard.keys = s.guard.keys ∧ s.wiped.guard.sessions = [] :=
  ⟨rfl, rfl, rfl, rfl, rfl, rfl, rfl, rfl, rfl, rfl, rfl, rfl, rfl, rfl, rfl⟩

/-- Settles O51: each request passes the checks of the Guard and its own, and the wiped state is read off field by field. -/
theorem resetRequestsReset : Obligations.ResetRequestsReset := by
  unfold Obligations.ResetRequestsReset
  refine ⟨fun s src data r => ?_, fun s => s.wiped_clears_and_keeps⟩
  intro u hcut hboot hres hop
  have hnow : u.ResetsNow := s.heardBy_resetsNow ⟨hcut, hboot, hres⟩ src
  refine ⟨fun k ha hov hb => ?binder, fun b ha hone => ?full, fun b ha hret hmay => ?ret⟩
  case binder =>
    obtain ⟨-, hov', hbinder⟩ := s.heardBy_keeps src
    obtain ⟨-, -, -, hpower, -⟩ := s.heardBy_same src
    obtain ⟨rfl, -⟩ := State.reqOf_eq ha.reaches
    have hserve : Handles s (.binderReset r.src data k) r (u.binderReq r k) := ha.serve anyData openReq (fun r s => s.binderReq r k) rfl rfl
    rw [State.binderReq_of_resetsNow hop hnow (hov'.trans hov) (by rw [hbinder, hpower]; exact hb) k] at hserve
    refine ⟨fun hp => ?_, fun hp => ⟨fun hc => ?_, fun hc => ?_⟩⟩
    · rw [hp, if_pos rfl] at hserve
      exact hserve
    · rw [hp, if_neg Bool.false_ne_true, restartBinder, hc, if_neg Bool.false_ne_true] at hserve
      exact hserve
    · rw [hp, if_neg Bool.false_ne_true, restartBinder, hc, if_pos rfl] at hserve
      exact hserve
  case full =>
    obtain ⟨rfl, -⟩ := State.reqOf_eq ha.reaches
    have hp : bit (fld r.data 0 1) 0 = true := by rw [hone]; rfl
    have hr : bit (fld r.data 0 1) 1 = false := by rw [hone]; rfl
    have hserve := ha.serve (fun d => !bit (fld d 0 1) 1) openReq
      (fun r s => if 3 < fld r.data 0 1 then s.answer r.src stMalformed 0 [] else s.resetReq r b) (by rw [hr]; rfl) rfl
    simp only [Nat.not_lt.2 hop, if_false] at hserve
    rw [State.resetReq_of_planned hr hp hnow] at hserve
    exact hserve
  case ret =>
    obtain ⟨rfl, -⟩ := State.reqOf_eq ha.reaches
    have hserve := ha.serve (fun d => bit (fld d 0 1) 1) (fun r => if s.guard.owner.isSome then s.isOwner r.src else s.fromMgmt r.src)
      (fun r s => if 3 < fld r.data 0 1 then s.answer r.src stMalformed 0 [] else s.resetReq r b) hret hmay
    simp only [Nat.not_lt.2 hop, if_false] at hserve
    rw [State.resetReq_of_return hret hnow] at hserve
    exact hserve

end Sys2Proof.Machine
end

/-! # Number formats

What an element field and a scale byte stand for, and what a rounding into a format leaves of a value that the format represents: the statements
of the family 03_formats about values (R77 R80 R81 R85 R89). -/

section
namespace Sys2Proof.Machine

/-! ## Exact values as rational numbers -/

/-- The number that a sign, a significand and an exponent stand for (R77). -/
def FV.value (s : Bool) (m : Nat) (e : Int) : ℚ := (if s then -1 else 1) * m * 2 ^ e

theorem FV.sigAt_value (s : Bool) (m : Nat) {e q : Int} (h : q ≤ e) : (FV.sigAt s m e q : ℚ) * 2 ^ q = FV.value s m e := by
  have hz : (2 : ℚ) ^ (e - q).toNat * 2 ^ q = 2 ^ e := by
    rw [← zpow_natCast, Int.toNat_of_nonneg (Int.sub_nonneg.2 h), ← zpow_add₀ two_ne_zero, Int.sub_add_cancel]
  cases s <;> simp [FV.sigAt, FV.value, mul_assoc, hz]

/-- The significands that FV.cmp compares, at the lesser of the two exponents, differ as the values do. -/
theorem FV.cmp_fin (s : Bool) (m : Nat) (e : Int) (t : Bool) (n : Nat) (f : Int) :
    ∃ d : Int, FV.cmp (.fin s m e) (.fin t n f) = d.sign ∧ (d : ℚ) * 2 ^ Min.min e f = FV.value s m e - FV.value t n f :=
  ⟨_, rfl, by rw [Int.cast_sub, sub_mul, FV.sigAt_value s m (min_le_left e f), FV.sigAt_value t n (min_le_right e f)]⟩

theorem FV.cmp_fin_eq_one {s : Bool} {m : Nat} {e : Int} {t : Bool} {n : Nat} {f : Int} :
    FV.cmp (.fin s m e) (.fin t n f) = 1 ↔ FV.value t n f < FV.value s m e := by
  obtain ⟨d, hc, hd⟩ := FV.cmp_fin s m e t n f
  rw [hc, Int.sign_eq_one_iff_pos, ← Int.cast_pos (R := ℚ), ← mul_pos_iff_of_pos_right (zpow_pos two_pos (Min.min e f)), hd, sub_pos]

theorem FV.cmp_fin_eq_zero {s : Bool} {m : Nat} {e : Int} {t : Bool} {n : Nat} {f : Int} (h : FV.value s m e = FV.value t n f) :
    FV.cmp (.fin s m e) (.fin t n f) = 0 := by
  obtain ⟨d, hc, hd⟩ := FV.cmp_fin s m e t n f
  rw [sub_eq_zero.2 h, mul_eq_zero, or_iff_left (zpow_ne_zero _ two_ne_zero), Int.cast_eq_zero] at hd
  rw [hc, hd, Int.sign_zero]

theorem FV.cmp_inf_self (s : Bool) : FV.cmp (.inf s) (.inf s) = 0 := if_pos rfl

/-- A significand may be written in a smaller unit. -/
theorem FV.value_mul_pow (s : Bool) (m : Nat) {e q : Int} (h : q ≤ e) : FV.value s (m * 2 ^ (e - q).toNat) q = FV.value s m e := by
  rw [← FV.sigAt_value s m h]
  cases s <;> simp [FV.value, FV.sigAt]

/-! ## The greatest finite value of a format -/

theorem FFmt.over_eq_false_iff {t : FFmt} {m : Nat} {q : Int} :
    t.over m q = false ↔ FV.value false m q ≤ FV.value false t.maxFin.1 t.maxFin.2 := by
  rw [← not_lt, ← FV.cmp_fin_eq_one, FFmt.over, decide_eq_false_iff_not]

/-- A significand of fb + 1 bits does not exceed the greatest finite value, if in its top unit it does not exceed the greatest significand. -/
theorem FFmt.over_of_exponent_le {t : FFmt} {m : Nat} {q : Int} (hmax : 2 ^ t.fb ≤ t.maxFin.1) (hm : m < 2 ^ (t.fb + 1)) (hq : q ≤ t.maxFin.2)
    (htop : q = t.maxFin.2 → m ≤ t.maxFin.1) : t.over m q = false := by
  rw [FFmt.over_eq_false_iff]
  simp only [FV.value, Bool.false_eq_true, if_false, one_mul]
  rcases hq.eq_or_lt with rfl | hlt
  · have := htop rfl
    gcongr
  · have h2 : m ≤ 2 * t.maxFin.1 := by rw [pow_succ] at hm; omega
    calc (m : ℚ) * 2 ^ q ≤ (2 * t.maxFin.1 : ℕ) * 2 ^ q := by gcongr
      _ = t.maxFin.1 * 2 ^ (q + 1) := by rw [zpow_add_one₀ two_ne_zero]; push_cast; ring
      _ ≤ t.maxFin.1 * 2 ^ t.maxFin.2 := by gcongr <;> [norm_num; omega]

/-! ## The fields of a non-zero finite value -/

/-- A significand and an exponent as a field of the element type stands for them: a normal significand, or a subnormal one at the least exponent, at
most the greatest finite value (R77). -/
structure FFmt.Fits (t : FFmt) (m : Nat) (q : Int) : Prop where
  ne_zero : m ≠ 0
  lt : m < 2 ^ (t.fb + 1)
  min : t.qmin ≤ q
  normal : 2 ^ t.fb ≤ m ∨ q = t.qmin
  max : t.over m q = false

/-- The exponent and fraction bits of such a significand and exponent. -/
def FFmt.field (t : FFmt) (m : Nat) (q : Int) : Nat :=
  if m < 2 ^ t.fb then m else (q - t.qmin + 1).toNat * 2 ^ t.fb + (m - 2 ^ t.fb)

theorem FFmt.Fits.unit_eq {t : FFmt} {m : Nat} {q : Int} (h : t.Fits m q) : t.unit m q = q := by
  have hlog : m.log2 < t.fb + 1 := (Nat.log2_lt h.ne_zero).2 h.lt
  have hmin := h.min
  rw [FFmt.unit, FV.ilog]
  rcases h.normal with hn | hn
  · have : t.fb ≤ m.log2 := (Nat.le_log2 h.ne_zero).2 hn
    omega
  · omega

/-- A rounding in a unit that divides the value leaves the value. -/
theorem rneAt_of_le (m : Nat) {e q : Int} (h : q ≤ e) : rneAt m e q = m * 2 ^ (e - q).toNat := if_pos h

@[simp] theorem rneAt_self (m : Nat) (q : Int) : rneAt m q q = m := by simp [rneAt_of_le]

/-- A narrowing of a value that a multiple of its unit stands for, and that is in range, is exact. -/
theorem narrow_of_unit_le {f m : Nat} {e : Int} (hm : m ≠ 0) (hu : (ffmt f).unit m e ≤ e)
    (hmax : (ffmt f).over m e = false) (sat s : Bool) :
    (narrow f sat (.fin s m e)).1 = .fin s (m * 2 ^ (e - (ffmt f).unit m e).toNat) ((ffmt f).unit m e) := by
  have hover : (ffmt f).over (m * 2 ^ (e - (ffmt f).unit m e).toNat) ((ffmt f).unit m e) = false := by
    rw [FFmt.over_eq_false_iff] at hmax ⊢
    rwa [FV.value_mul_pow false m hu]
  have hn : m * 2 ^ (e - (ffmt f).unit m e).toNat ≠ 0 := Nat.mul_ne_zero hm (by positivity)
  simp only [narrow, if_neg hm, rneAt_of_le m hu, hover, Bool.false_eq_true, if_false, if_neg hn]

@[simp] theorem narrow_zero (f : Nat) (sat s : Bool) (e : Int) : (narrow f sat (.fin s 0 e)).1 = .fin s 0 0 := rfl

theorem narrow_inf {f : Nat} (h : (ffmt f).ieee = true) (sat s : Bool) : (narrow f sat (.inf s)).1 = .inf s := by simp [narrow, h]

theorem narrow_of_fits {f m : Nat} {q : Int} (h : (ffmt f).Fits m q) (sat s : Bool) : (narrow f sat (.fin s m q)).1 = .fin s m q := by
  rw [narrow_of_unit_le h.ne_zero h.unit_eq.le h.max, h.unit_eq]
  simp

theorem encodeElem_bnat' (s : Bool) : encodeElem.bnat' s = s.toNat := by cases s <;> rfl

theorem encodeElem_inf (f : Nat) (s : Bool) :
    encodeElem f (.inf s) = s.toNat * 2 ^ ((ffmt f).eb + (ffmt f).fb) + (2 ^ (ffmt f).eb - 1) * 2 ^ (ffmt f).fb := by
  rw [encodeElem, encodeElem_bnat']

theorem encodeElem_zero (f : Nat) (s : Bool) (e : Int) : encodeElem f (.fin s 0 e) = s.toNat * 2 ^ ((ffmt f).eb + (ffmt f).fb) := by
  rw [← encodeElem_bnat']
  rfl

theorem encodeElem_of_fits {f m : Nat} {q : Int} (h : (ffmt f).Fits m q) (s : Bool) :
    encodeElem f (.fin s m q) = s.toNat * 2 ^ ((ffmt f).eb + (ffmt f).fb) + (ffmt f).field m q := by
  simp only [encodeElem, if_neg h.ne_zero, h.unit_eq, rneAt_self, if_neg h.lt.ne, encodeElem_bnat', FFmt.field]
  split <;> omega

/-! ## What a field stands for -/

/-- The shape of an element type (Table 03-2): E4M3 is the one of 4 exponent bits. -/
structure FFmt.Shaped (t : FFmt) : Prop where
  two_le : 2 ≤ t.eb
  e4m3 : t.eb = 4 → t = ⟨4, 3, 7, false⟩

namespace FFmt.Shaped
variable {t : FFmt} (h : t.Shaped)
include h

theorem maxFin_exponent : t.maxFin.2 = t.emax - t.fb := by
  by_cases h4 : t.eb = 4
  · rw [h.e4m3 h4]; rfl
  · simp [FFmt.maxFin, h4]

theorem le_maxFin : 2 ^ t.fb ≤ t.maxFin.1 := by
  by_cases h4 : t.eb = 4
  · rw [h.e4m3 h4]; decide
  · have : 0 < 2 ^ t.fb := by positivity
    simp only [FFmt.maxFin, if_neg h4, pow_succ]
    omega

/-- A subnormal field. -/
theorem fits_subnormal {F : Nat} (hF : F ≠ 0) (hlt : F < 2 ^ t.fb) : t.Fits F t.qmin := by
  have h4 : (2 : Int) ^ 2 ≤ 2 ^ t.eb := pow_le_pow_right₀ one_le_two h.two_le
  have hmax := h.le_maxFin
  have hlt' : F < 2 ^ (t.fb + 1) := by rw [pow_succ]; omega
  refine ⟨hF, hlt', le_rfl, .inr rfl, FFmt.over_of_exponent_le hmax hlt' ?_ fun _ => hlt.le.trans hmax⟩
  rw [h.maxFin_exponent, FFmt.qmin, FFmt.emax]
  split <;> omega

/-- A normal field whose exponent bits stand for no infinity and no NaN. -/
theorem fits_normal {E F : Nat} (hE : 0 < E) (htop : E < 2 ^ t.eb) (hF : F < 2 ^ t.fb) (hinf : t.ieee = true → E ≠ 2 ^ t.eb - 1)
    (hnan : t.eb = 4 → ¬(E = 15 ∧ F = 7)) : t.Fits (2 ^ t.fb + F) (E - t.bias - t.fb) := by
  have hcast : ((2 ^ t.eb : Nat) : Int) = 2 ^ t.eb := by push_cast; rfl
  have hlt : 2 ^ t.fb + F < 2 ^ (t.fb + 1) := by rw [pow_succ]; omega
  have hne : 2 ^ t.fb + F ≠ 0 := by omega
  refine ⟨hne, hlt, ?_, .inl (Nat.le_add_right _ _), FFmt.over_of_exponent_le h.le_maxFin hlt ?_ fun heq => ?_⟩
  · rw [FFmt.qmin]; omega
  · rw [h.maxFin_exponent, FFmt.emax]
    split
    case isTrue hi => have := hinf hi; omega
    case isFalse => omega
  · by_cases h4 : t.eb = 4
    · have ht := h.e4m3 h4
      have := hnan h4
      subst ht
      change (E : Int) - 7 - 3 = 5 at heq
      change 8 + F ≤ 14
      change F < 8 at hF
      omega
    · simp only [FFmt.maxFin, if_neg h4]
      omega

end FFmt.Shaped

/-- What the sign bit of a field and its other bits stand for (R77): the bits of a NaN are left open, since R80 keeps none of them. -/
inductive FFmt.StandsFor (t : FFmt) (s : Bool) (w : Nat) : FVal → Prop
  | nan : t.StandsFor s w .nan
  | inf (hi : t.ieee = true) (hw : w = (2 ^ t.eb - 1) * 2 ^ t.fb) : t.StandsFor s w (.inf s)
  | zero (hw : w = 0) : t.StandsFor s w (.fin s 0 0)
  | nonzero {m : Nat} {q : Int} (hfit : t.Fits m q) (hw : t.field m q = w) : t.StandsFor s w (.fin s m q)

theorem isFloat_le {f : Nat} (hf : isFloat f = true) : f ≤ 11 := by
  simp only [isFloat, fmtOk, Bool.and_eq_true, decide_eq_true_eq] at hf
  exact hf.1

/-- The sign bit, the exponent bits and the fraction bits fill an element. -/
theorem elemBits_eq {f : Nat} (hf : isFloat f = true) : elemBits f = (ffmt f).eb + (ffmt f).fb + 1 := by
  have all : ∀ f ≤ 11, isFloat f = true → elemBits f = (ffmt f).eb + (ffmt f).fb + 1 := by decide
  exact all f (isFloat_le hf) hf

theorem ffmt_shaped {f : Nat} (hf : isFloat f = true) : (ffmt f).Shaped := by
  have all : ∀ f ≤ 11, isFloat f = true → 2 ≤ (ffmt f).eb ∧ ((ffmt f).eb = 4 → ffmt f = ⟨4, 3, 7, false⟩) := by decide
  exact ⟨(all f (isFloat_le hf) hf).1, (all f (isFloat_le hf) hf).2⟩

/-- A number of a + b + 1 bits is its top bit and its lower bits in two parts. -/
theorem eq_bit_add_bits {v a b : Nat} (hv : v < 2 ^ (a + b + 1)) : v = (bit v (a + b)).toNat * 2 ^ (a + b) + (bits v b a * 2 ^ b + bits v 0 b) := by
  have htop : v / 2 ^ (a + b) < 2 := Nat.div_lt_of_lt_mul (by rwa [← pow_succ])
  have hup : v / 2 ^ (a + b) = v / 2 ^ b / 2 ^ a := by rw [Nat.div_div_eq_div_mul, ← pow_add, add_comm b]
  rw [bit, Nat.toNat_testBit, Nat.mod_eq_of_lt htop, bits, bits, pow_zero, Nat.div_one, hup, pow_add, ← mul_assoc, ← add_assoc, ← add_mul,
    Nat.div_add_mod', Nat.div_add_mod']

theorem decodeElem_standsFor {f : Nat} (hf : isFloat f = true) (v : Nat) :
    (ffmt f).StandsFor (bit v ((ffmt f).eb + (ffmt f).fb)) (bits v (ffmt f).fb (ffmt f).eb * 2 ^ (ffmt f).fb + bits v 0 (ffmt f).fb) (decodeElem f v) := by
  have hE : bits v (ffmt f).fb (ffmt f).eb < 2 ^ (ffmt f).eb := Nat.mod_lt _ (by positivity)
  have hF : bits v 0 (ffmt f).fb < 2 ^ (ffmt f).fb := Nat.mod_lt _ (by positivity)
  have hint : ¬f = 5 ∧ ¬f = 11 := by constructor <;> rintro rfl <;> cases hf
  have hshape := ffmt_shaped hf
  simp only [decodeElem, if_neg hint.1, if_neg hint.2]
  generalize bits v (ffmt f).fb (ffmt f).eb = E at hE ⊢
  generalize bits v 0 (ffmt f).fb = F at hF ⊢
  generalize ffmt f = t at hE hF hshape ⊢
  split_ifs with htop hF0 hnan hE0 hF0
  · simp only [Bool.and_eq_true, decide_eq_true_eq] at htop
    exact .inf htop.1 (by rw [htop.2, hF0, add_zero])
  · exact .nan
  · exact .nan
  · exact .zero (by rw [hE0, hF0, zero_mul])
  · exact .nonzero (hshape.fits_subnormal hF0 hF) (by rw [FFmt.field, if_pos hF, hE0, zero_mul, zero_add])
  · simp only [Bool.and_eq_true, decide_eq_true_eq, not_and] at htop hnan
    refine .nonzero (hshape.fits_normal (Nat.pos_of_ne_zero hE0) hE hF htop fun h4 ⟨h15, h7⟩ => hnan ⟨h4, h15⟩ h7) ?_
    have hexp : ((E : Int) - t.bias - t.fb - t.qmin + 1).toNat = E := by rw [FFmt.qmin]; omega
    rw [FFmt.field, if_neg (by omega), hexp, Nat.add_sub_cancel_left]

/-! ## Narrowing to the element's own format, and back to its field -/

/-- Settles O58: a field stands for an infinity, a zero, or a significand that fits its element type. -/
theorem elementFieldsRoundTrip : Obligations.ElementFieldsRoundTrip := by
  unfold Obligations.ElementFieldsRoundTrip
  intro f v hf hv hnan
  have hstands := decodeElem_standsFor hf v
  rw [elemBits_eq hf] at hv
  have hsplit := eq_bit_add_bits hv
  generalize bit v ((ffmt f).eb + (ffmt f).fb) = s at hstands hsplit
  generalize decodeElem f v = x at hstands hnan ⊢
  cases hstands with
  | nan => cases hnan
  | inf hi hw => exact ⟨by rw [hsplit, hw, encodeElem_inf], fun sat => narrow_inf hi sat s⟩
  | zero hw => exact ⟨by rw [hsplit, hw, encodeElem_zero, add_zero], fun sat => narrow_zero f sat s 0⟩
  | nonzero hfit hw => exact ⟨by rw [hsplit, ← hw, encodeElem_of_fits hfit], fun sat => narrow_of_fits hfit sat s⟩

/-! ## Narrowing to a wider format -/

/-- Every finite value of an element type is a value of another, and so are its infinities. -/
structure FFmt.Within (t u : FFmt) : Prop where
  fb_le : t.fb ≤ u.fb
  qmin_le : u.qmin ≤ t.qmin
  max : u.over t.maxFin.1 t.maxFin.2 = false
  ieee : t.ieee = true → u.ieee = true

namespace FFmt.Within
variable {t u : FFmt} (h : t.Within u) {m : Nat} {e : Int}
include h

theorem unit_le (hfit : t.Fits m e) : u.unit m e ≤ e := by
  have hlog : m.log2 < t.fb + 1 := (Nat.log2_lt hfit.ne_zero).2 hfit.lt
  have hfb := h.fb_le
  rw [FFmt.unit, FV.ilog, max_le_iff]
  exact ⟨h.qmin_le.trans hfit.min, by omega⟩

theorem over_eq_false (hfit : t.Fits m e) : u.over m e = false :=
  FFmt.over_eq_false_iff.2 ((FFmt.over_eq_false_iff.1 hfit.max).trans (FFmt.over_eq_false_iff.1 h.max))

end FFmt.Within

/-- The widenings of R89: a source format and a wider one. -/
def widenings : List (Nat × Nat) := [(1, 0), (2, 0), (3, 0), (4, 0), (3, 1), (4, 1), (3, 2), (4, 2)]

theorem within_of_widening {f g : Nat} (h : (f, g) ∈ widenings) : (ffmt f).Within (ffmt g) := by
  have all : ∀ p ∈ widenings, (ffmt p.1).fb ≤ (ffmt p.2).fb ∧ (ffmt p.2).qmin ≤ (ffmt p.1).qmin ∧
      (ffmt p.2).over (ffmt p.1).maxFin.1 (ffmt p.1).maxFin.2 = false ∧ ((ffmt p.1).ieee = true → (ffmt p.2).ieee = true) := by decide
  obtain ⟨hfb, hqmin, hmax, hieee⟩ := all _ h
  exact ⟨hfb, hqmin, hmax, hieee⟩

theorem isFloat_of_widening {f g : Nat} (h : (f, g) ∈ widenings) : isFloat f = true := by
  have all : ∀ p ∈ widenings, isFloat p.1 = true := by decide
  exact all _ h

/-- The canonical NaN of the formats that widenings lead to (R80). -/
theorem encodeElem_nan_of_widening {f g : Nat} (h : (f, g) ∈ widenings) :
    encodeElem g .nan = if g = 0 then 0x7FC00000 else if g = 1 then 0x7FC0 else 0x7E00 := by
  have all : ∀ p ∈ widenings, encodeElem p.2 .nan = if p.2 = 0 then 0x7FC00000 else if p.2 = 1 then 0x7FC0 else 0x7E00 := by decide
  exact all _ h

/-- Settles O60: the wider format has every value of the narrower one, in a unit that divides it. -/
theorem wideningIsExact : Obligations.WideningIsExact := by
  unfold Obligations.WideningIsExact
  intro f g v sat hfg _
  have hstands := decodeElem_standsFor (isFloat_of_widening hfg) v
  have hwithin := within_of_widening hfg
  dsimp only
  generalize bit v ((ffmt f).eb + (ffmt f).fb) = s at hstands
  generalize decodeElem f v = x at hstands ⊢
  cases hstands with
  | nan => exact ⟨nofun, fun _ => encodeElem_nan_of_widening hfg⟩
  | inf hi =>
    rw [narrow_inf (hwithin.ieee hi)]
    exact ⟨fun _ => ⟨rfl, FV.cmp_inf_self s, rfl, rfl⟩, nofun⟩
  | zero => exact ⟨fun _ => ⟨rfl, FV.cmp_fin_eq_zero rfl, rfl, rfl⟩, nofun⟩
  | @nonzero m q hfit =>
    have hunit := hwithin.unit_le hfit
    rw [narrow_of_unit_le hfit.ne_zero hunit (hwithin.over_eq_false hfit)]
    exact ⟨fun _ => ⟨rfl, FV.cmp_fin_eq_zero (FV.value_mul_pow s m hunit), rfl, rfl⟩, nofun⟩

/-! ## The elements of a block and its scale -/

/-- Each field of a packed string has the width of the packing. -/
theorem lt_of_mem_unpackBits {w n x v : Nat} (h : v ∈ unpackBits w n x) : v < 2 ^ w := by
  induction n generalizing x with
  | zero => cases h
  | succ n ih =>
    rw [unpackBits, List.mem_cons] at h
    rcases h with rfl | h
    · exact Nat.mod_lt _ (by positivity)
    · exact ih h

theorem scaleExp_of_ne {b : Nat} (h : b ≠ 0xFF) : scaleExp b = some ((b : Int) - 127) := if_neg h

/-- An element of a row in an MX format: its field, scaled by the byte of its block (R81 R82). -/
theorem decodeRow_of_isMX {f n i : Nat} {b sc : Bytes} {v : FVal} (hf : isMX f = true) (h : (decodeRow f n b sc).1[i]? = some v) :
    ∃ e, e < 2 ^ elemBits f ∧ v = (scaleExp (fld sc (i / 32) 1)).elim .nan (FV.scale (decodeElem f e)) := by
  simp only [decodeRow, hf, if_true, List.getElem?_mapIdx, Option.map_eq_some_iff] at h
  obtain ⟨e, he, rfl⟩ := h
  refine ⟨e, lt_of_mem_unpackBits (List.mem_of_getElem? he), ?_⟩
  cases scaleExp (fld sc (i / 32) 1) <;> rfl

/-- Settles O59: the byte of a block decides whether its elements are NaN or scaled. -/
theorem scaleBytesScaleTheirBlocks : Obligations.ScaleBytesScaleTheirBlocks := by
  unfold Obligations.ScaleBytesScaleTheirBlocks
  refine ⟨fun b hb => scaleExp_of_ne hb.ne, rfl, fun f n b sc i v hf hv => ?_⟩
  obtain ⟨e, he, rfl⟩ := decodeRow_of_isMX hf hv
  constructor
  · intro hnan
    rw [hnan]
    rfl
  · intro hne
    exact ⟨e, he, by rw [scaleExp_of_ne hne, Option.elim_some]⟩

end Sys2Proof.Machine
end

/-! # The commands of the vector engine

Each operation is the one meaning of its opcode: the statement of the family 03_formats about its packets. -/

section
namespace Sys2Proof.Machine

/-- Each row of the table is the one operation with the row's opcode. -/
theorem exec_of_vectorCommand {e : EngId} {units : Nat} {ev : List MemEvent} {p : Instr × Nat} (h : p ∈ vectorCommands e units ev) (s : State) :
    exec p.1 s = s.vecOp e p.2 units ev := by
  unfold vectorCommands at h
  fin_cases h <;> rfl

/-- A packet that its stream may begin, on an engine that no injection stops, is met by the command's memory events and runs (log entry 22). -/
theorem State.packet_of_next {s : State} {e : EngId} {op : Nat} {g : Grant} {x : Sched} {b : Bytes} (h : s.nextPacket e op = some (g, x, b))
    (hh : s.engines[e].hung = false) (ev : List MemEvent) (f : State → Grant → Sched → Bytes → Res) :
    s.packet e op ev f = f (s.memEvents ev (pkTag b) (s.unitByte e)) g x b := by
  simp only [State.packet, h, hh, Bool.false_eq_true, if_false]

/-- Settles O25: the packet passes the checks in the order of the model, and what remains is the begun command with its units. -/
theorem vectorPacketsRun : Obligations.VectorPacketsRun := by
  unfold Obligations.VectorPacketsRun
  intro s e units ev p hp g x b o hnext hop hrun u t os ha hall hbad hrows hcols ch t1 acc t2
  rw [exec_of_vectorCommand hp s, State.vecOp]
  simp only [hnext, hop, ne_eq, not_true_eq_false, if_false, State.packet_of_next hnext hrun]
  simp only [os, t, u] at ha hall hbad
  simp only [ha, hall, hbad, if_neg hrows, if_neg hcols, Bool.false_eq_true, if_false]
  rfl

end Sys2Proof.Machine
end

/-! # The commands of the array and of the copy engine

What the checks of LEAF_LOAD and STREAM_ROWS accept, and how a copy begins that has no place in a chain (04_array R110 R114, 07_movement R205
R210 R213); the statement of the family 04_array about their packets. -/

section
namespace Sys2Proof.Machine

/-! ## The checks of LEAF_LOAD and STREAM_ROWS -/

/-- The back leaf takes a load in EMPTY and in TURNING, of a tile that is not both sparse and split (R110). -/
theorem leafLoad_accepts {st : LeafState} {b : Bytes} (hst : st = .empty ∨ st = .turning) (hsp : llSparse b = 0 ∨ llSplit b = 0) :
    (decide (st = .loading) || decide (st = .ready) || (decide (llSparse b ≠ 0) && decide (llSplit b ≠ 0))) = false := by
  have hone : (decide (llSparse b ≠ 0) && decide (llSplit b ≠ 0)) = false := by rcases hsp with h | h <;> simp [h]
  rw [hone]
  rcases hst with rfl | rfl <;> rfl

/-- A turn is accepted where the back leaf is loaded or loading, and no earlier command owes one (R110). -/
theorem streamRows_accepts_turn {eng : Engine} {b : Bytes}
    (h : srTurn b = true → eng.array.backState ≠ .empty ∧ eng.array.backState ≠ .turning ∧ eng.entries.any Entry.turn = false) :
    (srTurn b && (decide (eng.array.backState = .empty) || decide (eng.array.backState = .turning) || eng.entries.any Entry.turn)) = false := by
  cases hturn : srTurn b with
  | false => rfl
  | true =>
    obtain ⟨hempty, hturning, howed⟩ := h hturn
    simp [hempty, hturning, howed]

/-- The leaf takes rows of its own length whose split agrees with its own, where both split (R115). -/
theorem streamRows_accepts_leaf {b : Bytes} {l : Leaf} {len : Nat} (hsplit : srSplit b = 0 ∨ l.split = 0 ∨ srSplit b = l.split)
    (hlen : len = l.logk) :
    ((decide (srSplit b ≠ 0) && decide (l.split ≠ 0) && decide (srSplit b ≠ l.split)) || decide (len ≠ l.logk)) = false := by
  rcases hsplit with h | h | h <;> simp [h, hlen]

theorem State.streamRows_of_accepted {s : State} {e : EngId} {g : Grant} {x : Sched} {b : Bytes} {o d : Opnd} {rows len units : Nat} {l : Leaf}
    (hkind : o.lay.kind ≠ 2) (hrows : rows ≠ 0) (hlen : len ≠ 0)
    (hturn : srTurn b = true → s.engines[e].array.backState ≠ .empty ∧ s.engines[e].array.backState ≠ .turning ∧
      s.engines[e].entries.any Entry.turn = false)
    (hmeets : s.engines[e].meets (srTurn b) = some l) (hsplit : srSplit b = 0 ∨ l.split = 0 ∨ srSplit b = l.split) (hlogk : len = l.logk)
    (hmap : s.streamBad b o d (s.opnd x b 7 (s.entry e b 0).idx) [] rows len l.next = none) :
    s.streamRows e g x b o d rows len [] units = .next (s.streamBegin e g x b l.fmt rows [] units) := by
  simp only [State.streamRows, if_neg hlen, hrows, decide_false, Bool.false_and, streamRows_accepts_turn hturn, hmeets,
    streamRows_accepts_leaf hsplit hlogk, if_neg hkind, hmap, Bool.false_eq_true, if_false, ok]

/-- A stream of rows has units to run: it does not end with OK_EMPTY (R114). -/
theorem State.streamBegin_of_rows (s : State) (e : EngId) (g : Grant) (x : Sched) (b : Bytes) (fmt : Nat) {rows : Nat} (hrows : rows ≠ 0)
    (list : List Nat) (units : Nat) :
    s.streamBegin e g x b fmt rows list units =
      let ch := s.chainBegin e x g b rows
      let v := ch.2.2
      let t0 := v.entry e b rows
      let t := { t0 with list := list, chIn := ch.1, chOut := ch.2.1, turn := srTurn b
                         scales := [(v.streamed x t0 fmt).map (·.exp), (v.opnd x b 7 t0.idx).map (·.exp),
                           (v.opnd x b 0xA t0.idx).map (·.exp)].map (·.getD 0) }
      ((v.begin_ e t (s.engines[e].pc + 1)).checkPair e t).runUnits State.streamUnit units e t.pos := by
  simp only [State.streamBegin, hrows, decide_false, Bool.false_and, Bool.false_eq_true, if_false]

/-! ## A copy outside a chain -/

@[simp] theorem State.setEng_self (s : State) (e : EngId) : s.setEng e s.engines[e] = s := by
  have hset : s.engines.set e s.engines[e] = s.engines := Vector.set_getElem_self ..
  rw [State.setEng, hset]

/-- A packet with neither CH_IN nor CH_OUT takes no position in a chain (R195). -/
theorem State.chainBegin_of_unchained (s : State) (e : EngId) (x : Sched) (g : Grant) {b : Bytes} (hin : pkChIn b = false)
    (hout : pkChOut b = false) (rows : Nat) : s.chainBegin e x g b rows = (none, none, s) := by
  simp only [State.chainBegin, takesIn, givesOut, hin, hout, Bool.false_and, Bool.false_eq_true, if_false]
  exact congrArg (none, none, ·) (s.setEng_self e)

/-- A copy to this device's own memory, outside a chain and outside a replay, runs the units granted. -/
theorem State.copyBegin_of_local {s : State} {e : EngId} {g : Grant} {x : Sched} {t : Entry} {rows units : Nat} (hpeer : pkPeer t.packet = 0xFF)
    (hin : pkChIn t.packet = false) (hout : pkChOut t.packet = false) (htin : t.chIn = none) (htout : t.chOut = none)
    (hlive : x.replaying g.phase = false) (hitems : s.cpeItems x { t with total := (s.cpeParts x t).length } ≠ 0) :
    s.copyBegin e g x t rows units =
      let u := { t with total := (s.cpeParts x t).length }
      ((s.begin_ e u (s.engines[e].pc + 1)).checkPair e u).runUnits State.copyUnit units e t.pos := by
  obtain ⟨_⟩ := t
  subst htin htout
  simp only [State.copyBegin, hpeer, ne_eq, not_true_eq_false, decide_false, Bool.false_and, Bool.or_false, Bool.false_eq_true, if_false,
    State.chainBegin_of_unchained s e x g hin hout, hlive, if_neg hitems]

/-! ## The packets

Each is met by the command's memory events, in the state u, and passes the checks of its function. -/

section
variable {s u : State} {e : EngId} {units : Nat} {ev : List MemEvent} {g : Grant} {x : Sched} {b : Bytes}
  (hrun : s.engines[e].hung = false) (hu : s.memEvents ev (pkTag b) (s.unitByte e) = u)
include hrun hu

theorem exec_leafLoad_of_accepted {o : Opnd} (hnext : s.nextPacket e 0x20 = some (g, x, b))
    (hst : u.engines[e].array.backState = .empty ∨ u.engines[e].array.backState = .turning) (hsp : llSparse b = 0 ∨ llSplit b = 0)
    (ho : u.opnd x b 4 (u.entry e b 0).idx = some o) (hmap : u.badOpnd o o.lay.rows o.lay.cols = none)
    (hlist : u.opnd x b 7 (u.entry e b 0).idx = none) : exec (.leafLoad e units ev) s = .next (u.leafBegin e b o [] units) := by
  change execLeafLoad e units s ev = _
  rw [execLeafLoad, State.packet_of_next hnext hrun, hu]
  simp only [ho, leafLoad_accepts hst hsp, hmap, hlist, Bool.false_eq_true, if_false, ok]

theorem exec_streamRows_of_plain {o d : Opnd} (hnext : s.nextPacket e 0x21 = some (g, x, b))
    (ho : u.opnd x b 4 (u.entry e b 0).idx = some o) (hd : u.opnd x b 0xA (u.entry e b 0).idx = some d) (hkind : o.lay.kind ≠ 2) :
    exec (.streamRows e units ev) s = u.streamRows e g x b o d
      (if srRows b = 0xFFFFFFFF then (asRead (srTrans b) o.lay).1 else srRows b) (asRead (srTrans b) o.lay).2 [] units := by
  change execStreamRows e units ev s = _
  rw [execStreamRows, State.packet_of_next hnext hrun, hu]
  simp only [ho, hd, if_neg hkind]

theorem exec_copy_of_mapped {c d : Opnd} (hnext : s.nextPacket e 0x60 = some (g, x, b)) (hc : u.opnd x b 4 (u.entry e b 0).idx = some c)
    (hd : u.opnd x b 7 (u.entry e b 0).idx = some d) (hmap : u.copyBad b c d = none) (hrows : c.lay.rows ≠ 0) (hcols : c.lay.cols ≠ 0) :
    exec (.copy e units ev) s = .next (u.copyBegin e g x { u.entry e b 0 with scales := [c.exp, d.exp] } c.lay.rows units) := by
  change execCopy e units ev s = _
  rw [execCopy, State.packet_of_next hnext hrun, hu]
  simp only [hc, hd, hmap, hrows, hcols, decide_false, Bool.or_false, Bool.false_eq_true, if_false, ok]

theorem exec_copyList_of_mapped {t : State} {c d l : Opnd} {list : List Nat} (hnext : s.nextPacket e 0x61 = some (g, x, b))
    (hc : u.opnd x b 4 (u.entry e b 0).idx = some c) (hd : u.opnd x b 7 (u.entry e b 0).idx = some d)
    (hl : u.opnd x b 0xA (u.entry e b 0).idx = some l) (hmay : u.mayRead e x l.listRange = true) (hlmap : u.inMap l.addr 16 = true)
    (hmap : u.copyBad b c d = none) (hcc : c.lay.cols ≠ 0) (hdc : d.lay.cols ≠ 0) (hdr : d.lay.rows ≠ 0)
    (hread : u.readList none l = (some (false, list), t)) (hgood : list.any (badEntry l.lay.kind c.lay d.lay) = false) :
    exec (.copyList e units ev) s =
      .next (t.copyBegin e g x { u.entry e b 0 with list := list, scales := [c.exp, d.exp] } d.lay.rows units) := by
  change execCopyList e units s ev = _
  rw [execCopyList, State.packet_of_next hnext hrun, hu]
  simp only [hc, hd, hl, hmay, hlmap, hmap, hcc, hdc, hdr, hread, hgood, decide_false, Bool.or_false, Bool.not_true, Bool.false_eq_true,
    if_false, ok]

theorem exec_tip_of_mapped (hnext : s.nextPacket e 0x62 = some (g, x, b)) (hlen : tipLen b ≠ 0)
    (hsrc : u.inMap (tipSrc b) (tipLen b) = true) (hdst : pkPeer b = 0xFF → u.inMap (tipDst b) (tipLen b) = true) :
    exec (.tip e units ev) s = .next (u.copyBegin e g x (u.entry e b 0) 0 units) := by
  have hmapped : (decide (pkPeer b = 0xFF) && !u.inMap (tipDst b) (tipLen b)) = false := by simpa using hdst
  change execTip e units s ev = _
  rw [execTip, State.packet_of_next hnext hrun, hu]
  simp only [if_neg hlen, hsrc, hmapped, Bool.not_true, Bool.false_eq_true, if_false, ok]

end

/-- Settles O26: a lemma of the packet for each of the five, and of the unchained copy for the units that run. -/
theorem arrayAndCopyPacketsRun : Obligations.ArrayAndCopyPacketsRun := by
  unfold Obligations.ArrayAndCopyPacketsRun
  refine ⟨⟨?leafLoad, ?streamRows⟩, ?copy, ?copyList, ?tip, ?ownMemory⟩
  case leafLoad =>
    intro s e units ev g x b o hnext hrun u hst hsp ho hmap hlist
    exact exec_leafLoad_of_accepted hrun rfl hnext hst hsp ho hmap hlist
  case streamRows =>
    intro s e units ev g x b l o d hnext hrun u idx rows ho hd hkind hrows hlen hturn hmeets hsplit hlogk hmap
    rw [exec_streamRows_of_plain hrun rfl hnext ho hd hkind, State.streamRows_of_accepted hkind hrows hlen hturn hmeets hsplit hlogk hmap,
      State.streamBegin_of_rows _ e g x b l.fmt hrows]
  case copy =>
    intro s e units ev g x b c d hnext hrun u t hc hd hmap hrows hcols
    exact exec_copy_of_mapped hrun rfl hnext hc hd hmap hrows hcols
  case copyList =>
    intro s t e units ev g x b c d l list hnext hrun u y hc hd hl hmay hlmap hmap hcc hdc hdr hread hgood
    exact exec_copyList_of_mapped hrun rfl hnext hc hd hl hmay hlmap hmap hcc hdc hdr hread hgood
  case tip =>
    intro s e units ev g x b hnext hrun hlen u hsrc hdst
    exact exec_tip_of_mapped hrun rfl hnext hlen hsrc hdst
  case ownMemory =>
    intro s e g x t rows units hpeer hin hout htin htout hlive hitems
    exact State.copyBegin_of_local hpeer hin hout htin htout hlive hitems

end Sys2Proof.Machine
end

/-! # The commands of the vector optimizer and of the routing engine

What an accepted UPDATE and an accepted ROUTE begin (05_vector_optimizer R151, 08_conditional R231); the statement of the family
05_vector_optimizer about their packets. -/

section
namespace Sys2Proof.Machine

/-- The schedule of an UPDATE keeps the share that the command names, with its TAG. -/
def Sched.withShare (x : Sched) (d : Nat) (b : Bytes) : Sched :=
  { x with shareTags := x.shareTags ++ [(d, upFirst b, upCount b, pkTag b)] }

/-! ## The packets

Each is met by the command's memory events, in the state v, and passes the checks of its function. -/

section
variable {s v : State} {e : EngId} {units : Nat} {ev : List MemEvent} {g : Grant} {x : Sched} {b : Bytes}
  (hrun : s.engines[e].hung = false) (hv : s.memEvents ev (pkTag b) (s.unitByte e) = v)
include hrun hv

/-- An UPDATE of a probe pass is done as it begins: it has no work (10_numerics R296). -/
theorem exec_update_of_probePass {d : Nat} {u : UpdateE} (hnext : s.nextPacket e 0x80 = some (g, x, b)) (hd : x.descOf b = some (d, u))
    (hmap : ((u.regions true ++ u.regions false ++ u.inputs).find? fun r => !v.inMap r.1 r.2) = none) (hprobe : x.probe.pass = true) :
    exec (.update e units ev) s = .next ((v.setSched (x.withShare d b)).begin_ e
      { v.entry e b 1 with fetched := units, units := 1, watermark := upCount b } (v.engines[e].pc + 1)) := by
  change execUpdate e units s ev = _
  rw [execUpdate, State.packet_of_next hnext hrun, hv]
  simp only [hd, hmap, hprobe, if_true]
  rfl

/-- An UPDATE of a verso descriptor waits for its vote with the poison and the flags of its share, and does what a decision there lets it do. -/
theorem exec_update_of_verso {d : Nat} {u : UpdateE} (hnext : s.nextPacket e 0x80 = some (g, x, b)) (hd : x.descOf b = some (d, u))
    (hmap : ((u.regions true ++ u.regions false ++ u.inputs).find? fun r => !v.inMap r.1 r.2) = none) (hprobe : x.probe.pass = false)
    (hverso : u.verso = true) :
    let w := v.setSched (x.withShare d b)
    exec (.update e units ev) s = .next ((w.begin_ e
      { v.entry e b 1 with
        fetched := units, waiting := true, poison := (w.gradient u (upFirst b) (upCount b)).any (·.2)
        aflags := BitVec.ofNat 8 (w.scanFlags u (upFirst b) (upCount b) (u.count ≤ x.scanned (ordinalOf x.image d) + upCount b)) }
      (v.engines[e].pc + 1)).opeWork e units) := by
  change execUpdate e units s ev = _
  rw [execUpdate, State.packet_of_next hnext hrun, hv]
  simp only [hd, hmap, hprobe, hverso, if_true, Bool.false_eq_true, if_false]
  rfl

/-- A ROUTE of unpoisoned scores begins once they are read, and runs the units granted. -/
theorem exec_route_of_scored {so lo co : Opnd} (hnext : s.nextPacket e 0xA0 = some (g, x, b))
    (hso : v.opnd x b 4 (v.entry e b (rtExperts b)).idx = some so) (hlo : v.opnd x b 7 (v.entry e b (rtExperts b)).idx = some lo)
    (hco : v.opnd x b 0xA (v.entry e b (rtExperts b)).idx = some co) (hsoMap : v.badOpnd so so.lay.rows so.lay.cols = none)
    (hcoMap : v.badOpnd co 3 (rtExperts b) = none)
    (hloMap : v.inMap lo.addr (listRegion (rtExperts b) lo.lay.rows so.lay.rows (rtTopk b)) = true)
    (hclean : ((v.scores (v.engQuire e) so).1.any fun r => r.vals.any (·.2)) = false) :
    let t := v.entry e b (rtExperts b)
    let w := (v.scores (v.engQuire e) so).2
    exec (.route e units ev) s = .next ((w.begin_ e t (w.engines[e].pc + 1)).runUnits State.routeUnit units e t.pos) := by
  change execRoute e units s ev = _
  rw [execRoute, State.packet_of_next hnext hrun, hv]
  simp only [hso, hlo, hco, hsoMap, hcoMap, hloMap, hclean, Bool.not_true, Bool.false_eq_true, if_false, ok]

end

/-- Settles O27: a lemma of the packet for each of the probe pass, the verso descriptor and the scores. -/
theorem updateAndRoutePacketsRun : Obligations.UpdateAndRoutePacketsRun := by
  unfold Obligations.UpdateAndRoutePacketsRun
  refine ⟨?update, ?route⟩
  case update =>
    intro s e units ev g x b d u hnext hrun hd v w t hmap
    constructor
    · intro hprobe
      exact exec_update_of_probePass hrun rfl hnext hd hmap hprobe
    · intro hprobe hverso gr fl
      exact exec_update_of_verso hrun rfl hnext hd hmap hprobe hverso
  case route =>
    intro s e units ev g x b so lo co hnext hrun u t hso hlo hco hsoMap hcoMap hloMap r hclean
    exact exec_route_of_scored hrun rfl hnext hso hlo hco hsoMap hcoMap hloMap hclean

end Sys2Proof.Machine
end

/-! # The barrier, the votes and the arm exchange

What each message of the barrier tree does, a barrier that is late, and the exchange at arming (11_time R330 R331, 05_vector_optimizer R536,
10_numerics R295); the statement of the family 05_vector_optimizer about them. -/

section
namespace Sys2Proof.Machine

@[simp] theorem exec_barrierUpSend (s : State) (id : Nat) : exec (.barrierUpSend id) s = .next (((s.settle id).beginEmpty id).sendUp id) := rfl

/-! ## The messages of a barrier (R330) -/

/-- A schedule whose up message has gone, with the entry that it carried. -/
def Sched.afterUp (x : Sched) (own : RoundEntry) : Sched :=
  { x with
    bar := { x.bar with upSent := true }
    coll := if x.probe.pass then { x.coll with state := .round } else { x.coll with
      recto := own.recto, verso := own.verso, flags := own.flags, state := if x.coll.state = .waiting then .waiting else .round } }

/-- A schedule that holds the up message of a child. -/
def Sched.withUp (x : Sched) (p : Port) (m : BarrierMsg) : Sched := { x with bar := { x.bar with ups := x.bar.ups ++ [(p, m)] } }

/-- The down message of a barrier, to every child of a device. -/
def State.tellChildren (s : State) (x : Sched) (m : BarrierMsg) : State :=
  (barPorts x.image.bar.children).foldl (fun s q => s.emit (.barrierDown q m)) s

/-- The PER_STEP counters are loaded and the pending presses act before a round's outcome does. -/
def State.closeRound (s : State) (x : Sched) : State :=
  ((s.reloadCounters x).setSched { x with downAt := if x.bar.round = 0 then (s.reloadCounters x).now else x.downAt }).barrierPendings x

section
variable {s : State} {id : Nat} {x : Sched} (hx : s.sched id = some x)
include hx

theorem State.sendUp_of_child (hready : x.upReady = true) {q : Port} (hq : portId x.image.bar.parent = some q) :
    s.sendUp id = (s.setSched (x.afterUp (s.ownEntry x))).emit (.barrierUp q (s.upMessage x)) := by
  simp only [State.sendUp, hx, hready, Bool.not_true, Bool.false_eq_true, if_false, hq]
  rfl

theorem State.sendUp_of_root (hready : x.upReady = true) (hroot : portId x.image.bar.parent = none) :
    s.sendUp id = (s.setSched (x.afterUp (s.ownEntry x))).barrierDone id (s.upMessage x) := by
  simp only [State.sendUp, hx, hready, Bool.not_true, Bool.false_eq_true, if_false, hroot]
  rfl

theorem State.barrierDone_of_failed (hlive : x.cancel ≠ some false) {m : BarrierMsg} (hm : m.failed = true) :
    s.barrierDone id m = (s.tellChildren x m).barFailed id m.missing := by
  simp only [State.barrierDone, hx, if_neg hlive, hm, if_true]
  rfl

theorem State.barrierDone_of_complete (hlive : x.cancel ≠ some false) {m : BarrierMsg} (hm : m.failed = false) :
    s.barrierDone id m =
      let u := (s.tellChildren x m).closeRound x
      if x.probe.pass then u.probeEnd id m else u.roundEnd id m := by
  simp only [State.barrierDone, hx, if_neg hlive, hm, Bool.false_eq_true, if_false]
  rfl

end

section
variable {s : State} {p : Port} {m : BarrierMsg} (hp : s.ports[p].admitted = true)
include hp

/-- A message that no barrier awaits is malformed traffic, up and down (R332). -/
theorem exec_barrier_of_unawaited (hm : s.awaits m = none) :
    exec (.barrierUpReceive p m) s = .next (s.malformed p) ∧ exec (.barrierDownReceive p m) s = .next (s.malformed p) := by
  constructor
  · change execBarrierUpReceive p m s = _
    simp only [execBarrierUpReceive, hp, hm, Bool.not_true, Bool.false_eq_true, if_false, ok]
  · change execBarrierDownReceive p m s = _
    simp only [execBarrierDownReceive, hp, hm, Bool.not_true, Bool.false_eq_true, if_false, ok]

/-- The first up message of a child for the awaited round is kept, and the root sends its own where that is the last. -/
theorem exec_barrierUpReceive_of_awaited {x : Sched} (hm : s.awaits m = some x) (hchild : x.image.bar.children.getLsbD p.val = true)
    (hfirst : (x.bar.ups.any fun u => u.1 = p) = false) :
    exec (.barrierUpReceive p m) s =
      let t := s.setSched (x.withUp p m)
      .next (if (portId x.image.bar.parent).isNone then (t.settle x.id).sendUp x.id else t) := by
  change execBarrierUpReceive p m s = _
  simp only [execBarrierUpReceive, hp, hm, hchild, hfirst, Bool.not_true, Bool.or_false, Bool.false_eq_true, if_false]
  exact (apply_ite Host.Outcome.next _ _ _).symm

/-- The parent's down message completes the barrier of a device that has sent its part, and a failed one that of any. -/
theorem exec_barrierDownReceive_of_parent {x : Sched} (hm : s.awaits m = some x) (hparent : portId x.image.bar.parent = some p)
    (hpart : m.failed = true ∨ x.bar.upSent = true) : exec (.barrierDownReceive p m) s = .next (s.barrierDone x.id m) := by
  have htaken : (decide (portId x.image.bar.parent = some p) && (m.failed || x.bar.upSent)) = true := by simpa [hparent] using hpart
  change execBarrierDownReceive p m s = _
  simp only [execBarrierDownReceive, hp, hm, htaken, Bool.not_true, Bool.false_eq_true, if_false, if_true, ok]

end

/-! ## A barrier at its limit (R331) -/

/-- What makes a barrier late: its schedule is under way, has a step to close, and is past the limit, and nothing has ended its round yet. -/
structure State.BarrierLate (s : State) (x : Sched) : Prop where
  state : x.state = .armed ∨ x.state = .running ∨ x.state = .held
  step : x.between = true → x.image.nSteps ≠ 0 → x.launchStep < x.image.nSteps
  coll : x.coll.state ≠ .escalated
  bar : x.bar.failed = false
  due : x.barrierDue ≤ s.now
  unstalled : s.guard.supply.stall = false

theorem State.BarrierLate.acts {s : State} {x : Sched} (h : s.BarrierLate x) :
    (!(x.state = .armed || x.state = .running || x.state = .held) ||
      (x.between && x.image.nSteps ≠ 0 && decide (x.image.nSteps ≤ x.launchStep)) || x.coll.state = .escalated || x.bar.failed ||
      decide (s.now < x.barrierDue) || s.guard.supply.stall) = false := by
  obtain ⟨hstate, hstep, hcoll, hbar, hdue, hstall⟩ := h
  have hunder : (decide (x.state = .armed) || decide (x.state = .running) || decide (x.state = .held)) = true := by
    simpa [or_assoc] using hstate
  have hhas : (x.between && decide (x.image.nSteps ≠ 0) && decide (x.image.nSteps ≤ x.launchStep)) = false := by
    simpa using hstep
  rw [hunder, hhas]
  simp [hcoll, hbar, hdue, hstall]

/-- A step whose first launch is still to come begins, where its schedule is not held. -/
def State.begun (s : State) (id : Nat) (x : Sched) : State :=
  if x.between = true ∧ x.state ≠ .held then s.firstLaunch id x.launchStep else s

theorem State.beginStep_of_loaded {s : State} {id : Nat} {x : Sched} (hx : s.sched id = some x) : s.beginStep id = s.begun id x := by
  simp only [State.beginStep, hx, State.begun, Bool.and_eq_true, decide_eq_true_eq]

/-- The slip of a late barrier: kind BARRIER, cause 9. -/
def Sched.barrierSlip (x : Sched) (now : Nat) : Slip :=
  { tag := 0, kind := 3, cause := 9, phase := 0xFF, unit := 0xFF, step := x.launchStep
    nominal := x.stepStart x.launchStep + x.image.barrierAt, actual := now }

/-- The down message of a root that misses messages. -/
def Sched.failedDown (x : Sched) : BarrierMsg :=
  { setId := x.image.setId, step := x.launchStep, round := x.bar.round, entries := [], obs := [], failed := true, missing := x.missingUps }

/-- A schedule is HELD at the limit, with its slip, and with record 0x0508 where it was not held before. -/
def State.heldLate (s : State) (id : Nat) (x : Sched) : State :=
  let t := (s.begun id x).slip id (x.barrierSlip (s.begun id x).now)
  (if x.state = .held then t
    else (t.nativeE 3 0x0508 x.ctx 0xFF 0 x.missingUps.toNat 0 0).emit (.report 0x0508 x.missingUps.toNat)).holdSched id

theorem exec_barrierLimitExpiry_of_late {s : State} {id : Nat} {x y : Sched} (hx : s.sched id = some x) (hlate : s.BarrierLate x)
    (hy : (s.heldLate id x).sched id = some y) :
    exec (.barrierLimitExpiry id) s = .next (if (portId x.image.bar.parent).isNone && x.missingUps ≠ 0 then
        (s.heldLate id x).barrierDone id x.failedDown
      else (s.heldLate id x).setSched { y with bar := { y.bar with failed := true } }) := by
  change execBarrierLimitExpiry id s = _
  simp only [execBarrierLimitExpiry, hx, hlate.acts, State.beginStep_of_loaded hx, Bool.false_eq_true, if_false]
  simp only [State.heldLate, Sched.barrierSlip] at hy ⊢
  rw [hy]
  exact (apply_ite Host.Outcome.next _ _ _).symm

/-! ## Votes (R536) -/

/-- The schedule whose step a vote message of a set is for. -/
def State.votesOn (s : State) (setId : W64) (step : Nat) : Option Sched :=
  s.scheds.find? fun x => x.collated && x.active && x.image.setId = setId && x.step = step

/-- A child's entry replaces the one that it sent before for the same device and ordinal. -/
def Sched.withVote (x : Sched) (p : Port) (v : VoteEntry) : Sched :=
  { x with vote := { x.vote with
      got := x.vote.got.filter (fun z => !(z.1 = p && v.ordinal = z.2.ordinal && v.dev = z.2.dev)) ++ [(p, v)] } }

/-- The entries of an ordinal have gone up. -/
def Sched.votedUp (x : Sched) (o : Nat) : Sched := { x with vote := { x.vote with sentUp := x.vote.sentUp ++ [o] } }

section
variable {s : State} {id o : Nat} {x : Sched} (hx : s.sched id = some x)
include hx

theorem State.castUp_of_waiting (h : x.subtree o = none ∨ x.vote.sentUp.contains o = true) : s.castUp id o = s := by
  simp only [State.castUp, hx]
  rcases h with hnone | hsent
  · rw [hnone]
  · cases x.subtree o with
    | none => rfl
    | some es => exact if_pos hsent

theorem State.castUp_of_child {es : List VoteEntry} (hes : x.subtree o = some es) (hunsent : x.vote.sentUp.contains o = false) {q : Port}
    (hq : portId x.image.bar.parent = some q) :
    s.castUp id o =
      (s.setSched (x.votedUp o)).emit (.vote q { setId := x.image.setId, step := x.step, down := false, entries := es }) := by
  simp only [State.castUp, hx, hes, hunsent, Bool.false_eq_true, if_false, hq]
  rfl

theorem State.castUp_of_root {es : List VoteEntry} (hes : x.subtree o = some es) (hunsent : x.vote.sentUp.contains o = false)
    (hroot : portId x.image.bar.parent = none) : s.castUp id o = (s.setSched (x.votedUp o)).decideVote id o es := by
  simp only [State.castUp, hx, hes, hunsent, Bool.false_eq_true, if_false, hroot]
  rfl

end

section
variable {s : State} {p : Port} {x : Sched} (hp : s.ports[p].admitted = true)
include hp

/-- A child's entry is kept, and its ordinal goes up where the subtree's entries are all there. -/
theorem exec_voteReceive_of_child {setId : W64} {step : Nat} (hx : s.votesOn setId step = some x)
    (hchild : x.image.bar.children.getLsbD p.val = true) (v : VoteEntry) :
    exec (.voteReceive p { setId := setId, step := step, down := false, entries := [v] }) s =
      .next ((s.setSched (x.withVote p v)).castUp x.id v.ordinal) := by
  have hawaits : s.awaitsVote { setId := setId, step := step, down := false, entries := [v] } = some x := hx
  change execVoteReceive p _ s = _
  simp only [execVoteReceive, hp, hawaits, hchild, Bool.not_true, Bool.false_eq_true, if_false, if_true, List.any_cons, List.any_nil,
    Bool.or_false, List.map_cons, List.map_nil, dedup, List.filter_nil, List.foldl_cons, List.foldl_nil, ok, Sched.withVote, Bool.and_assoc]

/-- The parent's entries decide their ordinals. -/
theorem exec_voteReceive_of_parent {m : VoteMsg} (hauth : m.authOk = true) (hx : s.votesOn m.setId m.step = some x) (hdown : m.down = true)
    (hparent : portId x.image.bar.parent = some p) :
    exec (.voteReceive p m) s = .next ((dedup (m.entries.map VoteEntry.ordinal)).foldl
      (fun s o => s.decideVote x.id o (m.entries.filter fun v => v.ordinal = o)) s) := by
  have hawaits : s.awaitsVote m = some x := by
    rw [State.awaitsVote, hauth]
    exact hx
  change execVoteReceive p m s = _
  simp only [execVoteReceive, hp, hawaits, hdown, hparent, Bool.not_true, Bool.false_eq_true, if_false, if_true, ok]

end

/-! ## The arm exchange (R295) -/

theorem firstUnmatched_eq_none {es : List ArmEntry} {size : Nat} (h : ∀ g, g < size → namers es g = 1) : firstUnmatched es size = none := by
  simpa [firstUnmatched] using h

theorem firstUnmatched_eq_some {es : List ArmEntry} {size g : Nat} (hg : g < size) (hbad : namers es g ≠ 1)
    (hleast : ∀ k, k < g → namers es k = 1) : firstUnmatched es size = some g := by
  rw [firstUnmatched, List.find?_range_eq_some]
  exact ⟨by simpa using hbad, by simpa using hg, by simpa using hleast⟩

/-- An arming schedule that has taken an exchange, with the tensors that it leaves unsettled. -/
def Sched.withExchange (x : Sched) (es : List ArmEntry) : Sched :=
  { x with probe := { x.probe with exchange := some es, armOk := true, unsettled := unsettledOf es x.numTensors } }

theorem arming_takes_exchange {x : Sched} (harmed : x.state = .armed) (hnew : x.probe.exchange = none) :
    (decide (x.state ≠ .armed) || x.probe.exchange.isSome) = false := by simp [harmed, hnew]

theorem exchanged_whole {es : List ArmEntry} {size : Nat} (hall : ∀ g, g < size → ∃ a ∈ es, a.index = g) :
    ((List.range size).all fun g => es.any fun a => a.index = g) = true := by simpa using hall

/-! An arming device that has the entry of every device of its group, its own and those of the others. -/

section
variable {s : State} {id : Nat} {entries es : List ArmEntry} {x : Sched} (hx : s.sched id = some x) (harmed : x.state = .armed)
  (hnew : x.probe.exchange = none) (hes : (s.armEntry x :: entries.filter fun a => a.index ≠ imgGroupIndex s.act) = es)
  (hall : ∀ g, g < imgGroupSize s.act → ∃ a ∈ es, a.index = g)
include hx harmed hnew hes hall

theorem exec_armExchangeReceive_of_matched (hok : x.collated = false ∨ firstUnmatched es (imgGroupSize s.act) = none) :
    exec (.armExchangeReceive id entries) s = .next (s.setSched (x.withExchange es)) := by
  have hnone : (if x.collated = true then firstUnmatched es (imgGroupSize s.act) else none) = none := by
    rcases hok with hcol | hmatched
    · rw [hcol, if_neg Bool.false_ne_true]
    · rw [hmatched, ite_self]
  change execArmExchangeReceive id entries s = _
  simp only [execArmExchangeReceive, hx, arming_takes_exchange harmed hnew, hes, exchanged_whole hall, hnone, Bool.not_true,
    Bool.false_eq_true, if_false, ok, Sched.withExchange]

theorem exec_armExchangeReceive_of_unmatched {g : Nat} (hcol : x.collated = true) (hg : firstUnmatched es (imgGroupSize s.act) = some g) :
    exec (.armExchangeReceive id entries) s =
      .next ((s.nativeE 3 0x0504 x.ctx 0xFF 0 g 0 0).setSched { x with state := .admitted }).runPendings := by
  change execArmExchangeReceive id entries s = _
  simp only [execArmExchangeReceive, hx, arming_takes_exchange harmed hnew, hes, exchanged_whole hall, hcol, hg, Bool.not_true,
    Bool.false_eq_true, if_false, if_true, ok]

end

/-- Settles O35: a lemma of the message, of the limit, of the votes or of the exchange for each clause. -/
theorem barriersAct : Obligations.BarriersAct := by
  unfold Obligations.BarriersAct
  refine ⟨⟨⟨?upSend, ?upReceive, ?downReceive, ?unawaited⟩, ?limit⟩, ?childVote, ?parentVote, ?exchange⟩
  case upSend =>
    intro s id x t m own y hx hready
    constructor
    · intro q hq
      rw [exec_barrierUpSend, State.sendUp_of_child hx hready hq]
      rfl
    · intro hroot
      rw [exec_barrierUpSend, State.sendUp_of_root hx hready hroot]
      rfl
  case upReceive =>
    intro s p m x hp hm hchild hfirst t
    rw [exec_barrierUpReceive_of_awaited hp hm hchild hfirst]
    constructor
    · intro hparent
      obtain ⟨q, hq⟩ := Option.isSome_iff_exists.mp hparent
      rw [hq]
      rfl
    · intro hroot
      rw [hroot]
      rfl
  case downReceive =>
    intro s p m x hp hm hx hparent hlive t u
    constructor
    · intro hfailed
      rw [exec_barrierDownReceive_of_parent hp hm hparent (.inl hfailed), State.barrierDone_of_failed hx hlive hfailed]
      rfl
    · intro hcomplete hsent
      rw [exec_barrierDownReceive_of_parent hp hm hparent (.inr hsent), State.barrierDone_of_complete hx hlive hcomplete]
      rfl
  case unawaited =>
    intro s p m hp hm
    exact exec_barrier_of_unawaited hp hm
  case limit =>
    intro s id x y hx hstate hstep hcoll hbar hdue hstall n t u hy
    exact exec_barrierLimitExpiry_of_late hx ⟨hstate, hstep, hcoll, hbar, hdue, hstall⟩ hy
  case childVote =>
    intro s p setId step v x hp hset hx hchild y z m
    have hy : (s.setSched y).sched x.id = some y := State.setSched_sched hx rfl
    rw [exec_voteReceive_of_child hp hset hchild v]
    refine ⟨fun hwaits => ?_, fun es hes hunsent => ⟨fun q hq => ?_, fun hroot => ?_⟩⟩
    · exact congrArg Host.Outcome.next (State.castUp_of_waiting hy hwaits)
    · exact congrArg Host.Outcome.next (State.castUp_of_child hy hes hunsent hq)
    · exact congrArg Host.Outcome.next (State.castUp_of_root hy hes hunsent hroot)
  case parentVote =>
    intro s p m x hp hauth hset hdown hparent
    exact exec_voteReceive_of_parent hp hauth hset hdown hparent
  case exchange =>
    intro s id entries x hx harmed hnew es hall
    constructor
    · intro hmatched
      exact exec_armExchangeReceive_of_matched hx harmed hnew rfl hall (hmatched.imp_right firstUnmatched_eq_none)
    · intro g hcol hg hbad hleast
      exact exec_armExchangeReceive_of_unmatched hx harmed hnew rfl hall hcol (firstUnmatched_eq_some hg hbad hleast)

end Sys2Proof.Machine
end

/-! # The packets of the streams, the ends of engine commands and the sync counters

What an addition to a counter does (06_programs R191), what the packets that act on their stream alone do as they begin and end (R187 R188 R190
R193 R194 R198), and how a command completes, times out or wedges its unit (R182 R199, 15_faults R453); the statements of the family 06_programs. -/

section
namespace Sys2Proof.Machine

/-! ## A counter after it is written (R186) -/

theorem State.ctr_setCtr_of_ne_zero (s : State) (c d : Nat) {v : W32} (hv : v ≠ 0) :
    (s.setCtr c v).ctr d = if d = c then v else s.ctr d := by
  have hput : AMap.set zero32 s.counters c v = AMap.put s.counters c v := if_neg hv
  simp only [State.ctr, State.setCtr, hput, AMap.get_put]

/-! ## A new record of the error log (15_faults R450) -/

/-- A ring of k places keeps what was put in last. -/
theorem mem_ring_of_last (l : List Rec) (r : Rec) {k : Nat} (hk : 0 < k) : r ∈ (l ++ [r]).drop ((l ++ [r]).length - k) := by
  rw [List.drop_append_of_le_length (by rw [List.length_append, List.length_singleton]; omega)]
  exact List.mem_append_right _ (List.mem_singleton_self r)

/-- The ring keeps the record just written, under the SEQ that was next. -/
theorem State.mem_log_addRec (s : State) (cls source code : Nat) (ctx : Byte) (inj : Bool) (unit : Byte) (body : Bytes) :
    ∃ r ∈ (s.addRec cls source code ctx inj unit body).guard.log, r.seq = s.guard.logNext ∧ r.code = code ∧ r.body = body := by
  unfold State.addRec State.addRecAt
  extract_lets pin r ring g u
  have hlog : (if (imgMaster u.act && decide (3 ≤ cls)) = true then u.emit (.msix 64) else u).guard.log =
      ring.drop (ring.length - 16384) := by
    split <;> simp only [u, State.emit_guard]
  rw [hlog]
  exact ⟨r, mem_ring_of_last _ _ (by decide), rfl, rfl, rfl⟩

theorem State.addRec_logNext (s : State) (cls source code : Nat) (ctx : Byte) (inj : Bool) (unit : Byte) (body : Bytes) :
    (s.addRec cls source code ctx inj unit body).guard.logNext = s.guard.logNext + 1 := by
  obtain ⟨log, pinned, out, hrec⟩ := State.addRecAt_eq (s := s) (step := s.recStep) (cls := cls) (source := source) (code := code) (ctx := ctx)
    (unit := unit) (inj := inj) (body := body)
  rw [State.addRec, hrec]

/-! ## The flags of the step (13_collation Table 13-4) -/

/-- The flags that a schedule raises now: the step's, or after the barrier message those of the next pass. -/
def Sched.raised (x : Sched) : BitVec 16 := if x.takesFlags then x.coll.flags else x.later.flags

@[simp] theorem Sched.flag_takesFlags (x : Sched) (m : BitVec 16) : (x.flag m).takesFlags = x.takesFlags := by
  unfold Sched.flag
  split <;> rfl

theorem Sched.raised_flag (x : Sched) (m : BitVec 16) : (x.flag m).raised = x.raised ||| m := by
  simp only [Sched.raised, Sched.flag_takesFlags]
  by_cases h : x.takesFlags = true
  · rw [if_pos h, if_pos h, Sched.flag, if_pos h]
  · rw [if_neg h, if_neg h, Sched.flag, if_neg h]

/-- Every collated schedule that is active has the flags that were raised. -/
theorem State.raised_of_mem_colFlag {s : State} {m : BitVec 16} {x : Sched} (hx : x ∈ (s.colFlag m).scheds) (hcol : x.collated = true)
    (hact : x.active = true) : ∃ y ∈ s.scheds, x.raised = y.raised ||| m := by
  obtain ⟨y, hy, rfl⟩ := List.mem_map.mp hx
  refine ⟨y, hy, ?_⟩
  by_cases h : (y.collated && y.active) = true
  · rw [if_pos h, Sched.raised_flag]
  · rw [if_neg h] at hcol hact
    exact absurd (by rw [hcol, hact, Bool.and_self]) h

/-! ## Additions to a counter (R191) -/

section
variable {s : State} {c n ctx : Nat} {unit : Byte} {tag : W32}

/-- A sum that fits in 32 bits is written as it is. -/
theorem State.addCtr_of_lt (h : (s.ctr c).toNat + n < 2 ^ 32) :
    s.addCtr c n ctx unit tag = s.setCtr c (BitVec.ofNat 32 ((s.ctr c).toNat + n)) := if_pos h

theorem State.addCtr_of_overflow (h : 2 ^ 32 ≤ (s.ctr c).toNat + n) :
    s.addCtr c n ctx unit tag = ((s.setCtr c 0xFFFFFFFF#32).nativeE 3 0x0404 ctx unit tag c 0 0).colFlag 8#16 := if_neg (Nat.not_lt.mpr h)

/-- What every counter holds after an addition to one of them. -/
theorem State.ctr_addCtr (hn : 0 < n) (d : Nat) :
    (s.addCtr c n ctx unit tag).ctr d =
      if d = c then (if (s.ctr c).toNat + n < 2 ^ 32 then BitVec.ofNat 32 ((s.ctr c).toNat + n) else 0xFFFFFFFF#32) else s.ctr d := by
  by_cases h : (s.ctr c).toNat + n < 2 ^ 32
  · have hne : BitVec.ofNat 32 ((s.ctr c).toNat + n) ≠ 0 := by
      rw [Ne, ← BitVec.toNat_inj, BitVec.toNat_ofNat, Nat.mod_eq_of_lt h]
      exact Nat.ne_of_gt (Nat.add_pos_right _ hn)
    rw [State.addCtr_of_lt h, State.ctr_setCtr_of_ne_zero s c d hne, if_pos h]
  · rw [State.addCtr_of_overflow (Nat.not_lt.mp h), if_neg h, ← State.ctr_setCtr_of_ne_zero s c d (by decide)]
    exact congrArg (AMap.get zero32 · d) State.addRecAt_counters

end

/-- Settles O30: the sum is written as it is or as the greatest count, and only the latter writes a record and raises a flag. -/
theorem countersSaturate : Obligations.CountersSaturate := by
  unfold Obligations.CountersSaturate
  intro s c n ctx unit tag hn t
  refine ⟨fun hfit => ?fits, fun hover => ?saturated, fun d hd => ?other⟩
  case fits =>
    refine ⟨?_, ?_, ?_⟩
    · rw [State.ctr_addCtr hn, if_pos rfl, if_pos hfit, BitVec.toNat_ofNat, Nat.mod_eq_of_lt hfit]
    · rw [show t = _ from State.addCtr_of_lt hfit, State.setCtr_guard]
    · rw [show t = _ from State.addCtr_of_lt hfit, State.setCtr_scheds]
  case saturated =>
    have ht : t = _ := State.addCtr_of_overflow hover
    refine ⟨?_, ?_, fun x hx hcol hact => ?_⟩
    · rw [State.ctr_addCtr hn, if_pos rfl, if_neg (Nat.not_lt.mpr hover)]
    · rw [ht]
      exact State.mem_log_addRec (s.setCtr c 0xFFFFFFFF#32) 3 3 0x0404 (BitVec.ofNat 8 ctx) false unit (nativeBody tag c 0 0)
    · rw [ht] at hx
      obtain ⟨y, -, hraised⟩ := State.raised_of_mem_colFlag hx hcol hact
      change x.raised.getLsbD 3 = true
      rw [hraised, BitVec.getLsbD_or, show (8#16).getLsbD 3 = true from rfl, Bool.or_true]
  case other => rw [State.ctr_addCtr hn, if_neg hd]

/-! ## The count of a LOOP that does not read memory (R193) -/

/-- An immediate, or a stream register. -/
def Engine.loopCount (eng : Engine) (b : Bytes) : Nat :=
  if fld b 4 1 = 0 then fld b 8 4 else (AMap.get zero32 eng.regs (fld b 5 1 % 16)).toNat

/-- Where the kind is no memory word, a LOOP takes this count. -/
theorem Engine.loopCount_of_unread (eng : Engine) {b : Bytes} (word : Nat) (hkind : fld b 4 1 ≤ 1) :
    (if fld b 4 1 = 0 then fld b 8 4 else if fld b 4 1 = 1 then (AMap.get zero32 eng.regs (fld b 5 1 % 16)).toNat else word) =
      eng.loopCount b := by
  unfold Engine.loopCount
  by_cases hzero : fld b 4 1 = 0
  · rw [if_pos hzero, if_pos hzero]
  · rw [if_neg hzero, if_neg hzero, if_pos (by omega)]

/-! ## The packets of a stream (R187 R188 R193 R194 R198)

Each stands at the front of its stream's queue, on an engine that no injection stops. -/

section
variable {s : State} {e : EngId} {g : Grant} {x : Sched} {b : Bytes} (hrun : s.engines[e].hung = false)
include hrun

/-- A packet without transfers of its own runs in the state as it is. -/
theorem State.packet_of_quiet {op : Nat} (hnext : s.nextPacket e op = some (g, x, b)) (f : State → Grant → Sched → Bytes → Res) :
    s.packet e op [] f = f s g x b := State.packet_of_next hnext hrun [] f

theorem exec_nop (hnext : s.nextPacket e 0 = some (g, x, b)) :
    exec (.nop e) s = .next (s.atOnce e b (s.engines[e].pc + 1) stOk 0) := by
  change execNop e s = _
  rw [execNop, State.packet_of_quiet hrun hnext, ok]

theorem exec_endPkt (hnext : s.nextPacket e 1 = some (g, x, b)) :
    exec (.endPkt e) s = .next (s.atOnce e b (s.engines[e].pc + 1) stOk 0) := by
  change execEndPkt e s = _
  rw [execEndPkt, State.packet_of_quiet hrun hnext, ok]

theorem exec_wait (hnext : s.nextPacket e 2 = some (g, x, b)) :
    exec (.wait e) s = .next (if fld b 8 4 = 0 then s.atOnce e b (s.engines[e].pc + 1) stEmpty (s.ctr (pkCtr b)).toNat
      else s.begin_ e { s.entry e b 0 with waiting := true } (s.engines[e].pc + 1)) := by
  change execWait e s = _
  rw [execWait, State.packet_of_quiet hrun hnext]
  split <;> rfl

/-! ### SIGNAL -/

theorem exec_signal_of_zero (hnext : s.nextPacket e 3 = some (g, x, b)) (hinc : fld b 8 4 = 0) :
    exec (.signal e) s = .next (s.atOnce e b (s.engines[e].pc + 1) stEmpty 0) := by
  change execSignal e s = _
  rw [execSignal, State.packet_of_quiet hrun hnext]
  exact if_pos hinc

theorem exec_signal_of_own (hnext : s.nextPacket e 3 = some (g, x, b)) (hinc : fld b 8 4 ≠ 0) (hown : fld b 6 1 = 0xFF) :
    let t := s.addCtr (pkCtr b) (fld b 8 4) g.ctx (s.unitByte e) (pkTag b)
    exec (.signal e) s = .next ((t.traceCmd e (t.entry e b 0) 4 0 (ctrData (ctrField (pkCtr b)) (fld b 8 4))).atOnce e b
      (s.engines[e].pc + 1) stOk 0) := by
  change execSignal e s = _
  rw [execSignal, State.packet_of_quiet hrun hnext]
  simp only [if_neg hinc, if_pos hown, ok]

/-- The token that a SIGNAL of a peer's counter sends (R190). -/
def tokenOf (p : PeerE) (res : W64) (b : Bytes) : TokenMsg :=
  { resId := res, ctx := p.rctx, folio := pkCtr b / 512, index := pkCtr b % 512, inc := BitVec.ofNat 32 (fld b 8 4), tag := pkTag b }

/-- A SIGNAL to a peer whose route carries traffic waits for the acknowledgement of its token. -/
theorem exec_signal_of_remote {p : PeerE} {res : W64} {h : Hop} {port : Port} (hnext : s.nextPacket e 3 = some (g, x, b))
    (hinc : fld b 8 4 ≠ 0) (hpeer : fld b 6 1 ≠ 0xFF) (hlive : x.alone g.phase = false) (hp : x.image.peers[fld b 6 1]? = some p)
    (hroute : (s.countIssue e x).routeOf x p.resv = some (res, h)) (hup : (s.countIssue e x).routeUp h = true)
    (hport : portId h.outPort = some port) :
    let t := s.entry e b 0
    let u := (((s.countIssue e x).begin_ e { t with waiting := true } (s.engines[e].pc + 1)).emit (.token port (tokenOf p res b))).traceCmd e t 4 0
      (ctrData (ctrField (pkCtr b)) (fld b 8 4))
    exec (.signal e) s = .next { u with
      sent := u.sent ++ [{ copy := 0, eng := some e, pos := t.pos, resId := res, port := port, parts := 0, token := true, down := false }] } := by
  change execSignal e s = _
  rw [execSignal, State.packet_of_quiet hrun hnext]
  simp only [if_neg hinc, if_neg hpeer, hlive, hp, hroute, hup, hport, Bool.not_true, Bool.false_eq_true, if_false, ok]
  rfl

/-! ### LOOP, ENDLOOP and SETREG -/

section
variable {u : State} {ev : List MemEvent} (hu : s.memEvents ev (pkTag b) (s.unitByte e) = u) (hnext : s.nextPacket e 4 = some (g, x, b))
  (hkind : fld b 4 1 ≤ 1) (hbound : u.engines[e].loopCount b ≤ fld b 0xC 4)
include hu hnext hkind hbound

/-- A LOOP whose count is within its bound opens a frame, from the packet after it. -/
theorem exec_loop_of_pos (hpos : u.engines[e].loopCount b ≠ 0) :
    let t := u.atOnce e b (u.engines[e].pc + 1) stOk (u.engines[e].loopCount b)
    exec (.loop e ev) s = .next (t.setEng e { t.engines[e] with
      loops := t.engines[e].loops ++ [{ idx := 0, cnt := u.engines[e].loopCount b, top := u.engines[e].pc + 1 }] }) := by
  have hword : fld b 4 1 ≠ 2 := by omega
  change execLoop e s ev = _
  rw [execLoop, State.packet_of_next hnext hrun, hu]
  simp only [hword, decide_false, Bool.false_and, Bool.false_eq_true, if_false, Engine.loopCount_of_unread _ _ hkind, Nat.not_lt.mpr hbound,
    if_neg hpos, ok]

/-- A LOOP of count 0 goes past its ENDLOOP. -/
theorem exec_loop_of_zero {p : ProgE} (hzero : u.engines[e].loopCount b = 0) (hprog : x.prog g = some p) :
    exec (.loop e ev) s =
      .next (u.atOnce e b (u.afterLoop p.addr (p.packets - u.engines[e].pc) (u.engines[e].pc + 1) 0) stEmpty 0) := by
  have hword : fld b 4 1 ≠ 2 := by omega
  change execLoop e s ev = _
  rw [execLoop, State.packet_of_next hnext hrun, hu]
  simp only [hword, decide_false, Bool.false_and, Bool.false_eq_true, if_false, Engine.loopCount_of_unread _ _ hkind, Nat.not_lt.mpr hbound,
    if_pos hzero, hprog, ok]

end

theorem exec_endloop_of_frame {l : LoopF} (hnext : s.nextPacket e 5 = some (g, x, b)) (hl : s.engines[e].loops.getLast? = some l) :
    let again := decide (l.idx + 1 < l.cnt)
    let t := s.atOnce e b (if again then l.top else s.engines[e].pc + 1) stOk 0
    exec (.endloop e) s = .next (t.setEng e { t.engines[e] with
      loops := s.engines[e].loops.dropLast ++ (if again then [{ l with idx := l.idx + 1 }] else []) }) := by
  change execEndloop e s = _
  rw [execEndloop, State.packet_of_quiet hrun hnext]
  simp only [hl, ok]

theorem exec_setreg (hnext : s.nextPacket e 6 = some (g, x, b)) :
    let t := s.atOnce e b (s.engines[e].pc + 1) stOk 0
    exec (.setreg e) s = .next (t.setEng e { t.engines[e] with
      regs := AMap.set zero32 t.engines[e].regs (fld b 4 1 % 16) (BitVec.ofNat 32 (fld b 8 4)) }) := by
  change execSetreg e s = _
  rw [execSetreg, State.packet_of_quiet hrun hnext]
  rfl

end

/-! ## The end of a WAIT and of a remote SIGNAL (R187 R190) -/

/-- A WAIT ends with the value that it saw as its watermark, and takes its threshold away where CONSUME is set. -/
theorem exec_waitSatisfied_of_reached {s : State} {e : EngId} {t : Entry}
    (ht : s.engines[e].entries.find? (fun t => pkOp t.packet = 2 && t.waiting) = some t)
    (hreached : fld t.packet 8 4 ≤ (s.ctr (pkCtr t.packet)).toNat) (hlive : s.enginesLive = true) :
    let v := (s.ctr (pkCtr t.packet)).toNat
    let u := if bit (fld t.packet 6 1) 0 then s.setCtr (pkCtr t.packet) (BitVec.ofNat 32 (v - fld t.packet 8 4)) else s
    let w := u.setEng e { u.engines[e] with entries := u.engines[e].entries.map fun y => if y.pos = t.pos then { y with watermark := v } else y }
    exec (.waitSatisfied e) s = .next ((w.traceCmd e t 3 0 (ctrData (ctrField (pkCtr t.packet)) v)).endEntry e t.pos stOk) := by
  change execWaitSatisfied e s = _
  simp only [execWaitSatisfied, ht, Nat.not_lt.mpr hreached, hlive, decide_false, Bool.not_true, Bool.or_false, Bool.false_eq_true, if_false, ok]

section
variable {s : State} {e : EngId} {y : Sent} (hy : s.sent.find? (fun y => y.eng = some e && y.token) = some y)
include hy

theorem exec_remoteSignalAck_of_accepted :
    exec (.remoteSignalAck e true) s = .next (({ s with sent := s.sent.filter fun z => z ≠ y }).endEntry e y.pos stOk) := by
  change execRemoteSignalAck e true s = _
  simp only [execRemoteSignalAck, hy, if_true, ok]

theorem exec_remoteSignalAck_of_refused :
    let u := s.setEng e { s.engines[e] with entries := s.engines[e].entries.map fun t => if t.pos = y.pos then { t with detail := y.port.val } else t }
    exec (.remoteSignalAck e false) s = .next (({ u with sent := u.sent.filter fun z => z ≠ y }).endEntry e y.pos stHardware) := by
  change execRemoteSignalAck e false s = _
  simp only [execRemoteSignalAck, hy, Bool.false_eq_true, if_false, ok]

end

/-- Settles O24: a lemma of the packet, of the wait or of the acknowledgement for each clause. -/
theorem streamPacketsAct : Obligations.StreamPacketsAct := by
  unfold Obligations.StreamPacketsAct
  refine ⟨?packets, ?waitEnds, ?ackEnds⟩
  case packets =>
    intro s e g x b hrun pc
    refine ⟨exec_nop hrun, exec_endPkt hrun, ?waitZero, ?wait, exec_signal_of_zero hrun, exec_signal_of_own hrun, ?remote, ?loop, ?endloop,
      exec_setreg hrun⟩
    case waitZero =>
      intro hnext hzero
      rw [exec_wait hrun hnext, if_pos hzero]
    case wait =>
      intro hnext hne
      rw [exec_wait hrun hnext, if_neg hne]
    case remote =>
      intro p res h port hnext hinc hpeer hlive hp hroute hup hport
      exact exec_signal_of_remote hrun hnext hinc hpeer hlive hp hroute hup hport
    case loop =>
      intro ev hnext u n t hkind hbound
      exact ⟨exec_loop_of_pos hrun rfl hnext hkind hbound, fun p => exec_loop_of_zero hrun rfl hnext hkind hbound⟩
    case endloop =>
      intro l hnext hl
      exact exec_endloop_of_frame hrun hnext hl
  case waitEnds =>
    intro s e t ht hreached hlive
    exact exec_waitSatisfied_of_reached ht hreached hlive
  case ackEnds =>
    intro s e y hy
    exact ⟨exec_remoteSignalAck_of_accepted hy, exec_remoteSignalAck_of_refused hy⟩

/-! ## Completion (R182) -/

/-- A command without work runs no unit. -/
theorem State.runUnits_of_idle {s : State} {e : EngId} {pos : Nat} (hidle : ∀ y ∈ s.engines[e].entries, y.pos = pos → y.work = false)
    (unit : State → EngId → Sched → Entry → State) (n : Nat) : s.runUnits unit n e pos = s := by
  have hnone : (s.engines[e].entries.find? fun t => t.pos = pos && t.work) = none := by
    simpa using hidle
  cases n with
  | zero => rfl
  | succ n => simp only [State.runUnits, hnone]

/-- The work of a command that is no UPDATE is its units. -/
theorem State.runAll_of_idle {s : State} {e : EngId} {t : Entry} (hidle : ∀ y ∈ s.engines[e].entries, y.pos = t.pos → y.work = false)
    (hop : pkOp t.packet ≠ 0x80) : s.runAll e t = s := by
  simp only [State.runAll, State.runUnits_of_idle hidle, if_neg hop, ite_self]

theorem State.entryAt_pos {s : State} {e : EngId} {pos : Nat} {t : Entry} (h : s.entryAt e pos = some t) : t.pos = pos := by
  have hfound := List.find?_some h
  simp only [Bool.and_eq_true, decide_eq_true_eq] at hfound
  obtain ⟨⟨hpos, -⟩, -⟩ := hfound
  exact hpos

/-- A command that an engine at work has not been told to stop does the work it has left, and completes with its status. -/
theorem exec_engineCommandComplete_of_ended {s v : State} {e : EngId} {pos st : Nat} {ev : List MemEvent} {t u : Entry}
    (ht : s.entryAt e pos = some t) (hlive : s.enginesLive = true) (hstop : t.stopAt = none) (hwedged : s.engines[e].wedged = false)
    (hv : (s.memEvents ev (pkTag t.packet) (s.unitByte e)).runAll e t = v) (hu : v.entryAt e pos = some u) (hst : v.endedWith e u = some st) :
    exec (.engineCommandComplete e pos ev) s = .next ((v.closeWork e u).endEntry e pos st) := by
  change execEngineCommandComplete e pos s ev = _
  simp only [execEngineCommandComplete, ht, hlive, hstop, hwedged, hv, hu, hst, Bool.not_true, Option.isSome_none, Bool.or_false,
    Bool.false_eq_true, if_false, ok]

/-! ## Stops (R199, 15_faults R453) -/

/-- The commands of an engine that have reached their limits are sent a stop. -/
theorem exec_commandTimeout (s : State) (e : EngId) :
    exec (.commandTimeout e) s = .next (s.sendStop e stTimeout fun t => decide (t.limit ≤ s.now)) := rfl

theorem exec_stopAcknowledge_of_stopped {s : State} {e : EngId} (hstop : s.engines[e].stopAt.isSome = true)
    (hack : s.engines[e].noAck = false) (hwedged : s.engines[e].wedged = false) :
    exec (.stopAcknowledge e) s = .next (((s.engines[e].entries.filter fun t => t.stopAt.isSome && !t.ready).foldl
      (fun s t => (s.dropLoad e t).closeEntry e t.pos stTimeout) (s.setEng e { s.engines[e] with stopAt := none })).flush e) := by
  have hasked : s.engines[e].stopAt.isNone = false := by rw [Option.isNone_eq_false_iff, hstop]
  change execStopAcknowledge e s = _
  simp only [execStopAcknowledge, hasked, hack, hwedged, Bool.or_false, Bool.false_eq_true, if_false, ok]

/-- A reset that nothing else asks for is asked for, and nothing else changes (15_faults R446). -/
theorem State.askPartition_of_none {s : State} (h : s.guard.resetReq = none) (cause : Option Nat) (noCount : Bool) :
    s.askPartition cause noCount = { s with guard.resetReq := some (.partition cause noCount) } := by
  rw [State.askPartition, h]
  rfl

/-- The record of a wedged unit (15_faults Table 15-3, code 0x0403): it names the oldest command that was told to stop. -/
def State.wedgeRecord (s : State) (e : EngId) : State :=
  let g := s.engines[e]
  let t := g.entries.find? fun t => t.stopAt.isSome && !t.ready
  s.addRec 4 3 0x0403 (BitVec.ofNat 8 ((g.grant.map Grant.ctx).getD 0xFF)) (s.hangInj e).isSome (s.unitByte e)
    (nativeBody ((t.map fun t => pkTag t.packet).getD 0) e.val 0 ((t.map Entry.pc).getD g.pc))

/-- An engine that has not answered a stop within 10 ms is recorded as wedged, and the compute partition's reset is asked for. -/
theorem exec_unitWedged_of_late {s : State} {e : EngId} {t0 : Nat} (hstop : s.engines[e].stopAt = some t0) (hlate : t0 + 10000000 ≤ s.clock)
    (hwedged : s.engines[e].wedged = false) (hbinder : s.binder.run ≠ .off) :
    let u := s.wedgeRecord e
    exec (.unitWedged e) s = .next ((u.setEng e { u.engines[e] with wedged := true }).askPartition (some s.guard.logNext)
      (((s.hangInj e).map Latent.noesc).getD false)) := by
  change execUnitWedged e s = _
  simp only [execUnitWedged, hstop, Nat.not_lt.mpr hlate, hwedged, hbinder, decide_false, Bool.or_false, Bool.false_eq_true, if_false, ok]
  rfl

/-- Settles O28: a lemma of the completion, of the timeout, of the acknowledgement or of the wedged unit for each clause. -/
theorem engineCommandsEnd : Obligations.EngineCommandsEnd := by
  unfold Obligations.EngineCommandsEnd
  refine ⟨?noWork, ?work, ?timeout, ?acknowledged, ?wedged⟩
  case noWork =>
    intro s e pos st t ht hlive hstop hwedged honly hwork hop hst
    have hidle : ∀ y ∈ s.engines[e].entries, y.pos = t.pos → y.work = false := by
      intro y hy hpos
      rw [honly y hy (hpos.trans (State.entryAt_pos ht)), hwork]
    exact exec_engineCommandComplete_of_ended ht hlive hstop hwedged (State.runAll_of_idle hidle hop) ht hst
  case work =>
    intro s e pos st ev t u ht hlive hstop hwedged v hu hst
    exact exec_engineCommandComplete_of_ended ht hlive hstop hwedged rfl hu hst
  case timeout =>
    intro s e hit u
    exact exec_commandTimeout s e
  case acknowledged =>
    intro s e hstop hack hwedged
    exact exec_stopAcknowledge_of_stopped hstop hack hwedged
  case wedged =>
    intro s e t0 hstop hlate hwedged hbinder hnone
    refine ⟨_, exec_unitWedged_of_late hstop hlate hwedged hbinder, ?_⟩
    have hreq (x : Engine) : ((s.wedgeRecord e).setEng e x).guard.resetReq = none := by
      rw [State.setEng_guard, State.wedgeRecord, State.addRec, State.addRecAt_resetReq, hnone]
    rw [State.askPartition_of_none (hreq _)]
    exact ⟨congrArg Engine.wedged (State.setEng_same _ e _), rfl, State.addRec_logNext s ..⟩

end Sys2Proof.Machine
end

/-! # Poison marks, fences and the commands on the stores

What a write of one sheet leaves of the marks and of the fence record (07_movement R221, 09_memory R274), and what MEM_MAP, MEM_UNMAP,
MEM_HOST_COPY and TRC_START do once their checks pass (07_movement R223 R224, 09_memory R278 R279 R538, 15_faults R472; log entries 29 to 33, 75
and 162); the statements of the family 07_movement. -/

section
namespace Sys2Proof.Machine

/-! ## A write of one sheet: its mark and the fence record -/

/-- The page that a checkpoint holds back is copied from memory, and memory stays. -/
@[simp] theorem State.holdPage_mem (s : State) (a : Nat) : (s.holdPage a).mem = s.mem := by
  rw [State.holdPage]
  split <;> rfl

theorem State.writeSheet_of_fenced {s : State} {a : Nat} (h : s.fenced (a / 1024) = true) (d : Bytes) (p : Bool) :
    s.writeSheet a d p = { s with mem.fence := AMap.set noMark s.mem.fence (a / 1024) true } :=
  if_pos h

/-- What a write does to the marks, of which it changes at most its own sheet's (R221). -/
def writtenMarks (m : AMap Bool) (sheet len : Nat) (poison : Bool) : AMap Bool :=
  if poison then AMap.set noMark m sheet true else if len = 1024 then AMap.set noMark m sheet false else m

theorem State.writeSheet_poison {s : State} {a : Nat} (h : s.fenced (a / 1024) = false) (d : Bytes) (p : Bool) :
    (s.writeSheet a d p).mem.poison = writtenMarks s.mem.poison (a / 1024) d.length p := by
  rw [State.writeSheet, if_neg (by simp [h]), writtenMarks, ← State.holdPage_mem s a]
  split
  · rfl
  · split <;> rfl

/-- A write fences no channel and admits none. -/
theorem State.writeSheet_chans (s : State) (a : Nat) (d : Bytes) (p : Bool) : (s.writeSheet a d p).mem.chans = s.mem.chans := by
  rw [State.writeSheet]
  split
  · rfl
  · rw [← State.holdPage_mem s a]
    split
    · rfl
    · split <;> rfl

/-- Which sheets are fenced is read off the channels alone. -/
theorem State.fenced_congr {s t : State} (h : t.mem.chans = s.mem.chans) (sheet : Nat) : t.fenced sheet = s.fenced sheet := by
  rw [State.fenced, State.fenced, State.chan, State.chan, h]

/-- The mark of a sheet after a write: poisoned data sets it, a whole sheet of other data clears it, and every other mark stays. -/
theorem get_writtenMarks {m : AMap Bool} (h : AMap.wf noMark m = true) (sheet len k : Nat) (p : Bool) :
    AMap.get noMark (writtenMarks m sheet len p) k =
      if k = sheet then p || (decide (len ≠ 1024) && AMap.get noMark m k) else AMap.get noMark m k := by
  cases p with
  | true => simp [writtenMarks, AMap.get_set h]
  | false => by_cases hlen : len = 1024 <;> simp [writtenMarks, AMap.get_set h, hlen]

/-- How a sheet reads after a write to an unfenced one. -/
theorem State.writeSheet_poisoned {s : State} {a : Nat} (hwf : s.mem.wf = true) (h : s.fenced (a / 1024) = false) (d : Bytes) (p : Bool)
    (sheet : Nat) : (s.writeSheet a d p).poisoned sheet =
      if sheet = a / 1024 then p || (decide (d.length ≠ 1024) && s.poisoned sheet) else s.poisoned sheet := by
  obtain ⟨-, hmarks, -⟩ := (Mem.wf_iff s.mem).1 hwf
  rw [State.poisoned, State.poisoned, State.fenced_congr (s.writeSheet_chans a d p), State.writeSheet_poison h, get_writtenMarks hmarks]
  by_cases hs : sheet = a / 1024
  · rw [if_pos hs, if_pos hs, hs, h, Bool.false_or, Bool.false_or]
  · rw [if_neg hs, if_neg hs]

/-- A mark that is set reads so, in any map. -/
theorem get_set_mark (m : AMap Bool) (k : Nat) : AMap.get noMark (AMap.set noMark m k true) k = true := by
  rw [AMap.set, if_neg (by simp [noMark]), AMap.get_put, if_pos rfl]

/-- Settles O56: the marks after a write to an unfenced sheet, and the reads and the record of a fenced one. -/
theorem marksFollowTheirSheets : Obligations.MarksFollowTheirSheets := by
  unfold Obligations.MarksFollowTheirSheets
  constructor
  · intro s a d hwf hopen
    refine ⟨?poisoned, ?unpoisoned, fun p sheet hne => ?other⟩
    case poisoned => rw [State.writeSheet_poisoned hwf hopen, if_pos rfl, Bool.true_or]
    case unpoisoned =>
      rw [State.writeSheet_poisoned hwf hopen, if_pos rfl, Bool.false_or]
      by_cases hlen : d.length = 1024 <;> simp [hlen]
    case other => rw [State.writeSheet_poisoned hwf hopen, if_neg hne]
  · intro s a hfenced
    refine ⟨if_pos hfenced, by rw [State.poisoned, hfenced, Bool.true_or], fun d p => ?_⟩
    rw [State.writeSheet_of_fenced hfenced]
    exact ⟨rfl, get_set_mark s.mem.fence (a / 1024)⟩

/-! ## Regions that are granted and removed -/

/-- A request that passes the tests of log entry 30 and finds a base maps it. -/
theorem State.memMap_of_granted {s t : State} {c base : Nat} {b : Bytes} (hstore : fld b 0 1 ≤ 5) (hlo : 10 ≤ fld b 1 1) (hhi : fld b 1 1 ≤ 40)
    (halign : fld b 8 8 % 1024 = 0) (hsize : fld b 8 8 ≠ 0) (hquota : s.overQuota c (fld b 0 1) (fld b 8 8) = false)
    (hcount : (s.mem.regions.filter fun r => r.ctx = c).length < 4096)
    (hbase : s.grantBase (fld b 0 1) (fld b 8 8) (2 ^ fld b 1 1) = (some base, t)) (n : SlotId) :
    s.memMap n c b = (t.mapRegion c (fld b 0 1) base (fld b 8 8)).complete n stOk 0 (le 8 base ++ le 4 t.mem.nextRegion ++ le 4 0) := by
  have hformed : (decide (5 < fld b 0 1) || decide (fld b 1 1 < 10) || decide (40 < fld b 1 1) || decide (fld b 8 8 % 1024 ≠ 0)) = false := by
    simp [hstore, hlo, hhi, halign]
  rw [State.memMap]
  simp only [hformed, if_neg hsize, hquota, if_neg (Nat.not_le.2 hcount), hbase, Bool.false_eq_true, if_false]

/-- A region of the poster's that no schedule references and that holds no protected page is unmapped. -/
theorem State.memUnmap_of_unused {s : State} {c id : Nat} {r : Region} (hfind : s.mem.regions.find? (fun r => r.id = id) = some r)
    (hctx : c = 0 ∨ r.ctx = c) (href : s.referenced r = false) (hprot : s.protectedIn r.base r.size = false) (n : SlotId) :
    s.memUnmap n c id = (s.unmap r).complete n stOk 0 [] := by
  have hown : (decide (c ≠ 0) && decide (r.ctx ≠ c)) = false := by
    rcases hctx with h | h <;> simp [h]
  rw [State.memUnmap]
  simp only [hfind, hown, href, hprot, Bool.or_false, Bool.false_eq_true, if_false]

/-! ## Host copies -/

section
variable (s : State) (n : SlotId) (b host : Bytes) (tlp : List Nat) (failed : W64)

/-- Device to host, the complete parts go out and no counter moves (log entry 32). -/
theorem State.hostCopy_out (hdir : fld b 0 1 = 1) :
    let len := fld b 0x18 8
    let good := (hostParts len).filter fun p => !bit failed.toNat p.1
    s.hostCopy n b host tlp failed = (good.foldl (fun s p => s.hostOut (fld b 8 8) (fld b 0x10 8) p) s).complete n
      (Machine.copyStatus good.length (hostParts len).length (s.rangePoisoned (fld b 0x10 8) len)) 0
      (le 8 (good.foldl (fun m p => m + 2 ^ p.1) 0) ++ le 8 (partSize len)) := by
  simp only [State.hostCopy, hdir, if_true, decide_true, Bool.not_true, Bool.false_and, Bool.false_eq_true, if_false]

/-- Host to device, a copy with a complete part counts, and the failed parts leave undefined bytes and marks (R219 R224, log entries 32 and 33). -/
theorem State.hostCopy_in (hdir : fld b 0 1 = 0) :
    let ctr := fld b 2 2
    let dev := fld b 0x10 8
    let len := fld b 0x18 8
    let data := host.take len ++ List.replicate (len - host.length) 0
    let good := (hostParts len).filter fun p => !bit failed.toNat p.1
    let u := ((hostParts len).filter fun p => bit failed.toNat p.1).foldl (fun s p => s.spoil (dev + p.2.1) p.2.2)
      (good.foldl (fun s p => s.hostIn dev data tlp p) s)
    s.hostCopy n b host tlp failed =
      (if bit ctr 15 = true ∧ good ≠ [] then u.addCtr (512 * bits ctr 9 4 + bits ctr 0 9) 1 u.slots[n].ctxNo 0xFF u.slots[n].hdr.tag
        else u).complete n (Machine.copyStatus good.length (hostParts len).length (tlp.any fun o => decide (o < len))) 0
        (le 8 (good.foldl (fun m p => m + 2 ^ p.1) 0) ++ le 8 (partSize len)) := by
  simp only [State.hostCopy, hdir, Nat.zero_ne_one, if_false, decide_false, Bool.not_false, Bool.true_and, Bool.and_eq_true, decide_eq_true_eq]

end

/-- The checks of MEM_HOST_COPY pass, and its transfers meet what they meet in memory. -/
theorem serves_memHostCopy {s t : State} {n : SlotId} {b host : Bytes} {c : Nat} {tlp : List Nat} {failed : W64} {ev : List MemEvent}
    (hb : s.slots[n].req = b) (hc : s.slots[n].ctxNo = c) (hruns : s.runs n 0x0503 = true) (hmem : s.mem.selfRefresh = false)
    (hdir : fld b 0 1 ≤ 1) (hlen : fld b 0x18 8 ≤ 2 ^ 40) (hne : fld b 0x18 8 ≠ 0)
    (hmap : (if c = 0 then (sheetRange (fld b 0x10 8) (fld b 0x18 8)).all fun sh => (s.regionOf (sh * 1024) 1024).isSome
      else s.mappedTo c (fld b 0x10 8) (fld b 0x18 8)) = true)
    (hsealed : fld b 0 1 = 0 → s.sealed (fld b 0x10 8) (fld b 0x18 8) = false)
    (hctr : fld b 0 1 = 0 → bit (fld b 2 2) 15 = true → s.ownsCtr c (512 * bits (fld b 2 2) 9 4 + bits (fld b 2 2) 0 9) = true)
    (ht : (s.memEvents ev s.slots[n].hdr.tag 0xFF).hostCopy n b host tlp failed = t) :
    Serves s (.memHostCopy n host tlp failed ev) n t := by
  refine .of_runsMem (e := execMemHostCopy n host tlp failed s ev) rfl rfl hmem hruns ?_
  have hunsealed : (decide (fld b 0 1 = 0) && s.sealed (fld b 0x10 8) (fld b 0x18 8)) = false := by
    simpa using hsealed
  have hcounts : (decide (fld b 0 1 = 0) && bit (fld b 2 2) 15 &&
      !s.ownsCtr c (512 * bits (fld b 2 2) 9 4 + bits (fld b 2 2) 0 9)) = false := by
    simpa using hctr
  simp only [hb, hc, not_decide_or (Nat.not_lt.2 hdir) (Nat.not_lt.2 hlen), if_neg hne, hmap, hunsealed, hcounts, Bool.not_true,
    Bool.false_eq_true, if_false, ht]

/-! ## Trace buffers -/

/-- A request that passes its checks and finds a base maps the buffer and starts capture. -/
theorem serves_trcStart {s t : State} {n : SlotId} {b : Bytes} {c base : Nat} (hb : s.slots[n].req = b) (hc : s.slots[n].ctxNo = c)
    (hruns : s.runs n 0x0B01 = true) (hne : fld b 0x10 8 ≠ 0) (halign : fld b 0x10 8 % 0x100000 = 0) (hsize : fld b 0x10 8 ≤ 0x100000000)
    (hmode : fld b 0x18 1 ≤ 1) (hcount : s.traces.length < 8) (hquota : s.overQuota c 0 (fld b 0x10 8) = false)
    (hbase : s.grantBase 0 (fld b 0x10 8) 1024 = (some base, t)) :
    let u := (t.mapRegion c 0 base (fld b 0x10 8)).undefine base (fld b 0x10 8)
    let z : Trace :=
      { id := t.nextTrace, ctx := c, mask := BitVec.ofNat 64 (fld b 0 8), tagValue := BitVec.ofNat 32 (fld b 8 4)
        tagMask := BitVec.ofNat 32 (fld b 0xC 4), size := fld b 0x10 8, overwrite := decide (fld b 0x18 1 = 1), region := some t.mem.nextRegion
        capturing := true, first := 0, recs := [], dropped := 0 }
    Serves s (.trcStart n) n
      (({ u with traces := u.traces ++ [z], nextTrace := t.nextTrace + 1 }).complete n stOk 0 (le 4 t.nextTrace ++ le 4 0)) := by
  refine .of_runs (e := execTrcStart n s) rfl rfl hruns ?_
  have hformed : (decide (fld b 0x10 8 = 0) || decide (fld b 0x10 8 % 0x100000 ≠ 0) || decide (0x100000000 < fld b 0x10 8) ||
      decide (1 < fld b 0x18 1)) = false := by
    simp [hne, halign, hsize, hmode]
  simp only [hb, hc, hformed, if_neg (Nat.not_le.2 hcount), hquota, hbase, Bool.false_eq_true, if_false]

/-- Settles O20: each command passes its checks in the order of its function, and what remains is the next state. -/
theorem memoryCommandsAct : Obligations.MemoryCommandsAct := by
  unfold Obligations.MemoryCommandsAct
  intro s n
  refine ⟨?map, ?unmap, ?copy, ?trace⟩
  case map =>
    intro base t hruns hstore hlo hhi halign hsize hquota hcount hbase
    exact .of_runs (e := execMemMap n s) rfl rfl hruns (State.memMap_of_granted hstore hlo hhi halign hsize hquota hcount hbase n)
  case unmap =>
    intro r hruns hfind hctx href hprot
    exact .of_runs (e := execMemUnmap n s) rfl rfl hruns (State.memUnmap_of_unused hfind hctx href hprot n)
  case copy =>
    intro host tlp failed ev hruns hmem hdir hlen hne hmap
    refine ⟨fun hout => ?out, fun hin hsealed hctr => ?into⟩
    case out =>
      have hnotIn : fld s.slots[n].req 0 1 ≠ 0 := by rw [hout]; exact Nat.one_ne_zero
      exact serves_memHostCopy rfl rfl hruns hmem hdir hlen hne hmap (absurd · hnotIn) (absurd · hnotIn)
        (State.hostCopy_out _ n _ host tlp failed hout)
    case into =>
      exact serves_memHostCopy rfl rfl hruns hmem hdir hlen hne hmap (fun _ => hsealed) (fun _ => hctr)
        (State.hostCopy_in _ n _ host tlp failed hin)
  case trace =>
    intro base t hruns hne halign hsize hmode hcount hquota hbase
    exact serves_trcStart rfl rfl hruns hne halign hsize hmode hcount hquota hbase

end Sys2Proof.Machine
end

/-! # What every step keeps

Each meaning keeps the queue, the form of the stores and the bounds of the log (Kept); here stand the same of a command, whichever it is, and of
a step, and the statement on the form of the stores (09_memory R254). -/

section
namespace Sys2Proof.Machine

/-- A command keeps what its own meaning keeps. -/
theorem exec_kept {a s : State} (h : Kept a s) : ∀ c : Instr, KeptR a (exec c s)
  | .slotPost .. => execSlotPost_kept h
  | .slotWithdraw .. => execSlotWithdraw_kept h
  | .slotRelease .. => execSlotRelease_kept h
  | .slotWrite .. => execSlotWrite_kept h
  | .binderTake => execBinderTake_kept h
  | .longCommandTimeout .. => execLongCommandTimeout_kept h
  | .registerWrite .. => execRegisterWrite_kept h
  | .guardRegisterWrite .. => execGuardRegisterWrite_kept h
  | .absentApertureAccess .. => execAbsentApertureAccess_kept h
  | .hostRelay .. => execHostRelay_kept h
  | .sysInfo .. => execSysInfo_kept h
  | .sysReady .. => execSysReady_kept h
  | .sysNop .. => execSysNop_kept h
  | .ctxOpen .. => execCtxOpen_kept h
  | .ctxClose .. => execCtxClose_kept h
  | .ctxReset .. => execCtxReset_kept h
  | .ctxTimeout .. => execCtxTimeout_kept h
  | .ctxStatus .. => execCtxStatus_kept h
  | .cfgPress .. => execCfgPress_kept h
  | .cfgCheck .. => execCfgCheck_kept h
  | .cfgRevert .. => execCfgRevert_kept h
  | .schLoad .. => execSchLoad_kept h
  | .schAdmit .. => execSchAdmit_kept h
  | .schArm .. => execSchArm_kept h
  | .armExchangeReceive .. => execArmExchangeReceive_kept h
  | .schCancel .. => execSchCancel_kept h
  | .schCancelAtBarrier .. => execSchCancelAtBarrier_kept h
  | .schStatus .. => execSchStatus_kept h
  | .schSlips .. => execSchSlips_kept h
  | .memMap .. => execMemMap_kept h
  | .memUnmap .. => execMemUnmap_kept h
  | .memHostCopy .. => execMemHostCopy_kept h
  | .memPoisonScan .. => execMemPoisonScan_kept h
  | .lnkPress .. => execLnkPress_kept h
  | .lnkStatus .. => execLnkStatus_kept h
  | .lnkReserveInstall .. => execLnkReserveInstall_kept h
  | .lnkReserveRelease .. => execLnkReserveRelease_kept h
  | .lnkQualify .. => execLnkQualify_kept h
  | .lnkQuarantine .. => execLnkQuarantine_kept h
  | .lnkQuarantineRelease .. => execLnkQuarantineRelease_kept h
  | .timStatus .. => execTimStatus_kept h
  | .colStatus .. => execColStatus_kept h
  | .colReplay .. => execColReplay_kept h
  | .diagnosticReplay .. => execDiagnosticReplay_kept h
  | .colKat .. => execColKat_kept h
  | .colAdmitDeviceLoad .. => execColAdmitDeviceLoad_kept h
  | .colAdmitDeviceShadow .. => execColAdmitDeviceShadow_kept h
  | .colPeerLoad .. => execColPeerLoad_kept h
  | .startShadowFeed .. => execStartShadowFeed_kept h
  | .endShadowFeed .. => execEndShadowFeed_kept h
  | .shadowFeedReceive .. => execShadowFeedReceive_kept h
  | .shadowStep .. => execShadowStep_kept h
  | .shadowFeedStall .. => execShadowFeedStall_kept h
  | .ckpBegin .. => execCkpBegin_kept h
  | .ckpStatus .. => execCkpStatus_kept h
  | .ckpLoad .. => execCkpLoad_kept h
  | .ckpAbort .. => execCkpAbort_kept h
  | .ckpPeerBegin .. => execCkpPeerBegin_kept h
  | .ckpPeerPieceDone .. => execCkpPeerPieceDone_kept h
  | .ckpPeerHashList .. => execCkpPeerHashList_kept h
  | .ckpPeerRecord .. => execCkpPeerRecord_kept h
  | .ckpPeerFetch .. => execCkpPeerFetch_kept h
  | .ckpPeerAbort .. => execCkpPeerAbort_kept h
  | .numScalesRead .. => execNumScalesRead_kept h
  | .numScalesWrite .. => execNumScalesWrite_kept h
  | .numMonitor .. => execNumMonitor_kept h
  | .trcStart .. => execTrcStart_kept h
  | .trcRead .. => execTrcRead_kept h
  | .fltInject .. => execFltInject_kept h
  | .fltRecords .. => execFltRecords_kept h
  | .injectionFire .. => execInjectionFire_kept h
  | .nop .. => execNop_kept h
  | .endPkt .. => execEndPkt_kept h
  | .wait .. => execWait_kept h
  | .waitSatisfied .. => execWaitSatisfied_kept h
  | .signal .. => execSignal_kept h
  | .remoteSignalAck .. => execRemoteSignalAck_kept h
  | .tokenMessageReceive .. => execTokenMessageReceive_kept h
  | .loop .. => execLoop_kept h
  | .endloop .. => execEndloop_kept h
  | .setreg .. => execSetreg_kept h
  | .leafLoad .. => execLeafLoad_kept h
  | .streamRows .. => execStreamRows_kept h
  | .add .. => execAdd_kept h
  | .sub .. => execSub_kept h
  | .mul .. => execMul_kept h
  | .fma .. => execFma_kept h
  | .max .. => execMax_kept h
  | .min .. => execMin_kept h
  | .abs .. => execAbs_kept h
  | .neg .. => execNeg_kept h
  | .cvt .. => execCvt_kept h
  | .scale .. => execScale_kept h
  | .select .. => execSelect_kept h
  | .cmp .. => execCmp_kept h
  | .exp .. => execExp_kept h
  | .log .. => execLog_kept h
  | .sqrt .. => execSqrt_kept h
  | .rsqrt .. => execRsqrt_kept h
  | .recip .. => execRecip_kept h
  | .div .. => execDiv_kept h
  | .tanh .. => execTanh_kept h
  | .sigmoid .. => execSigmoid_kept h
  | .erf .. => execErf_kept h
  | .gelu .. => execGelu_kept h
  | .silu .. => execSilu_kept h
  | .rsum .. => execRsum_kept h
  | .rsumsq .. => execRsumsq_kept h
  | .rmax .. => execRmax_kept h
  | .rmin .. => execRmin_kept h
  | .ramax .. => execRamax_kept h
  | .rdot .. => execRdot_kept h
  | .softmax .. => execSoftmax_kept h
  | .softmaxBwd .. => execSoftmaxBwd_kept h
  | .lnorm .. => execLnorm_kept h
  | .rmsnorm .. => execRmsnorm_kept h
  | .lnormBwd .. => execLnormBwd_kept h
  | .rmsnormBwd .. => execRmsnormBwd_kept h
  | .csum .. => execCsum_kept h
  | .rfold .. => execRfold_kept h
  | .copy .. => execCopy_kept h
  | .copyList .. => execCopyList_kept h
  | .tip .. => execTip_kept h
  | .update .. => execUpdate_kept h
  | .route .. => execRoute_kept h
  | .engineCommandComplete .. => execEngineCommandComplete_kept h
  | .commandTimeout .. => execCommandTimeout_kept h
  | .stopAcknowledge .. => execStopAcknowledge_kept h
  | .unitWedged .. => execUnitWedged_kept h
  | .dataPartReceive .. => execDataPartReceive_kept h
  | .remoteCopyDeclare .. => execRemoteCopyDeclare_kept h
  | .partAcknowledge .. => execPartAcknowledge_kept h
  | .copyAbandon .. => execCopyAbandon_kept h
  | .correctedErrorWarningClear .. => execCorrectedErrorWarningClear_kept h
  | .patrolScrub .. => execPatrolScrub_kept h
  | .stagingScrub .. => execStagingScrub_kept h
  | .regionZeroing => execRegionZeroing_kept h
  | .stackSensorReport .. => execStackSensorReport_kept h
  | .throttleBandRaise => execThrottleBandRaise_kept h
  | .throttleStepDown => execThrottleStepDown_kept h
  | .junctionSensorReport .. => execJunctionSensorReport_kept h
  | .operatingPointReturn => execOperatingPointReturn_kept h
  | .voltageStep => execVoltageStep_kept h
  | .thermalStall => execThermalStall_kept h
  | .coolantDemand .. => execCoolantDemand_kept h
  | .binderAlive => execBinderAlive_kept h
  | .binderWatchdog => execBinderWatchdog_kept h
  | .phaseLaunch .. => execPhaseLaunch_kept h
  | .backgroundWindow .. => execBackgroundWindow_kept h
  | .knownAnswerRun .. => execKnownAnswerRun_kept h
  | .barrierUpSend .. => execBarrierUpSend_kept h
  | .barrierUpReceive .. => execBarrierUpReceive_kept h
  | .barrierDownReceive .. => execBarrierDownReceive_kept h
  | .voteReceive .. => execVoteReceive_kept h
  | .barrierLimitExpiry .. => execBarrierLimitExpiry_kept h
  | .replayStart .. => execReplayStart_kept h
  | .logItemInject .. => execLogItemInject_kept h
  | .syncExchangeStart .. => execSyncExchangeStart_kept h
  | .syncReceive .. => execSyncReceive_kept h
  | .replyReceive .. => execReplyReceive_kept h
  | .holdoverEntry => execHoldoverEntry_kept h
  | .unlockedEntry => execUnlockedEntry_kept h
  | .portBarExpiry .. => execPortBarExpiry_kept h
  | .rootConflictReport => execRootConflictReport_kept h
  | .ppsEdge .. => execPpsEdge_kept h
  | .ppsLoss => execPpsLoss_kept h
  | .trainingRetry .. => execTrainingRetry_kept h
  | .signalDetect .. => execSignalDetect_kept h
  | .peerAdmissionMessage .. => execPeerAdmissionMessage_kept h
  | .qualificationSoakEnd .. => execQualificationSoakEnd_kept h
  | .dataFrameReceive .. => execDataFrameReceive_kept h
  | .frameReplay .. => execFrameReplay_kept h
  | .fastRetrain .. => execFastRetrain_kept h
  | .retrainComplete .. => execRetrainComplete_kept h
  | .lossOfSignal .. => execLossOfSignal_kept h
  | .routeClosed .. => execRouteClosed_kept h
  | .linkWarning .. => execLinkWarning_kept h
  | .linkWarningClear .. => execLinkWarningClear_kept h
  | .vcCreditStall .. => execVcCreditStall_kept h
  | .keyRenewal .. => execKeyRenewal_kept h
  | .peerMailboxPost .. => execPeerMailboxPost_kept h
  | .hostPerstRise .. => execHostPerstRise_kept h
  | .hostPerstFall .. => execHostPerstFall_kept h
  | .hostPortFailover => execHostPortFailover_kept h
  | .fastCopy .. => execFastCopy_kept h
  | .heldWrite => execHeldWrite_kept h
  | .drain .. => execDrain_kept h
  | .ckpLimitExpiry .. => execCkpLimitExpiry_kept h
  | .recordSend => execRecordSend_kept h
  | .recordRepeat => execRecordRepeat_kept h
  | .collectorAck .. => execCollectorAck_kept h
  | .summaryRecord => execSummaryRecord_kept h
  | .sessionTimeout .. => execSessionTimeout_kept h
  | .guardTake => execGuardTake_kept h
  | .logRead .. => execLogRead_kept h
  | .crashDumpRead .. => execCrashDumpRead_kept h
  | .sensorRead .. => execSensorRead_kept h
  | .powerStateChangeNap .. => execPowerStateChangeNap_kept h
  | .powerStateChangeHold .. => execPowerStateChangeHold_kept h
  | .powerStateChangeRun .. => execPowerStateChangeRun_kept h
  | .powerStateEntry => execPowerStateEntry_kept h
  | .powerStateEntryTimeout => execPowerStateEntryTimeout_kept h
  | .wakeAfterExpiry .. => execWakeAfterExpiry_kept h
  | .binderReset .. => execBinderReset_kept h
  | .fullDeviceReset .. => execFullDeviceReset_kept h
  | .returnToService .. => execReturnToService_kept h
  | .linkHoldSet .. => execLinkHoldSet_kept h
  | .linkHoldRelease .. => execLinkHoldRelease_kept h
  | .attestation .. => execAttestation_kept h
  | .getVersion .. => execGetVersion_kept h
  | .getCapabilities .. => execGetCapabilities_kept h
  | .negotiateAlgorithms .. => execNegotiateAlgorithms_kept h
  | .getDigests .. => execGetDigests_kept h
  | .getCertificate .. => execGetCertificate_kept h
  | .challenge .. => execChallenge_kept h
  | .getMeasurements .. => execGetMeasurements_kept h
  | .keyExchange .. => execKeyExchange_kept h
  | .finish .. => execFinish_kept h
  | .heartbeat .. => execHeartbeat_kept h
  | .keyUpdate .. => execKeyUpdate_kept h
  | .endSession .. => execEndSession_kept h
  | .chunkSend .. => execChunkSend_kept h
  | .chunkGet .. => execChunkGet_kept h
  | .setLimit .. => execSetLimit_kept h
  | .setBound .. => execSetBound_kept h
  | .setResetPolicy .. => execSetResetPolicy_kept h
  | .clearLog .. => execClearLog_kept h
  | .keyInstall .. => execKeyInstall_kept h
  | .keyErase .. => execKeyErase_kept h
  | .issueTicket .. => execIssueTicket_kept h
  | .fwStage .. => execFwStage_kept h
  | .fwStatus .. => execFwStatus_kept h
  | .takeOwner .. => execTakeOwner_kept h
  | .releaseOwner .. => execReleaseOwner_kept h
  | .mgmtConfig .. => execMgmtConfig_kept h
  | .mgmtPost .. => execMgmtPost_kept h
  | .mgmtPostFetch .. => execMgmtPostFetch_kept h
  | .computePartitionReset .. => execComputePartitionReset_kept h
  | .powerUp .. => execPowerUp_kept h
  | .readinessChange => execReadinessChange_kept h
  | .bringUpDeadline => execBringUpDeadline_kept h
  | .powerLoss => execPowerLoss_kept h
  | .supplyFault .. => execSupplyFault_kept h
  | .overvoltage => execOvervoltage_kept h
  | .thermalCutoff => execThermalCutoff_kept h
  | .cutoffCooldown .. => execCutoffCooldown_kept h
  | .referenceLoss .. => execReferenceLoss_kept h
  | .referenceRestored .. => execReferenceRestored_kept h
  | .bypass => execBypass_kept h
  | .idcode => execIdcode_kept h
  | .samplePreload => execSamplePreload_kept h
  | .extest => execExtest_kept h
  | .clamp => execClamp_kept h
  | .highz => execHighz_kept h
  | .frameLock .. => execFrameLock_kept h
  | .noSignal .. => execNoSignal_kept h
  | .hostLinkUp .. => execHostLinkUp_kept h
  | .liveSoakEnd .. => execLiveSoakEnd_kept h
  | .mgmtPostTimeout .. => execMgmtPostTimeout_kept h

/-- A step takes the front command from the queue, if there is one, and keeps the rest. -/
theorem step_kept {s t : State} (h : step s = .next t) : Kept { s with pending := s.pending.tail } t := by
  rw [step] at h
  split at h
  case h_1 hq =>
    obtain rfl : s.tick = t := by simpa using h
    exact State.tick_kept ⟨by rw [hq]; rfl, id, id, id⟩
  case h_2 c cs hq =>
    rw [hq]
    exact (exec_kept (Kept.refl { s with pending := cs }) c).next t h

/-- Settles O4: a step keeps the form of the stores, and taking a command from the queue does not touch them. -/
theorem everyStepKeepsTheStoresCanonical : Obligations.EveryStepKeepsTheStoresCanonical := by
  unfold Obligations.EveryStepKeepsTheStoresCanonical
  exact fun _ _ hwf hstep => (step_kept hstep).stores hwf

end Sys2Proof.Machine
end

/-! # Reads after writes, and the events of memory

What a byte reads as after a range has been zeroed or written (09_memory R254 R279), what MEM_UNMAP answers to each region (R538), and what the
scrubs, the zeroing of an unmapped region and the end of a channel's warning do (R273 R275 R279); the statements of the family 09_memory. -/

section
namespace Sys2Proof

/-- A number that a drop names reads as its default, in any map. -/
theorem AMap.get_drop_of_mem {α : Type} (d : Nat → α) (m : AMap α) {p : Nat → Bool} {k : Nat} (h : p k = true) :
    AMap.get d (AMap.drop m p) k = d k := by
  induction m with
  | nil => rfl
  | cons kw m ih =>
    obtain ⟨k', w⟩ := kw
    rw [AMap.drop] at ih ⊢
    by_cases hp : p k' = true
    · simpa [hp] using ih
    · have hne : k' ≠ k := by rintro rfl; exact hp h
      simp [hp, AMap.get, hne, ih]

/-- A number that a drop does not name reads as before in a canonical map. -/
theorem AMap.get_drop_of_not_mem {α : Type} [DecidableEq α] {d : Nat → α} {m : AMap α} {lo k : Nat} {p : Nat → Bool}
    (hwf : AMap.wfFrom d lo m = true) (h : p k = false) : AMap.get d (AMap.drop m p) k = AMap.get d m k := by
  induction m generalizing lo with
  | nil => rfl
  | cons kw m ih =>
    obtain ⟨k', w⟩ := kw
    simp only [AMap.wfFrom, Bool.and_eq_true] at hwf
    have ih := ih hwf.2
    rw [AMap.drop] at ih ⊢
    by_cases hp : p k' = true
    · have hne : k' ≠ k := by rintro rfl; simp [h] at hp
      have hbelow : k < k' → AMap.get d m k = d k := fun hk => AMap.get_below hwf.2 (Nat.lt_succ_of_lt hk)
      simp only [hp, List.filter_cons, Bool.not_true, Bool.false_eq_true, if_false, ih, AMap.get, if_neg hne]
      split
      · exact hbelow ‹_›
      · rfl
    · simp [hp, AMap.get, ih]

/-- A read looks at the default of its own number only. -/
theorem AMap.get_congr_dflt {α : Type} {d d' : Nat → α} {k : Nat} (h : d k = d' k) (m : AMap α) : AMap.get d m k = AMap.get d' m k := by
  induction m with
  | nil => exact h
  | cons kw m ih => simp only [AMap.get, h, ih]

namespace Machine

/-! ## Zeroed ranges -/

/-- No piece of a range that has been cut names a number of the cut. -/
theorem undefIdx_cut_of_mem (a n : Nat) (l : List (Nat × Nat × Nat)) (k : Nat) (h : a ≤ k ∧ k < a + n) :
    undefIdx (l.flatMap (cutRange a n)) k = none := by
  rw [undefIdx, undefAt, Option.map_eq_none_iff, List.find?_eq_none]
  intro x hx
  obtain ⟨⟨b, m, i⟩, -, hx⟩ := List.mem_flatMap.1 hx
  simp only [cutRange, overlaps, Bool.and_eq_true, decide_eq_true_eq] at hx ⊢
  split at hx
  · rw [List.mem_append, List.mem_ite_nil_right, List.mem_ite_nil_right, List.mem_singleton, List.mem_singleton] at hx
    obtain ⟨-, rfl⟩ | ⟨-, rfl⟩ := hx
    · dsimp only; omega
    · dsimp only; omega
  · rw [List.mem_singleton] at hx
    subst hx
    dsimp only
    omega

/-- Inside a cleared range nothing is undefined, and every byte reads zero. -/
theorem Mem.dflt_clear_of_mem (m : Mem) {a n k : Nat} (h : a ≤ k ∧ k < a + n) : (m.clear a n).dflt k = 0 := by
  rw [Mem.dflt_eq, Mem.clear, undefIdx_cut_of_mem a n m.undef k h]

theorem Mem.clear_bytes (m : Mem) (a n : Nat) : (m.clear a n).bytes = AMap.drop m.bytes fun k => decide (a ≤ k) && decide (k < a + n) := rfl

theorem Mem.get_clear_of_mem (m : Mem) {a n k : Nat} (h : a ≤ k ∧ k < a + n) : AMap.get (m.clear a n).dflt (m.clear a n).bytes k = 0 := by
  rw [Mem.clear_bytes, AMap.get_drop_of_mem _ _ (by simpa using h), Mem.dflt_clear_of_mem m h]

theorem Mem.get_clear_of_not_mem {m : Mem} {a n k : Nat} (hwf : m.wf = true) (h : ¬(a ≤ k ∧ k < a + n)) :
    AMap.get (m.clear a n).dflt (m.clear a n).bytes k = AMap.get m.dflt m.bytes k := by
  obtain ⟨hbytes, -, -⟩ := (Mem.wf_iff m).1 hwf
  rw [Mem.clear_bytes, AMap.get_congr_dflt (Mem.dflt_clear m a n k h), AMap.get_drop_of_not_mem hbytes (by simpa using h)]

/-- A zeroed range reads zero, whatever the form of the stores. -/
theorem State.zeroRange_memByte_of_mem (s : State) {a n k : Nat} (h : a ≤ k ∧ k < a + n) : (s.zeroRange a n).memByte k = 0 := by
  rw [State.memByte]
  split
  · rfl
  · exact Mem.get_clear_of_mem s.mem h

/-- Zeroing a range leaves every other byte. -/
theorem State.zeroRange_memByte_of_not_mem {s : State} {a n k : Nat} (hwf : s.mem.wf = true) (h : ¬(a ≤ k ∧ k < a + n)) :
    (s.zeroRange a n).memByte k = s.memByte k := by
  rw [State.memByte, State.memByte, State.fenced_congr rfl]
  exact congrArg _ (Mem.get_clear_of_not_mem hwf h)

/-! ## Written bytes -/

/-- The bytes of f with others in place of those from a on. -/
def spliced (f : Nat → Byte) (a : Nat) (d : Bytes) (k : Nat) : Byte := if a ≤ k ∧ k < a + d.length then d.getD (k - a) 0 else f k

theorem spliced_nil (f : Nat → Byte) (a : Nat) : spliced f a [] = f := by
  funext k
  exact if_neg (by simp only [List.length_nil]; omega)

/-- Bytes may be put in place in two pieces. -/
theorem spliced_take_drop (f : Nat → Byte) (a n : Nat) (d : Bytes) : spliced (spliced f a (d.take n)) (a + n) (d.drop n) = spliced f a d := by
  funext k
  simp only [spliced, List.length_take, List.length_drop, List.getD_eq_getElem?_getD, List.getElem?_drop, List.getElem?_take]
  by_cases hlow : k < a + n
  · rw [if_neg (by omega)]
    by_cases hin : a ≤ k ∧ k < a + d.length
    · rw [if_pos (by omega), if_pos (show k - a < n by omega), if_pos hin]
    · rw [if_neg (by omega), if_neg hin]
  · rw [if_neg (show ¬(a ≤ k ∧ k < a + min n d.length) by omega), show n + (k - (a + n)) = k - a by omega]
    exact if_congr (by omega) rfl rfl

/-- A write to an unfenced sheet, on the bytes and on what is undefined. -/
theorem State.writeSheet_bytes {s : State} {a : Nat} (h : s.fenced (a / 1024) = false) (d : Bytes) (p : Bool) :
    (s.writeSheet a d p).mem.bytes = wrMapD s.mem.dflt s.mem.bytes a d ∧ (s.writeSheet a d p).mem.undef = s.mem.undef := by
  rw [State.writeSheet, if_neg (by simp [h]), ← State.holdPage_mem s a]
  split
  · exact ⟨rfl, rfl⟩
  · split <;> exact ⟨rfl, rfl⟩

/-- A write of bytes of unfenced sheets, at an address whose sheet is not fenced, puts them in place. -/
theorem State.writeSheet_memByte {s : State} {a : Nat} {d : Bytes} (hwf : s.mem.wf = true) (ha : s.fenced (a / 1024) = false)
    (hd : ∀ i, i < d.length → s.fenced ((a + i) / 1024) = false) (p : Bool) : (s.writeSheet a d p).memByte = spliced s.memByte a d := by
  obtain ⟨hbytes, -, -⟩ := (Mem.wf_iff s.mem).1 hwf
  obtain ⟨hb, hu⟩ := State.writeSheet_bytes ha d p
  have hdflt : (s.writeSheet a d p).mem.dflt = s.mem.dflt := by
    funext k
    rw [Mem.dflt_eq, Mem.dflt_eq, hu]
  funext k
  rw [State.memByte, State.fenced_congr (s.writeSheet_chans a d p), hb, hdflt, get_wrMapD d a k hbytes, spliced]
  by_cases hk : a ≤ k ∧ k < a + d.length
  · have hopen := hd (k - a) (by omega)
    rw [Nat.add_sub_cancel' hk.1] at hopen
    rw [hopen, if_neg Bool.false_ne_true, if_pos hk, if_pos hk]
  · rw [if_neg hk, if_neg hk, State.memByte]

/-- Written piece by piece, the bytes stand where a write of them all puts them; f bounds the sheets that they meet. -/
theorem State.writeSheets_memByte (p : Nat → Bool) (f : Nat) {s : State} {a : Nat} {d : Bytes} (hwf : s.mem.wf = true)
    (hd : ∀ i, i < d.length → s.fenced ((a + i) / 1024) = false) (hf : a % 1024 + d.length ≤ 1024 * f) :
    ((sheetCut f a d).foldl (fun s x => s.writeSheet x.1 x.2 (p (x.1 / 1024))) s).memByte = spliced s.memByte a d := by
  induction f generalizing s a d with
  | zero =>
    obtain rfl : d = [] := List.eq_nil_of_length_eq_zero (by omega)
    exact (spliced_nil _ a).symm
  | succ f ih =>
    rcases d with _ | ⟨b, bs⟩
    · exact (spliced_nil _ a).symm
    rw [sheetCut, List.foldl_cons]
    generalize hds : b :: bs = d at *
    have hpos : 0 < d.length := by rw [← hds]; exact Nat.succ_pos _
    generalize hn : 1024 - a % 1024 = n
    have hfirst : (s.writeSheet a (d.take n) (p (a / 1024))).memByte = spliced s.memByte a (d.take n) :=
      State.writeSheet_memByte hwf (hd 0 hpos) (fun i hi => hd i (by rw [List.length_take] at hi; omega)) _
    rw [ih ((State.writeSheet_kept (Kept.refl s)).stores hwf) (fun i hi => ?rest) (by rw [List.length_drop]; omega), hfirst, spliced_take_drop]
    rw [State.fenced_congr (s.writeSheet_chans ..), Nat.add_assoc]
    exact hd (n + i) (by rw [List.length_drop] at hi; omega)

/-- A write to unfenced channels puts its bytes in place and leaves every other byte. -/
theorem State.memWriteP_memByte {s : State} {a : Nat} {d : Bytes} (hwf : s.mem.wf = true)
    (hd : ∀ i, i < d.length → s.fenced ((a + i) / 1024) = false) (p : Nat → Bool) : (s.memWriteP a d p).memByte = spliced s.memByte a d :=
  State.writeSheets_memByte p _ hwf hd (by omega)

/-- Settles O55: the pieces of a write are put in place one after another, and a zeroed range is dropped from the bytes listed. -/
theorem memoryHoldsWhatIsWritten : Obligations.MemoryHoldsWhatIsWritten := by
  unfold Obligations.MemoryHoldsWhatIsWritten
  constructor
  · intro s a d hwf hopen k
    exact congrFun (State.memWriteP_memByte hwf hopen noMark) k
  · intro s a n hwf k
    by_cases h : a ≤ k ∧ k < a + n
    · rw [State.zeroRange_memByte_of_mem s h, if_pos h]
    · rw [State.zeroRange_memByte_of_not_mem hwf h, if_neg h]

/-! ## Regions that are unmapped -/

section
variable {s : State} {c id : Nat} {r : Region}

theorem State.memUnmap_of_unknown (h : s.mem.regions.find? (fun r => r.id = id) = none) (n : SlotId) :
    s.memUnmap n c id = s.refuse n stState 1 := by
  rw [State.memUnmap, h]

theorem State.memUnmap_of_foreign (h : s.mem.regions.find? (fun r => r.id = id) = some r) (hc : c ≠ 0) (hr : r.ctx ≠ c) (n : SlotId) :
    s.memUnmap n c id = s.refuse n stContext 1 := by
  have hforeign : (decide (c ≠ 0) && decide (r.ctx ≠ c)) = true := by simp [hc, hr]
  rw [State.memUnmap]
  simp only [h, hforeign, if_true]

theorem State.memUnmap_of_busy (h : s.mem.regions.find? (fun r => r.id = id) = some r) (hctx : c = 0 ∨ r.ctx = c)
    (hbusy : s.referenced r = true ∨ s.protectedIn r.base r.size = true) (n : SlotId) : s.memUnmap n c id = s.refuse n stBusy 0 := by
  have hown : (decide (c ≠ 0) && decide (r.ctx ≠ c)) = false := by
    rcases hctx with h | h <;> simp [h]
  have hused : (s.referenced r || s.protectedIn r.base r.size) = true := by simpa using hbusy
  rw [State.memUnmap]
  simp only [h, hown, hused, Bool.false_eq_true, if_false, if_true]

end

/-- Settles O21: the checks of the command in their order, each with its refusal. -/
theorem unmappingIsRefusedOrDone : Obligations.UnmappingIsRefusedOrDone := by
  unfold Obligations.UnmappingIsRefusedOrDone
  intro s n hruns x
  have hserves {t : State} (h : s.memUnmap n x.ctxNo (fld x.req 0 4) = t) : Serves s (.memUnmap n) n t :=
    .of_runs (e := execMemUnmap n s) rfl rfl hruns h
  refine ⟨fun hnone => hserves (State.memUnmap_of_unknown hnone n), fun r hfind => ⟨?foreign, ?busy, ?unused⟩⟩
  case foreign => exact fun hc hr => hserves (State.memUnmap_of_foreign hfind hc hr n)
  case busy => exact fun hctx hbusy => hserves (State.memUnmap_of_busy hfind hctx hbusy n)
  case unused => exact fun hctx href hprot => ⟨hserves (State.memUnmap_of_unused hfind hctx href hprot n), rfl⟩

/-! ## Scrubs, zeroing and warnings -/

/-- A patrol scrub of an unfenced sheet of a tier that can be read reports its finding without a tag (R273). -/
theorem exec_patrolScrub_of_read {s : State} {a : Nat} (ha : isTier a = true) (hmem : s.mem.selfRefresh = false)
    (hopen : s.fenced (a / 1024) = false) (f : ScrubFinding) : exec (.patrolScrub a f) s = .next (match f with
      | .clean => s
      | .correctable => s.memEvent (.corrected a) 0 0xFF
      | .uncorrectable => s.memEvent (.uncorrectable a) 0 0xFF) := by
  change execPatrolScrub a f s = _
  simp only [execPatrolScrub, ha, hmem, hopen, Bool.not_true, Bool.or_self, Bool.false_eq_true, if_false]
  cases f <;> rfl

/-- A staging scrub reports its finding: an uncorrectable word loses a tier sheet's line, or marks a sheet of the quire's own scratchpad (R273). -/
theorem exec_stagingScrub_of_read {s : State} (hmem : s.mem.selfRefresh = false) (q : Quire) (a : Nat) (f : ScrubFinding) :
    exec (.stagingScrub q (some a) f) s = .next (match f with
      | .clean => s
      | .correctable => s.countWarn (0x2000 + q.val) 1 true false
      | .uncorrectable =>
        if isTier a = true then (s.dropLine q (a / 1024)).native 3 0x0105 q.val 0 0
        else if s.storeOf a = some (q.val + 2) then s.uncorrectable a 0 0xFF false else s) := by
  change execStagingScrub q (some a) f s = _
  simp only [execStagingScrub, hmem, Bool.false_eq_true, if_false]
  cases f with
  | clean => rfl
  | correctable => rfl
  | uncorrectable =>
    dsimp only
    split
    · rfl
    · split <;> rfl

/-- The oldest region that can be zeroed leaves the queue and is zeroed (R279). -/
theorem exec_regionZeroing_of_found {s : State} {r : Region}
    (h : s.mem.zeroQ.find? (fun r => !s.protectedIn r.base r.size) = some r) (hmem : s.mem.selfRefresh = false) :
    exec .regionZeroing s = .next ({ s with mem.zeroQ := s.mem.zeroQ.filter fun y => y.id ≠ r.id }.zeroRange r.base r.size) := by
  change execRegionZeroing s = _
  simp only [execRegionZeroing, h, hmem, Bool.false_eq_true, if_false]
  rfl

/-- The warning of a channel ends once its count has been low for 60 s (R275). -/
theorem exec_correctedErrorWarningClear_of_low {s : State} {ch t : Nat} (hlow : (s.chan ch).lowSince = some t)
    (hwarned : (s.chan ch).warned = true) (ht : t + 60000000000 ≤ s.clock) :
    exec (.correctedErrorWarningClear ch) s = .next (s.setChan ch { s.chan ch with warned := false, lowSince := none }) := by
  change execCorrectedErrorWarningClear ch s = _
  simp only [execCorrectedErrorWarningClear, hlow, hwarned, ht, decide_true, Bool.and_self, if_true]
  rfl

/-- Settles O31: a lemma of the patrol scrub, of the staging scrub, of the zeroing or of the warning for each clause. -/
theorem memoryEventsAct : Obligations.MemoryEventsAct := by
  unfold Obligations.MemoryEventsAct
  refine ⟨?patrol, ?staging, ?zeroing, ?warning⟩
  case patrol =>
    intro s a ha hmem hopen
    have h := exec_patrolScrub_of_read ha hmem hopen
    exact ⟨h .clean, h .correctable, h .uncorrectable⟩
  case staging =>
    intro s q a hmem
    have h := exec_stagingScrub_of_read hmem q a
    refine ⟨h .clean, h .correctable, fun htier => ?line, fun htier hstore => ?scratch⟩
    case line => exact (h .uncorrectable).trans (congrArg _ (if_pos htier))
    case scratch => exact (h .uncorrectable).trans (congrArg _ ((if_neg (by simp [htier])).trans (if_pos hstore)))
  case zeroing =>
    intro s r hfind hmem
    exact ⟨_, exec_regionZeroing_of_found hfind hmem, rfl, fun a hlo hhi => State.zeroRange_memByte_of_mem _ ⟨hlo, hhi⟩⟩
  case warning =>
    intro s ch t hlow hwarned ht
    exact exec_correctedErrorWarningClear_of_low hlow hwarned ht

end Machine
end Sys2Proof
end

/-! # The commands of schedules, and the launch of their phases

What SCH_LOAD, SCH_ADMIT, SCH_ARM and SCH_CANCEL do where their checks pass, and what a phase that launches and a background window that opens do
(11_time R326 R327 R333 R334 R335 R339; log entries 65, 66 and 113). -/

section
namespace Sys2Proof.Machine

/-! ## SCH_LOAD (R333) -/

/-- The header of an image, its required sections and the extent of all of them are as Table 11-4 asks. -/
structure ImageFormed (m : Bytes) (len : Nat) : Prop where
  magic : fld m 0 2 = 0x0512
  version : fld m 2 1 = 1
  long : 256 ≤ len
  phases : secOff m 0 ≠ 0
  programs : secOff m 2 ≠ 0
  barrier : secOff m 11 ≠ 0
  fits : secsFit m = true

theorem ImageFormed.versionOk {m : Bytes} {len : Nat} (h : ImageFormed m len) :
    ¬(decide (fld m 0 2 ≠ 0x0512) || decide (fld m 2 1 ≠ 1)) = true :=
  not_decide_or (not_not.2 h.magic) (not_not.2 h.version)

theorem ImageFormed.sectionsOk {m : Bytes} {len : Nat} (h : ImageFormed m len) :
    ¬(decide (len < 256) || decide (secOff m 0 = 0) || decide (secOff m 2 = 0) || decide (secOff m 11 = 0) || !secsFit m) = true := by
  simp [h.long, h.phases, h.programs, h.barrier, h.fits]

/-- An image in the near tier, mapped and free of poison, for which there is room and whose ID is new. -/
structure State.HasRoom (s : State) (c id addr len : Nat) : Prop where
  named : id ≠ 0
  nonempty : 0 < len
  near : addr + len ≤ nearSize
  mapped : s.mappedTo c addr len = true
  room : s.scheds.length < 16
  fresh : (s.sched id).isSome = false
  clean : s.rangePoisoned addr len = false

/-- An image that passes every check becomes a schedule in state LOADED. -/
theorem State.schLoad_of_passing {s : State} {c id addr len : Nat} (hroom : s.HasRoom c id addr len) (hformed : ImageFormed (s.memRead addr len) len)
    {i : Image} (hi : parseImage addr (s.memRead addr len) = i) (hres : s.loadResource i = none)
    (hprogs : (i.progs.any fun p => s.rangePoisoned p.addr (32 * p.packets)) = false)
    (hchecks : firstFail (s.loadFails c (addr, len) (s.memRead addr len) i) = none) (n : SlotId) :
    s.schLoad n c id addr len =
      ({ s with scheds := s.scheds ++ [Sched.loaded id c addr len i (s.refsOf i addr len) (s.cachedOf i)] } : State).complete n stOk 0 [] := by
  have hrange : (!(decide (0 < len) && decide (addr + len ≤ nearSize) && s.mappedTo c addr len)) = false := by
    simp [hroom.nonempty, hroom.near, hroom.mapped]
  unfold State.schLoad
  rw [if_neg hroom.named, if_neg (Bool.eq_false_iff.1 hrange), if_neg (Nat.not_le.2 hroom.room), if_neg (Bool.eq_false_iff.1 hroom.fresh),
    if_neg (Bool.eq_false_iff.1 hroom.clean)]
  refine (if_neg hformed.versionOk).trans ((if_neg hformed.sectionsOk).trans ?_)
  simp only [hi, hres, hprogs, hchecks, Bool.false_eq_true, if_false]

/-! ## SCH_ADMIT (R339) -/

/-- Where no reason to refuse is found, the schedule is ADMITTED with its ceilings and demands. -/
theorem State.schAdmit_of_passing {s : State} {y : Sched}
    (h : s.admFail y ((List.range y.image.phases.length).map (timeOf (s.sims y.image noCap))) (s.sims y.image noCap) = none) (n : SlotId) :
    let np := y.image.phases.length
    let times := (List.range np).map (timeOf (s.sims y.image noCap))
    let last := times.getD (np - 1) { done := none, bind := 0, index := 0 }
    s.schAdmit n y = (s.setSched { y with
      state := .admitted, native := !imgCompat s.act, demands := (y.image.phases.mapIdx fun p f => s.demandsOf y.image p f).flatten
      ceilings := (List.range np).map fun p =>
        if imgCompat s.act then (0, 0) else ((s.ceiling y.image p false).getD 0, (s.ceiling y.image p true).getD 0) }).complete n stOk 0
      (le 2 0 ++ le 2 0xFFFF ++ le 1 last.bind ++ [0] ++ le 2 last.index ++ le 8 0 ++ (List.range np).flatMap (s.admEntry y.image times)) := by
  unfold State.schAdmit
  cases hcompat : imgCompat s.act <;> simp only [h] <;> rfl

/-! ## SCH_ARM and SCH_CANCEL (R334 R335) -/

/-- An ADMITTED schedule of the context, with the time locked, the reported bound within SYNC_BOUND, and an arm time 100 µs or more
after the slot was taken. -/
structure State.MayArm (s : State) (n : SlotId) (y : Sched) (a : Nat) : Prop where
  admitted : y.state = .admitted
  locked : s.lockedFor y.image.machineScope = true
  within : s.beyondSync y.image = false
  aligned : a % 8 = 0
  ahead : s.takenStitch n + 100000 ≤ a

theorem serves_schArm {s : State} {n : SlotId} {y : Sched} {a : Nat} (hr : s.runs n 0x0403 = true) (ha : fld s.slots[n].req 8 8 = a)
    (hy : s.ownSched s.slots[n].ctxNo (fld s.slots[n].req 0 2) = some y) (h : s.MayArm n y a) :
    Serves s (.schArm n) n ((s.raiseSupply.armed y a).complete n stOk 0 []) := by
  refine .of_runs (e := execSchArm n s) rfl rfl hr ?_
  have htime : ¬(decide (a % 8 ≠ 0) || decide (a < s.takenStitch n + 100000)) = true :=
    not_decide_or (not_not.2 h.aligned) (Nat.not_lt.2 h.ahead)
  simp only [hy, h.admitted, h.locked, h.within, ha, htime, ne_eq, not_true_eq_false, Bool.not_true, Bool.false_eq_true, if_false]

/-- A schedule is cancelled at its barrier only where a step of it runs that is not already being cancelled (log entry 113). -/
theorem serves_schCancelAtBarrier {s : State} {n : SlotId} {y : Sched} (hr : s.runs n 0x0404 = true) (hbar : bit (fld s.slots[n].req 2 1) 0 = true)
    (hy : s.ownSched s.slots[n].ctxNo (fld s.slots[n].req 0 2) = some y) :
    Serves s (.schCancelAtBarrier n) n (s.schCancel n y (decide (y.state = .running) && !y.between && decide (y.cancel ≠ some false))) := by
  refine .of_runs (e := execSchCancelAtBarrier n s) rfl (if_neg (by rw [hbar]; exact Bool.false_ne_true)) hr ?_
  simp only [hy]

theorem serves_schCancel {s : State} {n : SlotId} {y : Sched} (hr : s.runs n 0x0404 = true) (hnow : bit (fld s.slots[n].req 2 1) 0 = false)
    (hy : s.ownSched s.slots[n].ctxNo (fld s.slots[n].req 0 2) = some y) : Serves s (.schCancel n) n (s.schCancel n y false) := by
  refine .of_runs (e := execSchCancel n s) rfl (if_neg (Bool.eq_false_iff.1 hnow)) hr ?_
  simp only [hy]

/-- Settles O19: each command's checks pass, and its meaning is the completion, or the cancellation that waits in its slot. -/
theorem schedulesLoadAdmitArmAndCancel : Obligations.SchedulesLoadAdmitArmAndCancel := by
  unfold Obligations.SchedulesLoadAdmitArmAndCancel
  intro s n
  refine ⟨?load, ?toAdmitted, ?arm, ?cancel, ?atBarrier⟩
  case load =>
    intro hr hm hmem hid addr len m hlen hnear hmap hroom hfresh hclean hmagic hversion hlong hphases hprograms hbarrier hfits i hres hprogs hchecks
    refine .of_serves (.of_runsMem (e := execSchLoad n s) rfl rfl hmem hr ?_) hm rfl ⟨rfl, rfl, rfl⟩
    exact State.schLoad_of_passing ⟨hid, hlen, hnear, hmap, hroom, hfresh, hclean⟩
      ⟨hmagic, hversion, hlong, hphases, hprograms, hbarrier, hfits⟩ rfl hres hprogs hchecks n
  case toAdmitted =>
    intro y hr hm hy hctx hst np sims times last z hpass
    refine .of_serves (.of_runs (e := execSchAdmit n s) rfl rfl hr ?_) hm rfl ⟨rfl, rfl, rfl⟩
    simp only [hy]
    exact (if_neg (not_decide_or (not_not.2 hctx) (not_not.2 hst))).trans (State.schAdmit_of_passing hpass n)
  case arm =>
    intro y hr hy hst hlocked hsync halign hahead
    exact serves_schArm hr rfl hy ⟨hst, hlocked, hsync, halign, hahead⟩
  case cancel => exact fun y hr hnow hy => serves_schCancel hr hnow hy
  case atBarrier =>
    intro y hr hbar hy hst hstep hlive
    have hserves := serves_schCancelAtBarrier hr hbar hy
    rwa [hst, hstep, decide_eq_true rfl, decide_eq_true hlive] at hserves

/-! ## Phases and background windows (R326 R327) -/

/-- A phase that may launch begins the step where it is the step's first, and launches. -/
theorem exec_phaseLaunch_of_launchable {s : State} {id phase : Nat} {x y : Sched} {p : PhaseE} (hx : (s.settle id).sched id = some x)
    (hp : x.image.phases[phase]? = some p) (hmay : (s.settle id).launchable x phase p = true)
    (hy : (if x.between then (s.settle id).firstLaunch id x.launchStep else s.settle id).sched id = some y) :
    exec (.phaseLaunch id phase) s =
      .next ((if x.between then (s.settle id).firstLaunch id x.launchStep else s.settle id).launch y phase p) := by
  change execPhaseLaunch id phase s = _
  simp only [execPhaseLaunch, hx, hp, hmay, hy, Bool.not_true, Bool.false_eq_true, if_false]
  rfl

/-- A window may open in a running step that no replay or cancellation takes over, with the device in RUN, and once. -/
structure State.WindowOpens (s : State) (x : Sched) (b : BgE) (entry : Nat) : Prop where
  running : x.state = .running
  inStep : x.coll.state ≠ .none
  noReplay : x.replay = none
  live : x.cancel ≠ some false
  opened : x.bgOpen b s.now = true
  powered : s.guard.power.pstate = .run
  once : x.launchedBg.contains entry = false

theorem exec_backgroundWindow_of_opens {s : State} {id entry : Nat} {x : Sched} {b : BgE} (hx : s.sched id = some x)
    (hb : x.image.bgs[entry]? = some b) (h : s.WindowOpens x b entry) :
    exec (.backgroundWindow id entry) s = .next (s.setSched { x with launchedBg := x.launchedBg ++ [entry] }) := by
  change execBackgroundWindow id entry s = _
  have hopens : (decide (x.state = .running) && decide (x.coll.state ≠ .none) && x.replay.isNone && decide (x.cancel ≠ some false) &&
      x.bgOpen b s.now && decide (s.guard.power.pstate = .run) && !x.launchedBg.contains entry) = true := by
    simp only [h.running, h.inStep, h.noReplay, h.live, h.opened, h.powered, h.once, Option.isNone_none, ne_eq, not_false_eq_true, decide_true,
      Bool.not_false, Bool.and_self]
  simp only [execBackgroundWindow, hx, hb]
  exact if_pos hopens

/-- Settles O34: the lemma of the launch and the lemma of the window. -/
theorem phasesAndWindowsOpen : Obligations.PhasesAndWindowsOpen := by
  unfold Obligations.PhasesAndWindowsOpen
  constructor
  · intro s id phase x y p hx hp hmay hy
    exact exec_phaseLaunch_of_launchable hx hp hmay hy
  · intro s id entry x b hx hb hrun hstep hreplay hlive hopen hpower hfirst
    exact exec_backgroundWindow_of_opens hx hb ⟨hrun, hstep, hreplay, hlive, hopen, hpower, hfirst⟩

end Sys2Proof.Machine
end

/-! # The time base

What the messages of a timing exchange do, and what the passing of time and the edges of the external reference do to the time state
(11_time R315 R317 R319 R320 R321; log entries 72 and 73). -/

section
namespace Sys2Proof.Machine

/-! ## The messages of an exchange (R315) -/

/-- A port that takes part starts an exchange where its last one began 1 µs ago or earlier. -/
theorem exec_syncExchangeStart_of_due {s : State} {p : Port} (hp : s.times p = true) (hdue : s.ports[p].timing.lastSync + 1000 ≤ s.clock) :
    exec (.syncExchangeStart p) s = .next ((s.setPort p { s.ports[p] with timing := { s.ports[p].timing with
      lastSync := s.clock, syncAt := s.ports[p].timing.syncAt ++ [s.now16] } }).sendTiming p 1 s.now16 0 0) :=
  if_pos (by rw [hp, decide_eq_true hdue]; rfl)

theorem exec_syncReceive_of_good {s : State} {p : Port} {m : TimingMsg} (h : s.timingBad p 1 m = none) :
    exec (.syncReceive p m) s = .next ((s.peerTiming p m).sendTiming p 2 m.tA.toNat (s.peerTiming p m).now16 (s.peerTiming p m).now16) := by
  change execSyncReceive p m s = _
  simp only [execSyncReceive, h]
  rfl

theorem exec_syncReceive_of_bad {s : State} {p : Port} {m : TimingMsg} {w : Nat} (h : s.timingBad p 1 m = some w) :
    exec (.syncReceive p m) s = .next (s.discard p w) := by
  change execSyncReceive p m s = _
  simp only [execSyncReceive, h]
  rfl

theorem exec_replyReceive_of_bad {s : State} {p : Port} {m : TimingMsg} {w : Nat} (h : s.timingBad p 2 m = some w) :
    exec (.replyReceive p m) s = .next (s.discard p w) := by
  change execReplyReceive p m s = _
  simp only [execReplyReceive, h]
  rfl

/-! ## The sample of a REPLY (R315 R317) -/

/-- Twice the delay that a REPLY received at t4 shows, in 1/16 ns. -/
def delay2 (m : TimingMsg) (t4 : Int) : Int := (t4 - (m.tA.toNat : Int)) - ((m.tC.toNat : Int) - (m.tB.toNat : Int))

/-- Twice the offset that a REPLY received at t4 shows, in 1/16 ns. -/
def offset2 (m : TimingMsg) (t4 : Int) : Int := ((m.tB.toNat : Int) - (m.tA.toNat : Int)) - (t4 - (m.tC.toNat : Int))

/-- The state in which a good REPLY has ended its exchange, before its sample is judged. -/
def State.replied (s : State) (p : Port) (m : TimingMsg) : State :=
  let t := s.peerTiming p m
  t.setPort p { t.ports[p] with timing := { t.ports[p].timing with syncAt := t.ports[p].timing.syncAt.erase m.tA.toNat } }

/-- What becomes of a sample. Its delay rules it out where the window has a shortest delay, its offset where the window is full. -/
def State.judgeSample (s : State) (p : Port) (d2 o2 : Int) : Res :=
  let t := s.ports[p].timing
  if t.window ≠ [] ∧ t.minDelay + 128 < d2 then .next (s.rejectSample p true)
  else if t.window.length = 16 ∧ (512 < 2 * o2 - t.median4 ∨ 2 * o2 - t.median4 < -512) then .next (s.rejectSample p false)
  else .next (s.acceptSample p d2 o2 false)

/-- A good REPLY into which no injection falls gives a sample, which is judged. -/
theorem exec_replyReceive_of_good {s : State} {p : Port} {m : TimingMsg} (h : s.timingBad p 2 m = none)
    (hinj : (s.replied p m).meet 0x07 p.val = none) :
    exec (.replyReceive p m) s = (s.replied p m).judgeSample p (delay2 m s.now16) (offset2 m s.now16) := by
  change execReplyReceive p m s = _
  simp only [State.replied] at hinj
  simp only [execReplyReceive, h, hinj, Int.add_zero, Bool.and_eq_true, Bool.or_eq_true, decide_eq_true_eq]
  rfl

section
variable {s : State} {p : Port} {d2 o2 : Int}

theorem State.judgeSample_of_empty (h : s.ports[p].timing.window = []) : s.judgeSample p d2 o2 = .next (s.acceptSample p d2 o2 false) :=
  (if_neg fun c => c.1 h).trans (if_neg fun c => absurd c.1 (by rw [h]; decide))

theorem State.judgeSample_of_late (hne : s.ports[p].timing.window ≠ []) (hd : s.ports[p].timing.minDelay + 128 < d2) :
    s.judgeSample p d2 o2 = .next (s.rejectSample p true) :=
  if_pos ⟨hne, hd⟩

/-- A sample whose delay passes is judged by its offset alone. -/
theorem State.judgeSample_of_timely (hd : d2 ≤ s.ports[p].timing.minDelay + 128) : s.judgeSample p d2 o2 =
    if s.ports[p].timing.window.length = 16 ∧ (512 < 2 * o2 - s.ports[p].timing.median4 ∨ 2 * o2 - s.ports[p].timing.median4 < -512) then
      .next (s.rejectSample p false)
    else .next (s.acceptSample p d2 o2 false) :=
  if_neg fun h => Int.not_lt.2 hd h.2

end

/-- Settles O38: a lemma of the message for each clause, and of the sample for each judgement. -/
theorem timingExchangesRun : Obligations.TimingExchangesRun := by
  unfold Obligations.TimingExchangesRun
  refine ⟨fun s p => exec_syncExchangeStart_of_due, fun s p m => exec_syncReceive_of_good,
    fun s p m w => ⟨exec_syncReceive_of_bad, exec_replyReceive_of_bad⟩, ?reply⟩
  case reply =>
    intro s p m hgood t u hinj t1 t2 t3 t4 d2 o2
    have hjudged : exec (.replyReceive p m) s = u.judgeSample p d2 o2 := exec_replyReceive_of_good hgood hinj
    rw [hjudged]
    refine ⟨fun hempty => ?_, fun hne hlate => ?_, fun _ hshort hd => ?_, fun _ hd hhi hlo => ?_, fun hfull hd hfar => ?_⟩
    · rw [State.judgeSample_of_empty hempty]
    · rw [State.judgeSample_of_late hne hlate]
    · rw [State.judgeSample_of_timely hd, if_neg fun h => Nat.ne_of_lt hshort h.1]
    · rw [State.judgeSample_of_timely hd, if_neg fun h => h.2.elim (Int.not_lt.2 hhi) (Int.not_lt.2 hlo)]
    · rw [State.judgeSample_of_timely hd, if_pos ⟨hfull, hfar⟩]

/-! ## The time state and the clock (R319 R321) -/

@[simp] theorem State.setTime_tstate (s : State) (t : TState) : (s.setTime t).time.tstate = t := by
  unfold State.setTime
  split
  · assumption
  · rfl

/-- HOLDOVER begins with the phase correction at 0. -/
theorem State.setTime_holdover_slew {s : State} (h : s.time.tstate ≠ .holdover) : (s.setTime .holdover).time.slew = 0 := by
  simp [State.setTime, h]

/-- A locked device enters HOLDOVER 20 µs after its last sample, and not earlier. -/
theorem exec_holdoverEntry_of_locked {s : State} (h : s.time.tstate = .locked) :
    exec .holdoverEntry s = .next (if s.time.lastSample + 20000 ≤ s.clock then s.setTime .holdover else s) := by
  change execHoldoverEntry s = _
  simp only [execHoldoverEntry, h, decide_true, Bool.true_and, decide_eq_true_eq]
  exact (apply_ite Host.Outcome.next _ _ _).symm

theorem exec_unlockedEntry_of_due {s : State} (h : s.time.tstate = .holdover) (hdue : s.time.holdSince + 2000000 ≤ s.clock) :
    exec .unlockedEntry s = .next (s.setTime .unlocked) :=
  if_pos (by rw [decide_eq_true h, decide_eq_true hdue]; rfl)

theorem exec_portBarExpiry_of_due {s : State} {p : Port} {t : Nat} (h : s.ports[p].timing.barUntil = some t) (hdue : t ≤ s.clock) :
    exec (.portBarExpiry p) s = .next (s.setPort p { s.ports[p] with timing := { s.ports[p].timing with barUntil := none } }) := by
  change execPortBarExpiry p s = _
  simp only [execPortBarExpiry, h]
  exact if_pos hdue

/-- A conflict of roots is reported where it is new or was last reported 1 s ago or earlier. -/
theorem exec_rootConflictReport_of_due {s : State} {p : Port} (h : s.rootConflict = some p)
    (hdue : s.time.conflict = false ∨ s.time.conflictAt + 1000000000 ≤ s.clock) :
    exec .rootConflictReport s = .next ((({ s with time := { s.time with conflict := true, conflictAt := s.clock } } : State).native 2 0x0302 p.val
      s.ports[p].timing.rootId.toNat 0).emit (.report 0x0302 p.val)) := by
  change execRootConflictReport s = _
  have hnot : ¬(s.time.conflict && decide (s.clock < s.time.conflictAt + 1000000000)) = true := by
    simpa [← Bool.not_eq_true, or_iff_not_imp_left] using hdue
  simp only [execRootConflictReport, h]
  exact if_neg hnot

/-! ## The external reference (R320) -/

/-- The state that has noted the time of an edge. -/
def State.edgeNoted (s : State) : State := { s with time := { s.time with ppsLast := some s.clock } }

theorem exec_ppsEdge_of_aligned {s u : State} (hon : s.onPps = true) (hu : s.ppsAlign.edgeNoted = u) (ref10m : Int) :
    exec (.ppsEdge ref10m) s = .next (if u.ppsAway then u.ppsReject else u.ppsAccept ref10m) := by
  subst hu
  exact if_neg (by rw [hon]; exact Bool.false_ne_true)

/-- After the first READY no edge steps the counter. -/
theorem State.ppsAlign_of_everReady {s : State} (h : s.time.everReady = true) : s.ppsAlign = s :=
  if_pos (by rw [h]; rfl)

/-- Before it, an edge steps the counter where it is off the alignment or below TIM_START. -/
theorem State.ppsAlign_of_off {s : State} (hnew : s.time.everReady = false) (hoff : s.ppsAway = true ∨ s.now < imgStart s.act) :
    s.ppsAlign = { s with time := { s.time with stitch := BitVec.ofNat 64 s.ppsStart } } :=
  if_neg (by rcases hoff with h | h <;> simp [hnew, h])

@[simp] theorem State.edgeNoted_ppsAway (s : State) : s.edgeNoted.ppsAway = s.ppsAway := rfl

theorem State.ppsAway_of_within {s : State} (hlo : -100 ≤ s.ppsError) (hhi : s.ppsError ≤ 100) : s.ppsAway = false :=
  Bool.eq_false_iff.2 (not_decide_or (Int.not_lt.2 hhi) (Int.not_lt.2 hlo))

theorem State.ppsAway_of_beyond {s : State} (h : s.ppsError < -100 ∨ 100 < s.ppsError) : s.ppsAway = true := by
  simpa [State.ppsAway] using h.symm

/-- After the first READY an edge within 100 ns is accepted, and one farther away is rejected. -/
theorem exec_ppsEdge_of_everReady {s : State} (hon : s.onPps = true) (hready : s.time.everReady = true) (ref10m : Int) :
    exec (.ppsEdge ref10m) s = .next (if s.ppsAway then s.edgeNoted.ppsReject else s.edgeNoted.ppsAccept ref10m) :=
  exec_ppsEdge_of_aligned hon (by rw [State.ppsAlign_of_everReady hready]) ref10m

/-- 2 s after the last edge the reference is lost. -/
theorem exec_ppsLoss_of_due {s : State} {t : Nat} (hon : s.onPps = true) (hlast : s.time.ppsLast = some t) (hdue : t + 2000000000 ≤ s.clock) :
    exec .ppsLoss s = .next ({ s with time := { s.time with ppsGood := 0 } } : State).rootLost := by
  change execPpsLoss s = _
  simp only [execPpsLoss, hlast, hon, hdue, decide_true, Bool.and_self, if_true]
  rfl

/-- Settles O39: a lemma of the time state, of the conflict or of the reference for each clause. -/
theorem timeStatesFollowTheClock : Obligations.TimeStatesFollowTheClock := by
  unfold Obligations.TimeStatesFollowTheClock
  refine ⟨⟨?holdover, ?locked, ?unlocked, fun s p t => exec_portBarExpiry_of_due, fun s p => exec_rootConflictReport_of_due⟩,
    ?accepted, ?rejected, ?stepped, fun s t => exec_ppsLoss_of_due⟩
  case holdover =>
    intro s hlocked hdue
    refine ⟨?_, s.setTime_tstate _, State.setTime_holdover_slew (by rw [hlocked]; decide)⟩
    rw [exec_holdoverEntry_of_locked hlocked, if_pos hdue]
  case locked =>
    intro s hlocked hearly
    rw [exec_holdoverEntry_of_locked hlocked, if_neg (Nat.not_le.2 hearly)]
  case unlocked => exact fun s hhold hdue => ⟨exec_unlockedEntry_of_due hhold hdue, s.setTime_tstate _⟩
  case accepted =>
    intro s ref10m hon hready hlo hhi t
    rw [exec_ppsEdge_of_everReady hon hready, State.ppsAway_of_within hlo hhi]
    simp only [State.ppsAccept, Bool.and_eq_true, decide_eq_true_eq]
    rfl
  case rejected =>
    intro s ref10m hon hready hfar t
    rw [exec_ppsEdge_of_everReady hon hready, State.ppsAway_of_beyond hfar]
    rfl
  case stepped =>
    intro s ref10m hon hnew hoff t
    exact exec_ppsEdge_of_aligned hon (by rw [State.ppsAlign_of_off hnew hoff]; rfl) ref10m

end Sys2Proof.Machine
end

/-! # Ports, admission and frames

What the events of ports do: training and its retry, peer admission and the soak that follows, frames and routes, warnings, keys, and the host's
reset lines (12_links R354 R355 R357 R358 R359 R360 R363 R366 R370 R377, 17_physical R520; log entries 79 and 116). A port is read as s.ports[p]
throughout, so simp's rule that reads it by its number (Fin.getElem_fin) is left out where a hypothesis speaks of it. -/

section
namespace Sys2Proof.Machine

/-! ## Ports that are set -/

/-- Of two settings of one port the later one stands. -/
theorem State.setPort_setPort (s : State) (p : Port) (x y : PortS) : (s.setPort p x).setPort p y = s.setPort p y := by
  simp only [State.setPort, Vector.set_set]

/-- A port that is set to a state leaves every other port. -/
theorem State.portTo_other (s : State) {p q : Port} (h : q ≠ p) (st : PortSt) (r : Nat) : (s.portTo p st r).ports[q] = s.ports[q] := by
  simp only [State.portTo, State.native, State.addRec, State.addRecAt_ports]
  exact s.setPort_other p q _ h

theorem PortS.carries_iff {x : PortS} : x.carries = true ↔ x.st = .up ∨ x.st = .retraining := by simp [PortS.carries]

/-! ## Training (R354) -/

theorem exec_trainingRetry_of_due {s : State} {p : Port} (hst : s.ports[p].st = .down) (hdue : s.ports[p].at_ + 1000000000 ≤ s.clock)
    (hrole : lnkRole s.act p.val ≠ 0) (href : s.guard.refLost = none) : exec (.trainingRetry p) s = .next (s.startTraining p) :=
  if_pos (by simp [-Fin.getElem_fin, hst, hdue, hrole, href])

section
variable {s : State} {p : Port} (hst : s.ports[p].st = .training)
include hst

theorem exec_signalDetect_of_training (hlink : s.isLink p = true) :
    exec (.signalDetect p) s = .next (s.setPort p { s.ports[p] with signal := true }) :=
  if_pos (by simp [-Fin.getElem_fin, hst, hlink])

/-- What the frame lock of a training port's lanes comes to: its admission, or the end of the attempt with a REASON (Table 12-3). -/
def State.endLock (s : State) (p : Port) : LockResult → State
  | .locked => s.beginAdmission p
  | .noConvergence => (s.portDown p 2).portsSettle
  | .generationMismatch => (s.portDown p 3).portsSettle
  | .noLock => (s.portDown p 4).portsSettle

theorem exec_frameLock_of_training (hlink : s.isLink p = true) (hsig : s.ports[p].signal = true) (r : LockResult) :
    exec (.frameLock p r) s = .next (s.endLock p r) := by
  refine (if_neg (by simp [-Fin.getElem_fin, hst])).trans ((if_pos (by simp [-Fin.getElem_fin, hst, hlink, hsig])).trans ?_)
  cases r <;> rfl

theorem exec_noSignal_of_due (hlink : s.isLink p = true) (hsig : s.ports[p].signal = false) (hdue : s.ports[p].at_ + 1000000000 ≤ s.clock)
    (lane : Nat) :
    let t := s.portDown p 1
    exec (.noSignal p lane) s =
      .next (((t.setPort p { t.ports[p] with lane := lane % 8 }).emit (.report 0x0201 (p.val + 256 * (lane % 8)))).portsSettle) :=
  if_pos (by simp [-Fin.getElem_fin, hst, hlink, hsig, hdue])

/-- The link of a host port whose host is seen comes up: port 0 takes the host from port 1, and port 1 stands by where port 0 is a host port (R366). -/
theorem exec_hostLinkUp_of_signal (hhost : s.isHost p = true) (hsig : s.ports[p].signal = true) :
    exec (.hostLinkUp p) s = .next (if p.val = 0 then
        (if (s.portTo p .hostUp 0).ports[(1 : Port)].st = .hostUp then (s.portTo p .hostUp 0).portTo 1 .hostStandby 0
          else s.portTo p .hostUp 0).portsSettle
      else (s.portTo p (if s.isHost 0 then .hostStandby else .hostUp) 0).portsSettle) := by
  refine (if_neg (by simp [-Fin.getElem_fin, hhost, hst, hsig])).trans ?_
  exact (apply_ite Host.Outcome.next _ _ _).symm

end

/-- The lanes of a quarantined port train again: the soak is due at its release (R379). -/
theorem exec_frameLock_of_quarantined {s : State} {p : Port} (hst : s.ports[p].st = .quarantined) (hlink : s.isLink p = true)
    (hsig : s.ports[p].signal = false) :
    exec (.frameLock p .locked) s = .next (s.setPort p { s.ports[p] with signal := true, soakDue := true }) :=
  if_pos (by simp [-Fin.getElem_fin, hst, hlink, hsig])

/-- Settles O40: a lemma of the event for each clause. -/
theorem portsTrain : Obligations.PortsTrain := by
  unfold Obligations.PortsTrain
  intro s p
  refine ⟨exec_trainingRetry_of_due, exec_signalDetect_of_training, fun hst hlink hsig => ?lock, exec_frameLock_of_quarantined,
    fun lane hst hlink hsig hdue => exec_noSignal_of_due hst hlink hsig hdue lane, fun hhost hst hsig => ⟨fun hp => ?second, fun hp => ?first⟩⟩
  case lock =>
    have hlock := exec_frameLock_of_training hst hlink hsig
    exact ⟨hlock .locked, hlock .noConvergence, hlock .generationMismatch, hlock .noLock⟩
  case second => rw [exec_hostLinkUp_of_signal hst hhost hsig, if_neg hp]
  case first =>
    have hne : (1 : Port) ≠ p := fun e => absurd (e ▸ hp : (1 : Port).val = 0) (by decide)
    rw [exec_hostLinkUp_of_signal hst hhost hsig, if_pos hp, s.portTo_other hne]

/-! ## Peer admission (R360) -/

section
variable {s : State} {p : Port} (hst : s.ports[p].st = .admitting)
include hst

theorem exec_hello_of_first (hchain : s.ports[p].adm.chain = none) (chain : Bytes) (major : Nat) (part : BitVec 16) (port : Nat) :
    exec (.peerAdmissionMessage p (.hello chain major part port)) s =
      .next ((s.setPort p { s.ports[p] with
        adm := { s.ports[p].adm with chain := some chain, major := major, part := part, port := port } }).emit
        (.admission p (.keys (Config.ephemeralKey p.val s.ports[p].attempt) (Config.ownChallenge p.val s.ports[p].attempt)))) :=
  (if_neg (not_not.2 hst)).trans (if_neg (by simp [-Fin.getElem_fin, hchain]))

/-- The keys that follow the chain are answered with a signature, where there is an identity key (16_guard R484). -/
theorem exec_keys_of_first (hchain : s.ports[p].adm.chain.isSome = true) (hkeys : s.ports[p].adm.keys = none)
    (hid : s.guard.bring.finalFail ≠ some (2, 0)) (eph chal : Bytes) :
    let t := s.setPort p { s.ports[p] with adm := { s.ports[p].adm with keys := some (eph, chal) } }
    exec (.peerAdmissionMessage p (.keys eph chal)) s = .next (t.emit (.admission p (.signature (Config.identitySign (t.transcript p true))))) := by
  have hnext : ¬(s.ports[p].adm.chain.isNone || s.ports[p].adm.keys.isSome) = true := by
    simp [-Fin.getElem_fin, hkeys, Option.isSome_iff_ne_none.1 hchain]
  exact (if_neg (not_not.2 hst)).trans ((if_neg hnext).trans (if_neg hid))

/-- The signature that follows the keys admits on to the confirmation, unless the peer is bad (R361). -/
theorem exec_signature_of_first (hkeys : s.ports[p].adm.keys.isSome = true) (hsig : s.ports[p].adm.sigOk = false) (sig : Bytes) :
    exec (.peerAdmissionMessage p (.signature sig)) s = .next ((s.peerBad p sig).elim
      ((s.deriveKeys p).emit (.admission p (.confirm (Config.confirmMac (s.deriveKeys p).ports[p].confirmKey true)))) (s.admissionFails p)) := by
  have hnext : ¬(s.ports[p].adm.keys.isNone || s.ports[p].adm.sigOk) = true := by
    simp [-Fin.getElem_fin, hsig, Option.isSome_iff_ne_none.1 hkeys]
  refine (if_neg (not_not.2 hst)).trans ((if_neg hnext).trans ?_)
  cases s.peerBad p sig <;> rfl

/-- The confirmation that follows the signature decides the admission (R361, REASON 7). -/
theorem exec_confirm_of_signed (hsig : s.ports[p].adm.sigOk = true) (mac : Bytes) :
    exec (.peerAdmissionMessage p (.confirm mac)) s =
      .next (if mac = Config.confirmMac s.ports[p].confirmKey false then s.admitPeer p else s.admissionFails p 7) :=
  (if_neg (not_not.2 hst)).trans ((if_neg (by simp [-Fin.getElem_fin, hsig])).trans (apply_ite Host.Outcome.next _ _ _).symm)

end

/-! ## The soak (R355) -/

/-- The port with the result of a soak and its counts. -/
def State.soaked (s : State) (k : Soak) : State :=
  let x := s.ports[k.port]
  s.setPort k.port { x with soak := some k, lane := k.lane, corrected := satAdd64 x.corrected k.corrected, uncorr := satAdd64 x.uncorr k.uncorr }

theorem exec_qualificationSoakEnd_of_due {s : State} {k : Soak} (hst : s.ports[k.port].st = .qualifying)
    (hdue : s.ports[k.port].at_ + 2000000000 ≤ s.clock) :
    exec (.qualificationSoakEnd k) s =
      .next (if soakPass k then (s.soaked k).goUp k.port else ((s.soaked k).portDown k.port 8).portsSettle) :=
  (if_neg (by simp [-Fin.getElem_fin, hst, hdue])).trans (apply_ite Host.Outcome.next _ _ _).symm

/-- Settles O41: a lemma of the message for each order of the admission, and the lemma of the soak. -/
theorem peersAreAdmitted : Obligations.PeersAreAdmitted := by
  unfold Obligations.PeersAreAdmitted
  refine ⟨fun s p hst => ⟨?hello, ?keys, ?signature, ?confirm⟩, fun s k hst hdue => ?soak⟩
  case hello => exact fun chain major part port hchain => exec_hello_of_first hst hchain chain major part port
  case keys => exact fun eph chal hchain hkeys hid => exec_keys_of_first hst hchain hkeys hid eph chal
  case signature =>
    intro sig hkeys hsig
    rw [exec_signature_of_first hst hkeys hsig]
    cases s.peerBad p sig <;> rfl
  case confirm =>
    intro mac hsig
    rw [exec_confirm_of_signed hst hsig]
    exact ⟨fun hgood => by rw [if_pos hgood], fun hbad => by rw [if_neg hbad]⟩
  case soak =>
    rw [exec_qualificationSoakEnd_of_due hst hdue]
    exact ⟨fun hpass => by rw [if_pos hpass]; rfl, fun hfail => by rw [if_neg (Bool.eq_false_iff.1 hfail)]; rfl⟩

/-! ## Frames (R358 R370 R377) -/

/-- The port has counted one more frame. -/
def State.countFrame (s : State) (p : Port) : State := s.setPort p { s.ports[p] with frames := s.ports[p].frames + 1 }

/-- The hop by which a frame enters here. -/
def State.entryHop (s : State) (p : Port) (f : Frame) : Option Hop :=
  s.hops.find? fun h => h.resId = f.resId && h.role ≠ 0 && h.inPort = p.val && h.vc = f.vc

/-- A frame that a hop names is delivered at its destination, or goes on where the next port has an admitted peer. -/
def State.passFrame (s : State) (p : Port) (f : Frame) (h : Hop) : State :=
  if h.role = 2 then s.deliver p f.body
  else (portId h.outPort).elim s fun q => if s.ports[q].admitted then s.emit (.forward q f) else s

/-- A frame that is authentic where the port encrypts, whole, and carries the reservation that it names. -/
structure State.Genuine (s : State) (p : Port) (f : Frame) : Prop where
  authentic : lnkCrypt s.act p.val = false ∨ f.authOk = true
  whole : f.overrun = false
  named : bodyRes f.body = some f.resId

section
variable {s : State} {p : Port} {f : Frame} (hadm : s.ports[p].admitted = true)
include hadm

theorem exec_dataFrameReceive_of_bad
    (hbad : (lnkCrypt s.act p.val = true ∧ f.authOk = false) ∨ f.overrun = true ∨ bodyRes f.body ≠ some f.resId) :
    exec (.dataFrameReceive p f) s = .next ((s.countFrame p).malformed p) := by
  have htest : (lnkCrypt s.act p.val && !f.authOk || f.overrun || decide (bodyRes f.body ≠ some f.resId)) = true := by
    simpa [or_assoc] using hbad
  exact (if_neg (by simp [-Fin.getElem_fin, hadm])).trans (if_pos htest)

/-- A genuine frame is malformed traffic where no hop names it; a hop that names it passes it on. -/
theorem exec_dataFrameReceive_of_genuine (hgood : s.Genuine p f) :
    exec (.dataFrameReceive p f) s =
      .next ((s.entryHop p f).elim ((s.countFrame p).malformed p) ((s.countFrame p).passFrame p f)) := by
  have htest : ¬(lnkCrypt s.act p.val && !f.authOk || f.overrun || decide (bodyRes f.body ≠ some f.resId)) = true := by
    rcases hgood.authentic with hplain | hauth <;> simp [-Fin.getElem_fin, *, hgood.whole, hgood.named]
  refine (if_neg (by simp [-Fin.getElem_fin, hadm])).trans ((if_neg htest).trans ?_)
  change (match s.entryHop p f with | none => _ | some h => _) = _
  cases s.entryHop p f with
  | none => rfl
  | some h =>
    simp only [Option.elim_some, State.passFrame]
    split
    · rfl
    · cases portId h.outPort <;> rfl

end

theorem exec_frameReplay_of_carries {s : State} {p : Port} (h : s.ports[p].carries = true) (q : Nat) :
    exec (.frameReplay p q) s =
      .next ((s.setPort p { s.ports[p] with replays := satAdd64 s.ports[p].replays 1 }).emit (.replayFrame p q)) :=
  if_pos h

/-! ## Loss and retraining (R358 R359) -/

theorem exec_fastRetrain_of_up {s : State} {p : Port} (h : s.ports[p].st = .up) :
    let t := s.portTo p .retraining 0
    exec (.fastRetrain p) s = .next (t.setPort p { t.ports[p] with retrains := satAdd32 t.ports[p].retrains 1 }) :=
  if_pos h

theorem exec_retrainComplete_of_timely {s : State} {p : Port} (hst : s.ports[p].st = .retraining)
    (htimely : s.clock ≤ s.ports[p].at_ + 2000000) (good : Bool) :
    exec (.retrainComplete p good) s = .next (if good then (s.portTo p .up 0).portsSettle else (s.portDown p 13).portsSettle) := by
  refine (if_neg (not_not.2 hst)).trans ?_
  simp only [htimely, decide_true, Bool.and_true]
  exact (apply_ite Host.Outcome.next _ _ _).symm

/-- A port that has a signal to lose: it carries traffic, or trains on one. -/
theorem exec_lossOfSignal_of_lit {s : State} {p : Port} (h : s.ports[p].carries = true ∨ s.ports[p].st = .training ∧ s.ports[p].signal = true) :
    exec (.lossOfSignal p) s = .next (s.portDown p 1).portsSettle := by
  change execLossOfSignal p s = _
  rcases h with hcarries | ⟨hst, hsig⟩
  · rcases PortS.carries_iff.1 hcarries with hst | hst <;> simp only [execLossOfSignal, hst, ok]
  · simp only [execLossOfSignal, hst, hsig, if_true, ok]

theorem exec_lossOfSignal_of_quarantined {s : State} {p : Port} (h : s.ports[p].st = .quarantined) :
    exec (.lossOfSignal p) s = .next (s.setPort p { s.ports[p] with signal := false }) := by
  change execLossOfSignal p s = _
  simp only [execLossOfSignal, h, ok]

/-- A route that a neighbour closed is closed here, and a transit hop passes the message on to its own neighbour. -/
theorem exec_routeClosed_of_hop {s : State} {p : Port} {res : W64} {h : Hop} (hadm : s.ports[p].admitted = true)
    (hhop : (s.hops.find? fun h => h.resId = res && h.role ≠ 2 && h.outPort = p.val) = some h) :
    exec (.routeClosed p res) s = .next ((portId h.inPort).elim (s.closeRoute res p.val) fun q =>
      if h.role = 1 then (s.closeRoute res p.val).emit (.routeClosed q res) else s.closeRoute res p.val) := by
  change execRouteClosed p res s = _
  simp only [execRouteClosed, hadm, hhop, Bool.not_true, Bool.false_eq_true, if_false]
  cases portId h.inPort <;> rfl

/-- Settles O42: a lemma of the event for each clause, and the hop's role for the frames and the closed routes. -/
theorem framesAndRoutesMove : Obligations.FramesAndRoutesMove := by
  unfold Obligations.FramesAndRoutesMove
  refine ⟨⟨fun s p f hadm => ⟨exec_dataFrameReceive_of_bad hadm, fun hauth hwhole hnamed => ?genuine⟩,
      fun s p q h => exec_frameReplay_of_carries h q⟩,
    fun s p res => ⟨exec_fastRetrain_of_up, fun hst htimely => ?retrain, exec_lossOfSignal_of_lit, exec_lossOfSignal_of_quarantined,
      fun h hadm hhop => ?closed⟩⟩
  case genuine =>
    have hframe := exec_dataFrameReceive_of_genuine hadm ⟨hauth, hwhole, hnamed⟩
    refine ⟨fun hnone => ?_, fun h q hhop => ⟨fun hdest => ?_, fun htransit hq hnext => ?_⟩⟩
    · rw [hframe, show s.entryHop p f = none from hnone]
      rfl
    · rw [hframe, show s.entryHop p f = some h from hhop, Option.elim_some, State.passFrame, if_pos hdest]
      rfl
    · rw [hframe, show s.entryHop p f = some h from hhop, Option.elim_some, State.passFrame, if_neg htransit, hq, Option.elim_some]
      exact congrArg _ (if_pos hnext)
  case retrain =>
    have hends := exec_retrainComplete_of_timely hst htimely
    exact ⟨(hends true).trans (congrArg _ (if_pos rfl)), (hends false).trans (congrArg _ (if_neg Bool.false_ne_true))⟩
  case closed =>
    rw [exec_routeClosed_of_hop hadm hhop]
    refine ⟨fun hrole => ?_, fun q hrole hq => ?_⟩
    · cases portId h.inPort with
      | none => rfl
      | some q => rw [Option.elim_some, if_neg hrole]
    · rw [hq, Option.elim_some, if_pos hrole]

/-! ## Warnings, credits and keys (R357 R363 R377) -/

/-- The port with the counts of 1 s of its traffic, and since when its bit error rate is low. -/
def State.watched (s : State) (k : Soak) : State :=
  let x := s.ports[k.port]
  s.setPort k.port { x with
    corrected := satAdd64 x.corrected k.corrected, uncorr := satAdd64 x.uncorr k.uncorr
    lowSince := if k.cber.toNat < 0x36A7C5AC then some (x.lowSince.getD s.clock) else none }

theorem exec_linkWarning_of_up {s : State} {k : Soak} (h : s.ports[k.port].st = .up) :
    exec (.linkWarning k) s =
      .next (if 0x3727C5AC < k.cber.toNat ∨ k.uncorr ≠ 0 then (s.watched k).warnLink k.port k.cber else s.watched k) := by
  refine (if_neg (not_not.2 h)).trans ?_
  simp only [Bool.or_eq_true, decide_eq_true_eq]
  exact (apply_ite Host.Outcome.next _ _ _).symm

theorem exec_linkWarningClear_of_due {s : State} {p : Port} {t : Nat} (hlow : s.ports[p].lowSince = some t) (hwarned : s.ports[p].warned = true)
    (hdue : t + 60000000000 ≤ s.clock) : exec (.linkWarningClear p) s = .next (s.setPort p { s.ports[p] with warned := false }) := by
  change execLinkWarningClear p s = _
  simp only [execLinkWarningClear, hlow]
  exact if_pos (by simp [-Fin.getElem_fin, hwarned, hdue])

theorem exec_vcCreditStall_of_enabled {s : State} {p : Port} {vc : Nat} (hcarries : s.ports[p].carries = true) (hvc : vc < 8)
    (hen : lnkVcEn s.act p.val vc = true) : exec (.vcCreditStall p vc) s = .next (s.malformedNow p 11).portsSettle :=
  if_pos (by simp [-Fin.getElem_fin, hcarries, hvc, hen])

theorem exec_keyRenewal_of_due {s : State} {p : Port} (hadm : s.ports[p].admitted = true)
    (hdue : 2 ^ 40 ≤ s.ports[p].frames ∨ s.ports[p].keyAt + 3600000000000 ≤ s.clock) :
    let x := s.ports[p]
    let k := Config.renewKey (x.session.getD 0)
    let t := x.traffic.map fun _ => Config.trafficKey k ((s.guard.keys.toList.getD (lnkKeySlot s.act p.val) none).getD 0)
    exec (.keyRenewal p) s = .next ((s.setPort p { x with session := some k, traffic := t, frames := 0, keyAt := s.clock }).emit (.keyRenewed p)) :=
  if_pos (by simpa only [hadm, Bool.true_and, Bool.or_eq_true, decide_eq_true_eq] using hdue)

/-! ## The host's reset lines and the standby (R366, 17_physical R520) -/

/-- The standby port takes over where the first host port is not up. -/
theorem exec_hostPortFailover_of_standby {s : State} (hhost : s.isHost 0 = true) (hdown : s.ports[(0 : Port)].st ≠ .hostUp)
    (hstandby : s.ports[(1 : Port)].st = .hostStandby) : exec .hostPortFailover s = .next (s.portTo 1 .hostUp 0) :=
  if_pos (by simp [-Fin.getElem_fin, hhost, hdown, hstandby])

/-- The port of a reset line. -/
def linePort (second : Bool) : Port := if second then 1 else 0

/-- The port after a rise of its line, at which a host port that trains sees its host. -/
def State.lineUp (s : State) (p : Port) (seen : Bool) : State :=
  let x := s.ports[p]
  s.setPort p { x with perstHigh := true, signal := x.signal || seen, at_ := if seen then s.clock else x.at_ }

/-- The port after a fall of its line. -/
def State.lineDown (s : State) (p : Port) : State := s.setPort p { s.ports[p] with perstHigh := false }

theorem exec_hostPerstRise (s : State) (second : Bool) :
    exec (.hostPerstRise second) s =
      .next (s.lineUp (linePort second) (decide (s.ports[linePort second].st = .training) && s.isHost (linePort second))) := rfl

theorem State.lineUp_of_unseen (s : State) (p : Port) : s.lineUp p false = s.setPort p { s.ports[p] with perstHigh := true } := by
  simp only [State.lineUp, Bool.or_false, Bool.false_eq_true, if_false]

theorem State.lineUp_of_seen (s : State) (p : Port) :
    s.lineUp p true = s.setPort p { s.ports[p] with perstHigh := true, signal := true, at_ := s.clock } := by
  simp only [State.lineUp, Bool.or_true, if_true]

/-- What a fall does to a port: a host port that is on no longer sees its host, and trains. -/
def State.lineFall (s : State) (p : Port) : State :=
  let t := s.lineDown p
  if !t.isHost p || t.ports[p].st = .off then t
  else if t.ports[p].st = .training then t.setPort p { t.ports[p] with signal := false }
  else t.startTraining p

theorem exec_hostPerstFall (s : State) (second : Bool) : exec (.hostPerstFall second) s = .next (s.lineFall (linePort second)) := by
  simp only [State.lineFall, apply_ite Host.Outcome.next]
  rfl

theorem State.lineFall_of_noHost {s : State} {p : Port} (hhost : s.isHost p = false) : s.lineFall p = s.lineDown p :=
  if_pos (by rw [show (s.lineDown p).isHost p = false from hhost]; rfl)

/-- A host port that is on heeds a fall of its line. -/
theorem State.lineFall_of_on {s : State} {p : Port} (hhost : s.isHost p = true) (hon : s.ports[p].st ≠ .off) :
    s.lineFall p = if s.ports[p].st = .training then s.setPort p { s.ports[p] with perstHigh := false, signal := false }
      else (s.lineDown p).startTraining p := by
  have hport : (s.lineDown p).ports[p] = { s.ports[p] with perstHigh := false } := s.setPort_same p _
  have hheeds : ¬(!(s.lineDown p).isHost p || decide ((s.lineDown p).ports[p].st = .off)) = true := by
    rw [hport, show (s.lineDown p).isHost p = true from hhost]
    simpa [-Fin.getElem_fin] using hon
  refine (if_neg hheeds).trans ?_
  rw [hport, State.lineDown, s.setPort_setPort]

/-- Settles O43: a lemma of the event for each clause. -/
theorem linkWarningsAndHostLinesAct : Obligations.LinkWarningsAndHostLinesAct := by
  unfold Obligations.LinkWarningsAndHostLinesAct
  refine ⟨⟨fun s k => exec_linkWarning_of_up, fun s p t => exec_linkWarningClear_of_due, fun s p vc => exec_vcCreditStall_of_enabled,
    fun s p => exec_keyRenewal_of_due⟩, fun s second => ?lines, fun s => exec_hostPortFailover_of_standby⟩
  case lines =>
    intro p x
    have hrise : exec (.hostPerstRise second) s = .next (s.lineUp p (decide (x.st = .training) && s.isHost p)) := exec_hostPerstRise s second
    have hfall : exec (.hostPerstFall second) s = .next (s.lineFall p) := exec_hostPerstFall s second
    refine ⟨fun hunseen => ?_, fun hst hhost => ?_, fun hhost => ?_, fun hhost hst => ?_, fun hhost hst hon => ?_⟩
    · have hseen : (decide (x.st = .training) && s.isHost p) = false := by rcases hunseen with h | h <;> simp [h]
      rw [hrise, hseen, s.lineUp_of_unseen]
    · rw [hrise, hhost, decide_eq_true hst, Bool.and_self, s.lineUp_of_seen]
    · rw [hfall, State.lineFall_of_noHost hhost]
      rfl
    · rw [hfall, State.lineFall_of_on hhost (by rw [hst]; decide), if_pos hst]
    · rw [hfall, State.lineFall_of_on hhost hon, if_neg hst]
      rfl

end Sys2Proof.Machine
end

/-! # The queue and the log

A step runs the front command of the queue, and no command is refused or changes the queue; every step keeps the bounds of the error log
(00_scope, 15_faults R450; log entries 1 and 4). Each follows from what each meaning keeps (exec_kept). -/

section
namespace Sys2Proof.Machine

/-- Settles O1: the step of a queue that is not empty is its second case. -/
theorem stepRunsTheFrontCommand : Obligations.StepRunsTheFrontCommand := by
  unfold Obligations.StepRunsTheFrontCommand
  intro s c cs
  rfl

/-- Settles O3: what every command keeps includes the queue. -/
theorem noCommandTouchesTheQueue : Obligations.NoCommandTouchesTheQueue := by
  unfold Obligations.NoCommandTouchesTheQueue
  intro c s t hnext
  exact ((exec_kept (Kept.refl s) c).next t hnext).queue

/-- Settles O6: every command answers a next state or faults. -/
theorem noCommandIsRefused : Obligations.NoCommandIsRefused := by
  unfold Obligations.NoCommandIsRefused
  intro c s
  exact (exec_kept (Kept.refl s) c).runs

/-- Settles O5: a step keeps the ring and the pinned area, and taking a command from the queue does not touch them. -/
theorem everyStepKeepsTheLogBounds : Obligations.EveryStepKeepsTheLogBounds := by
  unfold Obligations.EveryStepKeepsTheLogBounds
  intro s t hlog hstep
  obtain ⟨hring, harea⟩ := hlog
  have hkept := step_kept hstep
  exact ⟨hkept.ring hring, hkept.area harea⟩

end Sys2Proof.Machine
end

/-! # JTAG

What the JTAG instructions load, and which instruction acts in which state of the device (17_physical R521). -/

section
namespace Sys2Proof.Machine

/-- The instructions of the boundary scan: they act in NOT_READY and REMOVED only. -/
def Jtag.gated : Jtag → Bool
  | .extest | .clamp | .highz => true
  | _ => false

theorem State.jtagActs_of_open {s : State} (h : s.guard.devState = .notReady ∨ s.guard.devState = .removed) : s.jtagActs = s.guard.jtag := by
  have hopen : (decide (s.guard.devState = .notReady) || decide (s.guard.devState = .removed)) = true := by simpa using h
  unfold State.jtagActs
  cases s.guard.jtag <;> simp only [hopen, if_true]

theorem State.jtagActs_of_closed {s : State} (hn : s.guard.devState ≠ .notReady) (hr : s.guard.devState ≠ .removed) :
    s.jtagActs = if s.guard.jtag.gated then .bypass else s.guard.jtag := by
  unfold State.jtagActs Jtag.gated
  cases s.guard.jtag <;> simp [hn, hr]

theorem Jtag.gated_iff (j : Jtag) : j.gated = true ↔ j = .extest ∨ j = .clamp ∨ j = .highz := by
  cases j <;> decide

/-- Settles O53: an instruction is loaded as it is, and the one that acts is read off the state of the device. -/
theorem jtagInstructionsAct : Obligations.JtagInstructionsAct := by
  unfold Obligations.JtagInstructionsAct
  refine ⟨fun s => ⟨rfl, rfl, rfl, rfl, rfl, rfl⟩, fun s => State.jtagActs_of_open, fun s hn hr => ?_⟩
  rw [State.jtagActs_of_closed hn hr]
  simp only [Jtag.gated_iff]

end Sys2Proof.Machine
end

/-! # Requests of the Guard

How the Guard takes a request, and what the requests that read, those that set and those that relay a command do (15_faults R450 R462 R465,
16_guard R479 R481 R482 R483 R486 R488 R492 R493 R495 R496 R539; log entries 117 and 124). -/

section
namespace Sys2Proof.Machine

/-! ## From a request to its own function -/

section
variable {s t : State} {src : Src} {code : Nat} {data : Bytes} {r : GReq} {fixed : Nat} {resv : List (Nat × Nat)} {c : Instr}
  {mine : Bytes → Bool} {may : GReq → Bool} {f : GReq → State → State}

/-- A request that its source may send handles what its own function gives of the state that has heard it. -/
theorem Asks.handles (h : Asks s src code data r fixed resv) (he : exec c s = s.request src code data mine may fixed resv f)
    (hm : mine r.data = true) (ha : may r = true) (hf : f r (s.heardBy src) = t) : Handles s c r t := by
  rw [Handles, he, h.serve mine may f hm ha, hf]

/-- A request whose source lacks its class is refused with REFUSED_AUTH. -/
theorem Asks.handles_refused (h : Asks s src code data r fixed resv) (he : exec c s = s.request src code data mine may fixed resv f)
    (hm : mine r.data = true) (ha : may r = false) : Handles s c r ((s.heardBy src).answer src stAuth 0 []) := by
  obtain ⟨rfl, -⟩ := State.reqOf_eq h.reaches
  obtain ⟨-, -, hseq, -⟩ := s.heardBy_same r.src
  rw [Handles, he, ← hseq]
  simp only [State.request, h.reaches, hm, if_true, ok, State.serve, ha]
  rfl

/-- A request that every source may send. -/
theorem Asks.handles_open (h : Asks s src code data r fixed resv) (he : exec c s = s.request src code data anyData openReq fixed resv f)
    (hf : f r (s.heardBy src) = t) : Handles s c r t := h.handles he rfl rfl hf

/-- A request that the owner alone may send, of the owner. -/
theorem Asks.handles_owner (h : Asks s src code data r fixed resv) (he : exec c s = s.request src code data anyData s.ownerReq fixed resv f)
    (ho : s.isOwner src = true) (hf : f r (s.heardBy src) = t) : Handles s c r t := by
  obtain ⟨rfl, -⟩ := State.reqOf_eq h.reaches
  exact h.handles he rfl ho hf

/-- A request keeps its source. -/
theorem Asks.src_eq (h : Asks s src code data r fixed resv) : r.src = src := (State.reqOf_eq h.reaches).1

end

/-! ## The mailbox -/

/-- The codes that the Guard takes (Table 16-3). -/
def guardCode (c : Nat) : Bool := (decide (1 ≤ c) && decide (c ≤ 8)) || (decide (0x10 ≤ c) && decide (c ≤ 0x1C))

theorem exec_guardTake_of_expected {s : State} (hp : s.guard.powered = true) (hst : s.guard.mbox.hdr.state = 1)
    (hseq : s.guard.mbox.hdr.seq = s.guard.mbox.expSeq) (hwf : s.guard.mbox.hdr.wellFormed = true) (hctx : s.guard.mbox.hdr.ctx = 0)
    (hcode : guardCode s.guard.mbox.hdr.cmd.toNat = true) :
    exec .guardTake s = .next { s with guard.mbox := { s.guard.mbox with
      expSeq := s.guard.mbox.expSeq + 1, hdr := { s.guard.mbox.hdr with state := 2 }, takenAt := s.clock } } := by
  change execGuardTake s = _
  unfold guardCode at hcode
  simp only [execGuardTake, hp, hst, hseq, hwf, hctx, hcode, Bool.not_true, ne_eq, not_true_eq_false, decide_false, Bool.or_self, Bool.false_eq_true,
    if_false]
  rfl

theorem exec_guardTake_of_unexpected {s : State} (hp : s.guard.powered = true) (hst : s.guard.mbox.hdr.state = 1)
    (hseq : s.guard.mbox.hdr.seq ≠ s.guard.mbox.expSeq) :
    exec .guardTake s = .next (s.answer .mailbox stSequence (s.guard.mbox.expSeq.toNat % 65536) []) :=
  (if_neg (by simp [hp, hst])).trans (if_pos hseq)

/-! ## Requests that read -/

/-- Settles O44: the Guard takes what is expected, and each request that reads passes its own checks. -/
theorem theGuardTakesAndAnswers : Obligations.TheGuardTakesAndAnswers := by
  unfold Obligations.TheGuardTakesAndAnswers
  refine ⟨fun s hp hst => ⟨fun hseq hwf hctx hcode => ?take, exec_guardTake_of_unexpected hp hst⟩,
    fun s src data r => ⟨?log, ?dump, ?sensors, ?firmware, ?attestation⟩⟩
  case take => exact exec_guardTake_of_expected hp hst hseq hwf hctx (by simpa [guardCode] using hcode)
  case log =>
    intro ha hcount
    obtain rfl := ha.src_eq
    exact ha.handles_open rfl (if_neg (Nat.not_lt.2 hcount))
  case dump =>
    intro d ha hslot hlen hend h0 hd
    obtain rfl := ha.src_eq
    refine ha.handles_open rfl ?_
    obtain ⟨-, -, -, -, hdumps, -⟩ := s.heardBy_same r.src
    have hfits : ¬(decide (1 < fld r.data 0 1) || decide (4032 < fld r.data 16 4) || decide (0x20000000 < fld r.data 8 8 + fld r.data 16 4)) = true := by
      simp only [Bool.or_eq_true, decide_eq_true_eq]
      omega
    rw [← hdumps] at hd
    simp only [if_neg hfits, if_neg h0, hd]
  case sensors =>
    intro ha
    obtain rfl := ha.src_eq
    exact ha.handles_open rfl rfl
  case firmware =>
    intro ha
    obtain rfl := ha.src_eq
    exact ha.handles_open rfl rfl
  case attestation =>
    intro ha
    obtain rfl := ha.src_eq
    exact ha.handles_open rfl rfl

/-! ## Requests that set -/

section
variable {u : State} {r : GReq} {k : Fin 16}

/-- A key slot that no port uses holds the key that is set (R495). -/
theorem State.setKey_of_unused (hk : fld r.data 0 1 = k.val) (huse : u.keyInUse k.val = false) (key : Option (BitVec 256)) :
    u.setKey r key = { u with guard.keys := u.guard.keys.set k key }.answer r.src stOk 0 [] := by
  have hslot : (Fin.ofNat 16 k.val : Fin 16) = k := Fin.ext (Nat.mod_eq_of_lt k.isLt)
  simp only [State.setKey, hk, if_neg (show ¬15 < k.val by omega), huse, Bool.false_eq_true, if_false, hslot]

/-- A limit whose fields lie in their ranges passes the first check of SET_LIMIT (R483). -/
theorem State.setLimit_formed {b : Bytes} (hok : u.limitOk (fld b 0 2) (fld b 2 1) = true) (hlo : 25 ≤ fld b 3 1) (hhi : fld b 3 1 ≤ 100) :
    ¬(!u.limitOk (fld b 0 2) (fld b 2 1) || decide (fld b 3 1 < 25) || decide (100 < fld b 3 1)) = true := by
  simp [hok, hlo, hhi]

/-- A piece of a bundle whose bytes are all there and lie in the bank passes the checks of FW_STAGE (R488). -/
theorem fwStage_formed {b : Bytes} (hcount : fld b 8 4 ≤ 4000) (hzeros : fld b 12 4 = 0) (hwhole : 16 + fld b 8 4 ≤ b.length)
    (hbank : fld b 0 8 + fld b 8 4 ≤ bankSize) :
    ¬(decide (4000 < fld b 8 4) || decide (fld b 12 4 ≠ 0) || decide (b.length < 16 + fld b 8 4) || decide (bankSize < fld b 0 8 + fld b 8 4)) = true := by
  simp only [Bool.or_eq_true, decide_eq_true_eq]
  omega

/-- A request of a management session comes from one. -/
theorem State.exists_session_of_fromMgmt {s : State} {src : Src} (h : s.fromMgmt src = true) : ∃ n t, src = .mgmt n t := by
  cases src with
  | mgmt n t => exact ⟨n, t, rfl⟩
  | mailbox => exact absurd h Bool.false_ne_true
  | i3c t => exact absurd h Bool.false_ne_true

end

/-- Settles O45: each request passes its own checks, and its meaning is the answer of the state with the part set. -/
theorem settingRequestsSet : Obligations.SettingRequestsSet := by
  unfold Obligations.SettingRequestsSet
  refine ⟨fun s src data r => ⟨?limit, ?beyond, ?bound, ?policy, ?clear, ?notOwner⟩,
    fun s src data r => ⟨?install, ?erase, ?ticket, ?stage, ?take, ?release, ?config⟩⟩
  case limit =>
    intro ha hok hlo hhi hplim hceil
    obtain rfl := ha.src_eq
    refine ha.handles_open rfl ?_
    exact (if_neg (State.setLimit_formed hok hlo hhi)).trans (if_neg (not_decide_or (Nat.not_lt.2 hplim) (Nat.not_lt.2 hceil)))
  case beyond =>
    intro ha hok hlo hhi hbeyond
    obtain rfl := ha.src_eq
    refine ha.handles_open rfl ?_
    exact (if_neg (State.setLimit_formed hok hlo hhi)).trans (if_pos (by simpa using hbeyond))
  case bound =>
    intro ha howner hok
    obtain rfl := ha.src_eq
    exact ha.handles_owner rfl howner (if_neg (by rw [hok]; exact Bool.false_ne_true))
  case policy =>
    intro ha howner hn1 hn2 hw1 hw2
    obtain rfl := ha.src_eq
    refine ha.handles_owner rfl howner (if_neg ?_)
    simp only [Bool.or_eq_true, decide_eq_true_eq]
    omega
  case clear =>
    intro ha howner hlog
    obtain rfl := ha.src_eq
    refine ha.handles_owner rfl howner (if_neg ?_)
    simpa only [Bool.and_eq_true, decide_eq_true_eq, not_and_or] using hlog
  case notOwner =>
    intro ha howner
    obtain rfl := ha.src_eq
    exact ha.handles_refused (mine := anyData) (may := s.ownerReq) rfl rfl howner
  case install =>
    intro k ha howner hk huse
    obtain rfl := ha.src_eq
    exact ha.handles_owner rfl howner (State.setKey_of_unused hk huse _)
  case erase =>
    intro k ha howner hk huse
    obtain rfl := ha.src_eq
    exact ha.handles_owner rfl howner (State.setKey_of_unused hk huse _)
  case ticket =>
    intro ha howner
    obtain rfl := ha.src_eq
    exact ha.handles_owner rfl howner rfl
  case stage =>
    intro ha howner hreset off n f m len hcount hzeros hwhole hbank good
    obtain rfl := ha.src_eq
    have hstages : ∀ u : State, u.guard.bring.resetRec = none →
        (if u.guard.bring.resetRec.isSome then ({ u with guard := { u.guard with heldFw := u.guard.heldFw ++ [r] } }).keepReq r.src
          else u.fwStage r.src r.data) = u.fwStage r.src r.data := fun u h => by rw [h]; rfl
    exact ⟨_, ha.handles_owner rfl howner
      ((hstages _ hreset).trans (if_neg (fwStage_formed hcount hzeros hwhole hbank))), rfl, rfl, rfl, rfl, rfl, rfl⟩
  case take =>
    intro ha hmgmt hnone hone
    obtain rfl := ha.src_eq
    refine ha.handles (mine := anyData) rfl rfl ?_ rfl
    obtain ⟨n, t, hsrc⟩ := State.exists_session_of_fromMgmt hmgmt
    rw [hsrc] at hmgmt
    simp only [hsrc, hmgmt, hnone, hone n t hsrc, Option.isNone_none, Option.getD_some, Bool.not_false, Bool.and_self]
  case release =>
    intro ha howner
    obtain rfl := ha.src_eq
    exact ha.handles_owner rfl howner rfl
  case config =>
    intro ha howner
    obtain rfl := ha.src_eq
    exact ha.handles_owner rfl howner rfl

/-! ## Requests that relay a command (R481) -/

/-- Settles O46: the payload and the slot pass the checks of the request, and a post that has expired is the only one. -/
theorem relayedPostsAct : Obligations.RelayedPostsAct := by
  unfold Obligations.RelayedPostsAct
  refine ⟨?requests, ?timeout⟩
  case requests =>
    intro s src data r ha hmay hok u b n x hclass
    obtain rfl := ha.src_eq
    have hform : ¬(!postOk r.data) = true := by simp [hok]
    constructor
    · intro hcmd hfree h k t
      refine ha.handles (mine := fun b => decide (fld b 2 2 ≠ 0)) (may := s.mayPost) rfl (decide_eq_true hcmd) hmay ?_
      exact (if_neg hform).trans ((if_neg (not_not.2 hclass)).trans (if_neg (not_not.2 hfree)))
    · intro off hfetch hheld hdone hlen hoff len t
      refine ha.handles (mine := fun b => decide (fld b 2 2 = 0)) (may := s.mayPost) rfl (decide_eq_true hfetch) hmay ?_
      refine (if_neg hform).trans ((if_neg (not_not.2 hclass)).trans ?_)
      have hlast : x.hdr.rlen.toNat - off ≤ 4024 := by omega
      have hfound : (u.guard.mheld.find? fun h => h.1 = n) = some (n, off) := by rw [hheld]; exact List.find?_cons_of_pos (decide_eq_true rfl)
      have hrest : (u.guard.mheld.filter fun (y : SlotId × Nat) => y ≠ (n, off)) = [] := by rw [hheld]; simp
      simp only [u, n, b] at hfound hrest
      simp only [hfound, hrest]
      refine (if_neg (not_not.2 hdone)).trans ((if_pos hlast).trans ?_)
      rw [min_eq_left hlast]
      rfl
  case timeout =>
    intro s m hposts hdue x t
    have hfound : (s.guard.mposts.find? fun k => k.src = m.src && decide (k.deadline ≤ s.clock)) = some m := by
      rw [hposts]; exact List.find?_cons_of_pos (by simp [hdue])
    have hrest : (s.guard.mposts.filter fun k => k ≠ m) = [] := by rw [hposts]; simp
    have hexec : exec (.mgmtPostTimeout m.src) s = .next ((if x.hdr.state = 1 then t.setSlot m.slot { x with hdr := { x.hdr with state := 0 } }
        else { t with guard.mheld := t.guard.mheld.filter (fun (y : SlotId × Nat) => y.1 ≠ m.slot) ++ [(m.slot, 0)] }).answer m.src stTimeout 0 []) := by
      change execMgmtPostTimeout m.src s = _
      simp only [execMgmtPostTimeout, hfound, hrest]
      rfl
    refine ⟨fun hposted => ?_, fun htaken => ?_⟩
    · rw [hexec, if_pos hposted]
    · rw [hexec, if_neg htaken]

end Sys2Proof.Machine
end

/-! # Records on their way to the collector

What RECORD_SEND, RECORD_REPEAT, COLLECTOR_ACK and SUMMARY_RECORD do while a secured session is open (15_faults R447 R451, 16_guard R493; log
entries 77 and 78). -/

section
namespace Sys2Proof.Machine

/-- Messages that are sent one after another stand in the list of what the block has sent, in their order. -/
theorem State.foldl_emit {α : Type} (f : α → OutMsg) (l : List α) (s : State) :
    l.foldl (fun s x => s.emit (f x)) s = { s with out := s.out ++ l.map f } := by
  induction l generalizing s with
  | nil => simp only [List.foldl_nil, List.map_nil, List.append_nil]
  | cons x l ih =>
    rw [List.foldl_cons, ih, List.map_cons]
    simp only [State.emit, List.append_assoc, List.singleton_append]

theorem exec_recordSend_of_some {s : State} (hup : s.mgmtUp = true) (h : s.stillKept s.guard.unsent ≠ []) :
    exec .recordSend s = .next ({ s with guard := { s.guard with
      unsent := (s.stillKept s.guard.unsent).drop 20, unacked := s.guard.unacked ++ (s.stillKept s.guard.unsent).take 20,
      repeatAt := if s.guard.unacked = [] then s.clock else s.guard.repeatAt } }.emit (.records ((s.stillKept s.guard.unsent).take 20))) :=
  (if_neg (by simp [hup])).trans (if_neg h)

theorem exec_recordRepeat_of_due {s : State} (hup : s.mgmtUp = true) (h : s.guard.unacked ≠ []) (hdue : s.guard.repeatAt + 100000000 ≤ s.clock) :
    exec .recordRepeat s = .next
      ((batches (s.stillKept s.guard.unacked).length (s.stillKept s.guard.unacked)).foldl (fun s b => s.emit (.records b))
        { s with guard := { s.guard with unacked := s.stillKept s.guard.unacked, repeatAt := s.clock } }) :=
  if_neg (by simp [hup, h, Nat.not_lt.2 hdue])

theorem exec_summaryRecord_of_due {s : State} (hp : s.guard.powered = true) (hdue : s.guard.summaryAt + 10000000000 ≤ s.clock) :
    exec .summaryRecord s = .next ((List.finRange 12).foldl State.sumPort
      ((s.mem.chans.map (·.1)).foldl State.sumChan { s with guard.summaryAt := s.clock })) :=
  if_neg (by simp [hp, Nat.not_lt.2 hdue])

/-- Settles O48: a lemma of the event for each clause, and what the repeated messages leave read off field by field. -/
theorem recordsReachTheCollector : Obligations.RecordsReachTheCollector := by
  unfold Obligations.RecordsReachTheCollector
  refine ⟨fun s => exec_recordSend_of_some, fun s hup hne hdue => ?repeated, fun s q hup => if_pos hup, fun s => exec_summaryRecord_of_due⟩
  case repeated =>
    intro l
    refine ⟨_, exec_recordRepeat_of_due hup hne hdue, ?_⟩
    rw [State.foldl_emit]
    exact ⟨rfl, rfl, rfl⟩

end Sys2Proof.Machine
end

/-! # SPDM

What the messages of SPDM are answered with and how they move the connection of their path, and what the messages of a secured session do
(16_guard R489 R490 R491; log entries 91 and 133). -/

section
namespace Sys2Proof.Machine

/-! ## Messages of a connection -/

section
variable {s : State} {src : Src}

/-- The Guard serves SPDM on the path of this source, which is not the mailbox. -/
structure State.ServesSpdm (s : State) (src : Src) : Prop where
  powered : s.guard.powered = true
  served : s.spdmServed = true
  path : src ≠ .mailbox

theorem State.spdmRow_of_serves (h : s.ServesSpdm src) (q : SpdmReq) :
    s.spdmRow src q = .next ((s.setConn (s.spdmAnswer (s.conn src) q).2).spdmSend src (s.spdmAnswer (s.conn src) q).1) :=
  (if_neg (by simp [h.powered, h.path])).trans (if_neg (by simp [h.served]))

/-- A message whose answer is known is sent that answer, and moves the connection so. -/
theorem State.spdmRow_of_answer (h : s.ServesSpdm src) {q : SpdmReq} {b : Option Bytes} {x : Spdm} (ha : s.spdmAnswer (s.conn src) q = (b, x)) :
    s.spdmRow src q = .next ((s.setConn x).spdmSend src b) := by
  rw [State.spdmRow_of_serves h, ha]

/-- The measurements that are sent: their number, all nine, or one (R489). -/
theorem State.measFor_of_known {index : Nat} (h : index ≤ 9 ∨ index = 0xFF) : s.measFor index =
    some (if index = 0 then [9] else if index = 0xFF then (List.range 9).flatMap fun i => s.measBlock (i + 1) else s.measBlock index) := by
  unfold State.measFor
  split
  · rfl
  · split
    · rfl
    · exact if_neg (by omega)

/-! ## Chunks -/

theorem exec_chunkSend_first (h : s.ServesSpdm src) (handle : Nat) (c : Bytes) :
    exec (.chunkSend src handle 0 false c) s = .next ((s.setConn { s.conn src with chunkIn := some (handle, 1, c) }).emit (.spdm src (some []))) :=
  (if_neg (by simp [h.powered, h.path])).trans (if_neg (by simp [h.served]))

/-- The last chunk of a request that is more than one completes it, and the whole is answered as a message. -/
theorem exec_chunkSend_last (h : s.ServesSpdm src) {handle n : Nat} {c : Bytes} (hc : (s.conn src).chunkIn = some (handle, n, c)) (hn : n ≠ 0)
    (e : Bytes) : exec (.chunkSend src handle n true e) s = .next (match Config.spdmParse (c ++ e) with
      | some q => (s.setConn { s.conn src with chunkIn := none }).spdmMessage src q
      | none => (s.setConn { s.conn src with chunkIn := none }).emit (.spdm src none)) := by
  refine (if_neg (by simp [h.powered, h.path])).trans ((if_neg (by simp [h.served])).trans ?_)
  simp only [if_neg hn, hc, decide_true, Bool.and_self, if_true]
  cases Config.spdmParse (c ++ e) <;> rfl

theorem exec_chunkGet_of_next (h : s.ServesSpdm src) {handle n : Nat} {c : Bytes} (hc : (s.conn src).chunkOut = some (handle, n, c)) :
    exec (.chunkGet src handle n) s = .next ((s.setConn { s.conn src with
      chunkOut := if c.drop (Config.spdmChunk + 1) = [] then none else some (handle, n + 1, c.drop (Config.spdmChunk + 1)) }).emit
        (.spdm src (some (c.take (Config.spdmChunk + 1))))) := by
  refine (if_neg (by simp [h.powered, h.path])).trans ((if_neg (by simp [h.served])).trans ?_)
  simp only [hc]
  exact if_pos (by simp)

end

/-! ## Sessions -/

section
variable {s : State} {n : Nat} {x : Sess}

theorem State.inSession_of_established (hp : s.guard.powered = true) (hx : s.guard.sess n = some x) (he : x.established = true)
    (f : State → State) : s.inSession n f = .next ((f (s.heard n)).emit (.spdm (.mgmt n 0) (some []))) :=
  (if_neg (by simp [hp])).trans (if_pos (by rw [hx, Option.map_some, Option.getD_some, he]))

/-- A session whose handshake is verified is established; it has class OWNER where its chain leads to the owner's root key. -/
theorem exec_finish_of_verified {chain sig : Bytes} (hp : s.guard.powered = true) (hx : s.guard.sess n = some x) (hopen : x.established = false)
    (hverify : x.mutualAsked = false ∨ Config.chainVerify chain (Config.spdmTranscript n) sig = true) :
    exec (.finish n chain sig true) s = .next ({ s with guard.sessions := s.guard.sessions.map fun (z : Sess) =>
      if z.id = n then { x with established := true, owner := x.mutualAsked && s.ownerChain chain, last := s.clock } else z }.emit
        (.spdm (.mgmt n 0) (some []))) := by
  have hpass : ¬(!true || (x.mutualAsked && !Config.chainVerify chain (Config.spdmTranscript n) sig)) = true := by
    rcases hverify with h | h <;> simp [h]
  refine (if_neg (by simp [hp])).trans ?_
  simp only [hx]
  exact (if_neg (by simp [hopen])).trans (if_neg hpass)

theorem exec_sessionTimeout_of_due (hp : s.guard.powered = true) (hx : s.guard.sess n = some x) (hdue : x.last + 60000000000 ≤ s.clock) :
    exec (.sessionTimeout n) s = .next (s.endSession n) := by
  change execSessionTimeout n s = _
  simp only [execSessionTimeout, hx]
  exact if_pos (by simp [hp, hdue])

end

/-- Settles O49: each message of a path is answered by its own case, and each message of a session passes the checks of R491. -/
theorem spdmMessagesAct : Obligations.SpdmMessagesAct := by
  unfold Obligations.SpdmMessagesAct
  refine ⟨fun s src hp hserved hpath => ?path, ?exchange, ?finish, ?inSession, fun s n x => exec_sessionTimeout_of_due⟩
  case path =>
    intro x d
    have hs : s.ServesSpdm src := ⟨hp, hserved, hpath⟩
    refine ⟨State.spdmRow_of_answer hs rfl, ?capabilities, ?algorithms, ?negotiated, fun h c => exec_chunkSend_first hs h c, ?lastChunk,
      fun h n c => exec_chunkGet_of_next hs⟩
    case capabilities => exact fun v hv => State.spdmRow_of_answer hs (if_pos (by simpa using hv))
    case algorithms => exact fun a hcaps h1 h2 h3 h4 => State.spdmRow_of_answer hs (if_pos (by simp [x, hcaps, h1, h2, h3, h4]))
    case negotiated =>
      intro halgs
      refine ⟨State.spdmRow_of_answer hs ?_, fun off len => State.spdmRow_of_answer hs ?_, fun nonce => State.spdmRow_of_answer hs ?_, ?_⟩
      · exact congrArg (·, x) (if_pos halgs)
      · exact congrArg (·, x) (if_pos (by simp [x, halgs]))
      · exact congrArg (·, x) (if_pos (by simp [x, halgs]))
      · intro index sign nonce hindex m
        refine State.spdmRow_of_answer hs ?_
        simp only [State.spdmAnswer, State.measFor_of_known hindex]
        exact congrArg (·, x) (if_pos halgs)
    case lastChunk =>
      intro h n c e hc hn t
      exact exec_chunkSend_last hs hc hn e
  case exchange =>
    intro s src n x m hp hpath hserved hmgmt halgs hroom hnew b y
    exact (if_neg (by simp [hp, hpath])).trans (if_neg (by simp [hserved, hmgmt, halgs, hroom, hnew]))
  case finish =>
    intro s n x chain sig hp hx hopen hverify y
    exact exec_finish_of_verified hp hx hopen hverify
  case inSession =>
    intro s n x hp hx he t
    exact ⟨State.inSession_of_established hp hx he id, State.inSession_of_established hp hx he fun s => { s with guard := { s.guard with
      sessions := s.guard.sessions.map fun (x : Sess) => if x.id = n then { x with keyGen := x.keyGen + 1 } else x } },
      State.inSession_of_established hp hx he fun s => s.endSession n⟩

end Sys2Proof.Machine
end

/-! # The Binder's watchdog and the resets of the compute partition

What the Binder's report, its watchdog and a compute-partition reset that is due do (15_faults R455 R458 R462). -/

section
namespace Sys2Proof.Machine

/-- A counted reset with its cause: the device resets so, or is removed where the reset is one too many (R462 R463). -/
def State.countedReset (s : State) (cause : Option Nat) (f : State → State) : State :=
  if s.countReset.1 then s.countReset.2.removeFromService cause else f s.countReset.2

theorem State.countedReset_of_hit {s : State} (h : s.countReset.1 = true) (cause : Option Nat) (f : State → State) :
    s.countedReset cause f = s.countReset.2.removeFromService cause := if_pos h

theorem State.countedReset_of_miss {s : State} (h : s.countReset.1 = false) (cause : Option Nat) (f : State → State) :
    s.countedReset cause f = f s.countReset.2 := if_neg (Bool.eq_false_iff.1 h)

/-- A Binder that has shown no life for 100 ms, with no injected hang, is recorded and reset. -/
theorem exec_binderWatchdog_of_due {s : State} (hrun : s.binder.run ≠ .off) (hp : s.guard.powered = true) (hstall : s.guard.supply.stall = false)
    (hdue : s.binder.lastAlive + 100000000 ≤ s.clock) (hinj : (s.latents.find? fun l => l.type = 0x0D) = none) :
    exec .binderWatchdog s = .next ((s.nativeI false 3 0x0802 0 0 0).countedReset (some s.guard.logNext)
      fun t => t.binderReset (some s.guard.logNext) false) := by
  change execBinderWatchdog s = _
  have hon : ¬(decide (s.binder.run = .off) || !s.guard.powered || s.guard.supply.stall || decide (s.clock < s.binder.lastAlive + 100000000)) = true := by
    simp [hrun, hp, hstall, Nat.not_lt.2 hdue]
  refine (if_neg hon).trans ?_
  simp only [hinj, Option.map_none, Option.getD_none, Bool.false_eq_true, if_false, Option.isSome_none, State.countedReset, ok,
    apply_ite Host.Outcome.next]

/-- The partition may be reset: the device is in service, past its bring-up, with its rails and its link reference. -/
structure State.MayResetPartition (s : State) : Prop where
  powered : s.guard.powered = true
  inService : s.guard.devState ≠ .removed
  cutoff : s.guard.cutoff = false
  overvolt : s.guard.overvolt = false
  reference : s.guard.refLost = none
  booted : s.guard.devState ≠ .booting
  notResetting : s.guard.devState ≠ .resetting

/-- A reset of the partition that is due is done; it counts unless it was asked for as one that does not. -/
theorem exec_computePartitionReset_of_due {s : State} (h : s.MayResetPartition) {c : Option Nat} {free : Bool}
    (hreq : s.guard.resetReq = some (.partition c free)) (k : PartitionKat) :
    exec (.computePartitionReset k) s = .next (if free then ({ s with guard.resetReq := none } : State).partitionReset c k
      else ({ s with guard.resetReq := none } : State).countedReset c fun t => t.partitionReset c k) := by
  change execComputePartitionReset k s = _
  obtain ⟨hp, hserv, hcut, hover, href, hboot, hres⟩ := h
  have hon : ¬(!s.guard.powered || decide (s.guard.devState = .removed) || s.guard.cutoff || s.guard.overvolt || s.guard.refLost.isSome) = true := by
    simp [hp, hserv, hcut, hover, href]
  refine (if_neg hon).trans ((if_neg (not_decide_or hboot hres)).trans ?_)
  simp only [hreq, State.countedReset, ok, apply_ite Host.Outcome.next]

/-- Settles O33: the watchdog that is due, and the partition reset with its count. -/
theorem theBinderAndThePartitionAreReset : Obligations.TheBinderAndThePartitionAreReset := by
  unfold Obligations.TheBinderAndThePartitionAreReset
  refine ⟨⟨fun s hrun => if_pos hrun, fun s hrun hp hstall hdue hinj => exec_binderWatchdog_of_due hrun hp hstall hdue hinj⟩, ?partition⟩
  case partition =>
    intro s k c hp hserv hcut hover href hboot hres t
    have hmay : s.MayResetPartition := ⟨hp, hserv, hcut, hover, href, hboot, hres⟩
    refine ⟨fun hreq => ?_, fun hreq hmiss => ?_, fun hreq hhit => ?_⟩
    · rw [exec_computePartitionReset_of_due hmay hreq, if_pos rfl]
    · rw [exec_computePartitionReset_of_due hmay hreq, if_neg Bool.false_ne_true, State.countedReset_of_miss hmiss]
    · rw [exec_computePartitionReset_of_due hmay hreq, if_neg Bool.false_ne_true, State.countedReset_of_hit hhit]

end Sys2Proof.Machine
end

/-! # Bring-up, readiness and the rails

What power-up, a change of readiness, the bring-up deadline and a power loss do (17_physical R506 R512; log entry 1), and what the faults of the
rails and of the link reference do (17_physical R525 R528 R531; log entry 132). -/

section
namespace Sys2Proof.Machine

/-! ## Bring-up -/

theorem exec_powerUp_of_down {s : State} (h : s.guard.powered = false ∨ s.guard.bring.running = true) (b : BringUp) :
    exec (.powerUp b) s = .next (({ s with time.running := true, guard.powered := true } : State).bringUp b true) :=
  if_neg (by rcases h with h | h <;> simp [h])

/-- A device past its bring-up in which nothing fails any more becomes ready. -/
theorem State.reReady_of_clear {s : State} (hst : s.guard.devState = .notReady ∨ s.guard.devState = .booting) (hrun : s.guard.bring.running = false)
    (hfail : s.readyFail = none) (hcut : s.guard.cutoff = false) (hover : s.guard.overvolt = false) : s.reReady = s.becomeReady :=
  if_pos (by rcases hst with h | h <;> simp [h, hrun, hfail, hcut, hover])

theorem exec_bringUpDeadline_of_failing {s : State} (hp : s.guard.powered = true) (hst : s.guard.devState = .booting)
    (hrun : s.guard.bring.running = false) (hdue : s.guard.bring.b0 + 10500000000 ≤ s.clock) (hfail : s.readyFail.isSome = true) :
    exec .bringUpDeadline s = .next (s.setDev .notReady).endBringUp :=
  if_pos (by simp [hp, hst, hrun, hdue, hfail])

/-- Settles O50: a lemma of the event for each clause, and the state after a power loss read off field by field. -/
theorem bringUpAndPowerLoss : Obligations.BringUpAndPowerLoss := by
  unfold Obligations.BringUpAndPowerLoss
  refine ⟨⟨fun s b h => exec_powerUp_of_down h b, fun s hp hst hrun hfail hcut hover => ?readiness, fun s => exec_bringUpDeadline_of_failing⟩,
    fun s => ⟨_, rfl, ?loss⟩⟩
  case readiness => exact (if_pos hp).trans (congrArg Host.Outcome.next (State.reReady_of_clear hst hrun hfail hcut hover))
  case loss => exact ⟨rfl, rfl, rfl, rfl, rfl, rfl, rfl, rfl, rfl, rfl, rfl, rfl, rfl⟩

/-! ## Rails -/

theorem exec_supplyFault_of_inService {s : State} {rail : Nat} (hp : s.guard.powered = true) (hcut : s.guard.cutoff = false)
    (hover : s.guard.overvolt = false) (hserv : s.guard.devState ≠ .removed) (hrail : rail ≤ 7) :
    exec (.supplyFault rail) s =
      .next (({ s.native 5 0x0702 rail 0 0 with guard.supply.supplyFault := true } : State).settlePoint) :=
  if_neg (by simp [hp, hcut, hover, hserv, Nat.not_lt.2 hrail])

/-- After the cooldown a held full reset that was planned is done, and its records carry its TAG. -/
theorem exec_cutoffCooldown_of_planned {s : State} {r : GReq} (hr : s.guard.power.heldReset = some r) (hp : s.guard.powered = true)
    (hcut : s.guard.cutoff = true) (hcool : s.stillHot = false) (hplanned : bit (fld r.data 0 1) 0 = true) (b : BringUp) :
    exec (.cutoffCooldown b) s = .next ((s.fullReset true b).tagFrom s.guard.logNext r.tag) := by
  change execCutoffCooldown b s = _
  simp only [execCutoffCooldown, hr, hplanned, Bool.true_or, if_true]
  exact if_neg (by simp [hp, hcut, hcool])

/-! ## The link reference (R525) -/

theorem exec_referenceLoss_of_present {s : State} (hp : s.guard.powered = true) (hrun : s.guard.bring.running = false)
    (href : s.guard.refLost = none) (hcut : s.guard.cutoff = false) (hover : s.guard.overvolt = false) (ppm : Option Int) :
    ∃ t, exec (.referenceLoss ppm) s = .next t ∧ t.mem.selfRefresh = true ∧ t.guard.refLost = some s.guard.logNext ∧ t.guard.supply.stall = true :=
  ⟨_, if_neg (by simp [hp, hrun, href, hcut, hover]), rfl, rfl, rfl⟩

theorem exec_referenceRestored_of_absent {s : State} (hp : s.guard.powered = true) (h : s.guard.bring.refAbsent = true) (k : PartitionKat) :
    exec (.referenceRestored k) s = .next ({ s with guard.bring.refAbsent := false } : State).reReady :=
  (if_neg (by simp [hp])).trans (if_pos h)

/-- A device in service that has its lost reference again, and ends its stall, makes a counted reset of its partition. -/
theorem exec_referenceRestored_of_lost {s : State} {q : Nat} (hp : s.guard.powered = true) (h : s.guard.bring.refAbsent = false)
    (href : s.guard.refLost = some q) {t : State} (ht : ({ s with guard.refLost := none } : State).endStall = t) (hserv : t.guard.devState ≠ .removed)
    (hcut : t.guard.cutoff = false) (hover : t.guard.overvolt = false) (hboot : t.guard.devState ≠ .booting) (hres : t.guard.devState ≠ .resetting)
    (k : PartitionKat) : exec (.referenceRestored k) s = .next (t.countedReset (some q) fun u => u.partitionReset (some q) k) := by
  subst ht
  change execReferenceRestored k s = _
  refine (if_neg (by simp [hp])).trans ((if_neg (by simp [h])).trans ?_)
  simp only [href]
  refine (if_neg (by simp [hserv, hcut, hover])).trans ((if_neg (not_decide_or hboot hres)).trans ?_)
  simp only [State.countedReset, ok, apply_ite Host.Outcome.next]

/-- Settles O52: a lemma of the rail or of the reference for each clause. -/
theorem railsAndReferenceAct : Obligations.RailsAndReferenceAct := by
  unfold Obligations.RailsAndReferenceAct
  refine ⟨fun s rail hp hcut hover hserv => exec_supplyFault_of_inService hp hcut hover hserv, ?overvolt, ?cutoff, ?cooldown, ?loss,
    fun s k hp h => exec_referenceRestored_of_absent hp h k, ?restored⟩
  case overvolt => exact fun s hp hover => if_neg (by simp [hp, hover])
  case cutoff => exact fun s hp hcut => if_neg (by simp [hp, hcut])
  case cooldown =>
    intro s b r hr hp hcut hcool hone
    exact exec_cutoffCooldown_of_planned hr hp hcut hcool (by rw [hone]; rfl) b
  case loss => exact fun s ppm hp hrun href hcut hover => exec_referenceLoss_of_present hp hrun href hcut hover ppm
  case restored =>
    intro s k q hp habsent href t hserv hcut hover hboot hres hmiss
    rw [exec_referenceRestored_of_lost hp habsent href (t := t) rfl hserv hcut hover hboot hres, State.countedReset_of_miss hmiss]

end Sys2Proof.Machine
end

/-! # Checkpoints

What the events of a live checkpoint do, and what the checkpoint commands and the operations between devices do (14_checkpoint R425 R427 R428 R429
R435 R436 R437 R438 R439 R441 R442; log entries 23, 97, 98 and 166). -/

section
namespace Sys2Proof.Machine

/-! ## The live checkpoint -/

/-- The background copies sheets while no schedule runs, or within a window for it (R428). -/
theorem exec_fastCopy_of_copying {s : State} {k : Ckpt} (hk : s.liveCkpt = some k) (hst : k.st = .copying)
    (hmay : s.running = false ∨ s.bgWindow 2 = true) (n : Nat) :
    let r := copySheets n k s
    exec (.fastCopy n) s = .next (if r.1.imageLen ≤ r.1.frontier then (r.2.setLive r.1).copyDone r.1 else r.2.setLive r.1) := by
  intro r
  change execFastCopy n s = _
  have hgo : ¬(decide (k.st ≠ .copying) || (s.running && !s.bgWindow 2)) = true := by
    rcases hmay with h | h <;> simp [hst, h]
  simp only [execFastCopy, hk]
  refine (if_neg hgo).trans ?_
  simp only [ok, apply_ite Host.Outcome.next]
  rfl

theorem exec_heldWrite_of_held {s : State} {a t : Nat} {rest : List (Nat × Nat)} {k : Ckpt} (hh : s.held = (a, t) :: rest)
    (hk : s.liveCkpt = some k) : exec .heldWrite s = .next (({ s with held := rest } : State).setLive
      { k with heldPages := k.heldPages + 1, heldNs := k.heldNs + (s.clock - t) }) := by
  change execHeldWrite s = _
  simp only [execHeldWrite, hh, hk]
  rfl

theorem exec_ckpLimitExpiry_of_due {s : State} {id : Nat} {k : Ckpt} (hk : s.liveOf id = some k) (hst : k.st ≠ .begun)
    (hdue : k.cutAt + imgCkpLimit s.act * 1000000000 ≤ s.clock) : exec (.ckpLimitExpiry id) s = .next (s.ckFail k 3) := by
  change execCkpLimitExpiry id s = _
  simp only [execCkpLimitExpiry, hk]
  exact if_pos (by simp [hst, hdue])

/-! ### The drain (R435) -/

/-- The member that holds a piece of this device. -/
def State.holderOf (s : State) (i : Nat) : Nat := (imgGroupIndex s.act + i) % imgGroupSize s.act

/-- A piece that is not acknowledged may go to its holder: the schedule does not run, or the windows for it are open, and so is the route. -/
structure State.MayDrain (s : State) (k : Ckpt) (i : Nat) : Prop where
  draining : k.st = .draining
  other : 0 < i
  inGroup : i < imgGroupSize s.act
  open_ : k.acked.contains i = false
  window : s.running = false ∨ (s.bgWindow 3 = true ∧ s.peerWindow k (s.holderOf i) = true)
  route : s.routeOpen (imgCkpRes s.act (s.holderOf i)) = true

/-- The state in which a piece and its hash are sent to their holder. -/
def State.pieceSent (s : State) (k : Ckpt) (i : Nat) : State :=
  (s.sendPiece (imgCkpRes s.act (s.holderOf i)) i (s.ownPiece k i)).emit
    (.ckpPeer (s.holderOf i) (pieceBytes (imgGroupIndex s.act) i k.id (sha512t256 (s.ownPiece k i))))

/-- A piece that its holder has not accepted is sent again, up to three times. -/
def State.resend (s : State) (k : Ckpt) (i : Nat) : State :=
  if 3 ≤ AMap.get zeroN k.resends i then s.ckFail k 5
  else s.setLive { k with resends := AMap.set zeroN k.resends i (AMap.get zeroN k.resends i + 1) }

/-- What becomes of a piece by its holder's answer. -/
def State.pieceAnswered (s : State) (k : Ckpt) (i : Nat) : PieceAck → State
  | .interrupted => s
  | .matching => s.pieceAcked k i
  | _ => s.resend k i

theorem exec_drain_of_mayDrain {s : State} {k : Ckpt} {i : Nat} (hk : s.liveCkpt = some k) (h : s.MayDrain k i) (a : PieceAck) :
    exec (.drain i a) s = .next ((s.pieceSent k i).pieceAnswered k i a) := by
  change execDrain i a s = _
  obtain ⟨hst, hpos, hlt, hopen, hwin, hroute⟩ := h
  simp only [State.holderOf] at hwin hroute
  have hgo : ¬(decide (k.st ≠ .draining) || decide (i = 0) || decide (imgGroupSize s.act ≤ i) || k.acked.contains i ||
      (s.running && !(s.bgWindow 3 && s.peerWindow k ((imgGroupIndex s.act + i) % imgGroupSize s.act))) ||
      !s.routeOpen (imgCkpRes s.act ((imgGroupIndex s.act + i) % imgGroupSize s.act))) = true := by
    have hwindow : (s.running && !(s.bgWindow 3 && s.peerWindow k ((imgGroupIndex s.act + i) % imgGroupSize s.act))) = false := by
      rcases hwin with h | ⟨h3, hp⟩
      · rw [h, Bool.false_and]
      · rw [h3, hp]; exact Bool.and_false _
    simp only [hst, hopen, hwindow, hroute, Nat.pos_iff_ne_zero.1 hpos, Nat.not_le.2 hlt, ne_eq, not_true_eq_false, decide_false, Bool.or_false,
      Bool.not_true, Bool.false_eq_true, not_false_eq_true]
  simp only [execDrain, hk]
  refine (if_neg hgo).trans ?_
  cases a with
  | interrupted => rfl
  | matching => rfl
  | _ => exact (apply_ite Host.Outcome.next _ _ _).symm

/-- Settles O54: a lemma of the event for each clause, and the drained piece by its holder's answer. -/
theorem checkpointsCopyAndDrain : Obligations.CheckpointsCopyAndDrain := by
  unfold Obligations.CheckpointsCopyAndDrain
  refine ⟨fun s k n hk hst hmay => exec_fastCopy_of_copying hk hst hmay n, fun s a t rest k => exec_heldWrite_of_held, ?drain,
    fun s id k => exec_ckpLimitExpiry_of_due⟩
  case drain =>
    intro s k i hk hst hpos hlt hopen g res hwin hroute d t
    have hdrain := exec_drain_of_mayDrain hk ⟨hst, hpos, hlt, hopen, hwin, hroute⟩
    refine ⟨hdrain .interrupted, hdrain .matching, fun a hni hnm => ?_⟩
    have hresend : exec (.drain i a) s = .next (t.resend k i) := by
      rw [hdrain a]
      cases a with
      | interrupted => exact absurd rfl hni
      | matching => exact absurd rfl hnm
      | _ => rfl
    rw [hresend, State.resend]
    exact ⟨fun hlow => by rw [if_neg (Nat.not_le.2 hlow)], fun hhigh => by rw [if_pos hhigh]⟩

/-! ## The checkpoint commands -/

/-- An operation of CKP_PEER whose slot is ready serves what its meaning gives, outside self-refresh. -/
theorem Serves.of_ckpOp {s t : State} {c : Instr} {n : SlotId} {op : Nat} {e : Res} {f : Bytes → State} (he : exec c s = e)
    (hf : e = s.ckpOp n op f) (hm : s.mem.selfRefresh = false) (hr : s.runs n 0x0905 = true) (hop : fld s.slots[n].req 0 1 = op)
    (ht : f s.slots[n].req = t) : Serves s c n t :=
  Serves.of_runsMem he hf hm hr ((if_pos hop).trans ht)

/-- The device of the first present holder of a CKP_LOAD that is another device: it supplies the commit record (R441). -/
def askedHolder (b : Bytes) (m : Nat) : Option Nat :=
  (List.range m).findSome? fun g => if holderDev b g ≠ 0 && holderDev b g ≠ Config.devId.toNat then some (holderDev b g) else none

/-- The state that has asked that holder, if there is one. -/
def State.recordAsked (s : State) (b : Bytes) (m : Nat) : State :=
  match askedHolder b m with
  | some h => s.emit (.ckpFetch h 4 0 0)
  | none => s

section
variable {s : State} {n : SlotId} {q : Slot} (hq : s.slots[n] = q)
include hq

/-- CKP_BEGIN whose members have all joined answers its identifier, its slot and its cut (R427). -/
theorem serves_ckpBegin {replies : List MemberReply} {t : State} {k : Ckpt} (hr : s.runs n 0x0901 = true) (hflags : fld q.req 0 1 ≠ 3)
    (hcount : fld q.req 1 1 ≤ 16) (hlen : 8 + 16 * fld q.req 1 1 ≤ q.req.length)
    (hbegun : s.tryBegin q.ctxNo (fld q.req 0 1) (parseCarry q.req (fld q.req 1 1)) replies = (0, t))
    (hk : t.ckpts.head? = some k) :
    Serves s (.ckpBegin n replies) n ((t.setCtx (ctxId q.ctxNo) { t.ctxs[ctxId q.ctxNo] with
      carry := parseCarry q.req (fld q.req 1 1) }).complete n stOk 0 (le 8 k.id ++ le 1 k.slot ++ le 7 0 ++ le 8 k.cut)) := by
  refine .of_runs (e := execCkpBegin n replies s) rfl rfl hr ?_
  rw [hq]
  have hform : ¬(decide (fld q.req 0 1 = 3) || decide (16 < fld q.req 1 1) ||
      decide (q.req.length < 8 + 16 * fld q.req 1 1)) = true := by
    simp [hflags, Nat.not_lt.2 hcount, Nat.not_lt.2 hlen]
  refine (if_neg hform).trans ?_
  simp only [hbegun, hk]

/-- CKP_LOAD of this device's newest slot, where it holds no valid one, loads the record that a holder supplies (R441 R442). -/
theorem serves_ckpLoad {y : Sched} {rb : Bytes} {pieces : List PieceAnswer} (hr : s.runs n 0x0903 = true) (hm : s.mem.selfRefresh = false)
    (hsome : fld q.req 3 1 ≠ 0) (hmax : fld q.req 3 1 ≤ 16) (hlen : 16 + 16 * fld q.req 3 1 ≤ q.req.length)
    (hnewest : fld q.req 0 1 = 0xFF) (hy : s.collated = some y) (hctx : y.ctx = q.ctxNo)
    (hst : y.state = .loaded ∨ y.state = .admitted) (hlive : s.ckptLive = false) (hslot : s.loadSlot q.req = none)
    (hid : fld q.req 8 8 = 0 ∨ (OldRec.parse rb).id = fld q.req 8 8) (hn : (OldRec.parse rb).n = fld q.req 3 1)
    (hdevs : ((List.range (fld q.req 3 1)).any fun g =>
      holderDev q.req g ≠ 0 && holderDev q.req g ≠ (OldRec.parse rb).dev g) = false) :
    Serves s (.ckpLoad n (some rb) pieces) n (((s.recordAsked q.req (fld q.req 3 1)).askPieces q.req
      (OldRec.parse rb)).ckpLoad n q.req q.ctxNo y (OldRec.parse rb) none pieces) := by
  refine .of_runsMem (e := execCkpLoad n (some rb) pieces s) rfl rfl hm hr ?_
  rw [hq]
  have hform : ¬(decide (fld q.req 3 1 = 0) || decide (16 < fld q.req 3 1) ||
      decide (q.req.length < 16 + 16 * fld q.req 3 1) ||
      (decide (1 < fld q.req 0 1) && decide (fld q.req 0 1 ≠ 0xFF))) = true := by
    simp [hsome, Nat.not_lt.2 hmax, Nat.not_lt.2 hlen, hnewest]
  have hmay : ¬(decide (y.ctx ≠ q.ctxNo) || !(decide (y.state = .loaded) || decide (y.state = .admitted)) || s.ckptLive) = true := by
    rcases hst with h | h <;> simp [hctx, h, hlive]
  have hnamed : ¬(decide (fld q.req 8 8 ≠ 0) && decide ((OldRec.parse rb).id ≠ fld q.req 8 8)) = true := by
    rcases hid with h | h <;> simp [h]
  refine (if_neg hform).trans ?_
  simp only [hy]
  refine (if_neg hmay).trans ?_
  simp only [hslot]
  refine (if_neg hnamed).trans ((if_neg ?_).trans ?_)
  · rw [hdevs]; simp [hn]
  · unfold State.recordAsked askedHolder
    cases (List.range (fld q.req 3 1)).findSome? _ <;> rfl

/-- CKP_ABORT ends a live checkpoint that does not commit (R439). -/
theorem serves_ckpAbort {k : Ckpt} (hr : s.runs n 0x0904 = true) (hk : s.liveOf (fld q.req 0 8) = some k) (hst : k.st ≠ .committing) :
    Serves s (.ckpAbort n) n ((s.ckEnd k .aborted 1).complete n stOk 0 []) := by
  refine .of_runs (e := execCkpAbort n s) rfl rfl hr ?_
  rw [hq]
  simp only [hk]
  exact if_neg hst

/-! ## The operations between devices -/

/-- OP 1: a member that has a last step joins, where no live checkpoint stands against the begin (R425). -/
theorem serves_ckpPeerBegin {record : Option Bytes} {x : Sched} (hr : s.runs n 0x0905 = true) (hm : s.mem.selfRefresh = false)
    (hop : fld q.req 0 1 = 1) (hflags : fld q.req 2 1 ≤ 2)
    (hway : ∀ k, s.liveCkpt = some k → k.st = .begun ∧ k.id = fld q.req 8 8 ∧ fld q.req 1 1 ≤ k.init)
    (hx : s.collated = some x) (hlast : (s.lastStep x).isSome = true) :
    Serves s (.ckpPeerBegin n record) n (((s.joinBegin x q.req).adoptRecord (fld q.req 1 1) (fld q.req 8 8 - 1)
      record).complete n stOk 0 (le 8 Config.devId.toNat ++ le 8 s.highestId ++
        le 8 (s.imageLen x (fld q.req 2 1) s.ctxs[ctxId x.ctx].carry) ++ le 8 x.drainWindow.1 ++ le 8 x.drainWindow.2 ++ le 1 1)) := by
  refine .of_runsMem (e := execCkpPeerBegin n s record) rfl rfl hm hr ?_
  rw [hq]
  have hknown : ¬(decide (fld q.req 0 1 = 0) || decide (6 < fld q.req 0 1)) = true := by rw [hop]; decide
  have hnarrow : ¬decide (2 < fld q.req 2 1) = true := by simpa using hflags
  refine (if_neg hknown).trans ((if_neg (not_not.2 hop)).trans ((if_neg hnarrow).trans ?_))
  simp only [hx]
  refine if_neg ?_
  rw [← Option.not_isSome, hlast]
  cases hk : s.liveCkpt with
  | none => exact Bool.false_ne_true
  | some k =>
    obtain ⟨hst, hid, hinit⟩ := hway k hk
    simp [hst, hid, hinit]

/-- OP 2: the piece that stands in the slot is hashed (R435). -/
theorem serves_ckpPeerPieceDone {k : Ckpt} (hr : s.runs n 0x0905 = true) (hm : s.mem.selfRefresh = false) (hop : fld q.req 0 1 = 2)
    (hk : s.knownCkpt (fld q.req 8 8) = some k) (hd : fld q.req 1 1 < imgGroupSize s.act) :
    let a := s.pieceAt k.slot (fld q.req 1 1)
    let z := s.pieceSize (s.member k (fld q.req 1 1)).2
    Serves s (.ckpPeerPieceDone n) n (s.complete n stOk 0 (sha512t256 (s.memRead a z) ++ le 1 (bnat (s.rangePoisoned a z)))) := by
  intro a z
  refine .of_ckpOp (e := execCkpPeerPieceDone n s) rfl rfl hm hr (hq ▸ hop) ?_
  rw [hq]
  simp only [hk]
  exact if_neg (Nat.not_le.2 hd)

/-- OP 3: a hash list of the group's size that is new for its member is kept, and the last one commits (R436). -/
theorem serves_ckpPeerHashList {k : Ckpt} (hr : s.runs n 0x0905 = true) (hm : s.mem.selfRefresh = false) (hop : fld q.req 0 1 = 3)
    (hlen : q.req.length = 16 + 32 * fld q.req 2 1) (hsize : fld q.req 2 1 = imgGroupSize s.act)
    (hk : s.liveOf (fld q.req 8 8) = some k) (hnew : (k.hashes.any fun h => h.1 = fld q.req 1 1) = false) :
    let k' := { k with hashes := k.hashes ++
      [(fld q.req 1 1, (List.range (fld q.req 2 1)).map fun j => sub q.req (16 + 32 * j) 32)] }
    Serves s (.ckpPeerHashList n) n (((s.setLive k').complete n stOk 0 (le 2 k'.hashes.length)).tryCommit) := by
  intro k'
  refine .of_ckpOp (e := execCkpPeerHashList n s) rfl rfl hm hr (hq ▸ hop) ?_
  rw [hq]
  refine (if_neg (not_decide_or (not_not.2 hlen) (not_not.2 hsize))).trans ?_
  simp only [hk]
  exact if_neg (Bool.eq_false_iff.1 hnew)

/-- OP 4: the commit record of a slot that the payload names, and that is valid, is pushed on an open route (R437). -/
theorem serves_ckpPeerRecord (hr : s.runs n 0x0905 = true) (hm : s.mem.selfRefresh = false) (hop : fld q.req 0 1 = 4)
    (hsel : fld q.req 1 1 = 1) (hslot : fld q.req 2 1 ≤ 1) (hvalid : s.slotValid (fld q.req 2 1) = true)
    (hroute : s.routeOpen (BitVec.ofNat 64 (fld q.req 16 8)) = true) :
    let k := fld q.req 2 1
    let len := s.memNat (s.slotBase k + 0x10) 8
    Serves s (.ckpPeerRecord n) n ((s.emit (.push (BitVec.ofNat 64 (fld q.req 16 8)) (fld q.req 24 8)
      (s.memRead (s.slotBase k + 0x400) len))).complete n stOk 0 (le 8 len)) := by
  intro k len
  refine .of_ckpOp (e := execCkpPeerRecord n s) rfl rfl hm hr (hq ▸ hop) ?_
  rw [hq]
  simp only [if_pos hsel]
  refine (if_neg (by rw [hsel]; decide)).trans ((if_neg ?_).trans (if_neg (by simp [hroute])))
  simp [Nat.not_lt.2 hslot, hvalid]

/-- OP 5: bytes of a stored piece whose hash is the expected one are pushed in parts on an open route (R437 R442). -/
theorem serves_ckpPeerFetch {failed : W64} {k : Nat} (hr : s.runs n 0x0905 = true) (hm : s.mem.selfRefresh = false)
    (hop : fld q.req 0 1 = 5)
    (hk : (List.range 2).find? (fun k => s.slotValid k && s.slotId k = fld q.req 8 8) = some k) (hd : fld q.req 1 1 ≤ 15)
    {z a : Nat} (hz : s.memNat (s.slotBase k + 0x540 + 8 * fld q.req 1 1) 8 = z) (ha : s.pieceAt k (fld q.req 1 1) = a)
    (hclean : s.rangePoisoned a z = false) (hin : fld q.req 16 8 + fld q.req 24 8 ≤ z)
    (hhash : sha512t256 (s.memRead a z) = sub q.req 32 32) (hsome : fld q.req 24 8 ≠ 0)
    (hroute : s.routeOpen (BitVec.ofNat 64 (fld q.req 64 8)) = true) :
    let parts := hostParts (fld q.req 24 8)
    let good := parts.filter fun p => !bit failed.toNat p.1
    let t := parts.foldl (fun t p => t.emit (.push (BitVec.ofNat 64 (fld q.req 64 8)) (fld q.req 72 8 + p.2.1)
      (t.memRead (a + fld q.req 16 8 + p.2.1) p.2.2))) s
    Serves s (.ckpPeerFetch n failed) n (t.complete n (Machine.copyStatus good.length parts.length false) 0
      (le 8 (good.foldl (fun m p => m + 2 ^ p.1) 0))) := by
  intro parts good t
  refine .of_ckpOp (e := execCkpPeerFetch n failed s) rfl rfl hm hr (hq ▸ hop) ?_
  rw [hq]
  simp only [hk, hz, ha]
  have hgood : ¬(decide (15 < fld q.req 1 1) || s.rangePoisoned a z ||
      decide (z < fld q.req 16 8 + fld q.req 24 8) || decide (sha512t256 (s.memRead a z) ≠ sub q.req 32 32)) = true := by
    simp [Nat.not_lt.2 hd, hclean, Nat.not_lt.2 hin, hhash]
  refine (if_neg hgood).trans ((if_neg hsome).trans ?_)
  simp only [hroute, if_true, Bool.true_and]
  rfl

/-- OP 6: the live checkpoint that the payload names fails with CAUSE 4 (R438). -/
theorem serves_ckpPeerAbort {k : Ckpt} (hr : s.runs n 0x0905 = true) (hm : s.mem.selfRefresh = false) (hop : fld q.req 0 1 = 6)
    (hk : s.liveOf (fld q.req 8 8) = some k) : Serves s (.ckpPeerAbort n) n ((s.ckFail k 4).complete n stOk 0 []) := by
  refine .of_ckpOp (e := execCkpPeerAbort n s) rfl rfl hm hr (hq ▸ hop) ?_
  rw [hq]
  simp only [hk]

end

/-- Settles O23: a lemma of the command or of the operation for each clause. -/
theorem checkpointCommandsAct : Obligations.CheckpointCommandsAct := by
  unfold Obligations.CheckpointCommandsAct
  refine ⟨fun s n => ⟨?begin_, ?load, fun k => serves_ckpAbort rfl⟩, fun s n hr hm => ⟨?join, ?pieceDone, ?hashList, ?record, ?fetch, ?giveUp⟩⟩
  case begin_ => exact fun replies t k hr hflags hcount hlen hbegun hk => serves_ckpBegin rfl hr hflags hcount hlen hbegun hk
  case load =>
    intro pieces y rb hr hm hsome hmax hlen hnewest hy hctx hst hlive hslot hid hn hdevs r asked t
    exact serves_ckpLoad rfl hr hm hsome hmax hlen hnewest hy hctx hst hlive hslot hid hn hdevs
  case join => exact fun record x hop hflags hway hx hlast => serves_ckpPeerBegin rfl hr hm hop hflags hway hx hlast
  case pieceDone => exact fun k hop hk hd => serves_ckpPeerPieceDone rfl hr hm hop hk hd
  case hashList => exact fun k hop hlen hsize hk hnew => serves_ckpPeerHashList rfl hr hm hop hlen hsize hk hnew
  case record => exact fun hop hsel hslot hvalid hroute => serves_ckpPeerRecord rfl hr hm hop hsel hslot hvalid hroute
  case fetch =>
    intro failed k hop hk hd z a hclean hin hhash hsome hroute
    exact serves_ckpPeerFetch rfl hr hm hop hk hd rfl rfl hclean hin hhash hsome hroute
  case giveUp => exact fun k hop hk => serves_ckpPeerAbort rfl hr hm hop hk

end Sys2Proof.Machine
end

/-! # Collation commands, replays and known-answer tests

What COL_REPLAY, COL_KAT, COL_ADMIT_DEVICE and COL_PEER_LOAD do, and how replays, logged items, diagnostic replays and known-answer tests run
(13_collation R397 R402 R412 R413 R415 R418, 15_faults R469; log entries 58, 93 and 167). -/

section
namespace Sys2Proof.Machine

/-! ## COL_REPLAY and COL_KAT -/

section
variable {s : State} {n : SlotId} {q : Slot} {x : Sched} (hq : s.slots[n] = q)

/-- No COL_REPLAY holds a slot for a schedule. -/
abbrev State.replayIdle (s : State) (id : Nat) : Prop := ∀ i k, s.slots[ctxId i].held ≠ .replay id k

/-- The step of a schedule that COL_REPLAY rejoins: its pending step while it is admitted, or the escalated one. -/
abbrev Sched.rejoins (x : Sched) (step : Nat) : Prop := (x.pendingStep = some step ∧ x.state = .admitted) ∨ (x.coll.state = .escalated ∧ x.step = step)

/-- The schedule that waits to rejoin its step in the next round (R402; log entry 93). -/
def Sched.rejoined (x : Sched) (now : Nat) : Sched :=
  { x with
    state := .held, replay := none
    coll := { x.coll with state := .waiting, flags := x.coll.flags ||| 0x200#16 }
    bar := if x.bar.upSent && !x.bar.failed then x.bar.next now else { x.bar with failed := false, roundStart := now } }

include hq

/-- COL_REPLAY without a trace holds its slot: it rejoins the step, or asks for a diagnostic replay of the step to launch (R402). -/
theorem serves_colReplay (hr : s.runs n 0x0802 = true) (hx : s.collated = some x) (htrace : bit (fld q.req 8 1) 0 = false)
    (hidle : s.replayIdle x.id)
    (hgo : x.rejoins (fld q.req 0 8) ∨ (x.active = true ∧ fld q.req 0 8 = x.launchStep)) :
    Serves s (.colReplay n) n ((s.setSched (if x.rejoins (fld q.req 0 8) then x.rejoined s.now
      else { x with diag := some (fld q.req 0 8, 0) })).hold n (.replay x.id 0)) := by
  refine .of_runs (e := execColReplay n s) rfl rfl hr ?_
  rw [hq]
  simp only [hx, htrace]
  generalize fld q.req 0 8 = step at hgo
  refine (if_neg ?free).trans ((if_neg Bool.false_ne_true).trans ?held)
  case free =>
    rw [Bool.or_eq_true, List.any_eq_true]
    rintro (⟨i, -, hi⟩ | hno)
    · split at hi
      · next k t hk => exact hidle i t (by rw [hk, of_decide_eq_true hi])
      · exact Bool.false_ne_true hi
    · rcases hgo with (⟨hpend, hst⟩ | ⟨hesc, hstep⟩) | ⟨hact, hstep⟩
      · simp [hpend, hst] at hno
      · simp [hesc, hstep] at hno
      · simp only [hact, hstep, decide_true, Bool.true_or, Bool.and_true, Bool.or_not_self, Bool.not_true, Bool.false_eq_true] at hno
  case held =>
    by_cases hre : x.rejoins step
    · rw [if_pos hre]
      exact if_pos (by simpa using hre)
    · rw [if_neg hre]
      exact if_neg (by simpa using hre)

/-- COL_KAT of active folios holds its slot for the tests of those (R418). -/
theorem serves_colKat {m : Nat} (hr : s.runs n 0x0803 = true)
    (hm : (s.activeFolios.filter fun l => bit (fld q.req 0 2) l).foldl (fun a l => a + 2 ^ l) 0 = m) (h0 : m ≠ 0) :
    Serves s (.colKat n) n (s.raiseSupply.hold n (.kat (BitVec.ofNat 12 m) 0)) := by
  subst hm
  refine .of_runs (e := execColKat n s) rfl rfl hr ?_
  rw [hq]
  exact if_neg h0

/-! ## Replacement devices -/

/-- A load whose answers agree completes with the step and the half of the loaded state (R413). -/
theorem serves_colAdmitDeviceLoad {answers : List LoadAnswer} {r : Nat × Bool} {t : State} (hr : s.runs n 0x0804 = true)
    (hm : s.mem.selfRefresh = false) (hmode : fld q.req 0 1 = 1) (hok : s.admitRefusal q.req answers = none)
    (hx : s.sched (fld q.req 4 2) = some x)
    (hload : (s.askLoads x answers (fld q.req 1 1) 1 (fld q.req 2 1) 2).loadState x 1 2 answers = (some r, t)) :
    Serves s (.colAdmitDeviceLoad n answers) n (t.complete n stOk 0 (admitResp r.1 r.2)) := by
  refine .of_runsMem (e := execColAdmitDeviceLoad n answers s) rfl rfl hm hr ?_
  rw [hq]
  refine (if_neg (by rw [hmode]; decide)).trans ((if_neg (not_not.2 hmode)).trans ?_)
  simp only [hok, hx, hload]

/-- A shadow whose load agrees asks for the feed and holds its slot until it starts (R415). -/
theorem serves_colAdmitDeviceShadow {answers : List LoadAnswer} {r : Nat × Bool} {t : State} (hr : s.runs n 0x0804 = true)
    (hm : s.mem.selfRefresh = false) (hmode : fld q.req 0 1 = 2) (hok : s.admitRefusal q.req answers = none)
    (hx : s.sched (fld q.req 4 2) = some x)
    (hload : (s.askLoads x answers (fld q.req 1 1) 2 (fld q.req 1 1) 1).loadState x 2 1 answers = (some r, t)) :
    Serves s (.colAdmitDeviceShadow n answers) n (({ t.emit (.peerLoad (fld q.req 1 1) 5 0 0 0) with
      shadow := { Shadow.reset with status := 1, sched := x.id, partner := fld q.req 1 1, resIn := BitVec.ofNat 64 (fld q.req 8 8) } } :
        State).hold n .shadow) := by
  refine .of_runsMem (e := execColAdmitDeviceShadow n answers s) rfl rfl hm hr ?_
  rw [hq]
  refine (if_neg (not_not.2 hmode)).trans ?_
  simp only [hok, hx, hload]

/-- A push of descriptor state that the mirror has sends it in parts on its reservation (R412). -/
theorem serves_colPeerLoad {failed : W64} {u : UpdateE} (hr : s.runs n 0x0805 = true) (hm : s.mem.selfRefresh = false)
    (hkind : fld q.req 0 1 = 1 ∨ fld q.req 0 1 = 2) (hx : s.collated = some x) (hsome : fld q.req 24 8 ≠ 0)
    (hu : x.mirrorOf (fld q.req 0 1 = 1) (fld q.req 2 2) = some u)
    (hin : fld q.req 16 8 + fld q.req 24 8 ≤ u.count) :
    Serves s (.colPeerLoad n failed) n (s.pushParts n (BitVec.ofNat 64 (fld q.req 8 8)) (fld q.req 0 1) (fld q.req 2 2)
      (fld q.req 16 8) (fld q.req 24 8) (((s.ledger.recs.find? fun r => r.masterA = u.masterA).map CollRec.step).getD 0)
      (s.lastHalf u) failed fun f k => s.stateSlice u (s.lastHalf u) f k) := by
  refine .of_runsMem (e := execColPeerLoad n failed s) rfl rfl hm hr ?_
  rw [hq]
  refine (if_neg (not_decide_or (by omega) (by omega))).trans ((if_neg (not_decide_or (by omega) (by omega))).trans ?_)
  simp only [hx]
  refine (if_neg hsome).trans ((if_pos (by omega)).trans ?_)
  simp only [hu]
  exact if_neg (Nat.not_lt.2 hin)

end

/-- Settles O22: a lemma of the command for each clause. -/
theorem collationCommandsAct : Obligations.CollationCommandsAct := by
  unfold Obligations.CollationCommandsAct
  refine ⟨fun s n => ⟨?rejoin, ?diagnose, ?kat⟩, fun s n => ⟨?load, ?shadow, ?push⟩⟩
  case rejoin =>
    intro x hr hx htrace hre hidle
    have h := serves_colReplay rfl hr hx htrace hidle (.inl hre)
    rwa [if_pos hre] at h
  case diagnose =>
    intro x hr hx htrace hrun hesc hact hstep hidle
    have hnot : ¬x.rejoins (fld s.slots[n].req 0 8) := by
      rintro (⟨-, hadm⟩ | ⟨h, -⟩)
      · rw [hrun] at hadm; cases hadm
      · exact hesc h
    have h := serves_colReplay rfl hr hx htrace hidle (.inr ⟨hact, hstep.symm⟩)
    rwa [if_neg hnot] at h
  case kat => exact fun hr => serves_colKat rfl hr rfl
  case load =>
    intro answers x r hr hm hmode hok hx t ht
    exact serves_colAdmitDeviceLoad rfl hr hm hmode hok hx (Prod.ext ht rfl)
  case shadow =>
    intro answers x r hr hm hmode hok hx t ht
    exact serves_colAdmitDeviceShadow rfl hr hm hmode hok hx (Prod.ext ht rfl)
  case push => exact fun failed x u hr hm hkind hx hsome hu hin => serves_colPeerLoad rfl hr hm hkind hx hsome hu hin

/-! ## Replays (13_collation R397 R402) -/

/-- What a replay starts from: a group replay has a fresh log and vote record. -/
def State.replayBase (s : State) (x : Sched) (r : Replay) : State :=
  if r.kind = .group then
    { s.restore x with ledger := { (s.restore x).ledger with logPos := 0, logIdx := 0, overflow := false, incomplete := false, votes := [] } }
  else s.restore x

/-- A replay may start: it is due, at a granule, and no kernel, takeover, repair or cancellation stands before it. -/
structure State.MayReplay (s : State) (x : Sched) (r : Replay) : Prop where
  fresh : r.started = false
  due : r.start ≤ s.now
  granule : s.now % 8 = 0
  kernels : x.coll.arbTodo = 0
  takeovers : x.coll.takes = []
  repaired : s.spoiltRanges x = []
  live : x.cancel ≠ some false

theorem exec_replayStart_of_mayReplay {s : State} {id : Nat} {x : Sched} {r : Replay} (hx : s.sched id = some x) (hrep : x.replay = some r)
    (h : s.MayReplay x r) : exec (.replayStart id) s = .next (((s.replayBase x r).setSched
      (x.replayPass { r with started := true, start := granule (s.replayBase x r).now })).clearIssue x) := by
  change execReplayStart id s = _
  simp only [execReplayStart, hx, hrep]
  obtain ⟨hfresh, hdue, hgran, hkern, htake, hrepaired, hlive⟩ := h
  exact if_neg (by simp [hfresh, Nat.not_lt.2 hdue, hgran, hkern, htake, hrepaired, hlive])

/-- The state in which the item of the log at an address has gone in: a token is added, data is written (R397). -/
def State.itemIn (s : State) (a ctx : Nat) : State :=
  let target := s.memNat (a + 0x18) 8
  if s.memNat a 4 = 2 then s.addCtr (512 * bits target 9 4 + bits target 0 9) (target / 4294967296) ctx 0xFF 0
  else s.memWriteP target (s.memRead (a + 256) (s.memNat (a + 4) 4)) fun _ => bit (s.memNat (a + 0x28) 4) 0

theorem exec_logItemInject_of_ready {s : State} {id : Nat} {x y : Sched} {r : Replay} (hx : s.sched id = some x) (hrep : x.replay = some r)
    (hst : r.started = true) (hkind : r.kind ≠ .group) (hidx : r.logIdx < s.ledger.logIdx)
    (hready : ((List.finRange 44).all fun e =>
      decide (s.memNat (s.logBase + r.logPos + 0x40 + 4 * e.val) 4 ≤ s.engines[e].issue)) = true)
    (hy : (s.itemIn (s.logBase + r.logPos) x.ctx).sched id = some y) :
    exec (.logItemInject id) s = .next ((s.itemIn (s.logBase + r.logPos) x.ctx).setSched { y with replay := some { r with
      logPos := r.logPos + 256 + ceilDiv (s.memNat (s.logBase + r.logPos + 4) 4) 64 * 64, logIdx := r.logIdx + 1 } }) := by
  change execLogItemInject id s = _
  simp only [State.itemIn] at hy
  simp only [execLogItemInject, hx, hrep, hready]
  refine (if_neg (by simp [hst, hkind, Nat.not_le.2 hidx])).trans ?_
  simp only [hy]
  rfl

/-! ## Diagnostic replays (R402; log entry 58) -/

/-- A diagnostic replay of the step that has collated starts at a granule, and what it will write is saved. -/
theorem exec_diagnosticReplay_of_collated {s t : State} {id : Nat} {x : Sched} {d : Nat × Nat} (ht : s.settle id = t) (hx : t.sched id = some x)
    (hd : x.diag = some d) (hrep : x.replay = none) (hcoll : x.coll.state = .collated) (hstep : x.step = d.1) (hact : x.active = true)
    (hgran : t.now % 8 = 0) :
    exec (.diagnosticReplay id) s = .next (((t.restore x).setSched
      (x.replayPass (t.saveFor x { Replay.at .diagnostic t.now d.1 with started := true }))).clearIssue x) := by
  subst ht
  obtain ⟨step, k⟩ := d
  change execDiagnosticReplay id s = _
  simp only [execDiagnosticReplay, hx, hd, hrep]
  exact if_pos (by simp [hcoll, hstep, hact, hgran])

/-- The state in which what a diagnostic replay has written is put back. -/
def State.putBack (s : State) (r : Replay) : State :=
  r.saved.foldl (fun s w => if w.2 = [] then s else s.memWrite w.1 w.2) { s with counters := r.savedCtrs, ledger.held := false }

/-- The digests that a replayed step has given are those that the step has collated. -/
structure Sched.DigestsAgree (x : Sched) : Prop where
  rectoSound : (x.deviceDigest false).poison = false
  versoSound : (x.deviceDigest true).poison = false
  recto : (x.deviceDigest false).val = x.coll.recto.val
  verso : (x.deviceDigest true).val = x.coll.verso.val

/-- A diagnostic replay whose digests agree ends with result 0, and the schedule goes on. -/
theorem exec_diagnosticReplay_of_agreed {s t : State} {id : Nat} {x : Sched} {d : Nat × Nat} {r : Replay} (ht : s.settle id = t)
    (hx : t.sched id = some x) (hd : x.diag = some d) (hrep : x.replay = some r) (hkind : r.kind = .diagnostic) (hdone : x.learned x.step = true)
    (hran : (x.runs.any fun p => p.step = x.step && !p.gen && p.stopped) = false) (h : x.DigestsAgree) :
    exec (.diagnosticReplay id) s = .next ((((t.putBack r).setSched { x with replay := none, diag := none }).cutCheck).finishReplayCmd id 0) := by
  subst ht
  obtain ⟨hrs, hvs, hr, hv⟩ := h
  change execDiagnosticReplay id s = _
  simp only [execDiagnosticReplay, hx, hd, hrep]
  refine (if_neg (by simp [hkind, hdone])).trans ?_
  simp only [hran, hrs, hvs, hr, hv, Bool.or_self, Bool.false_eq_true, decide_true, Bool.and_self, if_false, if_true]
  rfl

/-! ## Known-answer tests (15_faults R469) -/

/-- What a known-answer test on a folio leaves, by what has asked for it: a command, a replay and the step, or, of a spare, the takeover. -/
def State.katSettled (s : State) (p : Phys) (pass : Bool) : Option Nat → State
  | none => s.takeover p pass
  | some l => if s.katAsked l then s.katForCommand l pass else (s.katForReplay l pass).katForStep l pass

theorem exec_knownAnswerRun_of_wanted {s : State} {p : Phys} {failed : BitVec 5} {quireFailed : BitVec 2} (hw : s.katWanted p = true)
    (hlive : s.enginesLive = true) :
    let k := s.raiseSupply.katRun p (failed.toNat + if s.katQuire p then 32 * quireFailed.toNat else 0)
    exec (.knownAnswerRun p failed quireFailed) s = .next (k.2.katSettled p k.1 (s.logOf p)) := by
  intro k
  change execKnownAnswerRun p failed quireFailed s = _
  refine (if_neg (by simp [hw, hlive])).trans ?_
  cases s.logOf p with
  | none => rfl
  | some l => exact (apply_ite Host.Outcome.next _ _ _).symm

/-- Settles O36: a lemma of the event for each clause, and the test's result by what has asked for it. -/
theorem replaysAndTestsRun : Obligations.ReplaysAndTestsRun := by
  unfold Obligations.ReplaysAndTestsRun
  refine ⟨⟨?start, ?item⟩, ?diagnose, ?agree, ?test⟩
  case start =>
    intro s id x r hx hrep hfresh hdue hgran hkern htake hrepaired hlive t
    exact exec_replayStart_of_mayReplay hx hrep ⟨hfresh, hdue, hgran, hkern, htake, hrepaired, hlive⟩
  case item =>
    intro s id x y r hx hrep hst hkind hidx a hready target u hy
    exact exec_logItemInject_of_ready hx hrep hst hkind hidx hready hy
  case diagnose =>
    intro s id x step k hx hd hrep hcoll hstep hact hgran t r
    exact exec_diagnosticReplay_of_collated (t := s.settle id) (d := (step, k)) rfl hx hd hrep hcoll hstep hact hgran
  case agree =>
    intro s id x d r hx hd hrep hkind hdone hran hrs hvs hr hv t u
    exact exec_diagnosticReplay_of_agreed rfl hx hd hrep hkind hdone hran ⟨hrs, hvs, hr, hv⟩
  case test =>
    intro s p failed quireFailed hw hlive k
    have hrun : exec (.knownAnswerRun p failed quireFailed) s = .next (k.2.katSettled p k.1 (s.logOf p)) := exec_knownAnswerRun_of_wanted hw hlive
    refine ⟨fun l hl hasked => ?_, fun l hl hasked => ?_, fun hl => ?_⟩
    · rw [hrun, hl, State.katSettled, if_pos hasked]
    · rw [hrun, hl, State.katSettled, if_neg (Bool.eq_false_iff.1 hasked)]
    · rw [hrun, hl, State.katSettled]

end Sys2Proof.Machine
end
